-- ==== Sys2Proof/Word.lean ====
section
/-! DEFINITION. The word types and their plainest arithmetic. -/

namespace Sys2Proof

/-- One byte (R5, R6: addresses are byte addresses). -/
abbrev Byte := BitVec 8
/-- A 32-bit register or memory word. -/
abbrev W32 := BitVec 32
/-- A 64-bit scalar register (R274) or instruction word (R12). -/
abbrev W64 := BitVec 64

/-- A sparse table: keys strictly rising, no entry equal to the table's default (Machine/Ops.lean keeps the form).
Every register file, memory and pool of State with a numbered index is one. -/
abbrev Sparse (α : Type) := List (Nat × α)

end Sys2Proof
end

