-- ==== Sys2Proof/Config.lean ====
section
/-! DEFINITION. What the spec leaves to an implementation: every constant here is opaque, so that no proof can see its value. -/

namespace Sys2Proof.Config

/-- A value the spec leaves open, by the number of the draw (State.freeCtr counts the draws). DESIGN CHOICE, log 4. -/
opaque freeValue : Nat → BitVec 64

/-- The device private key of Husk (R553, R561): a P-384 scalar that never leaves it. Log 5. -/
opaque devicePrivateKey : Nat

/-- The maker slot's key, derived inside Husk from the fused maker secret and DEVICE_ID (18, "Key slots"). Log 5. -/
opaque makerKey : BitVec 64 → BitVec 256

/-- Whether a firmware image's ECDSA P-384 signature verifies against the fused maker key (R564, R581): the spec gives no
layout of the image. Log 6. -/
opaque imageSigned : List Byte → Bool

/-- The security version SVN that a firmware image carries (R564): the spec gives no layout of the image. Log 6. -/
opaque imageSvn : List Byte → Nat

/-- The certificate chain of slot 0, ending in the device key's certificate (R565). Log 6. -/
opaque certificateChain : List Byte

/-- The device key's signature over a message (R565, R566): ECDSA draws a random nonce the spec does not fix. Log 6. -/
opaque deviceSign : List Byte → List Byte

/-- The MSI-X vector of a port's admin ring: the spec names vectors for partitions only (R482). Log 7. -/
opaque adminVector : Nat → Nat

/-- The boot ROM image that measurement 1 covers (R566). Log 6. -/
opaque bootRom : List Byte

/-- The bytes that Husk digests for measurement blocks 3 to 5 (R566), by block and the values measured: the spec gives no layout. Log 6. -/
opaque measureBytes : Nat → List Nat → List Byte

/-- A spill window that Winnow holds on another module, by its entry in the import table: the module, the exposure base and size in 64 KiB units, the key
and the epoch. The spec gives no command that fills the table (R464). Log 13. -/
opaque spillImport : Nat → BitVec 12 × BitVec 29 × BitVec 29 × BitVec 64 × BitVec 16

/-- Where a DMA store with COMP = 1 or 2 writes its masks or metadata, and which NM code (1 to 4) a packed store has: no field of the DMA
descriptor or of the tensor descriptor names them (R214, R341). Log 14. -/
opaque dmaMetaBase : BitVec 512 → BitVec 512 → BitVec 48
opaque dmaNm : BitVec 512 → BitVec 512 → BitVec 2

end Sys2Proof.Config
end

