-- ==== Sys2Proof/Syntax.lean ====
section
/-! DEFINITION. The commands of the module: one constructor of `Instr` for each row of spec/opcode_table.json, with its operands. -/

namespace Sys2Proof

/-- An entry of a request, command or admin ring: the 128 bytes of R477, byte 0 in bits [7:0] (R5), its CODE among them: a command is that of an
entry with its own CODE (R478). -/
abbrev Entry := BitVec 1024

/-- A Vopex packet (R444): the 32-byte header, byte 0 in bits [7:0], and the payload. -/
structure Packet where
  hdr : BitVec 256
  payload : List Byte
deriving DecidableEq, Repr

/-- How the fabric fails a transfer: a NACK by its STATUS, or no answer (R463, R618). -/
inductive FabFault where
  | key | closed | range | unmapped | gap | unreach | poison | timeout
deriving DecidableEq, Repr

/-- Memory errors that strike inside a step (R526, R527), and fabric transfers of Tier F units that fail inside it (R393, R463), each at a partition
virtual address; `seq` is one after another, as many as there are (R551). -/
inductive MemErr where
  | none
  | ce (va : Nat)
  | ue (va : Nat)
  | fab (va : Nat) (fault : FabFault)
  | seq (a b : MemErr)
deriving DecidableEq, Repr

/-- A reset of a port (R473, R585): through its PERST_Nn, which then is low, or through a Function Level Reset, a hot reset or the link's going down. -/
structure PortResetOp where
  port : Nat
  perst : Bool
deriving DecidableEq, Repr

/-- A lifecycle transition (R569): the entry, and the critical commands on other ports' admin rings that Husk meets while ZEROISING is 1 (R571). -/
structure LifecycleOp where
  entry : Entry
  meanwhile : List (Nat × Entry) := []
deriving DecidableEq, Repr

/-- A failure of the 54 V input (R588): whether it rose above its window and was disconnected, and the LIFECYCLE, by its port and entry, whose
zeroisation it cuts short (R572). -/
structure PowerCut where
  above : Bool
  amid : Option (Nat × Entry) := none
deriving DecidableEq, Repr

/-- An MCTP control message as it comes (R594): its bytes, and whether the PEC of its packet is right. -/
structure MctpRequest where
  bytes : List Byte
  pecOk : Bool := true
deriving DecidableEq, Repr

/-- A message whose next packet does not come (R594): the interface, and how many of its packets had come. -/
structure MctpCut where
  iface : Nat
  packets : Nat := 1
deriving DecidableEq, Repr

/-- What befalls a refill from a record inside its step (R463, R521, R523): a fabric failure of reading the record, and the cores that fail, each with its
cause, in order; the refill's spare fails under its coordinate. -/
structure RefillWork where
  fabric : Option FabFault := none
  fails : List (Nat × BitVec 3) := []
deriving DecidableEq, Repr

/-- A substitution (R520): the failed core's coordinate, and what befalls its refill. -/
structure SubstOp where
  core : Nat
  work : RefillWork := {}
deriving DecidableEq, Repr

/-- A guard pass (R239): its word, and the rows, by array, logical row and block row, whose latches fail their parity check while it runs (R88). -/
structure GuardOp where
  word : W64
  parity : List (Nat × Nat × Nat)
deriving DecidableEq, Repr

/-- A repeat of a tile (R127): the instruction in flight, and the rows, by array and logical row, whose latches fail their parity check at the swaps of
the repeat (R88). -/
structure RepeatOp where
  op : Nat
  parity : List (Nat × Nat)
deriving DecidableEq, Repr

/-- A queue of R287, or the exact unit, which has none. -/
inductive UnitId where
  | stream (k : Nat)
  | epi | tab | quant | guard | dma | sync | slot | sess | fab | vec | mem
deriving DecidableEq, Repr

/-- The guarded rings of R373. -/
inductive RingId where
  | streamed | output | seed | channel
deriving DecidableEq, Repr

/-- Whose handshake went unacknowledged (R309): an instruction's in flight, or a context's own. -/
inductive XiAgent where
  | op (id : Nat)
  | ctx (c : Nat)
deriving DecidableEq, Repr

/-- Who waits (R310, R329): a context, or a guarded ring of an instruction in flight. -/
inductive WaitAgent where
  | ctx (c : Nat)
  | ring (id : Nat) (r : RingId)
deriving DecidableEq, Repr

/-- A host ring (16, "Rings and entries"): a partition's request or command ring, or a port's admin ring. For CPL_HEAD and RING_CTL the
ring names the register block alone. -/
inductive RingName where
  | req (part : Nat)
  | cmd (part : Nat)
  | adm (port : Nat)
deriving DecidableEq, Repr

/-- A field of a host port's configuration space that R470 and R509 name: the mask bit and the pending bit of an MSI-X vector, the Completion Timeout
control, and the device state. -/
inductive ConfigField where
  | msixMask (vector : Nat)
  | msixPending (vector : Nat)
  | completionTimeout
  | powerState
deriving DecidableEq, Repr

/-- A register as an agent reaches it: a host port by its BAR0 offset (R472) or in its configuration space (R470), a management interface by block and
offset (R596), a context by its offset from CORE_BASE (R325). -/
inductive RegAgent where
  | port (n offset : Nat)
  | config (n : Nat) (field : ConfigField)
  | mgmt (iface block offset : Nat)
  | core (core ctx offset : Nat)
deriving DecidableEq, Repr

/-- The memory tiers (00, "Names"). -/
inductive Tier where
  | H | L | F
deriving DecidableEq, Repr

/-- What the sensors give at a health period boundary (R529, R591). `sensors` lists, in the numbering of `Machine/Health.lean`,
readings in tenths of °C, %RH, V or A, flow in tenths of a litre per minute, leak loops in ohms; `none` is a read without an
answer. -/
structure Readings where
  sensors : List (Option Int)
  powerMilliwatts : Nat
  vinMillivolts : Nat
deriving DecidableEq, Repr

/-- What a start-up stage finds, and each stage reads what is its own: the straps (MGMT_ADDR in [2:0], BOOT_SAFE in [3], CXL_EN in [7:4]) and
those that changed before sampling (R576); memory parts that fail training, by tier, die and number (R583); array rows and cores that fail the
self-test, by die * 256 + physical position, and a die-to-die link that fails (R584); the Vopex ports that trained (R577). -/
structure StageWork where
  straps : BitVec 8
  strapGlitch : BitVec 8
  badParts : List (Tier × Nat × Nat)
  badRows : List (Nat × Nat × Nat)
  badCores : List Nat
  linkFail : Bool
  portsUp : List Nat
deriving DecidableEq, Repr

/-- An IEEE 1149.1 instruction, by the class of R568 it belongs to. -/
inductive TestOp where
  | bypass | idcode | mandatory
  | readCoreReg (core offset : Nat)
  | writeCoreReg (core offset : Nat) (value : W32)
  | readScratch (core addr : Nat)
  | writeScratch (core addr : Nat) (value : Byte)
  | readMemory (part va : Nat)
  | writeMemory (part va : Nat) (value : Byte)
  | readFrame (tier : Tier) (frame offset : Nat)
  | writeFrame (tier : Tier) (frame offset : Nat) (value : Byte)
  | readSensors
  | writeSensor (sensor : Nat) (value : Int)
  | scanChain (core : Nat)
  | memoryRepair (tier : Tier) (die part : Nat)
  | fuseRead
deriving DecidableEq, Repr

/-- The filtered inputs of R575. -/
inductive GuardedInput where
  | en | sysReset | perst (n : Nat)
deriving DecidableEq, Repr

/-- The commands. A processor instruction carries the core (its mesh alias die * 128 + core, R516), the context that issues it and its
64-bit word (R12); the other operands are described in INVENTORY.md. -/
inductive Instr where
  /-- SCL_ADD (R321). Adds two scalar registers and the sign-extended immediate into a scalar register. -/
  | sclAdd (core ctx : Nat) (w : W64)
  /-- SCL_SUB (R322). Register form of SCL.OP FUNC 0: subtracts the second scalar from the first. -/
  | sclSub (core ctx : Nat) (w : W64)
  /-- SCL_AND (R322). Register form of SCL.OP FUNC 1: bitwise AND of two scalars. -/
  | sclAnd (core ctx : Nat) (w : W64)
  /-- SCL_OR (R322). Register form of SCL.OP FUNC 2: bitwise OR of two scalars. -/
  | sclOr (core ctx : Nat) (w : W64)
  /-- SCL_XOR (R322). Register form of SCL.OP FUNC 3: bitwise XOR of two scalars. -/
  | sclXor (core ctx : Nat) (w : W64)
  /-- SCL_SHL (R322). Register form of SCL.OP FUNC 4: shifts left by bits [5:0] of the second operand. -/
  | sclShl (core ctx : Nat) (w : W64)
  /-- SCL_SHR (R322). Register form of SCL.OP FUNC 5: logical shift right with zero fill. -/
  | sclShr (core ctx : Nat) (w : W64)
  /-- SCL_SRA (R322). Register form of SCL.OP FUNC 6: arithmetic shift right with sign fill. -/
  | sclSra (core ctx : Nat) (w : W64)
  /-- SCL_MIN (R322). Register form of SCL.OP FUNC 7: signed minimum. -/
  | sclMin (core ctx : Nat) (w : W64)
  /-- SCL_MAX (R322). Register form of SCL.OP FUNC 8: signed maximum. -/
  | sclMax (core ctx : Nat) (w : W64)
  /-- SCL_MINU (R322). Register form of SCL.OP FUNC 9: unsigned minimum. -/
  | sclMinu (core ctx : Nat) (w : W64)
  /-- SCL_MAXU (R322). Register form of SCL.OP FUNC 10: unsigned maximum. -/
  | sclMaxu (core ctx : Nat) (w : W64)
  /-- SCL_SUBI (R322). Immediate form of SCL.OPI FUNC 0: subtracts the sign-extended immediate. -/
  | sclSubi (core ctx : Nat) (w : W64)
  /-- SCL_ANDI (R322). Immediate form of SCL.OPI FUNC 1: AND with the immediate. -/
  | sclAndi (core ctx : Nat) (w : W64)
  /-- SCL_ORI (R322). Immediate form of SCL.OPI FUNC 2: OR with the immediate. -/
  | sclOri (core ctx : Nat) (w : W64)
  /-- SCL_XORI (R322). Immediate form of SCL.OPI FUNC 3: XOR with the immediate. -/
  | sclXori (core ctx : Nat) (w : W64)
  /-- SCL_SHLI (R322). Immediate form of SCL.OPI FUNC 4: shift left by the immediate. -/
  | sclShli (core ctx : Nat) (w : W64)
  /-- SCL_SHRI (R322). Immediate form of SCL.OPI FUNC 5: logical shift right by the immediate. -/
  | sclShri (core ctx : Nat) (w : W64)
  /-- SCL_SRAI (R322). Immediate form of SCL.OPI FUNC 6: arithmetic shift right by the immediate. -/
  | sclSrai (core ctx : Nat) (w : W64)
  /-- SCL_MINI (R322). Immediate form of SCL.OPI FUNC 7: signed minimum with the immediate. -/
  | sclMini (core ctx : Nat) (w : W64)
  /-- SCL_MAXI (R322). Immediate form of SCL.OPI FUNC 8: signed maximum with the immediate. -/
  | sclMaxi (core ctx : Nat) (w : W64)
  /-- SCL_MINUI (R322). Immediate form of SCL.OPI FUNC 9: unsigned minimum with the immediate. -/
  | sclMinui (core ctx : Nat) (w : W64)
  /-- SCL_MAXUI (R322). Immediate form of SCL.OPI FUNC 10: unsigned maximum with the immediate. -/
  | sclMaxui (core ctx : Nat) (w : W64)
  /-- SCL_MUL (R321). Writes the low 64 bits of the product of two scalars. -/
  | sclMul (core ctx : Nat) (w : W64)
  /-- SCL_CMP (R323). Writes a predicate that says whether two scalars meet the condition COND. -/
  | sclCmp (core ctx : Nat) (w : W64)
  /-- SCL_LIH (R321). Sets bits [63:32] of a scalar from the immediate, keeping the low half of the source. -/
  | sclLih (core ctx : Nat) (w : W64)
  /-- SCL_LD (R320). Loads 8 aligned bytes from a partition virtual address into a scalar register. -/
  | sclLd (core ctx : Nat) (w : W64)
  /-- SCL_LDW (R320). Loads 4 aligned bytes, zero-extended, into a scalar register. -/
  | sclLdw (core ctx : Nat) (w : W64)
  /-- SCL_ST (R320). Stores a scalar register as 8 aligned bytes. -/
  | sclSt (core ctx : Nat) (w : W64)
  /-- SCL_STW (R320). Stores the low 32 bits of a scalar register as 4 aligned bytes. -/
  | sclStw (core ctx : Nat) (w : W64)
  /-- SCL_BR (R324). Branches on a predicate, optionally negated, writing a link register when taken. -/
  | sclBr (core ctx : Nat) (w : W64)
  /-- SCL_JR (R324). Jumps to the address in a scalar register and writes the link register. -/
  | sclJr (core ctx : Nat) (w : W64)
  /-- SCL_TLD (R282). Loads 64 bytes from the scratchpad into a tile descriptor register without checking them. -/
  | sclTld (core ctx : Nat) (w : W64)
  /-- SCL_CSRR (R325). Reads a 32-bit core register into a scalar register, zero-extended. -/
  | sclCsrr (core ctx : Nat) (w : W64)
  /-- SCL_CSRW (R325). Writes the low 32 bits of a scalar into a core register under the access codes. -/
  | sclCsrw (core ctx : Nat) (w : W64)
  /-- SCL_FENCE (R289). Holds its context until every earlier instruction of the unit classes in its mask has completed. -/
  | sclFence (core ctx : Nat) (w : W64)
  /-- SCL_HALT (R303). Waits for every earlier instruction of its context to complete and then puts the context in state HALTED. -/
  | sclHalt (core ctx : Nat) (w : W64)
  /-- SCL_IFLUSH (R301). Invalidates every instruction cache line of the core after earlier stores have completed. -/
  | sclIflush (core ctx : Nat) (w : W64)
  /-- DMA_COPY (R342). Copies and converts a row range of a source tensor into a destination tensor, with optional compression, sums and multicast. -/
  | dmaCopy (core ctx : Nat) (w : W64) (mem : MemErr)
  /-- DMA_LIN (R346). Copies a run of bytes unaltered between two partition virtual addresses. -/
  | dmaLin (core ctx : Nat) (w : W64) (mem : MemErr)
  /-- DMA_LIST (R347). Starts one DMA.COPY for each entry of a pointer list, using one template descriptor. -/
  | dmaList (core ctx : Nat) (w : W64)
  /-- DMA_KVAPP (R349). Appends tokens to a session's key-value cache, setting run scales and adding subpages as needed. -/
  | dmaKvapp (core ctx : Nat) (w : W64)
  /-- ARR_STREAM (R77). Runs one array product in weight-streaming or activation-streaming mode across the sheaf of one stream. -/
  | arrStream (core ctx : Nat) (w : W64) (parity : List (Nat × Nat × Nat))
  /-- ARR_CAM (R201). Matches compressed-row key and probe rows in the index CAM and adds their products into the scatter accumulator. -/
  | arrCam (core ctx : Nat) (w : W64)
  /-- EPI_LOAD (R330). Loads a 64-byte epilogue descriptor for one stream. -/
  | epiLoad (core ctx : Nat) (w : W64)
  /-- EPI_SZERO (R631). Sets a run of scatter accumulator entries to +0.0 once the scatter queues have drained. -/
  | epiSzero (core ctx : Nat) (w : W64)
  /-- EPI_SDRAIN (R212). Reads a run of scatter accumulator entries as words through the epilogue, optionally zeroing them. -/
  | epiSdrain (core ctx : Nat) (w : W64)
  /-- VEC_ADD (R332). VEC.OP2 FUNC 0: adds two vectors lane by lane with one rounding. -/
  | vecAdd (core ctx : Nat) (w : W64)
  /-- VEC_SUB (R332). VEC.OP2 FUNC 1: subtracts two vectors lane by lane. -/
  | vecSub (core ctx : Nat) (w : W64)
  /-- VEC_MUL (R332). VEC.OP2 FUNC 2: multiplies two vectors lane by lane. -/
  | vecMul (core ctx : Nat) (w : W64)
  /-- VEC_MIN (R332). VEC.OP2 FUNC 3: lane-wise minimum, NaN-propagating, with -0 below +0. -/
  | vecMin (core ctx : Nat) (w : W64)
  /-- VEC_MAX (R332). VEC.OP2 FUNC 4: lane-wise maximum, NaN-propagating, with -0 below +0. -/
  | vecMax (core ctx : Nat) (w : W64)
  /-- VEC_FMA (R332). Fused multiply-add into the destination vector with one rounding. -/
  | vecFma (core ctx : Nat) (w : W64)
  /-- VEC_CMP (R332). Compares two vectors lane by lane and writes 1.0 or +0.0. -/
  | vecCmp (core ctx : Nat) (w : W64)
  /-- VEC_EXP2 (R267). VEC.FN FUNC 0: base-2 exponential of each lane, correctly rounded. -/
  | vecExp2 (core ctx : Nat) (w : W64)
  /-- VEC_LOG2 (R267). VEC.FN FUNC 1: base-2 logarithm of each lane, correctly rounded. -/
  | vecLog2 (core ctx : Nat) (w : W64)
  /-- VEC_RCP (R267). VEC.FN FUNC 2: reciprocal of each lane, correctly rounded. -/
  | vecRcp (core ctx : Nat) (w : W64)
  /-- VEC_RSQRT (R267). VEC.FN FUNC 3: reciprocal square root of each lane, correctly rounded. -/
  | vecRsqrt (core ctx : Nat) (w : W64)
  /-- VEC_ACT (R269). Evaluates the ACT interpolated table at each lane. -/
  | vecAct (core ctx : Nat) (w : W64)
  /-- VEC_DACT (R270). Evaluates the DER table at a saved input and multiplies by the incoming gradient. -/
  | vecDact (core ctx : Nat) (w : W64)
  /-- VEC_RSUM (R268). VEC.RED FUNC 0: sums the 64 lanes in a fixed six-level tree into a scalar. -/
  | vecRsum (core ctx : Nat) (w : W64)
  /-- VEC_RMAX (R268). VEC.RED FUNC 1: takes the maximum of the 64 lanes in a fixed tree into a scalar. -/
  | vecRmax (core ctx : Nat) (w : W64)
  /-- VEC_LD (R335). Reads 64 BF16, FP16 or FP32 elements and extends them exactly to binary32. -/
  | vecLd (core ctx : Nat) (w : W64)
  /-- VEC_ST (R336). Writes 64 lanes as elements of a format, converting under the common conversion rules. -/
  | vecSt (core ctx : Nat) (w : W64)
  /-- VEC_BCAST (R334). Writes the low 32 bits of a scalar into every lane of a vector. -/
  | vecBcast (core ctx : Nat) (w : W64)
  /-- VEC_TLOAD (R271). Loads the ACT or DER table with its XMIN and INV_W. -/
  | vecTload (core ctx : Nat) (w : W64)
  /-- VEC_SADD (R339). Adds each lane into the scatter accumulator entry that a second vector names. -/
  | vecSadd (core ctx : Nat) (w : W64)
  /-- TAB_STREAM (R253). Forms weight-streaming products of BIN1, INT2 or INT3 weights against unaligned activations through partial-sum tables. -/
  | tabStream (core ctx : Nat) (w : W64)
  /-- TAB_LOG (R259). Forms weight-streaming products of LOG4 weights through logarithmic sums. -/
  | tabLog (core ctx : Nat) (w : W64)
  /-- QUANT_CFG (R154). Loads a tracker's configuration from a descriptor and empties its history and statistics. -/
  | quantCfg (core ctx : Nat) (w : W64)
  /-- QUANT_STEP (R158). Closes the current step of every tracker in a mask. -/
  | quantStep (core ctx : Nat) (w : W64)
  /-- QUANT_CLR (R169). Clears the error and clip statistics of every tracker in a mask. -/
  | quantClr (core ctx : Nat) (w : W64)
  /-- QUANT_CHECK (R167). Sets a predicate from a tracker's mean squared error and clip count against bounds. -/
  | quantCheck (core ctx : Nat) (w : W64)
  /-- QUANT_PROPOSE (R159). Writes one proposed scale entry per channel from a tracker's closed history. -/
  | quantPropose (core ctx : Nat) (w : W64)
  /-- GUARD_SEL (R237). Selects neurons from scores by threshold or top-K and writes a granule-widened selection bitmap. -/
  | guardSel (core ctx : Nat) (w : W64)
  /-- GUARD_RUN (R239). Streams the top g planes of unselected rows and writes a miss bitmap of rows that could reach their threshold. -/
  | guardRun (core ctx : Nat) (w : GuardOp)
  /-- SLOT_GET (R351). Waits until a slot position is filled and returns the entry address. -/
  | slotGet (core ctx : Nat) (w : W64)
  /-- SLOT_PUT (R351). Waits until the position N earlier is drained and returns the entry address. -/
  | slotPut (core ctx : Nat) (w : W64)
  /-- SLOT_FILL (R352). Adds 1 to a ring's fill object. -/
  | slotFill (core ctx : Nat) (w : W64)
  /-- SLOT_DRAIN (R352). Adds 1 to a ring's drain object. -/
  | slotDrain (core ctx : Nat) (w : W64)
  /-- SYNC_SIGNAL (R353). Adds an amount to a synchronisation object's counter. -/
  | syncSignal (core ctx : Nat) (w : W64)
  /-- SYNC_WAIT (R355). Waits until a synchronisation object's counter reaches an amount. -/
  | syncWait (core ctx : Nat) (w : W64)
  /-- SYNC_FADD (R353). Returns an object's counter and adds an amount to it indivisibly. -/
  | syncFadd (core ctx : Nat) (w : W64)
  /-- SYNC_CMP (R353). Returns an object's counter and replaces it when it equals an expected value. -/
  | syncCmp (core ctx : Nat) (w : W64)
  /-- SESS_ITEM (R356). Sets or clears the item context to which later instructions of the context bind. -/
  | sessItem (core ctx : Nat) (w : W64)
  /-- SESS_END (R357). Clears the item context or, with FINAL, ends the item and writes its completion record. -/
  | sessEnd (core ctx : Nat) (w : W64)
  /-- SESS_STEP (R304). Waits at the step boundary until every context of the partition has arrived. -/
  | sessStep (core ctx : Nat) (w : W64)
  /-- SESS_NEXT (R359). Takes the next request assigned to the issuing core's group. -/
  | sessNext (core ctx : Nat) (w : W64)
  /-- SESS_HINT (R396). Applies a PIN, UNPIN, HOT or COLD hint to every mapped placement unit of a range. -/
  | sessHint (core ctx : Nat) (w : W64)
  /-- FAB_GET (R360). Copies bytes from a remote module's window into local partition memory. -/
  | fabGet (core ctx : Nat) (w : W64)
  /-- FAB_PUT (R360). Copies bytes from local partition memory into a remote module's window. -/
  | fabPut (core ctx : Nat) (w : W64)
  /-- UNIT_START (R287). A unit starts the instruction at the head of its queue once its predecessor allows. -/
  | unitStart (core : Nat) (unit : UnitId)
  /-- ACC_REPEAT (R127). After an overflow the tile is streamed again from the overflowing word with one more halving. -/
  | accRepeat (core : Nat) (id : RepeatOp)
  /-- OUTPUT_WORD_WRITE (R97). A final output word passes the epilogue and is written into the output ring. -/
  | outputWordWrite (core id : Nat)
  /-- TILE_DONE (R140). After a tile's last word is written the tile's output object is signalled. -/
  | tileDone (core id : Nat)
  /-- GUARDED_RING_UNIT (R373). A feeder or epilogue tests and releases one unit of a guarded ring once its object allows. -/
  | guardedRingUnit (core id : Nat) (ring : RingId)
  /-- SCATTER_ADD_ISSUE (R209). A bank issues the head of its conflict queue once no earlier add to the same entry is in flight. -/
  | scatterAddIssue (core bank : Nat) (waited : Bool)
  /-- NARROW_PROMOTE (R366). A narrow scratchpad access that has waited 64 cycles at a bank is promoted. -/
  | narrowPromote (core : Nat)
  /-- INSTR_COMPLETE (R317). An instruction completes and adds 1 to its completion object when it named one. -/
  | instrComplete (core id : Nat)
  /-- WAIT_SATISFIED (R378). After a counter change the home releases every waiter whose condition now holds. -/
  | waitSatisfied (obj : Nat)
  /-- WATCHDOG_EXPIRY (R310). A class W wait whose condition never held in 2^WD_EXP cycles fails with FLT_SYNC_TIMEOUT. -/
  | watchdogExpiry (core : Nat) (who : WaitAgent)
  /-- XI_TIMEOUT (R309). A handshake unacknowledged within 65,536 cycles fails its instruction with FLT_XI_TIMEOUT. -/
  | xiTimeout (core : Nat) (who : XiAgent)
  /-- DMA_LIST_ENTRY (R384). The DMA engine starts the next entry of a DMA.LIST, reading the entry and its descriptors. -/
  | dmaListEntry (core id : Nat) (mem : MemErr)
  /-- STEP_BOUNDARY (R304). When every context has arrived the step number rises, pending securing or restore completes, and contexts are released. -/
  | stepBoundary (part : Nat) (fail : Option FabFault)
  /-- PROGRAM_END (R305). When every context is HALTED or in FAULT the program ends and is reported. -/
  | programEnd (part : Nat)
  /-- REQ (R494). A request entry is fetched, given a tracking entry, written to the request table and assigned to a core group. -/
  | req (part : Nat) (e : Entry)
  /-- CANCEL (R500). Cancels the unbound items of every fetched request with the named TAG. -/
  | cancel (part : Nat) (e : Entry)
  /-- START (R302). Starts the partition's program on every core, optionally restoring from a remote record first. -/
  | start (part : Nat) (e : Entry) (fabric : Option FabFault)
  /-- STOP (R492). Holds issue, lets issued instructions complete and ends the program. -/
  | stop (part : Nat) (e : Entry)
  /-- MEM_MAP (R489). Maps zero-filled 2 MiB pages over a range, within the memory quota. -/
  | memMap (part : Nat) (e : Entry)
  /-- MEM_UNMAP (R489). Frees every page of a range and releases its pins. -/
  | memUnmap (part : Nat) (e : Entry)
  /-- HCOPY (R490). Copies bytes between host memory and partition memory. -/
  | hcopy (part : Nat) (e : Entry) (host : Option Nat) (mem : MemErr)
  /-- STREAM_CFG (R501). Configures an inbound host stream's destination, object and gap timer. -/
  | streamCfg (part : Nat) (e : Entry)
  /-- CHUNK (R502). Writes, drops or discards one chunk of an inbound stream burst by its sequence number. -/
  | chunk (part : Nat) (e : Entry) (hostOk : Bool)
  /-- CXL_WIN (R504). Binds or unbinds the port's HDM decoder to a window. -/
  | cxlWin (part : Nat) (e : Entry)
  /-- KV_ARENA (R401). Sets the partition's key-value arena. -/
  | kvArena (part : Nat) (e : Entry)
  /-- SESS_OPEN (R404). Opens a session in the lowest free directory entry and zeroes its page list. -/
  | sessOpen (part : Nat) (e : Entry)
  /-- SESS_CLOSE (R407). Sets a session CLOSING and cancels its queued requests. -/
  | sessClose (part : Nat) (e : Entry)
  /-- SESS_TRIM (R408). Releases subpages wholly outside the kept token range and lowers HIGH. -/
  | sessTrim (part : Nat) (e : Entry)
  /-- SESS_QUERY (R409). Writes a snapshot of a session's directory entry into host memory. -/
  | sessQuery (part : Nat) (e : Entry) (hostOk : Bool)
  /-- SESSION_RELEASE (R417). When a session's ASSIGNED count reaches 0, waiting subpages are freed and a closing session becomes FREE. -/
  | sessionRelease (session : Nat)
  /-- WIN_GRANT (R453). Opens a window of a partition for fabric access. -/
  | winGrant (part : Nat) (e : Entry)
  /-- WIN_CLOSE (R459). Reaches a window's close point, raising its epoch and setting it CLOSING. -/
  | winClose (part : Nat) (e : Entry)
  /-- WIN_FREE (R455). Sets a CLOSED window of a partition FREE. -/
  | winFree (part : Nat) (e : Entry)
  /-- SPILL_WIN_GRANT (R453). Opens a spill window backed by Winnow storage, on the admin ring. -/
  | spillWinGrant (port : Nat) (e : Entry) (backed : Bool)
  /-- SPILL_WIN_CLOSE (R459). Closes a spill window, on the admin ring. -/
  | spillWinClose (port : Nat) (e : Entry) (localRoom : Bool)
  /-- SPILL_WIN_FREE (R455). Frees a closed spill window, on the admin ring. -/
  | spillWinFree (port : Nat) (e : Entry)
  /-- WINDOW_CLOSED (R460). A CLOSING window with no accepted burst left becomes CLOSED and WIN_CLOSE completes. -/
  | windowClosed (win : Nat)
  /-- WIN_IMPORT (R458). Writes an entry of the partition's remote window table. -/
  | winImport (part : Nat) (e : Entry)
  /-- WIN_FORGET (R458). Clears an entry of the partition's remote window table. -/
  | winForget (part : Nat) (e : Entry)
  /-- REPAIR (R523). Maps spares for failed cores and restores a WAIT_REPAIR partition. -/
  | repair (part : Nat) (e : Entry) (fabric : RefillWork)
  /-- PART_CREATE (R482). Creates a partition with its cores, objects, quotas and request table. -/
  | partCreate (port : Nat) (e : Entry)
  /-- PART_DESTROY (R488). Stops a partition, cancels its items, closes its windows and frees its resources. -/
  | partDestroy (port : Nat) (e : Entry)
  /-- PART_RESHAPE (R486). Replaces the whole grant of a READY partition. -/
  | partReshape (port : Nat) (e : Entry)
  /-- ROUTE_LOAD (R450). Fetches, checks and installs a new route table. -/
  | routeLoad (port : Nat) (e : Entry) (hostOk : Bool)
  /-- TAKEOVER (R467). A standby module opens restored windows and takes a failed module's ID. -/
  | takeover (port : Nat) (e : Entry)
  /-- KEY_LOAD (R563). Unwraps a key block and loads an empty customer key slot. -/
  | keyLoad (port : Nat) (e : Entry) (hostOk : Bool)
  /-- KEY_ROTATE (R563). Unwraps a key block and replaces an active customer key slot. -/
  | keyRotate (port : Nat) (e : Entry) (hostOk : Bool)
  /-- KEY_ERASE (R563). Destroys a customer key slot's key and empties it. -/
  | keyErase (port : Nat) (e : Entry)
  /-- FW_LOAD (R564). Verifies a firmware image and writes it into the inactive bank as pending. -/
  | fwLoad (port : Nat) (e : Entry) (hostOk flashOk : Bool)
  /-- DEBUG_SET (R567). Sets the debug level allowed in the present lifecycle state. -/
  | debugSet (port : Nat) (e : Entry)
  /-- LIFECYCLE (R569). Makes a lifecycle transition. -/
  | lifecycle (port : Nat) (e : LifecycleOp)
  /-- FUSE_PROG (R573). Burns and reads back a programmable fuse field. -/
  | fuseProg (port : Nat) (e : Entry) (stuck : BitVec 64)
  /-- AUTH_DELAY_END (R560). The 100 ms delay of a throttled slot ends and the delayed command is verified. -/
  | authDelayEnd (slot : Nat)
  /-- RING_TAIL_WRITE (R475). A host write of a ring's TAIL posts entries, or halts the ring when out of range. -/
  | ringTailWrite (port : Nat) (ring : RingName) (value : W32)
  /-- CPL_HEAD_WRITE (R507). A host write of CPL_HEAD frees completion ring room and resumes held records. -/
  | cplHeadWrite (port : Nat) (ring : RingName) (value : W32)
  /-- RING_CTL_WRITE (R474). A host write of RING_CTL enables rings, clears HALT bits and releases held records. -/
  | ringCtlWrite (port : Nat) (ring : RingName) (value : W32)
  /-- SEC_CFG_WRITE (R533). A write of SEC_CFG enables or disables securing and reserves or frees slot storage. -/
  | secCfgWrite (port part : Nat) (value : W32) (room : Bool)
  /-- HEALTH_LEVEL_WRITE (R532). A write of SECURE_AT or HALT_AT that would invert them is ignored. -/
  | healthLevelWrite (iface : Nat) (halt : Bool) (value : W32)
  /-- WATCHDOG_WRITE (R311). A write of WD_EXP outside 12 to 30 is ignored. -/
  | watchdogWrite (core ctx : Nat) (value : W32)
  /-- LEAN_REQ_WRITE (R548). A write of LEAN_REQ sets the requested offset and lowers any higher offset in force at once. -/
  | leanReqWrite (iface die group : Nat) (value : W32)
  /-- FREQ_SET (R308). The owning host sets the frequency of a group of 8 cores. -/
  | freqSet (port die group mhz : Nat)
  /-- REGISTER_WRITE (R7). A write to any other register field acts under its access code. -/
  | registerWrite (who : RegAgent) (value : W32)
  /-- RC_COUNTER_READ (R9). A read of an RC counter returns its value and clears it. -/
  | rcCounterRead (who : RegAgent)
  /-- COUNTER_LO_READ (R314). A read of CNT_CYCLE_LO or TIMEBASE_LO latches the high half. -/
  | counterLoRead (core ctx : Nat) (timebase : Bool) (dst : Nat)
  /-- KEY_LAST_LO_READ (R574). A read of KEY_SLOTn_LAST_LO latches the high half for that reader. -/
  | keyLastLoRead (who : RegAgent) (slot : Nat)
  /-- RNG_OUT_READ (R541). A read of a random stream OUT register waits for the digest of the current key and counter. -/
  | rngOutRead (core ctx stream word dst : Nat)
  /-- CXL_MEM_ACCESS (R504). A host access through the HDM decoder reaches the bound window or is poisoned or dropped. -/
  | cxlMemAccess (port : Nat) (write : Bool) (offset len : Nat) (data : List Byte)
  /-- IRQ_MOD_EXPIRY (R509). The moderation time since the first unsignalled record passes and VEC_CPL is raised. -/
  | irqModExpiry (part : Nat)
  /-- STREAM_GAP_EXPIRY (R503). An inbound host stream burst's gap timer runs out and the burst is discarded. -/
  | streamGapExpiry (part stream : Nat)
  /-- PORT_RESET (R473). PERST, Function Level Reset, hot reset or link down stops the port's partitions and cancels their items. -/
  | portReset (port : PortResetOp)
  /-- RD_REQ (R456). An owner receives a read request and checks it before answering. -/
  | rdReq (pkt : Packet) (mem : MemErr)
  /-- RD_RSP (R461). A requester receives a read response packet. -/
  | rdRsp (pkt : Packet)
  /-- WR (R457). An owner receives a write packet, staging it and committing the burst at its LAST packet. -/
  | wr (pkt : Packet)
  /-- WR_ACK (R463). A writer receives commitment of one write burst. -/
  | wrAck (pkt : Packet)
  /-- NACK (R456). A sender receives a refusal of a burst and fails its item. -/
  | nack (pkt : Packet)
  /-- PROBE (R445). A module receives a liveness query and answers. -/
  | probe (pkt : Packet)
  /-- PROBE_RSP (R465). A module receives the answer to its PROBE. -/
  | probeRsp (pkt : Packet)
  /-- PACKET_FORWARD (R451). A packet header arrives at a hop and is delivered, forwarded, parked or refused. -/
  | packetForward (port : Nat) (pkt : Packet) (busy : Bool)
  /-- PARK_RELEASE (R452). A parked packet leaves the park region when its output frees. -/
  | parkRelease (dir vc : Nat)
  /-- LINK_CRC_ERROR (R440). A packet with a wrong CRC is discarded and a replay is requested. -/
  | linkCrcError (port : Nat)
  /-- LINK_RETRAIN_END (R440). A link retrain ends, bringing the port up or, after 3 failures, down. -/
  | linkRetrainEnd (port : Nat) (ok : Bool)
  /-- FAB_BURST_SEND (R447). A transaction sends its next burst once fewer than 16 are outstanding. -/
  | fabBurstSend (tag : Nat)
  /-- FAB_GAP_EXPIRY (R461). A fabric burst's gap timer runs out at the owner or requester. -/
  | fabGapExpiry (owner : Bool) (src tag burst : Nat)
  /-- FAB_RSP_TIMEOUT (R463). No response for a burst arrives within FAB_RSP_TO and the item fails. -/
  | fabRspTimeout (tag burst : Nat)
  /-- SPILL_PROBE_TIMEOUT (R465). Three unanswered PROBEs mark a spill window's units LOST. -/
  | spillProbeTimeout (owner : Nat)
  /-- TAKEOVER_PROBE_TIMEOUT (R466). The takeover PROBE goes unanswered for 1 ms and the takeover proceeds. -/
  | takeoverProbeTimeout
  /-- WINNOW_EPOCH (R395). At each epoch boundary Winnow updates every unit's heat and plans moves. -/
  | winnowEpoch
  /-- UNIT_MOVE_DONE (R391). A move of a placement unit between tiers or dies completes. -/
  | unitMoveDone (part va : Nat) (tier : Tier) (die frame : Nat)
  /-- SPILL_RECALL_DONE (R394). The last unit of a spill window is recalled and the revoking command completes. -/
  | spillRecallDone (win : Nat)
  /-- PAGE_RETIRE (R528). Winnow moves all units out of a failing frame and retires it. -/
  | pageRetire (tier : Tier) (frame fresh : Nat)
  /-- CORE_FAIL (R514). The module declares a core failed, abandons its work, fails its items and retires it. -/
  | coreFail (core : Nat) (cause : BitVec 3)
  /-- SPLICE_APPLY (R511). The health logic splices a spare row over a faulty row between array instructions. -/
  | spliceApply (core array row : Nat)
  /-- SUBSTITUTION (R520). A spare fills a failed core's coordinate and the partition is restored from its latest record. -/
  | substitution (core : SubstOp)
  /-- REPAIR_WAIT_TIMEOUT (R522). No step boundary arrives within WAIT_MS after a core failure and the partition enters WAIT_REPAIR. -/
  | repairWaitTimeout (part : Nat)
  /-- HALT_WAIT_TIMEOUT (R531). No step boundary arrives within WAIT_MS after a halt and the partition stops unsecured. -/
  | haltWaitTimeout (part : Nat)
  /-- HEALTH_PERIOD (R529). At each health period boundary sensors are sampled, the score is formed and the power and thermal ceilings move. -/
  | healthPeriod (r : Readings)
  /-- LEAN_TIMING_ERROR (R549). A shadow latch detects a timing error on a lean island, causing a replay or a stall and offset raise. -/
  | leanTimingError (core stream : Nat) (sameWindow : Bool)
  /-- LEAN_CALM (R550). After 2^16 windows without replay the lean offset moves 10 mV toward the request. -/
  | leanCalm (core : Nat)
  /-- EN_CHANGE (R575). A filtered change of EN starts a cold start or a power-down. -/
  | enChange (level : Bool)
  /-- SYS_RESET (R585). A filtered SYS_RESET_N pulse makes a module reset. -/
  | sysReset
  /-- MODULE_RESET (R596). The MCTP vendor message makes a module reset. -/
  | moduleReset (iface : Nat)
  /-- STAGE_COMPLETE (R577). A start-up stage finishes its work and the next stage begins. -/
  | stageComplete (work : StageWork)
  /-- STAGE_TIMEOUT (R577). A start-up stage overruns its limit and the module enters STAGE 15. -/
  | stageTimeout
  /-- POWER_FAILURE (R588). The 54 V input leaves its window and the module ends items as FAILED and powers down. -/
  | powerFailure (above : PowerCut)
  /-- RAIL_FAULT (R588). A die, mesh, memory, Vopex or host-port rail leaves its window and all partitions halt. -/
  | railFault
  /-- AON_RAIL_FAULT (R588). An always-on rail leaves its window and the module is held off until EN is cycled. -/
  | aonRailFault
  /-- RAIL_DROOP (R589). A core island supply dips below its droop level and one droop event is counted. -/
  | railDroop (core : Nat)
  /-- REFCLK_LOSS (R590). The PLL reference stays missing or out of range for 1 ms and all partitions halt. -/
  | refclkLoss
  /-- HOST_REFCLK_LOSS (R590). A host-port reference missing for 10 µs takes that port's link down. -/
  | hostRefclkLoss (port : Nat)
  /-- THERMAL_TRIP (R593). A die reads 115 °C or above for 1 ms and the module trips. -/
  | thermalTrip (die sensor : Nat) (celsius : Int)
  /-- OVERCURRENT_FAST (R605). Input current above 88 A for 20 µs caps PWR_CAP at 1,400 MHz. -/
  | overcurrentFast (amps : Nat)
  /-- OVERCURRENT_TRIP (R605). Input current above 95 A for 1 ms acts as a power failure. -/
  | overcurrentTrip (amps : Nat)
  /-- SENSOR_READ_TIMEOUT (R591). A sensor read unanswered within 10 ms marks the sensor implausible. -/
  | sensorReadTimeout (sensor : Nat)
  /-- REG_READ (R596). MCTP vendor message returning a register of a block. -/
  | regRead (iface block offset : Nat)
  /-- REG_WRITE (R596). MCTP vendor message writing RW fields of the health or fabric block. -/
  | regWrite (iface block offset : Nat) (value : W32)
  /-- FABREC_WRITE (R596). MCTP vendor message writing the fabric configuration record. -/
  | fabrecWrite (iface : Nat) (record : BitVec 128)
  /-- FW_RECOVER (R596). MCTP vendor message writing a checked firmware image into bank A. -/
  | fwRecover (iface : Nat) (chunk : List Byte) (last flashOk : Bool)
  /-- MCTP_CONTROL (R594). An MCTP control message is answered. -/
  | mctpControl (iface : Nat) (request : MctpRequest)
  /-- MCTP_PACKET_TIMEOUT (R594). A multi-packet message whose next packet does not arrive in 100 ms is discarded. -/
  | mctpPacketTimeout (iface : MctpCut)
  /-- I2C_BUS_RESET (R594). A bus clock held low for 35 ms makes the module reset its side of the bus. -/
  | i2cBusReset (iface : Nat)
  /-- SET_EVENT_RECEIVER (R595). PLDM SetEventReceiver sets the receiver of platform event messages. -/
  | setEventReceiver (iface : Nat) (eid : Byte)
  /-- PLDM_SENSOR_READ (R595). A PLDM request returns a numeric sensor reading. -/
  | pldmSensorRead (iface sensor : Nat)
  /-- GET_VERSION (R565). SPDM request answered with versions 1.2 and 1.3. -/
  | getVersion (iface : Nat)
  /-- GET_CAPABILITIES (R565). SPDM request for the responder's capabilities. -/
  | getCapabilities (iface : Nat)
  /-- NEGOTIATE_ALGORITHMS (R565). SPDM algorithm negotiation, P-384 and SHA-384 only. -/
  | negotiateAlgorithms (iface : Nat) (p384 sha384 : Bool)
  /-- GET_DIGESTS (R565). SPDM request for certificate chain digests. -/
  | getDigests (iface : Nat)
  /-- GET_CERTIFICATE (R565). SPDM request for the slot 0 certificate chain. -/
  | getCertificate (iface slot offset len : Nat)
  /-- CHALLENGE (R565). SPDM challenge signed with the device key. -/
  | challenge (iface slot : Nat) (nonce : BitVec 256)
  /-- GET_MEASUREMENTS (R566). SPDM request for the measurement blocks, optionally signed. -/
  | getMeasurements (iface index : Nat) (sign : Bool) (nonce : BitVec 256)
  /-- TEST_PORT_ACCESS (R568). An IEEE 1149.1 instruction runs within the access that the state and debug level allow. -/
  | testPortAccess (op : TestOp)
  /-- UNLISTED_CODE_ENTRY (R478). A ring entry whose CODE is unlisted, or listed for another ring, ends in a command record FAILED with FLT_CMD_UNKNOWN. -/
  | unlistedCodeEntry (ring : RingName) (e : Entry)
  /-- RING_FETCH_FAIL (R476). A failed fetch of a ring entry halts the ring, leaves HEAD at the entry and raises the event vector. -/
  | ringFetchFail (ring : RingName)
  /-- ICACHE_LINE_FILL (R301). An instruction cache line arrives and releases the held context, or the fetch fails with FLT_IFETCH or FLT_MEM_UE and the context enters FAULT. -/
  | icacheLineFill (core ctx : Nat) (poisoned : Bool)
  /-- PERST_RELEASE (R578). PERST_Nn going high starts link training on the port, and the port answers configuration requests 100 ms later. -/
  | perstRelease (port : Nat)
  /-- PLL_REFCLK_MISSING (R590). The PLL reference goes missing or out of range and the module holds its PLLs at the last frequency. -/
  | pllRefclkMissing
  /-- PLL_REFCLK_RETURN (R590). The PLL reference returns within range before 1 ms and the hold ends without a halt. -/
  | pllRefclkReturn
  /-- DROOP_REARM (R589). The core island supply stays above its set voltage less 2% for 1 µs and the droop detector re-arms. -/
  | droopRearm (core : Nat)
  /-- INPUT_GLITCH (R575). A pulse on SYS_RESET_N or PERST_Nn shorter than 100 µs, or an EN change not held for 10 ms, is ignored and counted in CNT_GLITCH. -/
  | inputGlitch (input : GuardedInput)
  /-- TRST_N (R568). A filtered TRST_N pulse resets the IEEE 1149.1 test port. -/
  | trstN
  /-- PLATFORM_EVENT_MESSAGE (R595). A queued event is delivered to the event receiver as a PlatformEventMessage and leaves the queue, releasing ALERT_N when the queue empties. -/
  | platformEventMessage
  /-- UNSUPPORTED_REQUEST (R565). An SPDM request of any other code, including session and key exchange requests, is answered with ERROR UnsupportedRequest. -/
  | unsupportedRequest (iface : Nat) (code : Byte)
  /-- PLDM_BASE_REQUEST (R595). A PLDM type 0 base request is answered. -/
  | pldmBaseRequest (iface : Nat) (request : List Byte)
deriving DecidableEq, Repr

end Sys2Proof
end

