-- ==== Sys2Proof/WellFormed.lean ====
section
/-! DEFINITION. Well-formed commands: every number names something the module has (R2). -/

namespace Sys2Proof

/-- A ring that exists (16, "Rings and entries"). -/
def RingName.wf : RingName → Bool
  | .req p => decide (p < 16)
  | .cmd p => decide (p < 16)
  | .adm n => decide (n < 4)

/-- A field of a port's configuration space that exists (R470): 2,048 vectors. -/
def ConfigField.wf : ConfigField → Bool
  | .msixMask v => decide (v < 2048)
  | .msixPending v => decide (v < 2048)
  | .completionTimeout => true
  | .powerState => true

/-- An agent that exists (R325, R470, R472, R596). -/
def RegAgent.wf : RegAgent → Bool
  | .port n o => decide (n < 4) && decide (o < 0x100000)
  | .config n f => decide (n < 4) && f.wf
  | .mgmt i b _ => decide (i < 2) && decide (b < 4)
  | .core k c o => decide (k < 512) && decide (c < 4) && decide (o < 0x10000)

/-- A unit that exists (R287). -/
def UnitId.wf : UnitId → Bool
  | .stream k => decide (k < 4)
  | _ => true

/-- Cores that exist (R2). -/
def RefillWork.wf (x : RefillWork) : Bool := x.fails.all fun e => decide (e.1 < 512)

/-- A command whose operands name cores, contexts, ports, partitions and other agents that exist. -/
def Instr.wf : Instr → Bool
  | .sclAdd core ctx _ => decide (core < 512) && decide (ctx < 4)
  | .sclSub core ctx _ => decide (core < 512) && decide (ctx < 4)
  | .sclAnd core ctx _ => decide (core < 512) && decide (ctx < 4)
  | .sclOr core ctx _ => decide (core < 512) && decide (ctx < 4)
  | .sclXor core ctx _ => decide (core < 512) && decide (ctx < 4)
  | .sclShl core ctx _ => decide (core < 512) && decide (ctx < 4)
  | .sclShr core ctx _ => decide (core < 512) && decide (ctx < 4)
  | .sclSra core ctx _ => decide (core < 512) && decide (ctx < 4)
  | .sclMin core ctx _ => decide (core < 512) && decide (ctx < 4)
  | .sclMax core ctx _ => decide (core < 512) && decide (ctx < 4)
  | .sclMinu core ctx _ => decide (core < 512) && decide (ctx < 4)
  | .sclMaxu core ctx _ => decide (core < 512) && decide (ctx < 4)
  | .sclSubi core ctx _ => decide (core < 512) && decide (ctx < 4)
  | .sclAndi core ctx _ => decide (core < 512) && decide (ctx < 4)
  | .sclOri core ctx _ => decide (core < 512) && decide (ctx < 4)
  | .sclXori core ctx _ => decide (core < 512) && decide (ctx < 4)
  | .sclShli core ctx _ => decide (core < 512) && decide (ctx < 4)
  | .sclShri core ctx _ => decide (core < 512) && decide (ctx < 4)
  | .sclSrai core ctx _ => decide (core < 512) && decide (ctx < 4)
  | .sclMini core ctx _ => decide (core < 512) && decide (ctx < 4)
  | .sclMaxi core ctx _ => decide (core < 512) && decide (ctx < 4)
  | .sclMinui core ctx _ => decide (core < 512) && decide (ctx < 4)
  | .sclMaxui core ctx _ => decide (core < 512) && decide (ctx < 4)
  | .sclMul core ctx _ => decide (core < 512) && decide (ctx < 4)
  | .sclCmp core ctx _ => decide (core < 512) && decide (ctx < 4)
  | .sclLih core ctx _ => decide (core < 512) && decide (ctx < 4)
  | .sclLd core ctx _ => decide (core < 512) && decide (ctx < 4)
  | .sclLdw core ctx _ => decide (core < 512) && decide (ctx < 4)
  | .sclSt core ctx _ => decide (core < 512) && decide (ctx < 4)
  | .sclStw core ctx _ => decide (core < 512) && decide (ctx < 4)
  | .sclBr core ctx _ => decide (core < 512) && decide (ctx < 4)
  | .sclJr core ctx _ => decide (core < 512) && decide (ctx < 4)
  | .sclTld core ctx _ => decide (core < 512) && decide (ctx < 4)
  | .sclCsrr core ctx _ => decide (core < 512) && decide (ctx < 4)
  | .sclCsrw core ctx _ => decide (core < 512) && decide (ctx < 4)
  | .sclFence core ctx _ => decide (core < 512) && decide (ctx < 4)
  | .sclHalt core ctx _ => decide (core < 512) && decide (ctx < 4)
  | .sclIflush core ctx _ => decide (core < 512) && decide (ctx < 4)
  | .dmaCopy core ctx _ _ => decide (core < 512) && decide (ctx < 4)
  | .dmaLin core ctx _ _ => decide (core < 512) && decide (ctx < 4)
  | .dmaList core ctx _ => decide (core < 512) && decide (ctx < 4)
  | .dmaKvapp core ctx _ => decide (core < 512) && decide (ctx < 4)
  | .arrStream core ctx _ _ => decide (core < 512) && decide (ctx < 4)
  | .arrCam core ctx _ => decide (core < 512) && decide (ctx < 4)
  | .epiLoad core ctx _ => decide (core < 512) && decide (ctx < 4)
  | .epiSzero core ctx _ => decide (core < 512) && decide (ctx < 4)
  | .epiSdrain core ctx _ => decide (core < 512) && decide (ctx < 4)
  | .vecAdd core ctx _ => decide (core < 512) && decide (ctx < 4)
  | .vecSub core ctx _ => decide (core < 512) && decide (ctx < 4)
  | .vecMul core ctx _ => decide (core < 512) && decide (ctx < 4)
  | .vecMin core ctx _ => decide (core < 512) && decide (ctx < 4)
  | .vecMax core ctx _ => decide (core < 512) && decide (ctx < 4)
  | .vecFma core ctx _ => decide (core < 512) && decide (ctx < 4)
  | .vecCmp core ctx _ => decide (core < 512) && decide (ctx < 4)
  | .vecExp2 core ctx _ => decide (core < 512) && decide (ctx < 4)
  | .vecLog2 core ctx _ => decide (core < 512) && decide (ctx < 4)
  | .vecRcp core ctx _ => decide (core < 512) && decide (ctx < 4)
  | .vecRsqrt core ctx _ => decide (core < 512) && decide (ctx < 4)
  | .vecAct core ctx _ => decide (core < 512) && decide (ctx < 4)
  | .vecDact core ctx _ => decide (core < 512) && decide (ctx < 4)
  | .vecRsum core ctx _ => decide (core < 512) && decide (ctx < 4)
  | .vecRmax core ctx _ => decide (core < 512) && decide (ctx < 4)
  | .vecLd core ctx _ => decide (core < 512) && decide (ctx < 4)
  | .vecSt core ctx _ => decide (core < 512) && decide (ctx < 4)
  | .vecBcast core ctx _ => decide (core < 512) && decide (ctx < 4)
  | .vecTload core ctx _ => decide (core < 512) && decide (ctx < 4)
  | .vecSadd core ctx _ => decide (core < 512) && decide (ctx < 4)
  | .tabStream core ctx _ => decide (core < 512) && decide (ctx < 4)
  | .tabLog core ctx _ => decide (core < 512) && decide (ctx < 4)
  | .quantCfg core ctx _ => decide (core < 512) && decide (ctx < 4)
  | .quantStep core ctx _ => decide (core < 512) && decide (ctx < 4)
  | .quantClr core ctx _ => decide (core < 512) && decide (ctx < 4)
  | .quantCheck core ctx _ => decide (core < 512) && decide (ctx < 4)
  | .quantPropose core ctx _ => decide (core < 512) && decide (ctx < 4)
  | .guardSel core ctx _ => decide (core < 512) && decide (ctx < 4)
  | .guardRun core ctx _ => decide (core < 512) && decide (ctx < 4)
  | .slotGet core ctx _ => decide (core < 512) && decide (ctx < 4)
  | .slotPut core ctx _ => decide (core < 512) && decide (ctx < 4)
  | .slotFill core ctx _ => decide (core < 512) && decide (ctx < 4)
  | .slotDrain core ctx _ => decide (core < 512) && decide (ctx < 4)
  | .syncSignal core ctx _ => decide (core < 512) && decide (ctx < 4)
  | .syncWait core ctx _ => decide (core < 512) && decide (ctx < 4)
  | .syncFadd core ctx _ => decide (core < 512) && decide (ctx < 4)
  | .syncCmp core ctx _ => decide (core < 512) && decide (ctx < 4)
  | .sessItem core ctx _ => decide (core < 512) && decide (ctx < 4)
  | .sessEnd core ctx _ => decide (core < 512) && decide (ctx < 4)
  | .sessStep core ctx _ => decide (core < 512) && decide (ctx < 4)
  | .sessNext core ctx _ => decide (core < 512) && decide (ctx < 4)
  | .sessHint core ctx _ => decide (core < 512) && decide (ctx < 4)
  | .fabGet core ctx _ => decide (core < 512) && decide (ctx < 4)
  | .fabPut core ctx _ => decide (core < 512) && decide (ctx < 4)
  | .unitStart core unit => decide (core < 512) && unit.wf
  | .accRepeat core _ => decide (core < 512)
  | .outputWordWrite core _ => decide (core < 512)
  | .tileDone core _ => decide (core < 512)
  | .guardedRingUnit core _ _ => decide (core < 512)
  | .scatterAddIssue core bank _ => decide (core < 512) && decide (bank < 16)
  | .narrowPromote core => decide (core < 512)
  | .instrComplete core _ => decide (core < 512)
  | .waitSatisfied obj => decide (obj < 131072)
  | .watchdogExpiry core _ => decide (core < 512)
  | .xiTimeout core _ => decide (core < 512)
  | .dmaListEntry core _ _ => decide (core < 512)
  | .stepBoundary part _ => decide (part < 16)
  | .programEnd part => decide (part < 16)
  | .req part _ => decide (part < 16)
  | .cancel part _ => decide (part < 16)
  | .start part _ _ => decide (part < 16)
  | .stop part _ => decide (part < 16)
  | .memMap part _ => decide (part < 16)
  | .memUnmap part _ => decide (part < 16)
  | .hcopy part _ _ _ => decide (part < 16)
  | .streamCfg part _ => decide (part < 16)
  | .chunk part _ _ => decide (part < 16)
  | .cxlWin part _ => decide (part < 16)
  | .kvArena part _ => decide (part < 16)
  | .sessOpen part _ => decide (part < 16)
  | .sessClose part _ => decide (part < 16)
  | .sessTrim part _ => decide (part < 16)
  | .sessQuery part _ _ => decide (part < 16)
  | .sessionRelease session => decide (session < 262144)
  | .winGrant part _ => decide (part < 16)
  | .winClose part _ => decide (part < 16)
  | .winFree part _ => decide (part < 16)
  | .spillWinGrant port _ _ => decide (port < 4)
  | .spillWinClose port _ _ => decide (port < 4)
  | .spillWinFree port _ => decide (port < 4)
  | .windowClosed win => decide (win < 4096)
  | .winImport part _ => decide (part < 16)
  | .winForget part _ => decide (part < 16)
  | .repair part _ work => decide (part < 16) && work.wf
  | .partCreate port _ => decide (port < 4)
  | .partDestroy port _ => decide (port < 4)
  | .partReshape port _ => decide (port < 4)
  | .routeLoad port _ _ => decide (port < 4)
  | .takeover port _ => decide (port < 4)
  | .keyLoad port _ _ => decide (port < 4)
  | .keyRotate port _ _ => decide (port < 4)
  | .keyErase port _ => decide (port < 4)
  | .fwLoad port _ _ _ => decide (port < 4)
  | .debugSet port _ => decide (port < 4)
  | .lifecycle port e => decide (port < 4) && e.meanwhile.all fun x => decide (x.1 < 4)
  | .fuseProg port _ _ => decide (port < 4)
  | .authDelayEnd slot => decide (slot < 16)
  | .ringTailWrite port ring _ => decide (port < 4) && ring.wf
  | .cplHeadWrite port ring _ => decide (port < 4) && ring.wf
  | .ringCtlWrite port ring _ => decide (port < 4) && ring.wf
  | .secCfgWrite port part _ _ => decide (port < 4) && decide (part < 16)
  | .healthLevelWrite iface _ _ => decide (iface < 2)
  | .watchdogWrite core ctx _ => decide (core < 512) && decide (ctx < 4)
  | .leanReqWrite iface die group _ => decide (iface < 2) && decide (die < 4) && decide (group < 16)
  | .freqSet port die group _ => decide (port < 4) && decide (die < 4) && decide (group < 16)
  | .registerWrite who _ => who.wf
  | .rcCounterRead who => who.wf
  | .counterLoRead core ctx _ dst => decide (core < 512) && decide (ctx < 4) && decide (dst < 32)
  | .keyLastLoRead who slot => who.wf && decide (slot < 16)
  | .rngOutRead core ctx stream word dst => decide (core < 512) && decide (ctx < 4) && decide (stream < 8) && decide (word < 8) && decide (dst < 32)
  | .cxlMemAccess port _ _ _ _ => decide (port < 4)
  | .irqModExpiry part => decide (part < 16)
  | .streamGapExpiry part stream => decide (part < 16) && decide (stream < 16)
  | .portReset port => decide (port.port < 4)
  | .rdReq _ _ => true
  | .rdRsp _ => true
  | .wr _ => true
  | .wrAck _ => true
  | .nack _ => true
  | .probe _ => true
  | .probeRsp _ => true
  | .packetForward port _ _ => decide (port < 12)
  | .parkRelease dir vc => decide (dir < 7) && decide (vc < 4)
  | .linkCrcError port => decide (port < 12)
  | .linkRetrainEnd port _ => decide (port < 12)
  | .fabBurstSend _ => true
  | .fabGapExpiry _ _ _ _ => true
  | .fabRspTimeout _ _ => true
  | .spillProbeTimeout _ => true
  | .takeoverProbeTimeout => true
  | .winnowEpoch => true
  | .unitMoveDone part _ _ _ _ => decide (part < 16)
  | .spillRecallDone win => decide (win < 4096)
  | .pageRetire _ _ _ => true
  | .coreFail core _ => decide (core < 512)
  | .spliceApply core array row => decide (core < 512) && decide (array < 4) && decide (row < 34)
  | .substitution core => decide (core.core < 512) && core.work.wf
  | .repairWaitTimeout part => decide (part < 16)
  | .haltWaitTimeout part => decide (part < 16)
  | .healthPeriod _ => true
  | .leanTimingError core stream _ => decide (core < 512) && decide (stream < 4)
  | .leanCalm core => decide (core < 512)
  | .enChange _ => true
  | .sysReset => true
  | .moduleReset iface => decide (iface < 2)
  | .stageComplete _ => true
  | .stageTimeout => true
  | .powerFailure above => above.amid.all fun x => decide (x.1 < 4)
  | .railFault => true
  | .aonRailFault => true
  | .railDroop core => decide (core < 512)
  | .refclkLoss => true
  | .hostRefclkLoss port => decide (port < 4)
  | .thermalTrip die _ _ => decide (die < 4)
  | .overcurrentFast _ => true
  | .overcurrentTrip _ => true
  | .sensorReadTimeout _ => true
  | .regRead iface block _ => decide (iface < 2) && decide (block < 4)
  | .regWrite iface block _ _ => decide (iface < 2) && decide (block < 4)
  | .fabrecWrite iface _ => decide (iface < 2)
  | .fwRecover iface _ _ _ => decide (iface < 2)
  | .mctpControl iface _ => decide (iface < 2)
  | .mctpPacketTimeout iface => decide (iface.iface < 2)
  | .i2cBusReset iface => decide (iface < 2)
  | .setEventReceiver iface _ => decide (iface < 2)
  | .pldmSensorRead iface _ => decide (iface < 2)
  | .getVersion iface => decide (iface < 2)
  | .getCapabilities iface => decide (iface < 2)
  | .negotiateAlgorithms iface _ _ => decide (iface < 2)
  | .getDigests iface => decide (iface < 2)
  | .getCertificate iface slot _ _ => decide (iface < 2) && decide (slot < 16)
  | .challenge iface slot _ => decide (iface < 2) && decide (slot < 16)
  | .getMeasurements iface _ _ _ => decide (iface < 2)
  | .testPortAccess _ => true
  | .unlistedCodeEntry ring _ => ring.wf
  | .ringFetchFail ring => ring.wf
  | .icacheLineFill core ctx _ => decide (core < 512) && decide (ctx < 4)
  | .perstRelease port => decide (port < 4)
  | .pllRefclkMissing => true
  | .pllRefclkReturn => true
  | .droopRearm core => decide (core < 512)
  | .inputGlitch _ => true
  | .trstN => true
  | .platformEventMessage => true
  | .unsupportedRequest iface _ => decide (iface < 2)
  | .pldmBaseRequest iface _ => decide (iface < 2)

end Sys2Proof
end

