-- ==== Sys2Proof/Machine/Num.lean ====
section
/-! DEFINITION. Exact numbers, the encodings of the number formats (02, R20 to R31) and binary32 arithmetic. -/

namespace Sys2Proof.Machine

/-- A value as the units see it: a NaN, an infinity, or an exact signed rational `n / d` (a zero keeps its sign, IEEE 754). -/
inductive FV where
  | nan
  | inf (neg : Bool)
  | num (neg : Bool) (n d : Nat)
deriving DecidableEq, Repr

/-- A scale as it acts on a product that is zero (R60, R627): its sign alone. -/
def FV.unit (x : FV) : FV :=
  match x with
  | .num s n d => .num s n d
  | .inf s => .num s 1 1
  | .nan => .num false 1 1

/-- The positive zero. -/
def FV.zero : FV := .num false 0 1

/-- An integer as an exact value. -/
def FV.ofInt (i : Int) : FV := .num (decide (i < 0)) i.natAbs 1

/-- `2^e` times an integer, exactly. -/
def FV.scaled (i : Int) (e : Int) : FV :=
  if e < 0 then .num (decide (i < 0)) i.natAbs (2 ^ e.natAbs) else .num (decide (i < 0)) (i.natAbs * 2 ^ e.natAbs) 1

/-- The sign of a value; a NaN has none. -/
def FV.neg? : FV → Bool
  | .nan => false
  | .inf s => s
  | .num s _ _ => s

def FV.isZero : FV → Bool
  | .num _ 0 _ => true
  | _ => false

def FV.isNaN : FV → Bool
  | .nan => true
  | _ => false

def FV.isInf : FV → Bool
  | .inf _ => true
  | _ => false

/-- Neither a NaN nor an infinity. -/
def FV.isFinite : FV → Bool
  | .num .. => true
  | _ => false

def FV.negate : FV → FV
  | .nan => .nan
  | .inf s => .inf (!s)
  | .num s n d => .num (!s) n d

def FV.abs : FV → FV
  | .nan => .nan
  | .inf _ => .inf false
  | .num _ n d => .num false n d

/-- The exact product; an infinity times a zero is NaN. -/
def FV.mul : FV → FV → FV
  | .nan, _ => .nan
  | _, .nan => .nan
  | .inf a, .inf b => .inf (a != b)
  | .inf a, .num b n _ => if n = 0 then .nan else .inf (a != b)
  | .num a n _, .inf b => if n = 0 then .nan else .inf (a != b)
  | .num a n d, .num b m e => .num (a != b) (n * m) (d * e)

/-- The signed numerator over a common denominator. -/
def sgn (neg : Bool) (n : Nat) : Int := if neg then -(n : Int) else n

/-- The exact sum; an exact zero sum is +0 unless both terms are negative zeros (round-to-nearest-even). -/
def FV.add : FV → FV → FV
  | .nan, _ => .nan
  | _, .nan => .nan
  | .inf a, .inf b => if a = b then .inf a else .nan
  | .inf a, _ => .inf a
  | _, .inf b => .inf b
  | .num a n d, .num b m e =>
    let t := sgn a (n * e) + sgn b (m * d)
    if t = 0 then .num (a && b) 0 1 else .num (decide (t < 0)) t.natAbs (d * e)

/-- The division of R625, exactly: a non-finite dividend is kept. -/
def FV.div : FV → FV → FV
  | .nan, _ => .nan
  | .inf a, _ => .inf a
  | _, .nan => .nan
  | .num a _ _, .inf b => .num (a != b) 0 1
  | .num a n d, .num b m e =>
    if m = 0 then (if n = 0 then .nan else .inf (a != b))
    else .num (a != b) (n * e) (d * m)

/-- Whether the first value is below the second in real value; NaN is below nothing, and the zeros are equal. -/
def FV.lt : FV → FV → Bool
  | .nan, _ => false
  | _, .nan => false
  | .inf a, .inf b => a && !b
  | .inf a, .num .. => a
  | .num .., .inf b => !b
  | .num a n d, .num b m e => decide (sgn a (n * e) < sgn b (m * d))

/-- `floor(log2(n / d))` for positive `n`, `d`. -/
def floorLog2 (n d : Nat) : Int :=
  let e : Int := (Nat.log2 n : Int) - Nat.log2 d
  let below := if 0 ≤ e then decide (n < d * 2 ^ e.natAbs) else decide (n * 2 ^ e.natAbs < d)
  if below then e - 1 else e

/-- `n / d` rounded to an integer: to nearest, a tie to even or away from zero. -/
def roundDiv (even : Bool) (n d : Nat) : Nat :=
  let q := n / d
  let r2 := 2 * (n % d)
  if d < r2 then q + 1
  else if r2 = d then (if even && q % 2 = 0 then q else q + 1)
  else q

/-- `n / d * 2^k` as a fraction. -/
def shiftFrac (n d : Nat) (k : Int) : Nat × Nat :=
  if 0 ≤ k then (n * 2 ^ k.natAbs, d) else (n, d * 2 ^ k.natAbs)

/-- The magnitude code of `n / d` in a float format of `f` fraction bits and least exponent `emin`, the exponent range unbounded above.
Codes rise with the values they stand for (R27), so a carry out of the fraction is right by itself. -/
def floatCode (even : Bool) (f : Nat) (emin : Int) (n d : Nat) : Nat :=
  if n = 0 then 0
  else
    let e := max (floorLog2 n d) emin
    let (a, b) := shiftFrac n d ((f : Int) - e)
    (e - emin).natAbs * 2 ^ f + roundDiv even a b

/-- The value of a magnitude code of a float format (R27), infinities and NaN apart. -/
def floatMag (neg : Bool) (f : Nat) (emin : Int) (code : Nat) : FV :=
  let ef := code / 2 ^ f
  let fr := code % 2 ^ f
  let m := if ef = 0 then fr else fr + 2 ^ f
  let e := emin + ((ef - 1 : Nat) : Int) - f
  if e < 0 then .num neg m (2 ^ e.natAbs) else .num neg (m * 2 ^ e.natAbs) 1

/-- The value of an element code of `w` bits whose format has IEEE 754 infinities and NaNs (E5M2, BF16, FP16, FP32). -/
def ieeeValue (w f : Nat) (emin : Int) (code : Nat) : FV :=
  let neg := code.testBit (w - 1)
  let mag := code % 2 ^ (w - 1)
  let top := 2 ^ (w - 1 - f) - 1
  if mag / 2 ^ f = top then (if mag % 2 ^ f = 0 then .inf neg else .nan) else floatMag neg f emin mag

/-- The value of a binary32 word. -/
def f32 (w : W32) : FV := ieeeValue 32 23 (-126) w.toNat

/-- The canonical NaN of binary32 (R29). -/
def nan32 : W32 := 0x7FC00000#32

/-- One rounding to binary32, to nearest even; a value beyond the range becomes the infinity of its sign. -/
def toF32 : FV → W32
  | .nan => nan32
  | .inf s => if s then 0xFF800000#32 else 0x7F800000#32
  | .num s n d =>
    let c := min (floatCode true 23 (-126) n d) 0x7F800000
    BitVec.ofNat 32 (if s then c + 0x80000000 else c)

/-- Binary32 addition, multiplication and fused multiply-add, each rounded once to nearest even. -/
def addF (a b : W32) : W32 := toF32 ((f32 a).add (f32 b))
def mulF (a b : W32) : W32 := toF32 ((f32 a).mul (f32 b))
def fmaF (a b c : W32) : W32 := toF32 (((f32 a).mul (f32 b)).add (f32 c))

/-- Whether a binary32 word is a NaN or an infinity. -/
def isNaN32 (a : W32) : Bool := (f32 a).isNaN
def isInf32 (a : W32) : Bool := (f32 a).isInf

/-- Element width in bits of each format code (R20); MXFP4 elements are 4 bits. -/
def fmtWidth : Nat → Nat
  | 0 => 1 | 1 => 2 | 2 => 3 | 3 => 4 | 4 => 6 | 5 => 8 | 6 => 12 | 7 => 16
  | 8 => 8 | 9 => 8 | 10 => 4 | 11 => 4 | 12 => 16 | 13 => 16 | 14 => 32 | _ => 0

/-- INT2 to INT16: the formats that take a zero point (R25). -/
def fmtIsInt (f : Nat) : Bool := decide (1 ≤ f) && decide (f ≤ 7)

/-- BIN1 and INT2 to INT16: two of these accumulate in an integer slot (R23). -/
def fmtExact (f : Nat) : Bool := decide (f ≤ 7)

/-- E4M3, E5M2, BF16, FP16: the operands that enter the array through an aligned window (R41, R42). -/
def fmtAligned (f : Nat) : Bool := f == 8 || f == 9 || f == 12 || f == 13

/-- Two's complement value of the low `b` bits. -/
def signedOf (b c : Nat) : Int := if c % 2 ^ b < 2 ^ (b - 1) then ((c % 2 ^ b : Nat) : Int) else ((c % 2 ^ b : Nat) : Int) - (2 ^ b : Nat)

/-- The low `b` bits of an integer. -/
def codeOf (b : Nat) (i : Int) : Nat := (i % (2 ^ b : Nat)).natAbs

/-- The integer code of an integer-like element: BIN1 as +1 or -1 (R26), INT in two's complement (R24). -/
def intCode (f c : Nat) : Int := if f = 0 then (if c % 2 = 1 then 1 else -1) else signedOf (fmtWidth f) c

/-- Fraction bits and least normal exponent of a float format (R27); E2M1 for MXFP4 elements. -/
def fmtFloat : Nat → Nat × Int
  | 8 => (3, -6) | 9 => (2, -14) | 10 => (1, 0) | 12 => (7, -126) | 13 => (10, -14) | _ => (23, -126)

/-- The integer square root, bit by bit from `2^k` down. -/
def isqrtFrom (n : Nat) : Nat → Nat → Nat
  | 0, r => r
  | k + 1, r => isqrtFrom n k (if (r + 2 ^ k) * (r + 2 ^ k) ≤ n then r + 2 ^ k else r)

/-- `floor(sqrt n)`. -/
def isqrt (n : Nat) : Nat := isqrtFrom n (Nat.log2 n / 2 + 1) 0

/-- The numerator of the square root of two over `2^1024`. Every value that a conversion of a LOG4 element meets is compared with rationals
whose terms have fewer than 500 bits, so none lies between this fraction and the root itself (R31). -/
def sqrt2Num : Nat := isqrt (2 * 4 ^ 1024)

/-- A LOG4 element with scale 1 (R31): `2^((m - 7) / 2)`, through the fraction above where the exponent is half an odd number. -/
def log4Value (c : Nat) : FV :=
  let m := c % 8
  let neg := c / 8 % 2 == 1
  if m = 0 then .zero
  else if m % 2 = 1 then FV.scaled (if neg then -1 else 1) (((m : Int) - 7) / 2)
  else .num neg sqrt2Num (2 ^ 1024 * 2 ^ ((8 - m) / 2))

/-- The value of an element code with scale 1 and zero point 0 (R24 to R31), LOG4 through `sqrt2Num`. -/
def elemValue (f c : Nat) : FV :=
  if f ≤ 7 then FV.ofInt (intCode f c)
  else match f with
  | 8 => if c % 128 = 127 then .nan else floatMag (c.testBit 7) 3 (-6) (c % 128)
  | 9 => ieeeValue 8 2 (-14) (c % 256)
  | 10 => floatMag (c.testBit 3) 1 0 (c % 8)
  | 12 => ieeeValue 16 7 (-126) (c % 65536)
  | 13 => ieeeValue 16 10 (-14) (c % 65536)
  | 14 => ieeeValue 32 23 (-126) (c % 4294967296)
  | _ => log4Value c

/-- The unbiased exponent `e` of a finite element code (02, "Floating-point operands in the array"): a subnormal has the least normal one. -/
def elemExp (f c : Nat) : Int :=
  let (fb, emin) := fmtFloat f
  let w := fmtWidth f
  emin + (((c % 2 ^ (w - 1)) / 2 ^ fb - 1 : Nat) : Int)

/-- The E8M0 scale of R30: `2^(e - 127)`, or NaN for 0xFF. -/
def e8m0 (e : Nat) : FV := if e % 256 = 255 then .nan else FV.scaled 1 (((e % 256 : Nat) : Int) - 127)

/-- The canonical NaN code of a float format (R29). -/
def canonNaN : Nat → Nat
  | 8 => 0x7F | 9 => 0x7F | 12 => 0x7FC0 | 13 => 0x7E00 | _ => 0x7FC00000

/-- What one conversion gives: the code, the clips and NaN meetings it counts and the flags it sets (R34 to R40). -/
structure Conv where
  code : Nat
  clips : Nat := 0
  nans : Nat := 0
  flgInf : Bool := false
  flgNan : Bool := false
deriving DecidableEq, Repr

/-- The largest finite magnitude code of a float format (R27). -/
def fmtMaxMag : Nat → Nat
  | 8 => 0x7E | 9 => 0x7B | 10 => 7 | 12 => 0x7F7F | 13 => 0x7BFF | _ => 0x7F7FFFFF

/-- Sign bit placed above a magnitude code of a `w`-bit format. -/
def withSign (w : Nat) (neg : Bool) (mag : Nat) : Nat := if neg then mag + 2 ^ (w - 1) else mag

/-- Whether `n / d` reaches the decision point between LOG4 codes `m` and `m + 1` (R31, R33): the mean of the two magnitudes,
compared by squaring. `m = 7` is the clip threshold of R34. -/
def log4Reaches (n d m : Nat) : Bool :=
  if m = 0 then decide (d ≤ 16 * n)
  else
    let j := if m % 2 = 1 then 1 else 2
    let k : Int := if m % 2 = 1 then ((m : Int) - 7) / 2 else ((m : Int) - 8) / 2
    let (a, b) := shiftFrac (2 * n) d (-k)
    decide (j * b ≤ a) && decide (2 * b * b ≤ (a - j * b) * (a - j * b))

/-- The number of LOG4 decision points that `n / d` reaches, the clip threshold among them. -/
def log4Count (n d : Nat) : Nat := ((List.range 8).filter (log4Reaches n d)).length

/-- Conversion of one value into a format other than FP32 and MXFP4 groups (R33 to R38, R625); format 10 is an E2M1 element. `y` is
the value after the division by the scale. A NaN becomes the zero point; one outside the range of the codes becomes the nearest code and counts no
clip (DESIGN CHOICE, log 63). -/
def convertY (f : Nat) (y : FV) (z : Int) (ovfInf : Bool) : Conv :=
  if f = 0 then
    match y with
    | .nan => { code := 1, nans := 1, flgNan := true }
    | .inf s => { code := if s then 0 else 1 }
    | .num s n _ => { code := if s && n != 0 then 0 else 1 }
  else if f ≤ 7 then
    let b := fmtWidth f
    let hi : Int := (2 ^ (b - 1) : Nat) - 1
    let lo : Int := -((2 ^ (b - 1) : Nat) : Int)
    match y with
    | .nan => { code := codeOf b (max lo (min hi z)), nans := 1, flgNan := true }
    | .inf s => { code := codeOf b (if s then lo else hi), clips := 1 }
    | .num s n d =>
      let q := sgn s (roundDiv false n d) + z
      if hi < q then { code := codeOf b hi, clips := 1 }
      else if q < lo then { code := codeOf b lo, clips := 1 }
      else { code := codeOf b q }
  else if f = 11 then
    match y with
    | .nan => { code := 0, nans := 1, flgNan := true }
    | .inf s => { code := withSign 4 s 7, clips := 1 }
    | .num s n d =>
      let c := log4Count n d
      if c = 0 then { code := 0 }
      else if c = 8 then { code := withSign 4 s 7, clips := 1 }
      else { code := withSign 4 s c }
  else
    let w := fmtWidth f
    let (fb, emin) := fmtFloat f
    match y with
    | .nan => if f = 10 then { code := 0, nans := 1, flgNan := true } else { code := canonNaN f, flgNan := true }
    | .inf s =>
      if f = 8 || f = 10 then { code := withSign w s (fmtMaxMag f), clips := 1 }
      else { code := withSign w s (fmtMaxMag f / 2 ^ fb * 2 ^ fb + 2 ^ fb), flgInf := true }
    | .num s n d =>
      let c := floatCode false fb emin n d
      if fmtMaxMag f < c then
        if f = 9 && ovfInf then { code := withSign w s 0x7C, clips := 1, flgInf := true }
        else { code := withSign w s (fmtMaxMag f), clips := 1 }
      else if f = 10 && c = 0 then { code := 0 }
      else { code := withSign w s c }

/-- Conversion of `x` with group scale `s` and zero point `z` (R33, R625). -/
def convert (f : Nat) (x s : FV) (z : Int) (ovfInf : Bool) : Conv := convertY f (x.div s) z ovfInf

/-- Conversion into FP32 by DMA.COPY (R630). -/
def convertF32 (x s : FV) : Conv :=
  match x.div s with
  | .nan => { code := canonNaN 14, flgNan := true }
  | y =>
    let w := toF32 y
    { code := w.toNat, flgInf := isInf32 w }

/-- The larger magnitude of two finite values. -/
def FV.maxAbs (a b : FV) : FV := if a.abs.lt b.abs then b.abs else a.abs

/-- The scale code R39 chooses for a group without NaN or infinity. -/
def mxScale (xs : List FV) : Nat :=
  match xs.foldl FV.maxAbs FV.zero with
  | .num _ n d => if n = 0 then 127 else (min (max (floorLog2 n d - 2 + 127) 0) 254).natAbs
  | _ => 255

/-- Conversion of one MXFP4 scale group (R39): the scale code and each element's conversion. -/
def convertMx (xs : List FV) : Nat × List Conv :=
  if xs.all FV.isFinite then
    let e := mxScale xs
    (e, xs.map fun x => convertY 10 (x.div (e8m0 e)) 0 false)
  else
    (255, xs.map fun x =>
      if x.isFinite then { code := 0 }
      else { code := 0, nans := 1, flgNan := true })

end Sys2Proof.Machine
end

