-- ==== Sys2Proof/Machine/State.lean ====
section
/-! DEFINITION. The state of the module as plain data, and the state after a cold start has been accepted. -/

namespace Sys2Proof.Machine

/-- Why a step stops the model: no rule of the spec stops the module, so this type has one constructor that no meaning raises. -/
inductive Fault where
  /-- Raised by nothing; safe. -/
  | none
deriving DecidableEq, Repr

/-- A command without a meaning. -/
inductive Refusal where
  /-- Raised by an arm of `exec` that has no meaning yet; safe. -/
  | notModelled (mnemonic : String)
deriving DecidableEq, Repr

/-- CTX_STATE.STATE (10, "Registers"). -/
inductive CtxMode where
  | idle | run | wait | halted | fault | stopped
deriving DecidableEq, Repr

/-- ITEM_REQ and ITEM_IDX of a context (10, "Registers"); `past` says that the item they name has ended, so that nothing binds to it any more, even
once its REQ_ID names another request (R358, R499). -/
structure ItemCtx where
  valid : Bool := false
  failed : Bool := false
  req : Nat := 0
  item : Nat := 0
  past : Bool := false
deriving DecidableEq, Repr

/-- What a class W or F instruction waits for (R292, R303, R304, R351, R353, R357). -/
inductive WaitKind where
  /-- SYNC.WAIT on an object for an amount. -/
  | sync (obj : Nat) (amount : W32)
  /-- SLOT.GET or SLOT.PUT: the object tested, what is added to it, the position, and the register and address it returns. -/
  | slot (obj : Nat) (plus k : W32) (dst : Nat) (addr : W64)
  /-- SCL.FENCE with its mask of unit classes. -/
  | fence (mask : Nat)
  | halt
  /-- SESS.END with FINAL = 1 for the item that the wait is bound to: the earlier-issued instructions of the core that are bound to it and have not
  completed, those in flight by their number and those that wait by their context. -/
  | sessEnd (ids ctxs : List Nat)
  /-- SESS.STEP. -/
  | step
deriving DecidableEq, Repr

/-- A wait in progress; `wdExp` is the limit in force in its first cycle (R311), `bind` the item that the waiting instruction is bound to (R293),
none once that item has ended (R358). -/
structure Wait where
  kind : WaitKind
  wdExp : Nat := 20
  bind : Option (Nat × Nat) := none
deriving DecidableEq, Repr

/-- One context of a core (R274). Lane `l` of `v<r>` has key `64 r + l`. -/
structure Ctx where
  s : Sparse W64 := []
  t : Sparse (BitVec 512) := []
  v : Sparse W32 := []
  p : Sparse Bool := []
  pc : W64 := 0
  mode : CtxMode := .idle
  item : ItemCtx := {}
  wait : Option Wait := none
  cycleHi : W32 := 0
  timeHi : W32 := 0
deriving DecidableEq, Repr

/-- A register result that a unit delivers when its instruction completes (R276): into a scalar register, into a predicate, or into neither any more,
because a later instruction has written that register; readers wait for it all the same. -/
inductive Result where
  | scalar (d : Nat) (value : W64)
  | pred (d : Nat) (value : Bool)
  | pastScalar (d : Nat)
  | pastPred (d : Nat)
deriving DecidableEq, Repr

/-- A slot tag (R114, R250). -/
structure SlotTag where
  valid : Bool := false
  kind : Nat := 0
  fx : Nat := 0
  fy : Nat := 0
deriving DecidableEq, Repr

/-- A slot entry: a 48-bit integer sum or a binary32 sum (R113). -/
inductive SlotVal where
  | int (i : Int)
  | fp (w : W32)
deriving DecidableEq, Repr

/-- One output word of a tile instruction that is final in its slots and not yet written (R97). -/
structure OutWord where
  arr : Nat
  /-- The tile or block row it belongs to, and its ring word index w (R138, R374). -/
  tile : Nat
  word : Nat
  vals : List SlotVal
  /-- Halvings of the word's scale (R127). -/
  h : Nat := 0
  /-- Channel number of the first output, and the channel entries read for the word (R135). -/
  chan : Nat := 0
  chans : List (BitVec 128) := []
  /-- Column of the ring block and logical row of the first output (R138, R231). -/
  col0 : Nat := 0
  row0 : Nat := 0
  /-- Entries written as STOP_VAL, and entries that merge leaves (R230, R234). -/
  stops : List Bool := []
  keeps : List Bool := []
  /-- Scales of the stationary and the streamed entries of each output, as binary32, and the zero points (R132, R133). -/
  sx : List W32 := []
  sy : List W32 := []
  zc : List Int := []
  zw : List Int := []
  sumw : Int := 0
  neg : Bool := false
deriving DecidableEq, Repr

/-! ### Operands on their way to the latches (04) -/

/-- A scale entry: its bits, its value and its zero point. -/
structure SEnt where
  raw : Nat := 0
  s : FV := .num false 1 1
  z : Int := 0
deriving DecidableEq, Repr

/-- What an element is beside its aligned integer (R45); `absent` is an element of an absent block, whose every product is zero (R60). -/
inductive LaneKind where
  | fin | inf (neg : Bool) | nan | absent
deriving DecidableEq, Repr

/-- An element on its way into a cell: its integer, whether it is present, and the sign of its own value, 0 for a zero (R45). -/
structure Lane where
  i : Int := 0
  here : Bool := false
  kind : LaneKind := .fin
  sg : Int := 0
deriving DecidableEq, Repr

/-- A group of lanes with the exponent of its unit. -/
abbrev Group := List Lane × Int

/-- A stationary operand of one array and block: its rows of groups, the rows' scale entries, whether it is absent. -/
structure Stat where
  rows : List (List Group)
  scales : List SEnt
  absent : Bool
  drops : Nat
  disorder : Nat
deriving DecidableEq, Repr

/-- A guarded ring of a tile instruction (R373): the slot descriptor's objects and entry count, the first position, the units of the
instruction, and how many units have been tested and released. -/
structure GRing where
  objF : Nat
  objD : Nat
  n : Nat
  pos : W32
  units : Nat
  tested : Nat := 0
  released : Nat := 0
  waiting : Option Wait := none
deriving DecidableEq, Repr

/-- What a tile instruction is. -/
inductive TileKind where
  | stream | guard | table | log
deriving DecidableEq, Repr

/-- An overflow that makes the tile repeat (R127): its tile, the stationary block in which it fell, and how each word of the tile stands for the
repeat: its halvings, and how many stationary blocks it has passed. -/
structure Overflow where
  tile : Nat
  blk : Nat
  hs : List Nat
  done : List Nat
deriving DecidableEq, Repr

/-- What a tile instruction holds from its issue on (R282, R328, R330): its word, the copied tile descriptor with Y0 offset, the two tensor
descriptors, the auxiliary block, the captured epilogue descriptor, and its progress. -/
structure TileJob where
  kind : TileKind
  word : W64
  desc : BitVec 512
  y0 : Nat
  xt : BitVec 512
  yt : BitVec 512
  aux : BitVec 1024
  epi : BitVec 512
  /-- Next tile or block row to compute, and how many there are. -/
  next : Nat := 0
  tiles : Nat := 0
  /-- Words computed and not yet written, in order. -/
  words : List OutWord := []
  /-- Rows whose latches fail their parity check (R88): array, logical row and the tile at whose latch swaps the check fails first; from that
  tile on the array's words are lost (R87). -/
  parity : List (Nat × Nat × Nat) := []
  /-- Arrays that an overflow stopped within the present tile (R129). -/
  tdead : List Nat := []
  overflow : Option Overflow := none
  /-- Tiles computed whose end has not been seen, and whether every word of each is written (R140). -/
  ends : List (Nat × Bool) := []
  /-- What the instruction reads once, when it starts: channel entries (R135) and thresholds (R228) of activation-streaming mode by
  `32 * array + row`, and the word sums of weight-streaming mode by array (R136). -/
  chans : List (BitVec 128) := []
  thetas : List Int := []
  wsums : List Int := []
  /-- Cycles streamed against the active latches since the last swap of the instruction (R81). -/
  run : Option Nat := none
  /-- The operand that its next tile latches first, read ahead into the shadow latches, or into the shadow set of the table unit (R80, R81, R252):
  by array, none while it has not been read. -/
  ahead : Option (List (Nat × Stat)) := none
  objTile : Option Nat := none
  yRing : Option GRing := none
  oRing : Option GRing := none
  sRing : Option GRing := none
  cRing : Option GRing := none
deriving DecidableEq, Repr

/-- A DMA.LIST in progress (R347, R384): its DMA descriptor, read at issue, the address and length of its list, the entries started, its tracker,
and the cores that its multicast delivers to, as they were at its issue (R381). -/
structure ListJob where
  desc : BitVec 512
  list : Nat
  n : Nat
  next : Nat := 0
  trk : Option Nat := none
  targets : List Nat := []
deriving DecidableEq, Repr

/-- A FAB.GET or FAB.PUT in progress (R360, R447): its direction, the module, exposure offset, local address and length, the key, epoch and gap
timer stamped at issue, and its transaction's TAG once it has one. With `tierF` it is a transfer of Winnow for an instruction that accesses a unit in
Tier F (R464), whose bytes the module holds already (R390); `owner` is that instruction while it is in flight. -/
structure FabJob where
  put : Bool
  module : Nat
  goff : Nat
  laddr : Nat
  len : Nat
  key : W64
  epoch : Nat
  gapUs : Nat
  tag : Option Nat := none
  done : Bool := false
  tierF : Bool := false
  owner : Option Nat := none
deriving DecidableEq, Repr

/-- A DMA.KVAPP that has issued (R348, R416): its append descriptor, its format, whether it has run, and whether the session that it named at issue has
reached FREE, so that its number may stand for another. -/
structure KvJob where
  desc : BitVec 256
  fmt : Nat
  done : Bool := false
  gone : Bool := false
deriving DecidableEq, Repr

/-- The work of an instruction in flight beyond its own step. -/
inductive Job where
  | plain
  /-- An instruction whose count is zero: it completes in the cycle after issue (R319). -/
  | empty
  /-- EPI.LOAD of a stream (R330). -/
  | epiLoad (stream : Nat)
  | tile (j : TileJob)
  /-- ARR.CAM: it completes when none of its adds waits in a bank queue (11, "ARR.CAM"). -/
  | scatter
  | list (j : ListJob)
  | kv (j : KvJob)
  | fab (j : FabJob)
deriving DecidableEq, Repr

/-- An instruction that has issued to a unit and not completed (R287, R288), with the item it is bound to (R293), the objects that its
completion gives 1 (R317, R318) and its register results. -/
structure InFlight where
  id : Nat
  ctx : Nat
  unit : UnitId
  cls : Nat
  bind : Option (Nat × Nat) := none
  started : Bool := false
  faulted : Bool := false
  objs : List Nat := []
  results : List Result := []
  job : Job := .plain
deriving DecidableEq, Repr

/-- One scatter add waiting in a bank queue (R209): the entry, the addend, the source that presented it (stream 0 to 3, or 4 for the vector
unit), and the instruction. -/
structure ScatAdd where
  entry : Nat
  value : W32
  src : Nat
  id : Nat
deriving DecidableEq, Repr

/-- A quantisation tracker (R147 to R156). -/
structure Tracker where
  tbase : Nat
  cm1 : Nat := 0
  nm1 : Nat := 7
  tfmt : Nat := 5
  asym : Bool := false
  psfmt : Nat := 2
  margin : W32 := 0x3F800000#32
  filled : Nat := 0
  ptr : Nat := 0
  curMax : W32 := 0xFF800000#32
  curMin : W32 := 0x7F800000#32
  sse : W64 := 0
  count : W64 := 0
  clip : W32 := 0
  nonfin : W32 := 0
deriving DecidableEq, Repr

/-- Reset value of tracker `n` (R156). -/
def Tracker.reset (n : Nat) : Tracker := { tbase := 9 * n }

/-- A counter-based random stream (R540). -/
structure RngStream where
  key : W64 := 0
  ctr : W64 := 0
  cpd : W32 := 0
  base : W64 := 0
deriving DecidableEq, Repr

/-- The exact unit's interpolated tables (R271): entry `i` of ACT has key `i`, of DER `256 + i`; a value holds Y in [31:0], D in [63:32]. -/
structure ExactTables where
  entries : Sparse W64 := []
  actXmin : W32 := 0
  actInvw : W32 := 0x3F800000#32
  derXmin : W32 := 0
  derInvw : W32 := 0x3F800000#32
deriving DecidableEq, Repr

/-- The arrays of a core: stationary latches, output slots, tags and streams. Keys: latch `(array * 34 + physical row) * 32 + column` (R72);
slot `((array * 2 + slot) * 32 + row) * 32 + column` (R96); tag `array * 4 + sub-array`; stream `k`. -/
structure Sheaf where
  /-- Active and shadow latches (R80), and the parity bit of each physical row's active latches, by `array * 34 + physical row` (R88). -/
  active : Sparse (BitVec 16) := []
  shadow : Sparse (BitVec 16) := []
  parity : Sparse Bool := []
  /-- Rows that have failed a parity check and that no splice has taken out: array and physical row (R511). -/
  failing : List (Nat × Nat) := []
  slots : Sparse SlotVal := []
  tags : Sparse SlotTag := []
  split : Nat := 0
  /-- Per stream: the last split under which it was in use (R112). -/
  lastSplit : Sparse Nat := []
  /-- Per stream: mode of the last instruction started, and the next slot. -/
  mode : Sparse Nat := []
  nextSlot : Sparse Nat := []
  /-- Epilogue descriptors (R330). -/
  epi : Sparse (BitVec 512) := []
  /-- Splices: key the array, physical rows taken out (R104, R511). -/
  splices : Sparse (List Nat) := []
  /-- Per stream: the cycles streamed since its latest swap, which the next operand has had to load (R81); none on an idle stream. -/
  since : Sparse (Option Nat) := []
deriving DecidableEq, Repr

/-- The table unit (R250): its two sets of an activation slice and its partial-sum tables (R252); element `c` of set `n` has key `32 n + c`, entry
`i` of table `g` key `128 n + 16 g + i`. -/
structure TableUnit where
  tag : SlotTag := {}
  slots : Sparse W32 := []
  acts : Sparse W32 := []
  sums : Sparse W32 := []
  /-- The sets that hold the slice of an absent block (R60). -/
  absent : Sparse Bool := []
  path : Nat := 0
  activeSet : Nat := 0
deriving DecidableEq, Repr

/-- The scatter accumulator and its bank queues (R208, R209); `stalled` are adds behind a full queue, in order of presentation (R210). -/
structure Scatter where
  acc : Sparse W32 := []
  queues : Sparse (List ScatAdd) := []
  stalled : List ScatAdd := []
deriving DecidableEq, Repr

/-- Lean mode and droop detection of a core's island (R548 to R550, R589). -/
structure Island where
  offset : Nat := 0
  raises : Nat := 0
  replays : Nat := 0
  droopArmed : Bool := true
  /-- Handshake timeouts of the last 2^20 ns, as times (R513). -/
  xiTimes : List Nat := []
deriving DecidableEq, Repr

/-- A core, by its logical coordinate (R3). -/
structure Core where
  ctxs : Sparse Ctx := []
  nctx : Nat := 1
  wdExp : Nat := 20
  faultCode : BitVec 16 := 0
  faultCtx : Nat := 0
  faultValid : Bool := false
  icache : List (Nat × BitVec 512) := []
  ops : List InFlight := []
  nextId : Nat := 0
  scratch : Sparse Byte := []
  sheaf : Sheaf := {}
  tab : TableUnit := {}
  flgInf : Bool := false
  flgNan : Bool := false
  /-- The RC counters, keyed by offset from CORE_BASE (R623). -/
  cnt : Sparse W32 := []
  chaff : W32 := 0
  mcast : Sparse W32 := []
  exact : ExactTables := {}
  scat : Scatter := {}
  trackers : Sparse Tracker := []
  /-- The quantisation history table: a slot's maximum in [31:0], minimum in [63:32] (R152). -/
  history : Sparse W64 := []
  rng : Sparse RngStream := []
  island : Island := {}
  /-- TAG bit 0 of the core's next transaction (R448). -/
  tagBit : Bool := false
  /-- The coordinate's core has failed and no spare has taken its place (R514, R524). -/
  failed : Bool := false
deriving DecidableEq, Repr

/-- A waiter of an object (R377, R378). -/
structure Waiter where
  core : Nat
  who : WaitAgent
  /-- A change of the object's counter has met the waiter's condition (R355). -/
  satisfied : Bool := false
deriving DecidableEq, Repr

/-- How an item stands (R498). -/
inductive ItemStatus where
  | open | done | failed | cancelled
deriving DecidableEq, Repr

/-- An item of a request: its status once ended, whether an instruction has been bound to it, its first fault (R297) and its counts (R624). -/
structure ItemInfo where
  status : ItemStatus := .open
  /-- The step number of its partition when an instruction was last bound to it (R500, R517). -/
  bound : Option Nat := none
  fault : BitVec 16 := 0
  halvings : Nat := 0
  misses : Nat := 0
  clips : Nat := 0
  dropped : Nat := 0
deriving DecidableEq, Repr

/-- A request-tracking entry in use (R420, R494). -/
structure Request where
  part : Nat
  tag : W32
  session : Option Nat
  count : Nat
  /-- The core group, by its number in the module: die * 16 + group (R422). -/
  group : Nat := 0
  /-- Taken by SESS.NEXT (R424). -/
  assigned : Bool := false
  /-- The partition's step number when it was taken (R517). -/
  takenAt : Nat := 0
  items : Sparse ItemInfo := []
  /-- Order of fetch, for the oldest request (R501). -/
  seq : Nat := 0
deriving DecidableEq, Repr

/-- STATE of a directory entry (R403). -/
inductive SessState where
  | free | open | closing
deriving DecidableEq, Repr

/-- A subpage that Winnow has added to a session and still holds (R408): its cache, sequence number and address. -/
structure HeldSub where
  cache : Nat
  u : Nat
  va : Nat
deriving DecidableEq, Repr

/-- A command record owed when something else ends: the tag and ring index of its entry (R480). -/
structure Owed where
  tag : W32
  index : Nat
deriving DecidableEq, Repr

/-- A session directory entry (R403), with Winnow's list of its subpages. -/
structure Sess where
  state : SessState := .free
  part : Nat := 0
  fmtK : Nat := 0
  fmtV : Nat := 0
  dm32 : Nat := 0
  layers : Nat := 0
  heads : Nat := 0
  plBase : Nat := 0
  spc : Nat := 0
  high : Nat := 0
  queued : Nat := 0
  assigned : Nat := 0
  die : Nat := 0
  group : Nat := 0
  held : List HeldSub := []
  /-- Subpages awaiting release, by address (R417). -/
  awaiting : List Nat := []
  closers : List Owed := []
deriving DecidableEq, Repr

/-- PART_STATUS.STATE (R485). -/
inductive PartState where
  | free | ready | run | waitRepair
deriving DecidableEq, Repr

/-- The grant of a partition (R482). -/
structure Grant where
  groups : W64 := 0
  objs : BitVec 128 := 0
  memQuota : Nat := 0
  pinQuota : Nat := 0
  reqTable : Nat := 0
  reqMax : Nat := 0
  chaff : W32 := 0
  vecCpl : Nat := 0
  vecEvt : Nat := 0
deriving DecidableEq, Repr

/-- A request, command or admin ring (R474), or a completion ring. -/
structure HostRing where
  base : W64 := 0
  log2 : Nat := 6
  tail : Nat := 0
  head : Nat := 0
  en : Bool := false
  halt : Bool := false
deriving DecidableEq, Repr

/-- A completion record made and not yet written (R507, R508): its 32 bytes without PHASE, and the tracking entry it frees (R420). -/
structure HeldRec where
  bits : BitVec 256
  frees : Option Nat := none
deriving DecidableEq, Repr

/-- A completion ring with its records held, its phase and its interrupt moderation (R506 to R509). -/
structure CplRing where
  ring : HostRing := {}
  phase : Bool := true
  full : Bool := false
  held : List HeldRec := []
  irqCount : Nat := 0
  irqUs : Nat := 0
  /-- Records since the last VEC_CPL. -/
  since : Nat := 0
deriving DecidableEq, Repr

/-- How far a move of a unit into or out of Tier F has come (R464): nothing asked, under way, read from its old place, written to a new place in
Tier F. -/
inductive Moving where
  | idle | busy | got | sent (frame : Nat)
deriving DecidableEq, Repr

/-- A placement unit mapped for a partition (R389): a 2 MiB page, or a 64 KiB subpage of the arena. -/
structure PUnit where
  sub : Bool := false
  tier : Tier := .H
  /-- Its die and its frame of 2 MiB; in Tier F the entry of Winnow's import table, and the global address ÷ 65,536 (R443, R464). -/
  die : Nat := 0
  frame : Nat := 0
  pinned : Bool := false
  heat : Nat := 0
  accesses : Nat := 0
  /-- COLD has made it a first demotion candidate of its tier (R397). -/
  cold : Bool := false
  lost : Bool := false
  /-- The fabric fault that an access of the step in progress meets, 0 for none (R393). -/
  cut : BitVec 16 := 0
  moving : Moving := .idle
deriving DecidableEq, Repr

/-- A read or write of a unit in Tier F: the unit's first address, and the whole 64-byte units that it touches (R464). -/
structure FarAccess where
  base : Nat
  va : Nat
  len : Nat
  put : Bool
deriving DecidableEq, Repr

/-- The memory of a partition: its placement units by first address, its bytes by address, the poisoned 64-byte units (R527), and the accesses of Tier F
that the step in progress has made, for which Winnow starts transfers as the step ends (R464). -/
structure Mem where
  units : List (Nat × PUnit) := []
  bytes : Sparse Byte := []
  poison : List Nat := []
  far : List FarAccess := []
deriving DecidableEq, Repr

/-- An inbound host stream (R501): its configuration, write offset and the burst in progress. -/
structure InStream where
  configured : Bool := false
  dst : Nat := 0
  dbytes : Nat := 0
  obj : Nat := 0
  gapUs : Nat := 0
  offset : Nat := 0
  /-- The burst in progress: where it started. -/
  burst : Option Nat := none
  expected : Option W32 := none
  item : Option (Nat × Nat) := none
deriving DecidableEq, Repr

/-- An entry of the remote window table (R458). -/
structure RemoteWin where
  module : Nat := 0
  ebase : Nat := 0
  size : Nat := 0
  key : W64 := 0
  epoch : Nat := 0
  gapUs : Nat := 0
deriving DecidableEq, Repr

/-- The running program (R302, R304, R491). -/
structure Prog where
  entry : Nat := 0
  args : Nat := 0
  nctx : Nat := 1
  step : W64 := 0
  /-- The START whose record is owed. -/
  start : Option Owed := none
  /-- STOPs whose records follow it (R492). -/
  stops : List Owed := []
  /-- STOP holds issue in every context. -/
  stopping : Bool := false
  /-- What the items and the START record fail with when the program ends as STOP does, 0 for CANCELLED (R492, R524, R531). -/
  endFault : BitVec 16 := 0
  /-- The contexts that have entered FAULT, in order: core, context, fault code (R491). -/
  faults : List (Nat × Nat × BitVec 16) := []
deriving DecidableEq, Repr

/-- SEQ and STEP of a complete record (R535). -/
structure SecRec where
  seq : Nat
  step : W64
deriving DecidableEq, Repr

/-- Securing of a partition (R533 to R547): its registers, the complete records of slots A and B, the local reservation's bytes (slot A at 0,
slot B at SLOT_MIB MiB), and a securing made pending by the health score. SEC_MEMk_LO has key 2k, SEC_MEMk_HI 2k + 1. -/
structure Sec where
  en : Bool := false
  dest : Bool := false
  every : Nat := 0
  waitMs : Nat := 0
  slotMib : Nat := 0
  rwin : Nat := 0
  cur : W64 := 0
  mem : Sparse Nat := []
  seq : Nat := 0
  a : Option SecRec := none
  b : Option SecRec := none
  store : Sparse Byte := []
  noRoom : Bool := false
  pending : Bool := false
deriving DecidableEq, Repr

/-- States of a window (R455). -/
inductive WinState where
  | free | open | closing | closed
deriving DecidableEq, Repr

/-- A command record owed on a partition's completion ring, or on a port's admin completion ring. -/
inductive OwedAt where
  | part (p : Nat) (o : Owed)
  | adm (n : Nat) (o : Owed)
deriving DecidableEq, Repr

/-- A window (R453); OWNER 16 is a spill window. `closer` is the WIN_CLOSE whose record is owed (R460), `recalling` a recall of a spill window's
units that has not ended (R394), `gone` that its partition has been destroyed (R459). -/
structure Window where
  state : WinState := .free
  owner : Nat := 0
  ebase : Nat := 0
  size : Nat := 0
  lva : Nat := 0
  key : W64 := 0
  epoch : Nat := 0
  rd : Bool := false
  wr : Bool := false
  peerEn : Bool := false
  peer : Nat := 0
  gapUs : Nat := 0
  closer : Option OwedAt := none
  recalling : Bool := false
  gone : Bool := false
deriving DecidableEq, Repr

/-- A partition (16, 17). -/
structure PartBlock where
  state : PartState := .free
  port : Nat := 0
  grant : Grant := {}
  spared : Bool := false
  req : HostRing := {}
  cmd : HostRing := {}
  cpl : CplRing := {}
  /-- CNT_LATE_DROP to CNT_CXL_DROP by offset 0x70 to 0x7C, and the Winnow counters by 0x1000 + offset. -/
  cnt : Sparse W32 := []
  prog : Prog := {}
  mem : Mem := {}
  arena : Option (Nat × Nat) := none
  streams : Sparse InStream := []
  /-- The remote window table; an entry of SIZE 0 is empty (R458). -/
  rwins : Sparse RemoteWin := []
  /-- RES_H, RES_L, RES_F, sampled at the last epoch boundary. -/
  res : Sparse Nat := []
  /-- The securing reservation, in 2 MiB pages (R533). -/
  secPages : Nat := 0
  sec : Sec := {}
  /-- Failed cores that await their SUBSTITUTION (R520), and failed cores of an unspared partition on its way to a step boundary, with whether their
  state is readable (R513, R522). -/
  refill : List Nat := []
  failing : List (Nat × Bool) := []
  /-- No boundary came within WAIT_MS of the failure: issue is held until the issued instructions have completed (R522, step 5). -/
  repairing : Bool := false
  /-- HALT_AT was crossed: the partition is on its way to a step boundary (R531). -/
  halting : Bool := false
  /-- MODULE and the window records of the record that START last restored (R547). -/
  kept : Option (Nat × List (Nat × Window)) := none
  /-- The PART_DESTROY that waits for the program to stop, or for the records of step 2 to be written: its port and its record (R488). -/
  destroyer : Option (Nat × Owed) := none
deriving DecidableEq, Repr

/-- A group of 8 cores: the host's frequency setting and the one in force, and the island cycles up to `since`, in thousandths (R306, R308). -/
structure CoreGroup where
  hostMhz : Nat := 2000
  mhz : Nat := 2000
  milliCycles : Nat := 0
  since : Nat := 0
deriving DecidableEq, Repr

/-- A host port (16): its admin rings, the partition and window bound to its HDM decoder (R504), and whether its PERST_Nn has been released: its
link then trains, and the port answers 100 ms later (R578); of its configuration space, the MSI-X vectors that the host has masked and those pending
(R509), the Completion Timeout value and the device state, true for D3hot (R470). -/
structure Port where
  adm : HostRing := {}
  acpl : CplRing := {}
  cxl : Option (Nat × Nat) := none
  released : Bool := false
  masked : List Nat := []
  pendingVectors : List Nat := []
  timeoutValue : Nat := 0
  d3hot : Bool := false
deriving DecidableEq, Repr

/-! ### The fabric (15) -/

/-- An inbound write burst of (SRC, TAG, burst index) at the owner (R457, R461, R462): its window, the exposure offset of its first byte, the
packets received by index, the index of the LAST one, and whether it has been committed, refused or discarded. -/
structure InBurst where
  src : Nat
  tag : Nat
  idx : Nat
  win : Nat
  first : Nat
  pkts : List (Nat × List Byte)
  last : Option Nat
  overs : Bool
deriving DecidableEq, Repr

/-- An outstanding burst of a transaction: the response packets received so far (R461, R463). -/
structure OutBurst where
  idx : Nat
  got : List Nat
deriving DecidableEq, Repr

/-- A transfer of Winnow that no instruction waits for (R447, R464): a move of a unit, or an access of a host, of the fabric or of a fetch. -/
structure OwnJob where
  job : FabJob
  part : Nat
  base : Nat
  move : Bool
deriving DecidableEq, Repr

/-- A transaction (R447): the core and the instruction, or the module's own transfer, the next burst to send, the outstanding bursts, and whether a
burst has been refused or has timed out (R463). -/
structure Trans where
  core : Nat
  id : Nat
  next : Nat
  live : List OutBurst
  failed : Bool
  own : Option OwnJob := none
deriving DecidableEq, Repr

/-- A TAKEOVER that awaits the answer to its PROBE (R466). -/
structure TakeoverWait where
  port : Nat
  owed : Owed
  id : Nat
  pmask : Nat
deriving DecidableEq, Repr

/-- The port that a burst in progress leaves on in a direction (R441, R448): kept from the first of its packets to the last. -/
structure Path where
  dir : Nat
  src : Nat
  dst : Nat
  tag : Nat
  burst : Nat
  port : Nat
deriving DecidableEq, Repr

/-- The fabric block and what the fabric holds. Port n's STATE has key n; `crc` and `retrain` count the failures in a row of a port's packet
and of its link; `spill` holds the bytes behind spill windows by exposure offset. -/
structure Fabric where
  id : Nat := 0
  standby : Bool := false
  kind : Nat := 0
  dxm1 : Nat := 0
  dym1 : Nat := 0
  dzm1 : Nat := 0
  placeRate : Nat := 10
  rspUs : Nat := 10000
  ports : Sparse Nat := []
  crc : Sparse Nat := []
  retrain : Sparse Nat := []
  cnt : Sparse W32 := []
  route : Sparse Nat := []
  wins : Sparse Window := []
  bursts : List InBurst := []
  trans : List (Nat × Trans) := []
  /-- The module's own transfers for which no transaction is free. -/
  waiting : List OwnJob := []
  /-- Packets that wait for their output (R452): in the input buffer of each port, each with its direction; of the module's own, by direction * 4 + VC;
  and parked, by direction * 4 + VC, each with the die whose park region holds it. `turn` is the source that each output and VC serves next. -/
  inbuf : Sparse (List (Nat × Packet)) := []
  locals : Sparse (List Packet) := []
  parked : Sparse (List (Nat × Packet)) := []
  turn : Sparse Nat := []
  paths : List Path := []
  spill : Sparse Byte := []
  /-- Poisoned 64-byte units of that storage, by exposure offset divided by 64 (R527). -/
  spillPoison : List Nat := []
  /-- Winnow's import table (R464). -/
  imports : Sparse RemoteWin := []
  takeover : List TakeoverWait := []
  /-- Owners of spill windows whose answer to Winnow's PROBEs is awaited (R465). -/
  probing : List Nat := []
deriving DecidableEq, Repr

/-! ### Husk (18) -/

/-- A key slot (R553): ACTIVE, its key, roles, binding and LAST, the refusals it has counted, and its FLT_AUTH_TAG refusals in a row (R560). -/
structure KeySlot where
  active : Bool := false
  key : BitVec 256 := 0
  roles : Nat := 0
  portEn : Bool := false
  port : Nat := 0
  last : W64 := 0
  cntFail : W32 := 0
  streak : Nat := 0
deriving DecidableEq, Repr

/-- Lifecycle states (R569). -/
inductive LifeState where
  | makerTest | provision | field | fieldDiag | returned | scrap
deriving DecidableEq, Repr

/-- A critical command set aside for the delay of R560, and whether it has been verified since. -/
structure Delayed where
  slot : Nat
  ring : RingName
  entry : Entry
  passed : Bool
deriving DecidableEq, Repr

/-- Fuses (R553, R569, R573): MAKER_TEST to SCRAP without FIELD_DIAG, and what the programmable fields hold. A core's position is
row * 8 + column. -/
structure Fuses where
  lc : LifeState := .makerTest
  zeroising : Bool := false
  deviceId : W64 := 0
  /-- FW_SVN_MIN, a thermometer code. -/
  svn : BitVec 64 := 0
  diagDisable : Bool := false
  refurb : Nat := 0
  /-- The maker key digest is fused (R569). -/
  makerKey : Bool := false
  /-- Fused-out cores: die * 256 + position. -/
  cores : List Nat := []
  /-- Fused splices: mesh alias, array, physical row. -/
  rows : List (Nat × Nat × Nat) := []
deriving DecidableEq, Repr

/-- The repair store of the boot flash (R512, R583): field splices, retired positions (die * 256 + position), retired frames by `frameKey`, and
memory parts left out (tier, die, part). -/
structure Repair where
  rows : List (Nat × Nat × Nat) := []
  cores : List Nat := []
  frames : List Nat := []
  parts : List (Tier × Nat × Nat) := []
deriving DecidableEq, Repr

/-- The boot flash (R553, R564, R581, R597): firmware banks, which is active (true: B) and which pending, the fabric configuration record, the
sealed store's slots and generation, and the repair store. -/
structure Flash where
  bankA : Option (List Byte) := none
  bankB : Option (List Byte) := none
  active : Bool := false
  pending : Option Bool := none
  fabrec : Option (BitVec 128) := none
  slots : Sparse KeySlot := []
  gen : Nat := 0
  /-- The device key pair exists (18, "Loading, rotating and erasing keys"). -/
  keyPair : Bool := false
  /-- Beside ZEROISING: the port and the record owed of the LIFECYCLE that set it, and the state that it left (R571, R572; log 32). -/
  zeroing : Option (Nat × Owed × Nat) := none
  repair : Repair := {}
deriving DecidableEq, Repr

/-- What Husk holds outside fuses and flash. The high half latched by a reader of slot n has key reader * 16 + n; readers are ports 0 to 3 and
management interfaces 4 and 5 (R574). -/
structure Husk where
  mono : Nat := 0
  locked : Bool := false
  /-- FIELD_DIAG is held in a register (18, "Lifecycle"). -/
  diag : Bool := false
  diagPort : Nat := 0
  debug : Nat := 0
  cntSlotFail : W32 := 0
  delayed : List Delayed := []
  latches : Sparse W32 := []
deriving DecidableEq, Repr

/-! ### Health, start-up and management (17, 19, 20) -/

/-- A sensor (R591): its last reading, whether it is marked implausible, its plausible periods in a row, and a read without an answer. -/
structure Sensor where
  last : Option Int := none
  bad : Bool := false
  good : Nat := 0
  silent : Bool := false
deriving DecidableEq, Repr

/-- The health block (17, 19, 20). `retrains` and `timeouts` list the events of the last periods, the present one first. -/
structure Health where
  /-- CNT_ registers by offset from HEALTH_BASE. -/
  cnt : Sparse W32 := []
  score : Nat := 0
  halted : Bool := false
  pts : Sparse Nat := []
  secureAt : Nat := 0x200
  haltAt : Nat := 0x3C0
  flowNom : Nat := 0
  retireAt : Nat := 16
  /-- A rise of the score may make securing pending again (R530). -/
  armed : Bool := true
  pwrCap : Nat := 2200
  pwrLimit : Nat := 4000
  thermCap : Sparse Nat := []
  leanReq : Sparse Nat := []
  sensors : Sparse Sensor := []
  periodCe : Nat := 0
  periodReplay : Nat := 0
  periodDroop : Nat := 0
  retrains : List Nat := []
  timeouts : List Nat := []
deriving DecidableEq, Repr

/-- Physical frames: correctable errors by frame (R526), and the frames retired (R528), by `frameKey`. -/
structure Frames where
  ce : Sparse Nat := []
  retired : List Nat := []
deriving DecidableEq, Repr

/-- Start-up (19): BOOT_STATUS, BOOT_MS, PG_OUT, the straps as sampled, EN as accepted, the running image, whether it boots from a pending bank,
the cause of a fallback, memory parts left out, the always-on hold-off of R588, and a missing PLL reference (R590). -/
structure Boot where
  stage : Nat := 1
  code : BitVec 16 := 0
  degraded : Bool := false
  bank : Bool := false
  fallback : Bool := false
  fabricOff : Bool := false
  bootMs : Nat := 0
  pgOut : Bool := false
  straps : BitVec 8 := 0
  en : Bool := true
  image : List Byte := []
  fromPending : Bool := false
  fallbackCode : BitVec 16 := 0
  partsOut : List (Tier × Nat × Nat) := []
  heldOff : Bool := false
  refHeld : Bool := false
  /-- The straps have been sampled in this cold start (R576). -/
  sampled : Bool := false
  /-- The 54 V input is disconnected (R588). -/
  cutOff : Bool := false
deriving DecidableEq, Repr

/-- Management (R594 to R596): the receiver of platform events, each interface's endpoint ID, the image chunks of FW_RECOVER, the test port's
instruction register (R568), and the fabric record waiting for the next reset is in the flash. -/
structure Mgmt where
  receiver : Option (Nat × Byte) := none
  eid : Sparse Byte := []
  recover : List Byte := []
  testIr : TestOp := .idcode
deriving DecidableEq, Repr

/-- An answer on a management interface, by what the spec says it holds; the DMTF standards lay out its bytes. -/
inductive Reply where
  /-- A success, and an error completion (R596). -/
  | done
  | error
  /-- A register's value (R596). -/
  | value (v : W32)
  /-- A PLDM reading, or unavailable (R595). -/
  | reading (x : Option Int)
  /-- The answer that the DMTF standard gives this request (R594, R595). -/
  | standard (request : List Byte)
  /-- SPDM answers (R565, R566): versions, capabilities, the algorithms selected, digests, a part of the certificate chain, a signature,
  measurement blocks by index with a signature when asked for, and the two errors. -/
  | versions (vs : List Nat)
  | capabilities
  | algorithms (asym hash : Bool)
  | digests (slots : Nat) (digest : List Byte)
  | certificate (part : List Byte) (left : Nat)
  | challengeAuth (signature : List Byte)
  | measurements (blocks : List (Nat × List Byte)) (count : Nat) (signature : Option (List Byte))
  | unsupportedRequest
  | invalidRequest
deriving DecidableEq, Repr

/-- What leaves the module, newest first in `State.out`: interrupts, answers, platform events to an endpoint of an interface with their event class
(R622), packets, and what a read returns. -/
inductive Out where
  | msix (port vector : Nat)
  | mgmt (iface : Nat) (r : Reply)
  | event (iface : Nat) (eid cls : Byte) (bytes : BitVec 128)
  /-- A packet on a link, with its CRC-32C trailer (R440, R444), and a request to the other end of a link for a replay (R440). -/
  | packet (port : Nat) (p : Packet) (crc : W32)
  | replay (port : Nat)
  | read (value : W32)
  | data (bytes : List (Option Byte))
  /-- What the test port shifts out (R568), of which the spec lays out no bits: the answer to an instruction of IEEE 1149.1, the readings of the
  sensors, the latches of a core's arrays, and what the fuses hold. -/
  | scan (op : TestOp)
  | sensors (readings : List (Option Int))
  | latches (active shadow : Sparse (BitVec 16))
  | fuses (f : Fuses)
deriving DecidableEq, Repr

/-- The state of the module. -/
structure State where
  /-- Commands waiting, first in first out. -/
  pending : List Instr := []
  /-- TIMEBASE (R307) [ns]. -/
  time : Nat := 0
  cores : Sparse Core := []
  groups : Sparse CoreGroup := []
  objs : Sparse W32 := []
  waiters : Sparse (List Waiter) := []
  parts : Sparse PartBlock := []
  reqs : List (Nat × Request) := []
  reqSeq : Nat := 0
  /-- Queue of each core group, by die * 16 + group (R424). -/
  queues : Sparse (List Nat) := []
  sess : Sparse Sess := []
  ports : Sparse Port := []
  boot : Boot := {}
  fuses : Fuses := {}
  flash : Flash := {}
  husk : Husk := {}
  fabric : Fabric := {}
  health : Health := {}
  frames : Frames := {}
  mgmt : Mgmt := {}
  /-- Physical position of each mesh alias, plus 1, where it is not the alias's own number (R516), and the spares of each die (R515). -/
  aliasMap : Sparse Nat := []
  spares : Sparse (List Nat) := []
  /-- Management event queue (R595). -/
  events : List (BitVec 128) := []
  /-- Memory of other modules, as this module's writes leave it and its reads find it, by module ID and exposure offset. -/
  remoteMem : Sparse (Sparse Byte) := []
  hostMem : Sparse (Sparse Byte) := []
  out : List Out := []
  freeCtr : Nat := 0
deriving DecidableEq, Repr

/-- The module when a cold start has been accepted: STAGE 1, nothing granted, every table at its defaults (R579, R587). -/
def State.reset : State := {}

end Sys2Proof.Machine
end

