-- ==== Sys2Proof/Machine/Ops.lean ====
section
/-! DEFINITION. The shared operations: sparse tables, bytes, records and events, items and faults, objects, memories. -/

namespace Sys2Proof.Machine

/-! ### Sparse tables -/

/-- The entry of key `k`, the default `d` where none is listed. -/
def sget {α : Type} (d : α) (m : Sparse α) (k : Nat) : α :=
  match m with
  | [] => d
  | (j, x) :: m => if j = k then x else sget d m k

/-- The table with `v` listed at key `k`, in its place. -/
def sinsert {α : Type} (m : Sparse α) (k : Nat) (v : α) : Sparse α :=
  match m with
  | [] => [(k, v)]
  | (j, x) :: m => if k < j then (k, v) :: (j, x) :: m else if k = j then (k, v) :: m else (j, x) :: sinsert m k v

/-- The table with `v` at key `k`: keys stay strictly rising and no entry equals the default. -/
def sput {α : Type} [DecidableEq α] (d : α) (m : Sparse α) (k : Nat) (v : α) : Sparse α :=
  if v = d then m.filter fun e => decide (e.1 ≠ k) else sinsert m k v

/-- The table with the keys `lo` to `lo + n - 1` back at the default. -/
def sclear {α : Type} (m : Sparse α) (lo n : Nat) : Sparse α := m.filter fun e => e.1 < lo || lo + n ≤ e.1

/-- The canonical form of a sparse table: keys strictly rising from `lo`, no entry equal to the default. -/
def swfFrom {α : Type} [DecidableEq α] (d : α) (lo : Nat) (m : Sparse α) : Bool :=
  match m with
  | [] => true
  | (j, x) :: m => decide (lo ≤ j) && !decide (x = d) && swfFrom d (j + 1) m

/-- The canonical form of a sparse table. -/
def swf {α : Type} [DecidableEq α] (d : α) (m : Sparse α) : Bool := swfFrom d 0 m

/-! ### Bytes and words (R5) -/

/-- The `n` bytes of a number, byte 0 first. -/
def leBytes (n v : Nat) : List Byte := (List.range n).map fun i => BitVec.ofNat 8 (v / 256 ^ i)

/-- The number that bytes spell, byte 0 in bits [7:0]. -/
def leNat : List Byte → Nat
  | [] => 0
  | b :: bs => b.toNat + 256 * leNat bs

/-- Bits `[lo + n - 1 : lo]` of a number. -/
def bits (v lo n : Nat) : Nat := v / 2 ^ lo % 2 ^ n

/-- Bit `i` of a number. -/
def bit (v i : Nat) : Bool := v.testBit i

/-- The bytes of a memory at `a` to `a + n - 1`. -/
def readBytes (m : Sparse Byte) (a n : Nat) : List Byte := (List.range n).map fun i => sget 0 m (a + i)

/-- The memory with bytes written from `a` on. -/
def writeBytes (m : Sparse Byte) (a : Nat) (bs : List Byte) : Sparse Byte :=
  match bs with
  | [] => m
  | b :: bs => writeBytes (sput 0 m a b) (a + 1) bs

/-- `n` bytes at `a` as a number. -/
def readNat (m : Sparse Byte) (a n : Nat) : Nat := leNat (readBytes m a n)

/-- The canonical form of a byte memory: addresses strictly rising, no listed byte equal to what an unlisted address reads as, 0. -/
def Memory.wf (m : Sparse Byte) : Bool := swf 0 m

/-- Every byte memory of the module, and of the hosts and modules around it, is in canonical form. -/
def State.memoryWf (s : State) : Bool :=
  s.cores.all (fun e => Memory.wf e.2.scratch) && s.parts.all (fun e => Memory.wf e.2.mem.bytes && Memory.wf e.2.sec.store)
    && s.hostMem.all (fun e => Memory.wf e.2) && s.remoteMem.all (fun e => Memory.wf e.2) && Memory.wf s.fabric.spill

/-- A counter of `w` bits that holds at all ones (R11). -/
def satAdd (w v k : Nat) : Nat := min (v + k) (2 ^ w - 1)

/-- A 32-bit CNT_ counter raised by `k` (R11). -/
def cntAdd (c : W32) (k : Nat) : W32 := BitVec.ofNat 32 (satAdd 32 c.toNat k)

/-! ### Fault codes (R616), events (R619) -/

abbrev FaultCode := BitVec 16
def fltSyncTimeout : FaultCode := 0x1001#16
def fltXiTimeout : FaultCode := 0x1002#16
def fltFmtRole : FaultCode := 0x2001#16
def fltAccTag : FaultCode := 0x2002#16
def fltAccOvf : FaultCode := 0x2003#16
def fltArrParity : FaultCode := 0x2004#16
def fltChaffLimit : FaultCode := 0x3001#16
def fltCompFull : FaultCode := 0x3002#16
def fltScaleSkew : FaultCode := 0x4001#16
def fltScaleVary : FaultCode := 0x4002#16
def fltScaleAxis : FaultCode := 0x4003#16
def fltMemUnmapped : FaultCode := 0x5001#16
def fltMemUe : FaultCode := 0x5002#16
def fltIfetch : FaultCode := 0x5003#16
def fltKvNospace : FaultCode := 0x5004#16
def fltPinQuota : FaultCode := 0x5005#16
def fltMemQuota : FaultCode := 0x5006#16
def fltSpillLost : FaultCode := 0x5007#16
def fltSpillFull : FaultCode := 0x5008#16
def fltStreamGap : FaultCode := 0x6001#16
def fltWindowClosed : FaultCode := 0x6002#16
def fltWindowKey : FaultCode := 0x6003#16
def fltWindowRange : FaultCode := 0x6004#16
def fltFabUnreach : FaultCode := 0x6005#16
def fltFabTimeout : FaultCode := 0x6006#16
def fltTakeoverLive : FaultCode := 0x6007#16
def fltArgRange : FaultCode := 0x7001#16
def fltIllegalOp : FaultCode := 0x7002#16
def fltCmdUnknown : FaultCode := 0x7003#16
def fltPartBusy : FaultCode := 0x7004#16
def fltPartState : FaultCode := 0x7005#16
def fltHostTimeout : FaultCode := 0x7006#16
def fltItemOpen : FaultCode := 0x7007#16
def fltProgEnded : FaultCode := 0x7008#16
def fltSessFull : FaultCode := 0x7009#16
def fltSessUnknown : FaultCode := 0x700A#16
def fltCoreFail : FaultCode := 0x8001#16
def fltRollback : FaultCode := 0x8002#16
def fltNoSpare : FaultCode := 0x8003#16
def fltRestoreDigest : FaultCode := 0x8004#16
def fltRestoreMismatch : FaultCode := 0x8005#16
def fltHealthHalt : FaultCode := 0x8006#16
def fltSelftest : FaultCode := 0x8007#16
def fltMemtrain : FaultCode := 0x8008#16
def fltKeySlot : FaultCode := 0x9001#16
def fltAuthReplay : FaultCode := 0x9002#16
def fltAuthTag : FaultCode := 0x9003#16
def fltHuskLocked : FaultCode := 0x9004#16
def fltKeyUnwrap : FaultCode := 0x9005#16
def fltFwSig : FaultCode := 0x9006#16
def fltFwRollback : FaultCode := 0x9007#16
def fltLifecycle : FaultCode := 0x9008#16
def fltFuse : FaultCode := 0x9009#16
def fltBootImage : FaultCode := 0x900A#16
def fltPowerLoss : FaultCode := 0xA001#16
def fltThermalTrip : FaultCode := 0xA002#16
def fltRailFail : FaultCode := 0xA003#16
def fltPllLock : FaultCode := 0xA004#16
def fltRefclkLoss : FaultCode := 0xA005#16

/-- The fault code of a transfer that the fabric fails (R463, R618). -/
def fabCode : FabFault → FaultCode
  | .key => fltWindowKey
  | .closed => fltWindowClosed
  | .range => fltWindowRange
  | .unmapped => fltMemUnmapped
  | .gap => fltStreamGap
  | .unreach => fltFabUnreach
  | .poison => fltMemUe
  | .timeout => fltFabTimeout

/-! ### Components of the state by number -/

def State.core (s : State) (k : Nat) : Core := sget {} s.cores k
def State.setCore (s : State) (k : Nat) (c : Core) : State := { s with cores := sput {} s.cores k c }
def Core.ctx (c : Core) (i : Nat) : Ctx := sget {} c.ctxs i
def Core.setCtx (c : Core) (i : Nat) (x : Ctx) : Core := { c with ctxs := sput {} c.ctxs i x }
def State.ctx (s : State) (k i : Nat) : Ctx := (s.core k).ctx i
def State.setCtx (s : State) (k i : Nat) (x : Ctx) : State := s.setCore k ((s.core k).setCtx i x)
def State.part (s : State) (p : Nat) : PartBlock := sget {} s.parts p
def State.setPart (s : State) (p : Nat) (b : PartBlock) : State := { s with parts := sput {} s.parts p b }
def State.port (s : State) (n : Nat) : Port := sget {} s.ports n
def State.setPort (s : State) (n : Nat) (b : Port) : State := { s with ports := sput {} s.ports n b }
def State.sessOf (s : State) (n : Nat) : Sess := sget {} s.sess n
def State.setSess (s : State) (n : Nat) (e : Sess) : State := { s with sess := sput {} s.sess n e }
def State.obj (s : State) (n : Nat) : W32 := sget 0 s.objs n
def State.hostMemOf (s : State) (n : Nat) : Sparse Byte := sget [] s.hostMem n
def State.setHostMem (s : State) (n : Nat) (m : Sparse Byte) : State := { s with hostMem := sput [] s.hostMem n m }

/-- The request-tracking entry `r`, when it is in use. -/
def State.request (s : State) (r : Nat) : Option Request := (s.reqs.find? (·.1 == r)).map (·.2)
/-- The table of requests with entry `r` replaced. -/
def State.setRequest (s : State) (r : Nat) (q : Request) : State :=
  { s with reqs := s.reqs.map fun e => if e.1 = r then (r, q) else e }
/-- Entry `r` becomes free. -/
def State.freeRequest (s : State) (r : Nat) : State := { s with reqs := s.reqs.filter fun e => e.1 != r }

/-- The next value the spec leaves open: a draw of `Config.freeValue`. -/
def State.free (s : State) : W64 × State := (Config.freeValue s.freeCtr, { s with freeCtr := s.freeCtr + 1 })

/-- The cores of a partition, by mesh alias in ascending order (R302, R482). -/
def Grant.cores (g : Grant) : List Nat :=
  (List.range 512).filter fun k => g.groups.toNat.testBit (k / 128 * 16 + k % 128 / 8)

def PartBlock.cores (p : PartBlock) : List Nat := if p.state = .free then [] else p.grant.cores

/-- The partition that holds a core (R274). -/
def State.partOf (s : State) (k : Nat) : Option Nat :=
  (List.range 16).find? fun p => (s.part p).state != .free && (s.part p).grant.groups.toNat.testBit (k / 128 * 16 + k % 128 / 8)

/-- The partition that holds an object (R482). -/
def PartBlock.hasObj (p : PartBlock) (n : Nat) : Bool := p.state != .free && p.grant.objs.toNat.testBit (n / 1024)

/-- die × 256 + core of a mesh alias. -/
def coordOf (k : Nat) : Nat := k / 128 * 256 + k % 128

/-- Core group of a core: die × 16 + group of 8 (R422). -/
def groupOf (k : Nat) : Nat := k / 128 * 16 + k % 128 / 8

/-! ### Completion records (R505 to R509) -/

/-- Entries a ring holds: those posted and not consumed. -/
def ringUsed (log2 head tail : Nat) : Nat := (tail + 2 ^ log2 - head) % 2 ^ log2

/-- A completion ring without room (R475: at most 2^n - 1). -/
def HostRing.isFull (r : HostRing) : Bool := decide (2 ^ r.log2 ≤ ringUsed r.log2 r.head r.tail + 1)

/-- A record that is written raises no interrupt by itself, VEC_CPL, or VEC_EVT (R509). -/
def CplRing.needsCpl (c : CplRing) : Bool := c.irqCount = 0 || c.irqUs = 0 || decide (c.irqCount ≤ c.since)

/-- Where a completion ring's interrupts go: a partition's two vectors, or a port's admin ring, whose vectors the spec does not name. -/
structure Vectors where
  port : Nat
  cpl : Nat
  evt : Nat
deriving DecidableEq, Repr

def State.emit (s : State) (o : Out) : State := { s with out := o :: s.out }

/-- A port takes part in traffic: its PERST_Nn has been released (R578), and it is in D0 (R470; log 66). -/
def State.portUp (s : State) (n : Nat) : Bool := (s.port n).released && !(s.port n).d3hot

/-- A port's MSI-X vector is raised: sent, or, while the host masks it or holds the port in D3hot, its pending bit is set (R509; log 66). -/
def State.interrupt (s : State) (n vector : Nat) : State :=
  let x := s.port n
  if !x.released then s
  else if x.d3hot || x.masked.contains vector then
    s.setPort n { x with pendingVectors := if x.pendingVectors.contains vector then x.pendingVectors else vector :: x.pendingVectors }
  else s.emit (.msix n vector)

/-- KIND of a record (R505). -/
def recKind (b : BitVec 256) : Nat := bits b.toNat 17 2

/-- The module writes one record into a completion ring that has room, at its tail, with the ring's phase (R506). -/
def writeRecord (v : Vectors) (c : CplRing) (r : HeldRec) (s : State) : CplRing × State :=
  let b := if c.phase then r.bits ||| 0x10000#256 else r.bits
  let a := c.ring.base.toNat + 32 * c.ring.tail
  let s := s.setHostMem v.port (writeBytes (s.hostMemOf v.port) a (leBytes 32 b.toNat))
  let s := match r.frees with
    | some q => s.freeRequest q
    | none => s
  let last := decide (2 ^ c.ring.log2 ≤ c.ring.tail + 1)
  let c := { c with ring := { c.ring with tail := if last then 0 else c.ring.tail + 1 },
                    phase := if last then !c.phase else c.phase, since := c.since + 1 }
  let s := if recKind r.bits = 2 then s.interrupt v.port v.evt else s
  if c.needsCpl then ({ c with since := 0 }, s.interrupt v.port v.cpl) else (c, s)

/-- Writes the held records in order while the ring is enabled and has room (R507, R508) and its port takes part in traffic. -/
def drainHeld (v : Vectors) (held : List HeldRec) (c : CplRing) (s : State) : CplRing × State :=
  match held with
  | [] => ({ c with held := [] }, s)
  | r :: rest =>
    if c.ring.en && !c.ring.isFull && s.portUp v.port then
      let (c, s) := writeRecord v c r s
      drainHeld v rest c s
    else ({ c with held := r :: rest }, s)

/-- After records and ring moves: FULL follows the ring, and its setting raises the event vector once (R507). -/
def settleCpl (v : Vectors) (c : CplRing) (s : State) : CplRing × State :=
  let (c, s) := drainHeld v c.held c s
  let full := c.ring.en && c.ring.isFull
  ({ c with full := full }, if full && !c.full then s.interrupt v.port v.evt else s)

/-- The vectors of a partition (R482). -/
def PartBlock.vectors (p : PartBlock) : Vectors := { port := p.port, cpl := p.grant.vecCpl, evt := p.grant.vecEvt }

/-- The vectors of a port's admin ring: the spec names none (log 7). -/
def adminVectors (port : Nat) : Vectors :=
  { port := port, cpl := Config.adminVector port, evt := Config.adminVector port }

/-- Settles a partition's completion ring. -/
def State.settlePart (s : State) (p : Nat) : State :=
  let b := s.part p
  let (c, s) := settleCpl b.vectors b.cpl s
  s.setPart p { s.part p with cpl := c }

/-- Settles a port's admin completion ring. -/
def State.settlePort (s : State) (n : Nat) : State :=
  let b := s.port n
  let (c, s) := settleCpl (adminVectors n) b.acpl s
  s.setPort n { s.port n with acpl := c }

/-- A port takes part in traffic again: what its completion rings hold is written. -/
def State.portBack (s : State) (n : Nat) : State :=
  ((s.parts.filter fun e => e.2.state != .free && e.2.port == n).map (·.1)).foldl State.settlePart (s.settlePort n)

/-- A record joins the records of its partition and is written as soon as R507 and R508 allow. -/
def State.postPart (s : State) (p : Nat) (r : HeldRec) : State :=
  let b := s.part p
  (s.setPart p { b with cpl := { b.cpl with held := b.cpl.held ++ [r] } }).settlePart p

/-- The same on a port's admin ring. -/
def State.postPort (s : State) (n : Nat) (r : HeldRec) : State :=
  let b := s.port n
  (s.setPort n { b with acpl := { b.acpl with held := b.acpl.held ++ [r] } }).settlePort n

/-- Fields of a record at its words (R505). -/
def mkRecord (w0 item w2 w3 w4 w5 tag time : Nat) : BitVec 256 :=
  BitVec.ofNat 256 (bits w0 0 32 + bits item 0 32 * 2 ^ 32 + bits w2 0 32 * 2 ^ 64 + bits w3 0 32 * 2 ^ 96 + bits w4 0 32 * 2 ^ 128
    + bits w5 0 32 * 2 ^ 160 + bits tag 0 32 * 2 ^ 192 + bits time 0 32 * 2 ^ 224)

/-- STATUS of a command record (R505). -/
inductive RecStatus where
  | done | failed | cancelled
deriving DecidableEq, Repr

def RecStatus.code : RecStatus → Nat
  | .done => 0 | .failed => 1 | .cancelled => 2

/-- A command record (R480, R505). -/
def cmdRecord (s : State) (o : Owed) (st : RecStatus) (f : FaultCode) (result : Nat) : HeldRec :=
  { bits := mkRecord (st.code * 2 ^ 14 + 2 ^ 17) o.index f.toNat result 0 0 o.tag.toNat s.time }

/-- An event record (R505, R619). -/
def evtRecord (s : State) (code d d2 : Nat) : HeldRec :=
  { bits := mkRecord (2 * 2 ^ 17) 0 0 (bits code 0 16) d d2 0 s.time }

/-- Raises a counter of a partition. -/
def PartBlock.count (b : PartBlock) (off k : Nat) : PartBlock := { b with cnt := sput 0 b.cnt off (cntAdd (sget 0 b.cnt off) k) }

/-- Raises a counter of the health block. -/
def State.healthCount (s : State) (off k : Nat) : State :=
  { s with health := { s.health with cnt := sput 0 s.health.cnt off (cntAdd (sget 0 s.health.cnt off) k) } }

/-- An event toward the management interface (R595, R622): 16 bytes into the queue of 64, or dropped and counted in CNT_EVT_LOST. -/
def State.mgmtEvent (s : State) (code d d2 : Nat) : State :=
  if s.events.length < 64 then
    { s with events := s.events ++
      [BitVec.ofNat 128 (bits code 0 16 + bits d 0 32 * 2 ^ 32 + bits d2 0 32 * 2 ^ 64 + bits s.time 0 32 * 2 ^ 96)] }
  else s.healthCount 0x228 1

/-- The event record of one partition, or its loss while CPL_EN is 0 (R620). -/
def State.hostEvent (s : State) (p code d d2 : Nat) : State :=
  let b := s.part p
  if b.cpl.ring.en then s.postPart p (evtRecord s code d d2)
  else s.setPart p (b.count 0x78 1)

/-- An event (R620): to the management interface, and to the owning host of each partition named. -/
def State.event (s : State) (code d d2 : Nat) (ps : List Nat) : State :=
  ps.foldl (fun s p => s.hostEvent p code d d2) (s.mgmtEvent code d d2)

/-- A command record on a partition's completion ring. -/
def State.cmdDone (s : State) (p : Nat) (o : Owed) (st : RecStatus) (f : FaultCode) (result : Nat) : State :=
  s.postPart p (cmdRecord s o st f result)

/-- A command record on a port's admin completion ring. -/
def State.admDone (s : State) (n : Nat) (o : Owed) (st : RecStatus) (f : FaultCode) (result : Nat) : State :=
  s.postPort n (cmdRecord s o st f result)

/-- A physical frame of 2 MiB by tier and number (R526). -/
def frameKey (t : Tier) (n : Nat) : Nat :=
  match t with
  | .H => n | .L => 2 ^ 31 + n | .F => 2 ^ 32 + n

/-! ### Items (R293 to R298, R498) -/

/-- Item `i` of a request. -/
def Request.item (q : Request) (i : Nat) : ItemInfo := sget {} q.items i
def Request.setItem (q : Request) (i : Nat) (x : ItemInfo) : Request := { q with items := sput {} q.items i x }

/-- Items of a request that have not ended. -/
def Request.openCount (q : Request) : Nat := q.count - (q.items.filter fun e => e.2.status != .open).length

/-- The item record of R505, with the counts saturated at their fields. -/
def itemRecord (s : State) (r i : Nat) (q : Request) (x : ItemInfo) (st : RecStatus) (last : Bool) : HeldRec :=
  { bits := mkRecord (bits r 0 14 + st.code * 2 ^ 14 + (if last then 2 ^ 19 else 0)) i
      (x.fault.toNat + min x.halvings 0xFFFF * 2 ^ 16) (min x.misses 0xFFFFFFFF) (min x.clips 0xFFFFFFFF) (min x.dropped 0xFFFFFFFF)
      q.tag.toNat s.time
    frees := if last then some r else none }

/-- When the last item of a request has ended: the request leaves its group queue, and its session's count falls (R424, R417). -/
def State.requestOver (s : State) (r : Nat) (q : Request) : State :=
  let s := { s with queues := sput [] s.queues q.group ((sget [] s.queues q.group).filter (· != r)) }
  match q.session with
  | some n =>
    let e := s.sessOf n
    s.setSess n (if q.assigned then { e with assigned := e.assigned - 1 } else { e with queued := e.queued - 1 })
  | none => s

/-- Whether an item of a request in flight has not ended. -/
def State.itemOpen (s : State) (r i : Nat) : Bool :=
  match s.request r with
  | some q => decide (i < q.count) && (q.item i).status == .open
  | none => false

/-- A context's registers name item `i` of the request that now has number `r`. -/
def ItemCtx.names (x : ItemCtx) (r i : Nat) : Bool := x.valid && !x.past && x.req == r && x.item == i

/-- Every context of the module that names item `i` of request `r` shows FAILED (R294, R499). -/
def Core.markFailed (c : Core) (r i : Nat) : Core :=
  { c with ctxs := c.ctxs.map fun e =>
      if e.2.item.names r i then (e.1, { e.2 with item := { e.2.item with failed := true } }) else e }

def State.markFailed (s : State) (r i : Nat) : State := { s with cores := s.cores.map fun e => (e.1, e.2.markFailed r i) }

/-- A context and its wait are bound to an item that has ended no longer. -/
def Ctx.unbind (x : Ctx) (r i : Nat) : Ctx :=
  { x with
    item := if x.item.names r i then { x.item with past := true } else x.item
    wait := x.wait.map fun w => if w.bind = some (r, i) then { w with bind := none } else w }

/-- Instructions in flight and waits are bound to an item that has ended no longer: their later faults are faults without an item, and a SESS.END
among them ends nothing (R358, R499). -/
def Core.unbind (c : Core) (r i : Nat) : Core :=
  { c with
    ops := c.ops.map fun o => if o.bind = some (r, i) then { o with bind := none } else o
    ctxs := c.ctxs.map fun e => (e.1, e.2.unbind r i) }

/-- Nothing in flight is bound to an ended item: no instruction, and no burst of an inbound stream (R499, R503). -/
def State.unbind (s : State) (p r i : Nat) : State :=
  let b := s.part p
  { s with cores := s.cores.map fun (e : Nat × Core) => (e.1, e.2.unbind r i) }.setPart p
    { b with streams := b.streams.map fun (e : Nat × InStream) => if e.2.item = some (r, i) then (e.1, { e.2 with item := none }) else e }

/-- An item ends, once, with its record (R498, R505). -/
def State.endItem (s : State) (r i : Nat) (st : RecStatus) (f : FaultCode) : State :=
  match s.request r with
  | none => s
  | some q =>
    let x := q.item i
    if q.count ≤ i || x.status != .open then s
    else
      let x := { x with status := match st with
                          | .done => .done | .failed => .failed | .cancelled => .cancelled
                        fault := match st with
                          | .done => 0 | .failed => if x.fault = 0 then f else x.fault | .cancelled => 0 }
      let q := q.setItem i x
      let last := decide (q.openCount = 0)
      let s := s.setRequest r q
      let s := (if st = .cancelled then s.markFailed r i else s).unbind q.part r i
      let s := if last then s.requestOver r q else s
      s.postPart q.part (itemRecord s r i q x st last)

/-- Every item of a request that has not ended and meets a test ends. -/
def State.endItems (s : State) (r : Nat) (st : RecStatus) (f : FaultCode) (sel : ItemInfo → Bool) : State :=
  match s.request r with
  | none => s
  | some q => (List.range q.count).foldl (fun s i => if sel (q.item i) then s.endItem r i st f else s) s

/-- An item fails, without ending (R294): the first fault stands (R297). -/
def State.failItem (s : State) (r i : Nat) (f : FaultCode) : State :=
  match s.request r with
  | none => s
  | some q =>
    let x := q.item i
    let s := s.setRequest r (q.setItem i { x with fault := if x.fault = 0 then f else x.fault })
    s.markFailed r i

/-- A fault without an item (R296): CORE_FAULT and EVT_CORE_FAULT toward the owning host. -/
def State.coreFault (s : State) (k c : Nat) (f : FaultCode) : State :=
  let x := s.core k
  let s := if x.faultValid then s else s.setCore k { x with faultCode := f, faultCtx := c, faultValid := true }
  s.event 0x0001 (coordOf k) (c * 2 ^ 16 + f.toNat) (s.partOf k).toList

/-- The fault of an instruction of context `c` of core `k`, charged to the item it is bound to (R293, R294, R296, R358). -/
def State.faultAt (s : State) (k c : Nat) (b : Option (Nat × Nat)) (f : FaultCode) : State :=
  match b with
  | some (r, i) => if s.itemOpen r i then s.failItem r i f else s.coreFault k c f
  | none => s.coreFault k c f

/-- The item a context's new instructions are bound to (R293): none once it has ended (R358). -/
def Ctx.bind (x : Ctx) : Option (Nat × Nat) := if x.item.valid && !x.item.past then some (x.item.req, x.item.item) else none

/-- Counts charged to an item that has not ended (R293, R624). -/
def State.charge (s : State) (b : Option (Nat × Nat)) (f : ItemInfo → ItemInfo) : State :=
  match b with
  | none => s
  | some (r, i) =>
    match s.request r with
    | none => s
    | some q =>
      let x := q.item i
      if x.status == .open && decide (i < q.count) then s.setRequest r (q.setItem i (f x)) else s

/-- A core counter raised by `k` (R11, R623). -/
def Core.count (c : Core) (off k : Nat) : Core :=
  if k = 0 then c else { c with cnt := sput 0 c.cnt off (cntAdd (sget 0 c.cnt off) k) }

def State.coreCount (s : State) (k off n : Nat) : State := s.setCore k ((s.core k).count off n)

/-! ### Objects (R353 to R355, R377 to R379) -/

/-- The amount test of SYNC.WAIT, SLOT.GET and SLOT.PUT: the signed distance is not negative modulo 2^32. -/
def reached (counter amount : W32) : Bool := decide ((counter - amount).toNat < 2 ^ 31)

/-- Whether a wait's condition holds of a counter value (R351, R353). -/
def WaitKind.holds (w : WaitKind) (counter : W32) : Bool :=
  match w with
  | .sync _ a => reached counter a
  | .slot _ plus k _ _ => reached (counter + plus) (k + 1)
  | _ => false

/-- The wait an agent is in. -/
def State.waitOf (s : State) (w : Waiter) : Option Wait :=
  match w.who with
  | .ctx c => (s.ctx w.core c).wait
  | .ring id r =>
    match (s.core w.core).ops.find? (·.id == id) with
    | some { job := .tile j, .. } =>
      (match r with
      | .streamed => j.yRing | .output => j.oRing | .seed => j.sRing | .channel => j.cRing).bind (·.waiting)
    | _ => none

/-- An object's counter takes a new value and each of its waiters is tested against it (R355, R378). -/
def State.setObj (s : State) (n : Nat) (v : W32) : State :=
  let ws := (sget [] s.waiters n).map fun w =>
    match s.waitOf w with
    | some x => { w with satisfied := w.satisfied || x.kind.holds v }
    | none => w
  { s with objs := sput 0 s.objs n v, waiters := sput [] s.waiters n ws }

/-- An object given `a` (SYNC.SIGNAL, a completion, a slot release). -/
def State.signal (s : State) (n : Nat) (a : W32) : State := s.setObj n (s.obj n + a)

/-- An agent joins an object's waiter list, last (R378). -/
def State.addWaiter (s : State) (n : Nat) (w : Waiter) : State :=
  { s with waiters := sput [] s.waiters n (sget [] s.waiters n ++ [w]) }

/-- An agent leaves an object's waiter list (R378). -/
def State.dropWaiter (s : State) (n k : Nat) (who : WaitAgent) : State :=
  { s with waiters := sput [] s.waiters n ((sget [] s.waiters n).filter fun w => !(w.core == k && w.who == who)) }

/-! ### Directions and ports (R438, R441) -/

/-- The pair of ports of a direction, 1 +X to 6 −Z as route entries number them. -/
def dirPorts (d : Nat) : Nat × Nat :=
  match d with
  | 1 => (0, 9) | 2 => (3, 6) | 3 => (1, 4) | 4 => (7, 10) | 5 => (2, 8) | _ => (5, 11)

/-- The direction of a port. -/
def portDir (n : Nat) : Nat :=
  if n = 0 ∨ n = 9 then 1 else if n = 3 ∨ n = 6 then 2 else if n = 1 ∨ n = 4 then 3 else if n = 7 ∨ n = 10 then 4
  else if n = 2 ∨ n = 8 then 5 else 6

/-- STATE of a port: 0 off, 1 up, 2 retraining, 3 down. -/
def State.vport (s : State) (n : Nat) : Nat := sget 0 s.fabric.ports n

/-- A direction is down when neither port of its pair is up or retraining (R441). -/
def State.dirDown (s : State) (d : Nat) : Bool :=
  let (a, b) := dirPorts d
  let off (n : Nat) : Bool := s.vport n == 0 || s.vport n == 3
  off a && off b

/-! ### Routes (R449 to R451) -/

/-- Where a packet for a module goes: delivered here, refused, or out in a direction with its dateline bit. -/
inductive Hop where
  | here | refused | out (dir : Nat) (dateline : Bool)
deriving DecidableEq, Repr

def State.hopOf (s : State) (dst : Nat) : Hop :=
  let e := sget 0 s.fabric.route dst
  let d := e % 8
  if d = 0 then (if dst = s.fabric.id then .here else .refused)
  else if d = 7 ∨ s.dirDown d = true then .refused
  else .out d (e / 8 % 2 = 1)

/-- The module that holds a Tier F unit, and its exposure offset (R443). -/
def PUnit.owner (u : PUnit) : Nat := u.frame / 2 ^ 29
def PUnit.exposure (u : PUnit) : Nat := u.frame % 2 ^ 29 * 65536

/-- No packet of this module can leave for a module (R451). -/
def State.noRoute (s : State) (dst : Nat) : Bool :=
  match s.hopOf dst with
  | .out _ _ => false
  | _ => true

/-! ### Partition memory (13, R389 to R391) and the core's view of addresses (R299) -/

def PUnit.size (u : PUnit) : Nat := if u.sub then 65536 else 2097152

/-- The placement unit that covers an address. -/
def Mem.unitAt (m : Mem) (va : Nat) : Option (Nat × PUnit) :=
  m.units.find? fun e => decide (e.1 ≤ va) && decide (va < e.1 + e.2.size)

def State.mem (s : State) (p : Nat) : Mem := (s.part p).mem
def State.setMem (s : State) (p : Nat) (m : Mem) : State := s.setPart p { s.part p with mem := m }

/-- Why an access of partition memory fails. -/
inductive MemFail where
  | unmapped | lost | poison (unit : Nat) | fabric (fault : BitVec 16)
deriving DecidableEq, Repr

def MemFail.code : MemFail → FaultCode
  | .unmapped => fltMemUnmapped
  | .lost => fltSpillLost
  | .poison _ => fltMemUe
  | .fabric f => f

/-- Whether the 64-byte unit `u` (an address divided by 64) can be read or written. -/
def Mem.failOf (m : Mem) (isRead : Bool) (u : Nat) : Option MemFail :=
  match m.unitAt (64 * u) with
  | none => some .unmapped
  | some (_, x) =>
    if x.cut ≠ 0 then some (.fabric x.cut) else if x.lost then some .lost else if isRead && m.poison.contains u then some (.poison u) else none

/-- The same of a partition's memory in the module: a unit in Tier F whose owner no packet can reach fails too (R393, R451, R463). -/
def State.failOf (s : State) (p : Nat) (isRead : Bool) (u : Nat) : Option MemFail :=
  match (s.mem p).failOf isRead u with
  | some f => some f
  | none =>
    match (s.mem p).unitAt (64 * u) with
    | some (_, x) => if x.tier = .F ∧ s.noRoute x.owner = true then some (.fabric fltFabUnreach) else none
    | none => none

/-- The 64-byte units that `n` bytes at `va` touch. -/
def unitsOf (va n : Nat) : List Nat := if n = 0 then [] else List.range' (va / 64) ((va + n - 1) / 64 - va / 64 + 1)

/-- The first failure of an access of a partition's memory in ascending address, and the address at which it stops. -/
def State.check (s : State) (p : Nat) (isRead : Bool) (va n : Nat) : Option (MemFail × Nat) :=
  (unitsOf va n).findSome? fun u => (s.failOf p isRead u).map fun f => (f, max va (64 * u))

/-- The part of an access that falls into a unit in Tier F, in whole 64-byte units (log 67). -/
def farPart (va n : Nat) (put : Bool) (e : Nat × PUnit) : Option FarAccess :=
  if e.2.tier = .F ∧ e.2.lost = false ∧ n ≠ 0 ∧ va < e.1 + e.2.size ∧ e.1 < va + n then
    let lo := max e.1 (64 * (va / 64))
    let hi := min (e.1 + e.2.size) (64 * ((va + n + 63) / 64))
    some { base := e.1, va := lo, len := hi - lo, put := put }
  else none

/-- One more access of Tier F: joined to the last where it carries on in the same unit and direction. -/
def addFar (l : List FarAccess) (a : FarAccess) : List FarAccess :=
  match l with
  | b :: rest =>
    if b.base = a.base ∧ b.put = a.put ∧ b.va ≤ a.va ∧ a.va ≤ b.va + b.len then { b with len := max b.len (a.va + a.len - b.va) } :: rest
    else a :: l
  | [] => [a]

/-- An access noted where a unit lies in Tier F (R464). -/
def Mem.note (m : Mem) (va n : Nat) (put : Bool) : Mem := { m with far := (m.units.filterMap (farPart va n put)).foldl addFar m.far }

/-- An access of memory, counted for its placement units in the present epoch, one for each 64-byte unit touched (R395). -/
def Mem.touch (m : Mem) (va n : Nat) (put : Bool := false) : Mem :=
  { m.note va n put with
    units := m.units.map fun e =>
      (e.1, { e.2 with accesses := e.2.accesses +
        ((unitsOf va n).filter fun u => decide (e.1 ≤ 64 * u) && decide (64 * u < e.1 + e.2.size)).length }) }

/-- A placement unit replaced. -/
def Mem.setUnit (m : Mem) (base : Nat) (u : PUnit) : Mem :=
  { m with units := m.units.map fun e => if e.1 = base then (base, u) else e }

/-- Bytes stored into mapped memory by Winnow itself, which R395 does not count; a whole 64-byte unit written no longer holds its poison (R527). -/
def Mem.fill (m : Mem) (va : Nat) (bs : List Byte) : Mem :=
  { m with bytes := writeBytes m.bytes va bs,
           poison := m.poison.filter fun u => !(decide (va ≤ 64 * u) && decide (64 * u + 64 ≤ va + bs.length)) }

/-- Bytes that a core, a DMA engine, a host port or a fabric request stores. -/
def Mem.store (m : Mem) (va : Nat) (bs : List Byte) : Mem := (m.touch va bs.length true).fill va bs

/-- Raises a frame's correctable count (R526). -/
def State.frameError (s : State) (u : PUnit) : State :=
  let key := frameKey u.tier u.frame
  { s with frames := { s.frames with ce := sput 0 s.frames.ce key (sget 0 s.frames.ce key + 1) } }

/-- Memory errors that strike inside a step (R526, R527), each counted (R551): a correctable one for the module and for its frame; an uncorrectable
one poisons its 64-byte unit, and is reported toward the page's owning host. -/
def State.memError (s : State) (p : Nat) (e : MemErr) : State :=
  match e with
  | .none => s
  | .seq a b => (s.memError p a).memError p b
  | .ce va =>
    match (s.mem p).unitAt va with
    | some (_, u) =>
      let s := (s.frameError u).healthCount (if u.tier = .L then 0x208 else 0x204) 1
      { s with health := { s.health with periodCe := s.health.periodCe + 1 } }
    | none => s
  | .ue va =>
    let m := s.mem p
    let u := va / 64
    match m.unitAt va with
    | some _ =>
      let s := s.setMem p { m with poison := if m.poison.contains u then m.poison else u :: m.poison }
      (s.healthCount 0x20C 1).event 0x000A (va / 2097152) (va % 2097152 / 64) [p]
    | none => s
  | .fab _ _ => s

/-- The bytes of a spill window's storage at an exposure offset, when one is granted there. -/
def State.spillHeld (s : State) (off : Nat) : Bool :=
  s.fabric.wins.any fun e => e.2.owner == 16 && e.2.state != .free && decide (e.2.ebase ≤ off) && decide (off < e.2.ebase + e.2.size)

/-- The same of the Tier L storage behind a spill window, by exposure offset: it is in no partition's page, so that the event goes to the management
interface alone (R526, R527, R619). -/
def State.spillError (s : State) (e : MemErr) : State :=
  match e with
  | .none => s
  | .seq a b => (s.spillError a).spillError b
  | .ce off =>
    if s.spillHeld off then
      let s := s.healthCount 0x208 1
      { s with health := { s.health with periodCe := s.health.periodCe + 1 } }
    else s
  | .ue off =>
    if s.spillHeld off then
      let f := s.fabric
      let s := { s with fabric := { f with spillPoison := if f.spillPoison.contains (off / 64) then f.spillPoison else off / 64 :: f.spillPoison } }
      (s.healthCount 0x20C 1).event 0x000A 0xFFFFFFFF (off % 2097152 / 64) []
    else s
  | .fab _ _ => s

/-- Bytes stored behind a spill window: a whole 64-byte unit written no longer holds its poison (R527). -/
def Fabric.spillStore (f : Fabric) (off : Nat) (bs : List Byte) : Fabric :=
  { f with spill := writeBytes f.spill off bs
           spillPoison := f.spillPoison.filter fun u => !(decide (off ≤ 64 * u) && decide (64 * u + 64 ≤ off + bs.length)) }

/-- Bytes that an instruction of core `k` reads at a partition virtual address (R299, R340). -/
def State.readAt (s : State) (k va n : Nat) : Except MemFail (List Byte) :=
  if va < 0x300000 then .ok (readBytes (s.core k).scratch va n)
  else
    match s.partOf k with
    | none => .error .unmapped
    | some p =>
      match s.check p true va n with
      | some (f, _) => .error f
      | none => .ok (readBytes (s.mem p).bytes va n)

/-- The access counted (R395). -/
def State.touchAt (s : State) (k va n : Nat) : State :=
  if va < 0x300000 then s
  else match s.partOf k with
    | none => s
    | some p => s.setMem p ((s.mem p).touch va n)

/-- Whether `n` bytes at `va` can be written by an instruction of core `k`. -/
def State.writableAt (s : State) (k va n : Nat) : Option MemFail :=
  if va < 0x300000 then none
  else match s.partOf k with
    | none => some .unmapped
    | some p => (s.check p false va n).map (·.1)

/-- Bytes that an instruction of core `k` writes, already known to be writable. -/
def State.writeAt (s : State) (k va : Nat) (bs : List Byte) : State :=
  if va < 0x300000 then
    let c := s.core k
    s.setCore k { c with scratch := writeBytes c.scratch va bs }
  else match s.partOf k with
    | none => s
    | some p => s.setMem p ((s.mem p).store va bs)

/-- Bytes written up to the first address that cannot be written, and the failure there (R340). -/
def State.writeUpTo (s : State) (k va : Nat) (bs : List Byte) : State × Option MemFail :=
  if va < 0x300000 then (s.writeAt k va bs, none)
  else match s.partOf k with
    | none => (s, some .unmapped)
    | some p =>
      match s.check p false va bs.length with
      | none => (s.writeAt k va bs, none)
      | some (f, stop) => (s.writeAt k va (bs.take (stop - va)), some f)

/-- Whether an operand's range reaches the addresses that name nothing, 0x30_0000 to 0x3F_FFFF, or crosses the end of the
scratchpad into them (R299, R300). -/
def reachesHole (va n : Nat) : Bool := decide (va < 0x400000) && decide (0x300000 < va + n)

end Sys2Proof.Machine
end

