-- ==== Sys2Proof/Machine/Remote.lean ====
section
/-! DEFINITION. Transactions as they begin, and the transfers that Winnow makes for accesses of units in Tier F (13, R390, R393; 15, R447, R448,
R463, R464). The bytes of such a unit stand in the module's model of its memory as if it had never moved (R390); what goes to and comes from the owner are
the packets, with what R463 and R465 make of their failures (log 67). -/

namespace Sys2Proof.Machine

/-! ### Instructions in flight -/

def State.opOf (s : State) (k id : Nat) : Option InFlight := (s.core k).ops.find? (·.id == id)

def Core.modOp (c : Core) (id : Nat) (f : InFlight → InFlight) : Core :=
  { c with ops := c.ops.map fun o => if o.id = id then f o else o }

def State.modOp (s : State) (k id : Nat) (f : InFlight → InFlight) : State := s.setCore k ((s.core k).modOp id f)

/-- The instruction faults: its item fails, and it will signal nothing on completion (R294, R318). -/
def State.opFault (s : State) (k : Nat) (o : InFlight) (f : FaultCode) : State :=
  (s.faultAt k o.ctx o.bind f).modOp k o.id fun x => { x with faulted := true }

/-! ### Winnow's import table (R393, R464) -/

/-- Entry `n` of Winnow's import table: as held, or as the module comes to hold it (log 13). -/
def State.spillWin (s : State) (n : Nat) : RemoteWin :=
  let e := sget {} s.fabric.imports n
  if e.size = 0 then
    let (m, base, size, key, epoch) := Config.spillImport n
    { module := m.toNat, ebase := base.toNat * 65536, size := size.toNat * 65536, key := key, epoch := epoch.toNat, gapUs := 1000 }
  else e

def State.setImport (s : State) (n : Nat) (e : RemoteWin) : State := { s with fabric := { s.fabric with imports := sput {} s.fabric.imports n e } }

/-! ### TAGs (R447, R448) -/

/-- The lowest free TAG, of one parity where a core's turn asks for it (log 22); none while 8,192 transactions are held. -/
def State.freeTag (s : State) (parity : Option Nat) : Option Nat :=
  if 8192 ≤ s.fabric.trans.length then none
  else ((List.range 8193).map fun i => match parity with
    | some b => 2 * i + b
    | none => i).find? fun t => !s.fabric.trans.any (·.1 == t)

def State.addTrans (s : State) (tag : Nat) (t : Trans) : State := { s with fabric := { s.fabric with trans := s.fabric.trans ++ [(tag, t)] } }

/-- The transaction of a FAB instruction, or of Winnow for an instruction (R447, R448): its TAG has the parity that is the core's turn; none where it
must wait. -/
def State.startFab (s : State) (k : Nat) (o : InFlight) (j : FabJob) : Option State :=
  let x := s.core k
  if j.done then some (s.setCore k (x.modOp o.id fun o => { o with started := true }))
  else match s.freeTag (some (if x.tagBit then 1 else 0)) with
    | none => none
    | some tag =>
      let x := { x.modOp o.id fun o => { o with started := true, job := .fab { j with tag := some tag } } with tagBit := !x.tagBit }
      some ((s.setCore k x).addTrans tag { core := k, id := o.id, next := 0, live := [], failed := false })

/-- A transfer of the module's own gets its transaction, or waits for one behind those that wait. -/
def State.startOwn (s : State) (w : OwnJob) : State :=
  match s.fabric.waiting, s.freeTag none with
  | [], some tag =>
    s.addTrans tag { core := 0, id := 0, next := 0, live := [], failed := false, own := some { w with job := { w.job with tag := some tag } } }
  | l, _ => { s with fabric := { s.fabric with waiting := l ++ [w] } }

/-! ### Accesses of Tier F (R464) -/

/-- The transfer of `len` bytes at `off` of a unit in Tier F. -/
def State.unitJob (s : State) (base : Nat) (u : PUnit) (off len : Nat) (put : Bool) : FabJob :=
  let w := s.spillWin u.die
  { put := put, module := u.owner, goff := u.exposure + off, laddr := base + off, len := len, key := w.key, epoch := w.epoch, gapUs := w.gapUs, tierF := true }

/-- The accesses of Tier F that the step has made in a partition, in their order, as transfers; none is noted any longer. -/
def State.takeFar (s : State) (p : Nat) : List (Nat × FabJob) × State :=
  let m := s.mem p
  (m.far.reverse.filterMap fun a => (m.units.find? (·.1 == a.base)).map fun e => (a.base, s.unitJob e.1 e.2 (a.va - a.base) a.len a.put),
    s.setMem p { m with far := [] })

/-- What the step has noted so far of Tier F in the partition of core `k`. -/
def State.farOfCore (s : State) (k : Nat) : List FarAccess :=
  match s.partOf k with
  | some p => (s.mem p).far
  | none => []

/-- A transfer begins for an instruction of core `k`. It is in flight as an instruction of the memory queue, bound as the instruction is, so that whatever
waits for the instruction waits for it (R289, R303, R304, R357). -/
def State.launchFar (s : State) (k c cls : Nat) (bind : Option (Nat × Nat)) (j : FabJob) : State :=
  let x := s.core k
  let o : InFlight := { id := x.nextId, ctx := c, unit := .mem, cls := cls, bind := bind, job := .fab j }
  let t := s.setCore k { x with nextId := x.nextId + 1, ops := x.ops ++ [o] }
  if x.ops.any fun e => e.unit == .mem && !e.started then t else (t.startFab k o j).getD t

/-- The transfers for what an instruction of core `k` has accessed in Tier F; `owner` is the instruction while it is in flight. -/
def State.startFar (s : State) (k c cls : Nat) (bind : Option (Nat × Nat)) (owner : Option Nat) : State :=
  match s.partOf k with
  | none => s
  | some p =>
    if (s.mem p).far.isEmpty then s
    else
      let (l, t) := s.takeFar p
      l.foldl (fun t x => t.launchFar k c cls bind { x.2 with owner := owner }) t

/-- The same for an instruction in flight. -/
def State.startFarOf (s : State) (k : Nat) (o : InFlight) : State := s.startFar k o.ctx o.cls o.bind (some o.id)

/-- The transfers for what a host, the fabric or a fetch has accessed in Tier F of a partition. -/
def State.startFarOwn (s : State) (p : Nat) : State :=
  if (s.mem p).far.isEmpty then s
  else
    let (l, t) := s.takeFar p
    l.foldl (fun t x => t.startOwn { job := x.2, part := p, base := x.1, move := false }) t

/-- A transfer for `o` is still in flight. -/
def Core.farOf (x : Core) (o : InFlight) : Bool :=
  x.ops.any fun e => match e.job with
    | .fab j => j.tierF && j.owner == some o.id
    | _ => false

end Sys2Proof.Machine
end

