-- ==== Sys2Proof/Machine/Operands.lean ====
section
/-! DEFINITION. The instruction word and its operands (R12, R275 to R281, R321), and issue (R276, R278, R286, R293 to R296, R316). -/

namespace Sys2Proof.Machine

/-! ### Fields of the word (R12) -/

def fOpc (w : W64) : Nat := bits w.toNat 56 8
def fFmt (w : W64) : Nat := bits w.toNat 52 4
def fD (w : W64) : Nat := bits w.toNat 46 6
def fA (w : W64) : Nat := bits w.toNat 40 6
def fB (w : W64) : Nat := bits w.toNat 34 6
def fImm (w : W64) : Nat := bits w.toNat 0 34
/-- IMM sign-extended from bit 33 (R279). -/
def sextImm (w : W64) : W64 := (w.extractLsb' 0 34).signExtend 64

/-! ### Register files (R274, R275) -/

def Ctx.readS (x : Ctx) (r : Nat) : W64 := if r = 0 then 0 else sget 0 x.s r
def Ctx.writeS (x : Ctx) (r : Nat) (v : W64) : Ctx := if r = 0 then x else { x with s := sput 0 x.s r v }
def Ctx.readP (x : Ctx) (r : Nat) : Bool := if r = 0 then true else sget false x.p r
def Ctx.writeP (x : Ctx) (r : Nat) (v : Bool) : Ctx := if r = 0 then x else { x with p := sput false x.p r v }
def Ctx.readT (x : Ctx) (r : Nat) : BitVec 512 := sget 0 x.t r
def Ctx.writeT (x : Ctx) (r : Nat) (v : BitVec 512) : Ctx := { x with t := sput 0 x.t r v }
def Ctx.readLane (x : Ctx) (r l : Nat) : W32 := sget 0 x.v (64 * r + l)
def Ctx.readV (x : Ctx) (r : Nat) : List W32 := (List.range 64).map (x.readLane r)

/-- The lanes of a vector register from lane `l` on. -/
def writeLanes (m : Sparse W32) (key : Nat) (vs : List W32) : Sparse W32 :=
  match vs with
  | [] => m
  | v :: vs => writeLanes (sput 0 m key v) (key + 1) vs

def Ctx.writeV (x : Ctx) (r : Nat) (vs : List W32) : Ctx := { x with v := writeLanes x.v (64 * r) vs }

/-- The result no longer reaches scalar register `d`, which a later instruction has written (R276). -/
def Result.passS (d : Nat) (r : Result) : Result :=
  match r with
  | .scalar d' v => if d' = d then .pastScalar d else .scalar d' v
  | r => r

/-- The result no longer reaches predicate `d`. -/
def Result.passP (d : Nat) (r : Result) : Result :=
  match r with
  | .pred d' v => if d' = d then .pastPred d else .pred d' v
  | r => r

/-- Results on their way to a scalar register of a context no longer reach it: a later write of it stands (R276). -/
def Core.dropScalar (c : Core) (i d : Nat) : Core :=
  { c with ops := c.ops.map fun o => if o.ctx = i then { o with results := o.results.map (Result.passS d) } else o }

def Core.dropPred (c : Core) (i d : Nat) : Core :=
  { c with ops := c.ops.map fun o => if o.ctx = i then { o with results := o.results.map (Result.passP d) } else o }

/-- s[D] := v in context `i` of core `k`. -/
def State.putS (s : State) (k i d : Nat) (v : W64) : State :=
  let c := (s.core k).dropScalar i d
  s.setCore k (c.setCtx i ((c.ctx i).writeS d v))

/-- p[D] := v. -/
def State.putP (s : State) (k i d : Nat) (v : Bool) : State :=
  let c := (s.core k).dropPred i d
  s.setCore k (c.setCtx i ((c.ctx i).writeP d v))

/-- v[D] := the lanes. -/
def State.putV (s : State) (k i d : Nat) (v : List W32) : State := s.setCtx k i ((s.ctx k i).writeV d v)

/-! ### The opcode map (R321) -/

/-- What a register field of the word names. -/
inductive FieldUse where
  /-- Must be 0. -/
  | zero
  | s | v | t | p
  /-- A bit or a selector below the bound. -/
  | below (n : Nat)
deriving DecidableEq, Repr

/-- Whether a field's value is one that its use allows (R278). -/
def FieldUse.ok : FieldUse → Nat → Bool
  | .zero, n => n == 0
  | .s, n => decide (n < 32)
  | .v, n => decide (n < 32)
  | .t, n => decide (n < 16)
  | .p, n => decide (n < 8)
  | .below b, n => decide (n < b)

/-- One row of the opcode map: the uses of D, A and B, the IMM bits used, and whether FMT is used. -/
structure OpRow where
  d : FieldUse
  a : FieldUse
  b : FieldUse
  imm : Nat
  fmt : Bool := false
deriving DecidableEq, Repr

/-- All 34 bits of IMM. -/
def immAll : Nat := 0x3FFFFFFFF

/-- The row of an instruction word, or none where OPC is unassigned (R321). Where a selector changes the use of the fields, the row is the
selected one (R325, R326, R332). -/
def opRow (w : W64) : Option OpRow :=
  let bs : FieldUse := if bit (fImm w) 3 then .s else .v
  match fOpc w with
  | 0x01 => some ⟨.s, .s, .s, immAll, false⟩
  | 0x02 => some ⟨.s, .s, .s, 0xF, false⟩
  | 0x03 => some ⟨.s, .s, .below 11, immAll, false⟩
  | 0x04 => some ⟨.s, .s, .s, 0, false⟩
  | 0x05 => some ⟨.p, .s, .s, 7, false⟩
  | 0x06 => some ⟨.s, .s, .zero, immAll, false⟩
  | 0x07 => some ⟨.s, .s, .zero, immAll, false⟩
  | 0x08 => some ⟨.s, .s, .zero, immAll, false⟩
  | 0x09 => some ⟨.zero, .s, .s, immAll, false⟩
  | 0x0A => some ⟨.zero, .s, .s, immAll, false⟩
  | 0x0B => some ⟨.s, .p, .below 2, immAll, false⟩
  | 0x0C => some ⟨.s, .s, .zero, 0, false⟩
  | 0x0D => some ⟨.t, .s, .zero, immAll, false⟩
  | 0x0E => if fB w = 0 then some ⟨.s, .zero, .zero, 0xFFFF, false⟩ else some ⟨.zero, .s, .below 2, 0xFFFF, false⟩
  | 0x0F => some ⟨.zero, .zero, .below 3, if fB w = 0 then 0x7FF else 0, false⟩
  | 0x10 => some ⟨.zero, .s, .s, immAll, false⟩
  | 0x11 => some ⟨.s, .s, .s, 0x3FFFFFF, false⟩
  | 0x12 => some ⟨.zero, .s, .s, 0x1FFFF, false⟩
  | 0x13 => some ⟨.zero, .s, .zero, immAll, true⟩
  | 0x20 => some ⟨.below 2, .t, .s, 0x1FFFFFFF, true⟩
  | 0x21 => some ⟨.zero, .t, .s, 0x23FFFB, true⟩
  | 0x30 => some ⟨.zero, .s, .zero, 3, false⟩
  | 0x31 => some ⟨.zero, .s, .s, 0x1FFFF, false⟩
  | 0x32 => some ⟨.zero, .s, .s, 0xFFFFF, false⟩
  | 0x40 => some ⟨.v, .v, bs, 0xF, false⟩
  | 0x41 => some ⟨.v, .v, bs, 8, false⟩
  | 0x42 => some ⟨.v, .v, bs, 0xB, false⟩
  | 0x43 => some ⟨.v, .v, .zero, 3, false⟩
  | 0x44 => some ⟨.v, .v, .zero, 0, false⟩
  | 0x45 => some ⟨.v, .v, .v, 0, false⟩
  | 0x46 => some ⟨.s, .v, .zero, 1, false⟩
  | 0x47 => some ⟨.v, .s, .zero, 0, true⟩
  | 0x48 => some ⟨.s, .s, .v, 0xFF, true⟩
  | 0x49 => some ⟨.v, .s, .zero, 0, false⟩
  | 0x4A => some ⟨.zero, .s, .s, 1, false⟩
  | 0x4B => some ⟨.zero, .v, .v, 0, false⟩
  | 0x50 => some ⟨.below 2, .t, .s, 0x1FE3FFFF, true⟩
  | 0x51 => some ⟨.below 2, .t, .s, 0x1FE3FFFF, true⟩
  | 0x60 => some ⟨.zero, .s, .zero, 0x3F, false⟩
  | 0x61 => some ⟨.zero, .s, .zero, 0, false⟩
  | 0x62 => some ⟨.zero, .s, .zero, 0, false⟩
  | 0x63 => some ⟨.p, .s, .zero, 0x3F, false⟩
  | 0x64 => some ⟨.zero, .s, .s, 0x3F, false⟩
  | 0x70 => some ⟨.zero, .s, .s, 0x3FFFF, true⟩
  | 0x71 => some ⟨.zero, .t, .s, 0x13E7FFFB, true⟩
  | 0x80 => some ⟨.s, .s, .s, 0, false⟩
  | 0x81 => some ⟨.s, .s, .s, 0, false⟩
  | 0x82 => some ⟨.zero, .s, .zero, 0, false⟩
  | 0x83 => some ⟨.zero, .s, .zero, 0, false⟩
  | 0x90 => some ⟨.zero, .s, .s, immAll, false⟩
  | 0x91 => some ⟨.zero, .s, .s, immAll, false⟩
  | 0x92 => some ⟨.s, .s, .s, immAll, false⟩
  | 0x93 => some ⟨.s, .s, .s, 0x1FFFF, false⟩
  | 0xA0 => some ⟨.zero, .s, .zero, 1, false⟩
  | 0xA1 => some ⟨.zero, .zero, .zero, 1, false⟩
  | 0xA2 => some ⟨.zero, .zero, .zero, 0, false⟩
  | 0xA3 => some ⟨.s, .zero, .zero, 0, false⟩
  | 0xA4 => some ⟨.zero, .s, .s, 7, false⟩
  | 0xB0 => some ⟨.zero, .s, .zero, immAll, false⟩
  | 0xB1 => some ⟨.zero, .s, .zero, immAll, false⟩
  | _ => none

/-- The selector of a word whose OPC holds several instructions: FUNC, COND, KIND or the B field (R322, R323, R326, R332, R333, R334, R359). -/
def selector (w : W64) : Nat :=
  match fOpc w with
  | 0x02 => bits (fImm w) 0 4
  | 0x03 => fB w
  | 0x0E => fB w
  | 0x0F => fB w
  | 0x40 => bits (fImm w) 0 3
  | 0x43 => bits (fImm w) 0 2
  | 0x46 => bits (fImm w) 0 1
  | _ => 0

/-- Selector values called unassigned (R322, R323, R332, R359). -/
def selectorOk (w : W64) : Bool :=
  match fOpc w with
  | 0x02 => decide (bits (fImm w) 0 4 ≤ 10)
  | 0x05 => decide (bits (fImm w) 0 3 ≤ 5)
  | 0x40 => decide (bits (fImm w) 0 3 ≤ 4)
  | 0xA4 => decide (bits (fImm w) 0 3 ≤ 3)
  | _ => true

/-- The tests of R278: an assigned OPC, register fields within their files, unused fields zero, selectors assigned. -/
def wellFormedWord (w : W64) : Bool :=
  match opRow w with
  | none => false
  | some r => r.d.ok (fD w) && r.a.ok (fA w) && r.b.ok (fB w) && decide ((fImm w ||| r.imm) = r.imm) && (r.fmt || fFmt w == 0) && selectorOk w

/-! ### Issue -/

/-- A unit's result is on its way to scalar register `r` of context `i` (R276). -/
def Core.pendingS (c : Core) (i r : Nat) : Bool :=
  r != 0 && c.ops.any fun o => o.ctx == i && o.results.any fun x => match x with
    | .scalar d _ => d == r
    | .pastScalar d => d == r
    | _ => false

def Core.pendingP (c : Core) (i r : Nat) : Bool :=
  r != 0 && c.ops.any fun o => o.ctx == i && o.results.any fun x => match x with
    | .pred d _ => d == r
    | .pastPred d => d == r
    | _ => false

/-- The scalar registers that a word reads: the sources of its row, and the D field of DMA.LIN and VEC.ST (R346, R336). -/
def readsScalars (w : W64) : List Nat :=
  match opRow w with
  | none => []
  | some r =>
    (if r.a = .s then [fA w] else []) ++ (if r.b = .s then [fB w] else []) ++
    (if fOpc w = 0x11 || fOpc w = 0x48 then [fD w] else [])

def readsPreds (w : W64) : List Nat := if fOpc w = 0x0B then [fA w] else []

/-- The word at a context's program counter, when its line is in the instruction cache (R286, R301). -/
def Core.fetched (c : Core) (pc : W64) : Option W64 :=
  if pc.toNat % 8 = 0 then
    (c.icache.find? (·.1 == pc.toNat / 64)).map fun e => e.2.extractLsb' (8 * (pc.toNat % 64)) 64
  else none

/-- Issue is held in every context of a partition that does not run, that is being stopped, that awaits a substitution, or that is about to enter
WAIT_REPAIR (R485, R492, R520, R522). -/
def PartBlock.held (b : PartBlock) : Bool := b.state != .run || b.prog.stopping || !b.refill.isEmpty || b.repairing

/-- Issue is held in a core's contexts: its partition's, or the core has failed (R514). -/
def State.stopping (s : State) (k : Nat) : Bool :=
  (s.core k).failed || match s.partOf k with
    | some p => (s.part p).held
    | none => true

/-- A context that can issue the word: it is in state RUN, the word at its program counter has been fetched, nothing holds it, and no
register that the word reads awaits a result (R276, R286, R492). -/
def State.ready (s : State) (k c : Nat) (w : W64) : Bool :=
  let x := s.core k
  decide (k < 512) && decide (c < 4) && (x.ctx c).mode == .run && x.fetched (x.ctx c).pc == some w && !s.stopping k &&
    !(readsScalars w).any (x.pendingS c) && !(readsPreds w).any (x.pendingP c)

/-- What a meaning answers about its instruction: it has issued with this effect and the context goes on; it has issued and the
context goes on elsewhere; it waits at issue (R290); or it is refused (R316). -/
inductive Issued where
  | go (s : State)
  | jump (s : State) (pc : W64)
  | hold
  | refuse (f : FaultCode)

/-- The program counter of a context moves. -/
def State.setPc (s : State) (k c : Nat) (pc : W64) : State := s.setCtx k c { s.ctx k c with pc := pc }

/-- An instruction is bound to its item (R293, R500), at its partition's present step (R517). -/
def State.bindItem (s : State) (b : Option (Nat × Nat)) : State :=
  match b with
  | none => s
  | some (r, _) =>
    match s.request r with
    | none => s
    | some q => s.charge b fun x => { x with bound := some (s.part q.part).prog.step.toNat }

/-- A context enters state FAULT (R295); the first of a program to do so gives the START record its code (R491). -/
def State.ctxFault (s : State) (k c : Nat) (f : FaultCode) : State :=
  let s := s.faultAt k c (s.ctx k c).bind f
  let s := s.setCtx k c { s.ctx k c with mode := .fault }
  match s.partOf k with
  | none => s
  | some p =>
    let b := s.part p
    s.setPart p { b with prog := { b.prog with faults := b.prog.faults ++ [(k, c, f)] } }

/-- An ARR.STREAM that names LOG4 in its word or in the descriptor of an operand (R22): it is refused as such even when another field of it would be
refused too. -/
def State.namesLog4 (s : State) (k c : Nat) (w : W64) : Bool :=
  let t := ((s.ctx k c).readT (fA w)).toNat
  let fmt := fun va => match s.readAt k va 64 with
    | .ok bs => bits (leNat bs) 48 4
    | .error _ => 0
  fOpc w == 0x20 && (fFmt w == 11 || decide (fA w < 16) && (fmt (bits t 256 48) == 11 || fmt (bits t 320 48) == 11))

/-- After the effect of an instruction that has issued in state `s`: its item counts it as bound (R293), and the transfers for what it has accessed in Tier F
begin, for the instruction in flight where it is one. -/
def State.issued (s : State) (k c : Nat) (w : W64) (t : State) : State :=
  let n := (t.core k).nextId
  let u := t.bindItem (s.ctx k c).bind
  if t.farOfCore k = s.farOfCore k then u
  else u.startFar k c ((fOpc w / 16 + 15) % 16) (s.ctx k c).bind (if n = (s.core k).nextId then none else some (n - 1))

/-- Issues a word in a context: nothing happens while the context is not ready for it or it spells another instruction; FLT_ILLEGAL_OP puts
the context in FAULT (R278, R295), but R22 comes before it; a refusal fails the item and changes nothing else (R316). The sender sends a held command again (log 9). -/
def issue (k c : Nat) (w : W64) (mine : Bool) (meaning : Issued) (s : State) : Host.Outcome State Fault Refusal :=
  if s.ready k c w then
    if wellFormedWord w then
      if mine then
        let next := (s.ctx k c).pc + 8
        match meaning with
        | .go t => .next ((s.issued k c w t).setPc k c next)
        | .jump t pc => .next ((s.issued k c w t).setPc k c pc)
        | .hold => .next s
        | .refuse f => .next ((s.faultAt k c (s.ctx k c).bind f).setPc k c next)
      else .next s
    else if s.namesLog4 k c w then
      .next (if mine then (s.faultAt k c (s.ctx k c).bind fltFmtRole).setPc k c ((s.ctx k c).pc + 8) else s)
    else .next (s.ctxFault k c fltIllegalOp)
  else .next s

/-- The word spells the instruction with this OPC and selector. -/
def spells (w : W64) (opc sel : Nat) : Bool := fOpc w == opc && selector w == sel

/-- Address operand s[A] + sext(IMM) of the word (R320). -/
def addrOf (x : Ctx) (w : W64) : Nat := (x.readS (fA w) + sextImm w).toNat

/-- An address operand that R300 or R320 refuses: misaligned, or reaching addresses that name nothing. -/
def badAddr (va n align : Nat) : Bool := va % align != 0 || reachesHole va n

end Sys2Proof.Machine
end

