-- ==== Sys2Proof/Machine/Flags.lean ====
section
/-! DEFINITION. The flags FLG_INF and FLG_NAN and what conversions count (R34 to R40, R624). -/

namespace Sys2Proof.Machine

/-- Sets the sticky flags of FMT_FLAGS. -/
def Core.setFlags (c : Core) (inf nan : Bool) : Core := { c with flgInf := c.flgInf || inf, flgNan := c.flgNan || nan }

def State.setFlags (s : State) (k : Nat) (inf nan : Bool) : State := s.setCore k ((s.core k).setFlags inf nan)

/-- A write of FMT_FLAGS: ones clear (R7). -/
def Core.clearFlags (c : Core) (v : W32) : Core :=
  { c with flgInf := c.flgInf && !v.toNat.testBit 0, flgNan := c.flgNan && !v.toNat.testBit 1 }

/-- FMT_FLAGS as it reads. -/
def Core.fmtFlags (c : Core) : W32 := BitVec.ofNat 32 ((if c.flgInf then 1 else 0) + (if c.flgNan then 2 else 0))

def convClips (cs : List Conv) : Nat := (cs.map (·.clips)).sum
def convNans (cs : List Conv) : Nat := (cs.map (·.nans)).sum

/-- The counts and flags of the conversions that one step makes on core `k` for an item (R34, R36, R38, R40). -/
def State.convEffects (s : State) (k : Nat) (b : Option (Nat × Nat)) (cs : List Conv) : State :=
  let c := ((s.core k).count 0x180 (convClips cs)).count 0x184 (convNans cs)
  let s := s.setCore k (c.setFlags (cs.any (·.flgInf)) (cs.any (·.flgNan)))
  if convClips cs = 0 then s else s.charge b fun x => { x with clips := x.clips + convClips cs }

end Sys2Proof.Machine
end

