-- ==== Sys2Proof/Machine/Sha.lean ====
section
/-! DEFINITION. The SHA-256 and SHA-384 digests, HMAC-SHA-256 and HKDF-SHA-256 that the rules name (R536, R540, R556, R561, R565). -/

namespace Sys2Proof.Machine

/-- The round constants: of SHA-384 whole, of SHA-256 their high halves. -/
def shaK : List Nat :=
  [0x428A2F98D728AE22, 0x7137449123EF65CD, 0xB5C0FBCFEC4D3B2F, 0xE9B5DBA58189DBBC,
   0x3956C25BF348B538, 0x59F111F1B605D019, 0x923F82A4AF194F9B, 0xAB1C5ED5DA6D8118,
   0xD807AA98A3030242, 0x12835B0145706FBE, 0x243185BE4EE4B28C, 0x550C7DC3D5FFB4E2,
   0x72BE5D74F27B896F, 0x80DEB1FE3B1696B1, 0x9BDC06A725C71235, 0xC19BF174CF692694,
   0xE49B69C19EF14AD2, 0xEFBE4786384F25E3, 0x0FC19DC68B8CD5B5, 0x240CA1CC77AC9C65] ++
  [0x2DE92C6F592B0275, 0x4A7484AA6EA6E483, 0x5CB0A9DCBD41FBD4, 0x76F988DA831153B5,
   0x983E5152EE66DFAB, 0xA831C66D2DB43210, 0xB00327C898FB213F, 0xBF597FC7BEEF0EE4,
   0xC6E00BF33DA88FC2, 0xD5A79147930AA725, 0x06CA6351E003826F, 0x142929670A0E6E70,
   0x27B70A8546D22FFC, 0x2E1B21385C26C926, 0x4D2C6DFC5AC42AED, 0x53380D139D95B3DF,
   0x650A73548BAF63DE, 0x766A0ABB3C77B2A8, 0x81C2C92E47EDAEE6, 0x92722C851482353B] ++
  [0xA2BFE8A14CF10364, 0xA81A664BBC423001, 0xC24B8B70D0F89791, 0xC76C51A30654BE30,
   0xD192E819D6EF5218, 0xD69906245565A910, 0xF40E35855771202A, 0x106AA07032BBD1B8,
   0x19A4C116B8D2D0C8, 0x1E376C085141AB53, 0x2748774CDF8EEB99, 0x34B0BCB5E19B48A8,
   0x391C0CB3C5C95A63, 0x4ED8AA4AE3418ACB, 0x5B9CCA4F7763E373, 0x682E6FF3D6B2B8A3,
   0x748F82EE5DEFB2FC, 0x78A5636F43172F60, 0x84C87814A1F0AB72, 0x8CC702081A6439EC] ++
  [0x90BEFFFA23631E28, 0xA4506CEBDE82BDE9, 0xBEF9A3F7B2C67915, 0xC67178F2E372532B,
   0xCA273ECEEA26619C, 0xD186B8C721C0C207, 0xEADA7DD6CDE0EB1E, 0xF57D4F7FEE6ED178,
   0x06F067AA72176FBA, 0x0A637DC5A2C898A6, 0x113F9804BEF90DAE, 0x1B710B35131C471B,
   0x28DB77F523047D84, 0x32CAAB7B40C72493, 0x3C9EBE0A15C9BEBC, 0x431D67C49C100D4C,
   0x4CC5D4BECB3E42B6, 0x597F299CFC657E2A, 0x5FCB6FAB3AD6FAEC, 0x6C44198C4A475817]

/-- One size of SHA-2: word bits, rounds, and the rotation amounts of its four functions. -/
structure Sha2 where
  w : Nat
  rounds : Nat
  big0 : Nat × Nat × Nat
  big1 : Nat × Nat × Nat
  small0 : Nat × Nat × Nat
  small1 : Nat × Nat × Nat

def sha256Kind : Sha2 := { w := 32, rounds := 64, big0 := (2, 13, 22), big1 := (6, 11, 25), small0 := (7, 18, 3), small1 := (17, 19, 10) }
def sha384Kind : Sha2 := { w := 64, rounds := 80, big0 := (28, 34, 39), big1 := (14, 18, 41), small0 := (1, 8, 7), small1 := (19, 61, 6) }

/-- Rotation right of a `w`-bit word. -/
def rotr (w x n : Nat) : Nat := (x >>> n) ||| ((x <<< (w - n)) % 2 ^ w)

/-- Three rotations joined by exclusive-or. -/
def shaBig (w : Nat) (r : Nat × Nat × Nat) (x : Nat) : Nat := rotr w x r.1 ^^^ rotr w x r.2.1 ^^^ rotr w x r.2.2

/-- Two rotations and a shift joined by exclusive-or. -/
def shaSmall (w : Nat) (r : Nat × Nat × Nat) (x : Nat) : Nat := rotr w x r.1 ^^^ rotr w x r.2.1 ^^^ (x >>> r.2.2)

/-- The message schedule, newest word first: extends the last 16 words by `n`. -/
def shaSchedule (k : Sha2) (n : Nat) (ws : List Nat) : List Nat :=
  match n with
  | 0 => ws
  | n + 1 =>
    let x := (shaSmall k.w k.small1 (ws.getD 1 0) + ws.getD 6 0 + shaSmall k.w k.small0 (ws.getD 14 0) + ws.getD 15 0) % 2 ^ k.w
    shaSchedule k n (x :: ws)

/-- The eight working words through the rounds. -/
def shaRounds (k : Sha2) (ks ws : List Nat) (v : List Nat) : List Nat :=
  match ws, ks with
  | x :: ws, c :: ks =>
    (match v with
    | [a, b, c', d, e, f, g, h] =>
      let m := 2 ^ k.w
      let t1 := h + shaBig k.w k.big1 e + ((e &&& f) ^^^ ((m - 1 - e) &&& g)) + c + x
      let t2 := shaBig k.w k.big0 a + ((a &&& b) ^^^ (a &&& c') ^^^ (b &&& c'))
      shaRounds k ks ws [(t1 + t2) % m, a, b, c', (d + t1) % m, e, f, g]
    | _ => v)
  | _, _ => v

/-- Big-endian words of `n` bytes. -/
def beWords (n : Nat) (bs : List Byte) (count : Nat) : List Nat :=
  (List.range count).map fun i => leNat (((bs.drop (n * i)).take n).reverse)

/-- One block of 16 words. -/
def shaBlock (k : Sha2) (h : List Nat) (bs : List Byte) : List Nat :=
  let ws := (shaSchedule k (k.rounds - 16) (beWords (k.w / 8) bs 16).reverse).reverse
  let ks := if k.w = 32 then shaK.map (· >>> 32) else shaK
  (h.zip (shaRounds k ks ws h)).map fun p => (p.1 + p.2) % 2 ^ k.w

/-- The padded message, in blocks. -/
def shaPad (k : Sha2) (bs : List Byte) : List Byte :=
  let blk := 2 * k.w
  let z := (2 * blk - (bs.length + 1 + k.w / 4) % blk) % blk
  bs ++ [0x80#8] ++ List.replicate z 0#8 ++ (leBytes (k.w / 4) (8 * bs.length)).reverse

/-- The digest over `n` blocks. -/
def shaRun (k : Sha2) (n : Nat) (h : List Nat) (bs : List Byte) : List Nat :=
  match n with
  | 0 => h
  | n + 1 => shaRun k n (shaBlock k h (bs.take (2 * k.w))) (bs.drop (2 * k.w))

def shaDigest (k : Sha2) (iv : List Nat) (bs : List Byte) : List Byte :=
  let p := shaPad k bs
  (shaRun k (p.length / (2 * k.w)) iv p).flatMap fun x => (leBytes (k.w / 8) x).reverse

/-- SHA-256 (32 bytes). -/
def sha256 (bs : List Byte) : List Byte :=
  shaDigest sha256Kind
    [0x6A09E667, 0xBB67AE85, 0x3C6EF372, 0xA54FF53A,
     0x510E527F, 0x9B05688C, 0x1F83D9AB, 0x5BE0CD19] bs

/-- SHA-384 (48 bytes). -/
def sha384 (bs : List Byte) : List Byte :=
  (shaDigest sha384Kind
    [0xCBBB9D5DC1059ED8, 0x629A292A367CD507, 0x9159015A3070DD17, 0x152FECD8F70E5939,
     0x67332667FFC00B31, 0x8EB44A8768581511, 0xDB0C2E0D64F98FA7, 0x47B5481DBEFA4FA4] bs).take 48

/-- HMAC-SHA-256 of a message under a key of at most 64 bytes. -/
def hmac256 (key msg : List Byte) : List Byte :=
  let k := key ++ List.replicate (64 - key.length) 0#8
  sha256 (k.map (· ^^^ 0x5C#8) ++ sha256 (k.map (· ^^^ 0x36#8) ++ msg))

/-- HKDF-SHA-256 of one output block: extract with a salt, expand with an info string. -/
def hkdf256 (salt ikm info : List Byte) (n : Nat) : List Byte :=
  (hmac256 (hmac256 (if salt.isEmpty then List.replicate 32 0#8 else salt) ikm) (info ++ [1#8])).take n

end Sys2Proof.Machine
end

