-- ==== Sys2Proof/Machine/CoreRegs.lean ====
section
/-! DEFINITION. The registers of a core's own space, CORE_BASE (R7 to R11, R314, R325, R472). -/

namespace Sys2Proof.Machine

/-! ### Derived values -/

/-- CNT_CYCLE of a core's island: the cycles up to the last frequency change and those since (R306, R308). -/
def CoreGroup.cycles (g : CoreGroup) (now : Nat) : Nat := (g.milliCycles + (now - g.since) * g.mhz) / 1000

def State.groupAt (s : State) (g : Nat) : CoreGroup := sget {} s.groups g

def State.cycles (s : State) (k : Nat) : W64 := BitVec.ofNat 64 ((s.groupAt (groupOf k)).cycles s.time)

def State.timebase (s : State) : W64 := BitVec.ofNat 64 s.time

def CtxMode.code : CtxMode → Nat
  | .idle => 0 | .run => 1 | .wait => 2 | .halted => 3 | .fault => 4 | .stopped => 5

/-- Partition index of a core: its rank among the partition's cores (R302). -/
def PartBlock.rank (b : PartBlock) (k : Nat) : Nat := (b.cores.filter fun j => decide (j < k)).length

def boolNat (b : Bool) : Nat := if b then 1 else 0

def State.coreId (s : State) (k : Nat) : Nat :=
  k % 128 + k / 128 * 2 ^ 8 + (match s.partOf k with
    | some p => p * 2 ^ 10 + (s.part p).rank k * 2 ^ 14
    | none => 0)

def State.coreCfg (s : State) (k : Nat) : Nat :=
  (s.core k).nctx + (match s.partOf k with
    | some p => (s.part p).cores.length * 2 ^ 3
    | none => 0)

def ItemCtx.word (i : ItemCtx) : Nat := bits i.req 0 14 + boolNat i.failed * 2 ^ 30 + boolNat i.valid * 2 ^ 31

def SlotTag.word (t : SlotTag) : Nat := boolNat t.valid + bits t.kind 0 1 * 2 + bits t.fx 0 4 * 4 + bits t.fy 0 4 * 64

/-- Logical row at which a splice of physical row `p` lies, among the rows spliced out (R72). -/
def spliceRow (rows : List Nat) (p : Nat) : Nat := p - (rows.filter fun q => decide (q < p)).length

/-- Physical row of logical row `r`, past the rows spliced out (R72). -/
def physRow (rows : List Nat) (r : Nat) : Nat := ((List.range 34).filter fun p => !rows.contains p).getD r r

/-- ARRAY_LAT of an array (R104, R111). -/
def arrayLat (rows : List Nat) : Nat :=
  (0x2C + rows.length) + (0x1C + (rows.filter fun p => decide (spliceRow rows p ≤ 15)).length) * 2 ^ 8 + rows.length * 2 ^ 16

/-- Whether an instruction in flight belongs to stream `k`. -/
def InFlight.onStream (o : InFlight) (k : Nat) : Bool := o.unit == .stream k

/-- Streams of a split (R84). -/
def streamsOf (split : Nat) : Nat :=
  match split with
  | 0 => 1 | 1 => 2 | _ => 4

/-- STREAM_STATUS; a stream that the split leaves unused holds its values: idle, with the last split under which it was in use (R112). -/
def Core.streamStatus (c : Core) (k : Nat) : Nat :=
  boolNat (decide (k < streamsOf c.sheaf.split) && c.ops.any fun o => o.onStream k && o.started) + sget 0 c.sheaf.mode k % 2 * 2 + sget 0 c.sheaf.lastSplit k % 4 * 4 +
    sget 0 c.sheaf.nextSlot k % 2 * 16

/-- Adds held in all bank queues. -/
def Scatter.queued (x : Scatter) : Nat := (x.queues.map fun e => e.2.length).sum

/-- SCAT_STATUS; the field of 7 bits shows 127 where all 128 places are held (DESIGN CHOICE, log 63). -/
def Core.scatStatus (c : Core) : Nat := boolNat (decide (0 < c.scat.queued)) + min c.scat.queued 127 * 2

def Core.tabStatus (c : Core) : Nat := boolNat (c.ops.any fun o => o.unit == .tab) + c.tab.path % 2 * 2 + c.tab.activeSet % 2 * 4

/-- An empty history slot (R152): maximum -infinity, minimum +infinity. -/
def emptySlot : W64 := 0x7F800000FF800000#64

def Core.tracker (c : Core) (n : Nat) : Tracker := sget (Tracker.reset n) c.trackers n

/-- The tracker table keeps no entry equal to that tracker's reset value. -/
def Core.setTracker (c : Core) (n : Nat) (t : Tracker) : Core := { c with trackers := sput (Tracker.reset n) c.trackers n t }

/-- A register of tracker `n` by its offset (06, "Registers"). -/
def Tracker.reg (t : Tracker) (off : Nat) : Option Nat :=
  match off with
  | 0x00 => some (t.tbase + t.cm1 * 2 ^ 12 + t.nm1 * 2 ^ 24 + t.tfmt * 2 ^ 28)
  | 0x04 => some (boolNat t.asym + t.psfmt * 2)
  | 0x08 => some t.margin.toNat
  | 0x0C => some (t.filled + t.ptr * 2 ^ 8)
  | 0x10 => some t.curMax.toNat
  | 0x14 => some t.curMin.toNat
  | 0x18 => some (bits t.sse.toNat 0 32)
  | 0x1C => some (bits t.sse.toNat 32 32)
  | 0x20 => some (bits t.count.toNat 0 32)
  | 0x24 => some (bits t.count.toNat 32 32)
  | 0x28 => some t.clip.toNat
  | 0x2C => some t.nonfin.toNat
  | _ => none

def Core.rngOf (c : Core) (n : Nat) : RngStream := sget {} c.rng n
def Core.setRng (c : Core) (n : Nat) (r : RngStream) : Core := { c with rng := sput {} c.rng n r }

/-- OUT0 to OUT7 of a random stream: the digest of KEY and CTR (R540). -/
def RngStream.out (r : RngStream) (w : Nat) : Nat :=
  leNat ((sha256 (leBytes 8 r.key.toNat ++ leBytes 8 r.ctr.toNat)).drop (4 * w) |>.take 4)

/-- A random stream's register (17, "Registers"). -/
def RngStream.reg (r : RngStream) (off : Nat) : Option Nat :=
  match off with
  | 0x00 => some (bits r.key.toNat 0 32)
  | 0x04 => some (bits r.key.toNat 32 32)
  | 0x08 => some (bits r.ctr.toNat 0 32)
  | 0x0C => some (bits r.ctr.toNat 32 32)
  | 0x10 => some r.cpd.toNat
  | 0x14 => some (bits r.base.toNat 0 32)
  | 0x18 => some (bits r.base.toNat 32 32)
  | _ => if 0x20 ≤ off ∧ off ≤ 0x3C ∧ off % 4 = 0 then some (r.out ((off - 0x20) / 4)) else none

/-- A 64-bit value with its low or high half replaced. -/
def setHalf (x : W64) (high : Bool) (v : W32) : W64 :=
  if high then BitVec.ofNat 64 (bits x.toNat 0 32 + v.toNat * 2 ^ 32) else BitVec.ofNat 64 (bits x.toNat 32 32 * 2 ^ 32 + v.toNat)

def RngStream.write (r : RngStream) (off : Nat) (v : W32) : RngStream :=
  match off with
  | 0x00 => { r with key := setHalf r.key false v }
  | 0x04 => { r with key := setHalf r.key true v }
  | 0x08 => { r with ctr := setHalf r.ctr false v }
  | 0x0C => { r with ctr := setHalf r.ctr true v }
  | 0x10 => { r with cpd := v }
  | 0x14 => { r with base := setHalf r.base false v }
  | 0x18 => { r with base := setHalf r.base true v }
  | _ => r

/-- The RC counters of CORE_BASE (R623). -/
def rcCoreOffsets : List Nat :=
  [0x14, 0x180, 0x184, 0x228, 0x238, 0x248, 0x258, 0x2A0, 0x2A4, 0x2C0, 0x2C4, 0x2C8, 0x2CC, 0x2E0, 0x2E4, 0x2E8, 0x304,
   0x360, 0x364, 0x368, 0x1604, 0x1608]

/-- CNT_IDLE_LANE and CNT_PLANE_SKIP, which a read leaves (04, "Registers"). -/
def roCoreCounters : List Nat := [0x220, 0x224, 0x230, 0x234, 0x240, 0x244, 0x250, 0x254]

/-- A register whose read changes nothing: its value at an offset from CORE_BASE for context `c` of core `k`. -/
def State.coreReg (s : State) (k c off : Nat) : Option Nat :=
  let x := s.core k
  let y := x.ctx c
  if off % 4 ≠ 0 then none
  else if roCoreCounters.contains off then some (sget 0 x.cnt off).toNat
  else if 0x30 ≤ off ∧ off < 0x70 then
    let z := x.ctx ((off - 0x30) / 16)
    match off % 16 with
    | 0 => some z.mode.code
    | 4 => some z.item.word
    | 8 => some (bits z.item.item 0 32)
    | _ => none
  else if 0x200 ≤ off ∧ off < 0x210 then some (arrayLat (sget [] x.sheaf.splices ((off - 0x200) / 4)))
  else if 0x220 ≤ off ∧ off < 0x260 then (if off % 16 = 12 then some (x.streamStatus ((off - 0x220) / 16)) else none)
  else if 0x260 ≤ off ∧ off < 0x2A0 then some (sget ({} : SlotTag) x.sheaf.tags ((off - 0x260) / 4)).word
  else if 0x340 ≤ off ∧ off < 0x360 then some (sget 0 x.mcast ((off - 0x340) / 4)).toNat
  else if 0x400 ≤ off ∧ off < 0x1400 then (x.tracker ((off - 0x400) / 64)).reg ((off - 0x400) % 64)
  else if 0x1400 ≤ off ∧ off < 0x1600 then (x.rngOf ((off - 0x1400) / 64)).reg ((off - 0x1400) % 64)
  else match off with
  | 0x00 => some (s.coreId k)
  | 0x04 => some (s.coreCfg k)
  | 0x08 => some (s.groupAt (groupOf k)).mhz
  | 0x0C => some x.wdExp
  | 0x10 => some (x.faultCode.toNat + x.faultCtx * 2 ^ 16 + boolNat x.faultValid * 2 ^ 31)
  | 0x18 => some (bits (s.cycles k).toNat 0 32)
  | 0x1C => some y.cycleHi.toNat
  | 0x20 => some (bits s.timebase.toNat 0 32)
  | 0x24 => some y.timeHi.toNat
  | 0x188 => some x.fmtFlags.toNat
  | 0x2D0 => some (bits x.chaff.toNat 0 24 + bits x.chaff.toNat 31 1 * 2 ^ 31)
  | 0x2D4 => some x.scatStatus
  | 0x300 => some x.tab.tag.word
  | 0x308 => some x.tabStatus
  | 0x310 => some x.exact.actXmin.toNat
  | 0x314 => some x.exact.actInvw.toNat
  | 0x318 => some x.exact.derXmin.toNat
  | 0x31C => some x.exact.derInvw.toNat
  | 0x1600 => some (x.island.offset + min x.island.raises 0xFFFF * 2 ^ 16)
  | _ => none

/-- What a read of a low half of a 64-bit counter latches for its context (R314). -/
def State.latchHigh (s : State) (k c off : Nat) : State :=
  let y := s.ctx k c
  if off = 0x18 then s.setCtx k c { y with cycleHi := BitVec.ofNat 32 (bits (s.cycles k).toNat 32 32) }
  else if off = 0x20 then s.setCtx k c { y with timeHi := BitVec.ofNat 32 (bits s.timebase.toNat 32 32) }
  else s

/-- An RC counter of a core reads and becomes 0 (R7). -/
def State.rcCoreRead (s : State) (k off : Nat) : Nat × State :=
  let x := s.core k
  ((sget 0 x.cnt off).toNat, s.setCore k { x with cnt := sput 0 x.cnt off 0 })

/-- A read of the register at an offset, with its effect; none where the offset names no register (R325). -/
def State.coreRead (s : State) (k c off : Nat) : Option (Nat × State) :=
  if rcCoreOffsets.contains off then some (s.rcCoreRead k off)
  else (s.coreReg k c off).map fun v => (v, s.latchHigh k c off)

/-- Whether an offset names a register (R325). -/
def State.isCoreReg (s : State) (k c off : Nat) : Bool := rcCoreOffsets.contains off || (s.coreReg k c off).isSome

/-- A write of WD_EXP: a value outside 12 to 30 leaves the field (R311). -/
def Core.writeWatchdog (x : Core) (v : W32) : Core :=
  let e := bits v.toNat 0 5
  if 12 ≤ e ∧ e ≤ 30 then { x with wdExp := e } else x

/-- A write under the access codes of R7 and R10. -/
def Core.regWrite (x : Core) (off : Nat) (v : W32) : Core :=
  if 0x1400 ≤ off ∧ off < 0x1600 then
    let n := (off - 0x1400) / 64
    x.setRng n ((x.rngOf n).write ((off - 0x1400) % 64) v)
  else if 0x340 ≤ off ∧ off < 0x360 then
    let m := (off - 0x340) / 4
    { x with mcast := sput 0 x.mcast m (if m = 0 then v &&& 0xFFFFFFFE#32 else v) }
  else match off with
  | 0x0C => x.writeWatchdog v
  | 0x10 => if v.toNat.testBit 31 then { x with faultValid := false } else x
  | 0x188 => x.clearFlags v
  | _ => x

end Sys2Proof.Machine
end

