-- ==== Sys2Proof/Machine/Scalar.lean ====
section
/-! DEFINITION. SCL instructions and the instruction cache (11, "Scalar and control"; R301). -/

namespace Sys2Proof.Machine

/-! ### Shared operations -/

/-- The functions of SCL.OP and SCL.OPI (R322). -/
inductive SclFn where
  | sub | and | or | xor | shl | shr | sra | min | max | minu | maxu
deriving DecidableEq, Repr

def SclFn.eval (f : SclFn) (a b : W64) : W64 :=
  let n := b.toNat % 64
  match f with
  | .sub => a - b
  | .and => a &&& b
  | .or => a ||| b
  | .xor => a ^^^ b
  | .shl => a <<< n
  | .shr => a >>> n
  | .sra => a.sshiftRight n
  | .min => if b.slt a then b else a
  | .max => if a.slt b then b else a
  | .minu => if b.ult a then b else a
  | .maxu => if a.ult b then b else a

/-- The conditions of SCL.CMP (R323). -/
def sclCond (c : Nat) (a b : W64) : Bool :=
  match c with
  | 0 => a == b
  | 1 => a != b
  | 2 => a.slt b
  | 3 => !a.slt b
  | 4 => a.ult b
  | _ => !a.ult b

/-- A scalar result of the two registers A and B and the immediate. -/
def sclResult (k c : Nat) (w : W64) (s : State) (f : W64 → W64 → W64 → W64) : Issued :=
  let x := s.ctx k c
  .go (s.putS k c (fD w) (f (x.readS (fA w)) (x.readS (fB w)) (sextImm w)))

/-- The register form SCL.OP with function number `n` (R322). -/
def sclOp (k c : Nat) (w : W64) (n : Nat) (f : SclFn) (s : State) : Host.Outcome State Fault Refusal :=
  issue k c w (spells w 0x02 n) (sclResult k c w s fun a b _ => f.eval a b) s

/-- The immediate form SCL.OPI with function number `n` (R322). -/
def sclOpi (k c : Nat) (w : W64) (n : Nat) (f : SclFn) (s : State) : Host.Outcome State Fault Refusal :=
  issue k c w (spells w 0x03 n) (sclResult k c w s fun a _ i => f.eval a i) s

/-- A scalar load of `n` bytes (R320): a page that is not mapped, lost or poisoned fails the item, and the register then holds a value the
spec leaves open (log 10). -/
def sclLoad (k c : Nat) (w : W64) (n : Nat) (s : State) : Issued :=
  let va := addrOf (s.ctx k c) w
  if badAddr va n n then .refuse fltArgRange
  else
    match s.readAt k va n with
    | .ok bs => .go ((s.touchAt k va n).putS k c (fD w) (BitVec.ofNat 64 (leNat bs)))
    | .error f =>
      let (v, t) := s.free
      .go ((t.faultAt k c (s.ctx k c).bind f.code).putS k c (fD w) v)

/-- A scalar store of the low `n` bytes of s[B] (R320). -/
def sclStore (k c : Nat) (w : W64) (n : Nat) (s : State) : Issued :=
  let x := s.ctx k c
  let va := addrOf x w
  if badAddr va n n then .refuse fltArgRange
  else
    match s.writableAt k va n with
    | none => .go (s.writeAt k va (leBytes n (x.readS (fB w)).toNat))
    | some f => .go (s.faultAt k c x.bind f.code)

/-- Instructions in flight of context `c` in the classes of a fence mask (R289, R326). -/
def Core.inClasses (x : Core) (c mask : Nat) : Bool := x.ops.any fun o => o.ctx == c && mask.testBit o.cls

/-- The context waits, in an instruction bound to its item (R293). -/
def State.enterWait (s : State) (k c : Nat) (w : WaitKind) : State :=
  s.setCtx k c { s.ctx k c with mode := .wait, wait := some { kind := w, wdExp := (s.core k).wdExp, bind := (s.ctx k c).bind } }

/-- Line of a partition's memory as 64 bytes. -/
def lineOf (m : Mem) (n : Nat) : BitVec 512 := BitVec.ofNat 512 (readNat m.bytes (64 * n) 64)

/-! ### Meanings -/

/-- SCL.ADD (R321). -/
def execSclAdd (k c : Nat) (w : W64) (s : State) : Host.Outcome State Fault Refusal :=
  issue k c w (spells w 0x01 0) (sclResult k c w s fun a b i => a + b + i) s

def execSclSub (k c : Nat) (w : W64) (s : State) : Host.Outcome State Fault Refusal := sclOp k c w 0 .sub s
def execSclAnd (k c : Nat) (w : W64) (s : State) : Host.Outcome State Fault Refusal := sclOp k c w 1 .and s
def execSclOr (k c : Nat) (w : W64) (s : State) : Host.Outcome State Fault Refusal := sclOp k c w 2 .or s
def execSclXor (k c : Nat) (w : W64) (s : State) : Host.Outcome State Fault Refusal := sclOp k c w 3 .xor s
def execSclShl (k c : Nat) (w : W64) (s : State) : Host.Outcome State Fault Refusal := sclOp k c w 4 .shl s
def execSclShr (k c : Nat) (w : W64) (s : State) : Host.Outcome State Fault Refusal := sclOp k c w 5 .shr s
def execSclSra (k c : Nat) (w : W64) (s : State) : Host.Outcome State Fault Refusal := sclOp k c w 6 .sra s
def execSclMin (k c : Nat) (w : W64) (s : State) : Host.Outcome State Fault Refusal := sclOp k c w 7 .min s
def execSclMax (k c : Nat) (w : W64) (s : State) : Host.Outcome State Fault Refusal := sclOp k c w 8 .max s
def execSclMinu (k c : Nat) (w : W64) (s : State) : Host.Outcome State Fault Refusal := sclOp k c w 9 .minu s
def execSclMaxu (k c : Nat) (w : W64) (s : State) : Host.Outcome State Fault Refusal := sclOp k c w 10 .maxu s
def execSclSubi (k c : Nat) (w : W64) (s : State) : Host.Outcome State Fault Refusal := sclOpi k c w 0 .sub s
def execSclAndi (k c : Nat) (w : W64) (s : State) : Host.Outcome State Fault Refusal := sclOpi k c w 1 .and s
def execSclOri (k c : Nat) (w : W64) (s : State) : Host.Outcome State Fault Refusal := sclOpi k c w 2 .or s
def execSclXori (k c : Nat) (w : W64) (s : State) : Host.Outcome State Fault Refusal := sclOpi k c w 3 .xor s
def execSclShli (k c : Nat) (w : W64) (s : State) : Host.Outcome State Fault Refusal := sclOpi k c w 4 .shl s
def execSclShri (k c : Nat) (w : W64) (s : State) : Host.Outcome State Fault Refusal := sclOpi k c w 5 .shr s
def execSclSrai (k c : Nat) (w : W64) (s : State) : Host.Outcome State Fault Refusal := sclOpi k c w 6 .sra s
def execSclMini (k c : Nat) (w : W64) (s : State) : Host.Outcome State Fault Refusal := sclOpi k c w 7 .min s
def execSclMaxi (k c : Nat) (w : W64) (s : State) : Host.Outcome State Fault Refusal := sclOpi k c w 8 .max s
def execSclMinui (k c : Nat) (w : W64) (s : State) : Host.Outcome State Fault Refusal := sclOpi k c w 9 .minu s
def execSclMaxui (k c : Nat) (w : W64) (s : State) : Host.Outcome State Fault Refusal := sclOpi k c w 10 .maxu s

/-- SCL.MUL: the low 64 bits of the product (R321). -/
def execSclMul (k c : Nat) (w : W64) (s : State) : Host.Outcome State Fault Refusal :=
  issue k c w (spells w 0x04 0) (sclResult k c w s fun a b _ => a * b) s

/-- SCL.CMP (R323). -/
def execSclCmp (k c : Nat) (w : W64) (s : State) : Host.Outcome State Fault Refusal :=
  let x := s.ctx k c
  issue k c w (spells w 0x05 0)
    (.go (s.putP k c (fD w) (sclCond (bits (fImm w) 0 3) (x.readS (fA w)) (x.readS (fB w))))) s

/-- SCL.LIH (R321). -/
def execSclLih (k c : Nat) (w : W64) (s : State) : Host.Outcome State Fault Refusal :=
  issue k c w (spells w 0x06 0) (sclResult k c w s fun a _ i => (i <<< 32) ||| (a &&& 0xFFFFFFFF#64)) s

/-- SCL.LD (R320). -/
def execSclLd (k c : Nat) (w : W64) (s : State) : Host.Outcome State Fault Refusal :=
  issue k c w (spells w 0x07 0) (sclLoad k c w 8 s) s

/-- SCL.LDW (R320). -/
def execSclLdw (k c : Nat) (w : W64) (s : State) : Host.Outcome State Fault Refusal :=
  issue k c w (spells w 0x08 0) (sclLoad k c w 4 s) s

/-- SCL.ST (R320). -/
def execSclSt (k c : Nat) (w : W64) (s : State) : Host.Outcome State Fault Refusal :=
  issue k c w (spells w 0x09 0) (sclStore k c w 8 s) s

/-- SCL.STW (R320). -/
def execSclStw (k c : Nat) (w : W64) (s : State) : Host.Outcome State Fault Refusal :=
  issue k c w (spells w 0x0A 0) (sclStore k c w 4 s) s

/-- SCL.BR (R324): the link is written only when the branch is taken. -/
def execSclBr (k c : Nat) (w : W64) (s : State) : Host.Outcome State Fault Refusal :=
  let x := s.ctx k c
  issue k c w (spells w 0x0B 0)
    (if x.readP (fA w) != bit (fB w) 0 then .jump (s.putS k c (fD w) (x.pc + 8)) (x.pc + 8 * sextImm w) else .go s) s

/-- SCL.JR (R324): the target is taken unaltered. -/
def execSclJr (k c : Nat) (w : W64) (s : State) : Host.Outcome State Fault Refusal :=
  let x := s.ctx k c
  issue k c w (spells w 0x0C 0) (.jump (s.putS k c (fD w) (x.pc + 8)) (x.readS (fA w))) s

/-- SCL.TLD (R282). -/
def execSclTld (k c : Nat) (w : W64) (s : State) : Host.Outcome State Fault Refusal :=
  let x := s.ctx k c
  let va := addrOf x w
  issue k c w (spells w 0x0D 0)
    (if va % 64 ≠ 0 ∨ 0x300000 < va + 64 then .refuse fltArgRange
     else .go (s.setCtx k c (x.writeT (fD w) (BitVec.ofNat 512 (readNat (s.core k).scratch va 64))))) s

/-- SCL.CSRR (R325). -/
def execSclCsrr (k c : Nat) (w : W64) (s : State) : Host.Outcome State Fault Refusal :=
  issue k c w (spells w 0x0E 0)
    (match s.coreRead k c (bits (fImm w) 0 16) with
     | none => .refuse fltArgRange
     | some (v, t) => .go (t.putS k c (fD w) (BitVec.ofNat 64 v))) s

/-- SCL.CSRW (R325). -/
def execSclCsrw (k c : Nat) (w : W64) (s : State) : Host.Outcome State Fault Refusal :=
  let off := bits (fImm w) 0 16
  let v := (s.ctx k c).readS (fA w)
  issue k c w (spells w 0x0E 1)
    (if s.isCoreReg k c off then .go (s.setCore k ((s.core k).regWrite off (v.truncate 32))) else .refuse fltArgRange) s

/-- SCL.FENCE (R289, R326). -/
def execSclFence (k c : Nat) (w : W64) (s : State) : Host.Outcome State Fault Refusal :=
  let mask := bits (fImm w) 0 11
  issue k c w (spells w 0x0F 0)
    (if (s.core k).inClasses c mask then .go (s.enterWait k c (.fence mask)) else .go s) s

/-- SCL.HALT (R303). -/
def execSclHalt (k c : Nat) (w : W64) (s : State) : Host.Outcome State Fault Refusal :=
  issue k c w (spells w 0x0F 1)
    (if (s.core k).ops.any (·.ctx == c) then .go (s.enterWait k c .halt)
     else .go (s.setCtx k c { s.ctx k c with mode := .halted })) s

/-- SCL.IFLUSH (R301): SCL and VEC stores are visible at their own steps, so the invalidation is done at once. -/
def execSclIflush (k c : Nat) (w : W64) (s : State) : Host.Outcome State Fault Refusal :=
  issue k c w (spells w 0x0F 2) (.go (s.setCore k { s.core k with icache := [] })) s

/-- What a fetch of a program counter meets (R301). -/
def State.fetchFault (s : State) (k : Nat) (pc : W64) : Option FaultCode :=
  if pc.toNat % 8 ≠ 0 ∨ pc.toNat < 0x400000 then some fltIfetch
  else match s.partOf k with
    | none => some fltIfetch
    | some p =>
      match s.failOf p true (pc.toNat / 64) with
      | some .unmapped => some fltIfetch
      | some f => some f.code
      | none => none

/-- Lines of the instruction cache, 64 KiB of 64 bytes each (R301). A fill of a full cache drops the line that was filled first (DESIGN CHOICE,
log 60). -/
def icacheLines : Nat := 1024

/-- The line of a context's program counter is missing from the instruction cache. -/
def Core.misses (x : Core) (pc : W64) : Bool := (x.fetched pc).isNone

/-- ICACHE_LINE_FILL (R301): the line arrives, or the fetch fails and the context enters FAULT (R295). `poisoned` reports a poisoned
unit met by this fetch (R527). -/
def execIcacheLineFill (k c : Nat) (poisoned : Bool) (s₀ : State) : Host.Outcome State Fault Refusal :=
  let pc := (s₀.ctx k c).pc
  let s := match s₀.partOf k with
    | some p => if poisoned then s₀.memError p (.ue pc.toNat) else s₀
    | none => s₀
  let x := s.core k
  let y := x.ctx c
  if k < 512 ∧ c < 4 ∧ y.mode = .run ∧ x.misses y.pc = true then
    match s.fetchFault k y.pc with
    | some f => .next (s.ctxFault k c f)
    | none =>
      match s.partOf k with
      | none => .next s
      | some p =>
        let n := y.pc.toNat / 64
        let t := s.setCore k { x with icache := ((n, lineOf (s.mem p) n) :: x.icache).take icacheLines }
        .next ((t.touchAt k (64 * n) 64).startFarOwn p)
  else .next s₀

end Sys2Proof.Machine
end

