-- ==== Sys2Proof/Machine/Sync.lean ====
section
/-! DEFINITION. SYNC, SLOT and SESS instructions and their waits (11, "Slots", "Synchronisation objects", "Sessions and items"). -/

namespace Sys2Proof.Machine

/-! ### Unit queues (R287) -/

/-- Depth of a unit's queue (R287); the exact unit has none, and no instruction waits for room in that of the Tier F transfers (log 67). -/
def unitDepth : UnitId → Nat
  | .stream _ => 4 | .epi => 4 | .tab => 2 | .quant => 4 | .guard => 4 | .dma => 16
  | .sync => 8 | .slot => 8 | .sess => 8 | .fab => 8 | .vec => 1 | .mem => 8192

/-- Instructions that wait in a unit's queue. -/
def Core.queued (x : Core) (u : UnitId) : Nat := (x.ops.filter fun o => o.unit == u && !o.started).length

def Core.queueFull (x : Core) (u : UnitId) : Bool := decide (unitDepth u ≤ x.queued u)

/-- An instruction enters its unit's queue, bound to the context's item (R287, R293); one whose count is zero has nothing to start (R319),
and the exact unit has no queue. -/
def State.launch (s : State) (k c : Nat) (u : UnitId) (cls : Nat) (objs : List Nat) (results : List Result) (job : Job) : State :=
  let x := s.core k
  s.setCore k { x with
    nextId := x.nextId + 1
    ops := x.ops ++ [{ id := x.nextId, ctx := c, unit := u, cls := cls, bind := (x.ctx c).bind, started := job == .empty || u == .vec,
                       objs := objs, results := results, job := job }] }

/-- The instruction that a launch put last has faulted (R318). -/
def State.faultLast (s : State) (k : Nat) : State :=
  let x := s.core k
  s.setCore k { x with ops := x.ops.dropLast ++ (x.ops.getLast?.map fun o => { o with faulted := true }).toList }

/-- A completion register (R317): the object it names when EN is 1. -/
def complObj (v : W64) : List Nat := if bit v.toNat 31 then [bits v.toNat 0 17] else []

/-- A control-processor unit instruction: held while the unit's queue is full, refused, or launched after its effect. -/
def unitIssue (s : State) (k : Nat) (u : UnitId) (r : Issued) : Issued := if (s.core k).queueFull u then .hold else r

/-! ### Objects -/

/-- Whether object `n` is granted to the partition of core `k` (R355). -/
def State.objGranted (s : State) (k n : Nat) : Bool :=
  match s.partOf k with
  | some p => (s.part p).hasObj n
  | none => false

/-- Object number of a SYNC instruction (R353). -/
def syncObj (x : Ctx) (w : W64) : Nat := ((x.readS (fA w)).toNat + bits (fImm w) 0 17) % 131072

/-- Amount of a SYNC instruction (R353). -/
def syncAmount (x : Ctx) (w : W64) : W32 := BitVec.ofNat 32 ((x.readS (fB w)).toNat + bits (fImm w) 17 17)

/-- A SYNC operation on a granted object (R355). -/
def syncIssue (k c : Nat) (w : W64) (s : State) (f : Nat → Issued) : Issued :=
  let n := syncObj (s.ctx k c) w
  if s.objGranted k n then f n else .refuse fltArgRange

/-- SYNC.SIGNAL (R353, R354). -/
def execSyncSignal (k c : Nat) (w : W64) (s : State) : Host.Outcome State Fault Refusal :=
  issue k c w (spells w 0x90 0) (unitIssue s k .sync (syncIssue k c w s fun n =>
    .go ((s.signal n (syncAmount (s.ctx k c) w)).launch k c .sync 8 [] [] .plain))) s

/-- A class W wait on an object: satisfied at once, or the context joins the object's waiters (R355). -/
def State.waitOn (s : State) (k c n : Nat) (w : WaitKind) (sat : State) : State :=
  if w.holds (s.obj n) then sat else (s.enterWait k c w).addWaiter n { core := k, who := .ctx c }

/-- SYNC.WAIT (R353, R355). -/
def execSyncWait (k c : Nat) (w : W64) (s : State) : Host.Outcome State Fault Refusal :=
  issue k c w (spells w 0x91 0) (syncIssue k c w s fun n =>
    .go (s.waitOn k c n (.sync n (syncAmount (s.ctx k c) w)) s)) s

/-- SYNC.FADD (R353, R354): the old value reaches s[D] when the instruction completes (R276). -/
def execSyncFadd (k c : Nat) (w : W64) (s : State) : Host.Outcome State Fault Refusal :=
  issue k c w (spells w 0x92 0) (unitIssue s k .sync (syncIssue k c w s fun n =>
    .go (((s.setCore k ((s.core k).dropScalar c (fD w))).signal n (syncAmount (s.ctx k c) w)).launch k c .sync 8 []
      [.scalar (fD w) (BitVec.ofNat 64 (s.obj n).toNat)] .plain))) s

/-- SYNC.CMP (R353, R354). -/
def execSyncCmp (k c : Nat) (w : W64) (s : State) : Host.Outcome State Fault Refusal :=
  let b := ((s.ctx k c).readS (fB w)).toNat
  issue k c w (spells w 0x93 0) (unitIssue s k .sync (syncIssue k c w s fun n =>
    let t := s.setCore k ((s.core k).dropScalar c (fD w))
    let t := if (s.obj n).toNat = bits b 0 32 then t.setObj n (BitVec.ofNat 32 (bits b 32 32)) else t
    .go (t.launch k c .sync 8 [] [.scalar (fD w) (BitVec.ofNat 64 (s.obj n).toNat)] .plain))) s

/-! ### Slots (R351) -/

/-- A slot descriptor. -/
structure SlotDesc where
  base : Nat
  esize : Nat
  objF : Nat
  objD : Nat
  n : Nat
deriving DecidableEq, Repr

/-- The slot descriptor at a scratchpad address; none where its address or its fields are refused (R351; a BASE or ESIZE outside its stated
form counts as refused, log 11). -/
def readSlotDesc (m : Sparse Byte) (a : Nat) : Option SlotDesc :=
  let v := readNat m a 16
  let d : SlotDesc := { base := bits v 0 22, esize := bits v 32 22, objF := bits v 64 17, objD := bits v 96 17, n := bits v 113 15 + 1 }
  if a % 16 ≠ 0 ∨ 0x300000 < a + 16 ∨ bits v 22 10 ≠ 0 ∨ bits v 54 10 ≠ 0 ∨ bits v 81 15 ≠ 0 then none
  else if d.base % 4 ≠ 0 ∨ d.esize % 4 ≠ 0 ∨ d.esize < 4 ∨ 0x300000 < d.base + d.n * d.esize then none
  else some d

/-- A SLOT instruction on its descriptor, whose objects must be granted (R351). -/
def slotIssue (k c : Nat) (w : W64) (s : State) (f : SlotDesc → Issued) : Issued :=
  match readSlotDesc (s.core k).scratch ((s.ctx k c).readS (fA w)).toNat with
  | none => .refuse fltArgRange
  | some d => if s.objGranted k d.objF && s.objGranted k d.objD then f d else .refuse fltArgRange

/-- Address of slot position `pos` (R351). -/
def SlotDesc.entry (d : SlotDesc) (pos : W32) : W64 := BitVec.ofNat 64 (d.base + pos.toNat % d.n * d.esize)

/-- SLOT.GET and SLOT.PUT: wait on an object and return the entry's address (R351, R352). -/
def slotWait (k c : Nat) (w : W64) (s : State) (sel : SlotDesc → Nat × W32) : Issued :=
  slotIssue k c w s fun d =>
    let pos : W32 := ((s.ctx k c).readS (fB w)).truncate 32
    let (obj, plus) := sel d
    .go (s.waitOn k c obj (.slot obj plus pos (fD w) (d.entry pos)) (s.putS k c (fD w) (d.entry pos)))

/-- SLOT.GET (R351). -/
def execSlotGet (k c : Nat) (w : W64) (s : State) : Host.Outcome State Fault Refusal :=
  issue k c w (spells w 0x80 0) (slotWait k c w s fun d => (d.objF, 0)) s

/-- SLOT.PUT (R351). -/
def execSlotPut (k c : Nat) (w : W64) (s : State) : Host.Outcome State Fault Refusal :=
  issue k c w (spells w 0x81 0) (slotWait k c w s fun d => (d.objD, BitVec.ofNat 32 d.n)) s

/-- SLOT.FILL and SLOT.DRAIN add 1 as SYNC.SIGNAL does (R352). -/
def slotSignal (k c : Nat) (w : W64) (s : State) (sel : SlotDesc → Nat) : Issued :=
  unitIssue s k .slot (slotIssue k c w s fun d => .go ((s.signal (sel d) 1).launch k c .slot 7 [] [] .plain))

/-- SLOT.FILL (R352). -/
def execSlotFill (k c : Nat) (w : W64) (s : State) : Host.Outcome State Fault Refusal :=
  issue k c w (spells w 0x82 0) (slotSignal k c w s SlotDesc.objF) s

/-- SLOT.DRAIN (R352). -/
def execSlotDrain (k c : Nat) (w : W64) (s : State) : Host.Outcome State Fault Refusal :=
  issue k c w (spells w 0x83 0) (slotSignal k c w s SlotDesc.objD) s

/-! ### Sessions and items -/

/-- Whether an item reads as failed: its fault, or an end other than DONE (R294, R499). -/
def ItemInfo.isFailed (x : ItemInfo) : Bool := x.fault != 0 || x.status == .failed || x.status == .cancelled

/-- SESS.ITEM (R356). -/
def execSessItem (k c : Nat) (w : W64) (s : State) : Host.Outcome State Fault Refusal :=
  let x := s.ctx k c
  let a := (x.readS (fA w)).toNat
  let r := bits a 0 14
  let i := bits a 32 32
  issue k c w (spells w 0xA0 0)
    (if bit (fImm w) 0 then
      match s.request r with
      | some q =>
        if some q.part = s.partOf k ∧ i < q.count then
          .go (s.setCtx k c { x with item := { valid := true, failed := (q.item i).isFailed, req := r, item := i, past := (q.item i).status != .open } })
        else .refuse fltArgRange
      | none => .refuse fltArgRange
     else .go (s.setCtx k c { x with item := { x.item with valid := false } })) s

/-- Numbers of the core's instructions in flight that are bound to an item (R357). -/
def Core.opsBound (x : Core) (r i : Nat) : List Nat := (x.ops.filter fun o => o.bind == some (r, i)).map (·.id)

/-- Contexts of the core that wait in an instruction bound to an item (R357). -/
def Core.waitsBound (x : Core) (r i : Nat) : List Nat :=
  (List.range 4).filter fun c => (x.ctx c).wait.any fun w => w.bind == some (r, i)

/-- A context's wait is over: it goes on in a mode, and no SESS.END of the core waits for it any longer (R357). -/
def Core.endWait (x : Core) (c : Nat) (m : CtxMode) : Core :=
  { x with ctxs := (x.setCtx c { x.ctx c with mode := m, wait := none }).ctxs.map fun e =>
      (e.1, { e.2 with wait := e.2.wait.map fun w => match w.kind with
        | .sessEnd ids cs => { w with kind := .sessEnd ids (cs.filter (· != c)) }
        | _ => w }) }

def State.endWait (s : State) (k c : Nat) (m : CtxMode) : State := s.setCore k ((s.core k).endWait c m)

/-- VALID cleared in every context of a core that names an item (R357). -/
def Core.clearItem (x : Core) (r i : Nat) : Core :=
  { x with ctxs := x.ctxs.map fun e =>
      if e.2.item.names r i then (e.1, { e.2 with item := { e.2.item with valid := false } }) else e }

/-- The program ends an item (R357): DONE, or FAILED with its first fault. -/
def State.finishItem (s : State) (k r i : Nat) : State :=
  if s.itemOpen r i then
    let f := match s.request r with
      | some q => (q.item i).fault
      | none => 0
    (s.setCore k ((s.core k).clearItem r i)).endItem r i (if f = 0 then .done else .failed) f
  else s

/-- A partition whose completion ring is full or disabled (R507, R508). -/
def PartBlock.cplHeld (b : PartBlock) : Bool := b.cpl.full || !b.cpl.ring.en

/-- SESS.END (R357, R358, R507). -/
def execSessEnd (k c : Nat) (w : W64) (s : State) : Host.Outcome State Fault Refusal :=
  let x := s.ctx k c
  let final := bit (fImm w) 0
  let held := match s.partOf k with
    | some p => (s.part p).cplHeld
    | none => false
  issue k c w (spells w 0xA1 0)
    (if final && held then .hold
     else if !x.item.valid then .go s
     else if !final then .go (s.setCtx k c { x with item := { x.item with valid := false } })
     else if x.item.past then .go s
     else if (s.core k).opsBound x.item.req x.item.item ≠ [] ∨ (s.core k).waitsBound x.item.req x.item.item ≠ [] then
       .go (s.enterWait k c (.sessEnd ((s.core k).opsBound x.item.req x.item.item) ((s.core k).waitsBound x.item.req x.item.item)))
     else .go (s.finishItem k x.item.req x.item.item)) s

/-- Whether a context has ended: HALTED or in state FAULT (R305). -/
def State.ctxOver (s : State) (k c : Nat) : Bool := (s.ctx k c).mode == .halted || (s.ctx k c).mode == .fault

/-- Every context of every core of the partition has ended. -/
def State.allOver (s : State) (p : Nat) : Bool :=
  (s.part p).cores.all fun k => (List.range (s.core k).nctx).all fun c => s.ctxOver k c

/-- The context waits at a SESS.STEP. -/
def Ctx.atStep (x : Ctx) : Bool :=
  match x.wait with
  | some { kind := .step, .. } => true
  | _ => false

/-- A context of the partition waits at a SESS.STEP. -/
def State.stepWaits (s : State) (p : Nat) : Bool :=
  (s.part p).cores.any fun k => !(s.core k).failed && (List.range (s.core k).nctx).any fun c => (s.ctx k c).atStep

/-- Every context of the partition is at a SESS.STEP with its earlier instructions complete, or has ended; one at least waits (R304). The contexts of a
failed core count as in state FAULT (R522). -/
def State.atBoundary (s : State) (p : Nat) : Bool :=
  let b := s.part p
  !b.held && s.stepWaits p &&
    b.cores.all fun k => (s.core k).failed || (List.range (s.core k).nctx).all fun c =>
      s.ctxOver k c || ((s.ctx k c).atStep && !(s.core k).ops.any (·.ctx == c))

/-- SESS.STEP (R304): the context waits for the step boundary. -/
def execSessStep (k c : Nat) (w : W64) (s : State) : Host.Outcome State Fault Refusal :=
  issue k c w (spells w 0xA2 0) (.go (s.enterWait k c .step)) s

/-- The next request of a core group is taken: it becomes ASSIGNED (R424). -/
def State.takeRequest (s : State) (g : Nat) : W64 × State :=
  match sget [] s.queues g with
  | [] => (0, s)
  | r :: rest =>
    let s := { s with queues := sput [] s.queues g rest }
    match s.request r with
    | none => (0, s)
    | some q =>
      let s := s.setRequest r { q with assigned := true, takenAt := (s.part q.part).prog.step.toNat }
      let s := match q.session with
        | some n =>
          let e := s.sessOf n
          s.setSess n { e with queued := e.queued - 1, assigned := e.assigned + 1 }
        | none => s
      (BitVec.ofNat 64 (bits r 0 14 + bits (q.session.getD 0) 0 18 * 2 ^ 14 + 2 ^ 63), s)

/-- SESS.NEXT (R359, R424). -/
def execSessNext (k c : Nat) (w : W64) (s : State) : Host.Outcome State Fault Refusal :=
  issue k c w (spells w 0xA3 0) (unitIssue s k .sess (
    let (v, t) := s.takeRequest (groupOf k)
    let t := t.setCore k ((t.core k).dropScalar c (fD w))
    .go (t.launch k c .sess 9 [] [.scalar (fD w) v] .plain))) s

/-! ### Hints (R396 to R400) -/

/-- Units of 64 KiB that a placement unit counts against the pin quota (R399). -/
def PUnit.pinCount (u : PUnit) : Nat := if u.sub then 1 else 32

/-- PIN_USED (R399). -/
def Mem.pinUsed (m : Mem) : Nat := (m.units.map fun e => if e.2.pinned then e.2.pinCount else 0).sum

/-- First addresses of the placement units that a range touches, ascending: subpages in the arena, pages elsewhere (R389, R396). -/
def unitBases (arena : Option (Nat × Nat)) (lo n : Nat) : List Nat :=
  if n = 0 then [] else
  (List.range' (lo / 2097152) ((lo + n - 1) / 2097152 - lo / 2097152 + 1)).flatMap fun pg =>
    let a := pg * 2097152
    let inArena := match arena with
      | some (b, pages) => decide (b ≤ a) && decide (a < b + pages * 2097152)
      | none => false
    if inArena then
      ((List.range 32).map fun i => a + 65536 * i).filter fun x => decide (x < lo + n) && decide (lo < x + 65536)
    else [a]

/-- One hint on one unit (R397); none when a PIN would pass the quota (R399). -/
def hintUnit (kind quota : Nat) (m : Mem) (base : Nat) (u : PUnit) : Option Mem :=
  match kind with
  | 0 =>
    if u.pinned then some m
    else if quota < m.pinUsed + u.pinCount then none
    else some (m.setUnit base { u with pinned := true })
  | 1 => some (m.setUnit base { u with pinned := false })
  | 2 => some (m.setUnit base { u with heat := 255, cold := false })
  | _ => some (m.setUnit base { u with heat := 0, cold := true })

/-- A hint on every unit of a list in order: the memory, the units skipped, and whether the pin quota stopped it. -/
def hintUnits (kind quota : Nat) (bases : List Nat) (m : Mem) (skips : Nat) : Mem × Nat × Bool :=
  match bases with
  | [] => (m, skips, false)
  | a :: rest =>
    match m.units.find? (·.1 == a) with
    | none => hintUnits kind quota rest m (skips + 1)
    | some (_, u) =>
      match hintUnit kind quota m a u with
      | none => (m, skips, true)
      | some m => hintUnits kind quota rest m skips

/-- SESS.HINT (R359, R396 to R399). -/
def execSessHint (k c : Nat) (w : W64) (s : State) : Host.Outcome State Fault Refusal :=
  let x := s.ctx k c
  let lo := (x.readS (fA w)).toNat
  let n := (x.readS (fB w)).toNat
  issue k c w (spells w 0xA4 0) (unitIssue s k .sess (
    if 2 ^ 48 < lo + n then .refuse fltArgRange
    else match s.partOf k with
    | none => .refuse fltArgRange
    | some p =>
      let b := s.part p
      let (m, skips, overs) := hintUnits (bits (fImm w) 0 3) b.grant.pinQuota (unitBases b.arena lo n) b.mem 0
      let t := s.setPart p { b.count 0x1034 skips with mem := m }
      let t := t.launch k c .sess 9 [] [] (if n = 0 then .empty else .plain)
      if overs then .go ((t.faultAt k c x.bind fltPinQuota).faultLast k) else .go t)) s

end Sys2Proof.Machine
end

