-- ==== Sys2Proof/Machine/Ring.lean ====
section
/-! DEFINITION. Rings and their entries (16, "Rings and entries"): fetch, frame, command records, tails and heads. -/

namespace Sys2Proof.Machine

/-! ### Entries (R477) -/

/-- Bits of an entry at a byte offset. -/
def eBits (e : Entry) (off lo n : Nat) : Nat := bits e.toNat (8 * off + lo) n

def eCode (e : Entry) : Nat := eBits e 0 0 8
def eAuth (e : Entry) : Bool := bit e.toNat 8
def eTag (e : Entry) : W32 := BitVec.ofNat 32 (eBits e 0 32 32)
def eCounter (e : Entry) : Nat := eBits e 0x60 0 64
def eSlot (e : Entry) : Nat := eBits e 0x68 0 4

/-- The bits that fields of (offset, low bit, width) cover. -/
def fieldMask (fs : List (Nat × Nat × Nat)) : Nat := fs.foldl (fun m f => m ||| (2 ^ f.2.2 - 1) * 2 ^ (8 * f.1 + f.2.1)) 0

/-- The frame's own bits (R477). -/
def frameFields : List (Nat × Nat × Nat) := [(0, 0, 9), (0, 32, 32), (0x60, 0, 64), (0x68, 0, 4), (0x70, 0, 128)]

/-- No reserved bit of an entry is set (R478). -/
def entryOk (body : List (Nat × Nat × Nat)) (e : Entry) : Bool :=
  let m := fieldMask (frameFields ++ body)
  decide (e.toNat ||| m = m)

/-! ### Fetch -/

def HostRing.empty (r : HostRing) : Bool := r.head == r.tail

/-- A ring that the module fetches from: enabled, not halted, not empty (R475, R476). -/
def HostRing.fetchable (r : HostRing) : Bool := r.en && !r.halt && !r.empty

/-- HEAD moves by one (R475). -/
def HostRing.advance (r : HostRing) : HostRing := { r with head := (r.head + 1) % 2 ^ r.log2 }

/-- Rings are fetched in STAGE 9 only (R579). -/
def State.fetching (s : State) : Bool := s.boot.stage == 9

/-- A partition's command ring can be fetched, but for an entry set aside, through a port that takes part in traffic. -/
def State.cmdOpen (s : State) (p : Nat) : Bool :=
  let b := s.part p
  s.fetching && s.portUp b.port && b.state != .free && b.cmd.fetchable && !b.cplHeld

/-- The entry at the head of a ring that Husk has set aside for its delay (R560); it holds back its own ring. -/
def State.setAside (s : State) (r : RingName) : Option Delayed := s.husk.delayed.find? (·.ring == r)

def State.canFetchCmd (s : State) (p : Nat) : Bool := s.cmdOpen p && (s.setAside (.cmd p)).isNone

/-- Requests in flight of a partition (R497). -/
def State.inFlight (s : State) (p : Nat) : Nat := (s.reqs.filter fun e => e.2.part == p).length

/-- The request ring can be fetched: a partition with REQ_MAX requests in flight fetches no REQ entry (R497). -/
def State.canFetchReq (s : State) (p : Nat) : Bool :=
  let b := s.part p
  s.fetching && s.portUp b.port && b.state != .free && b.req.fetchable && !b.cplHeld && decide (s.inFlight p < b.grant.reqMax)

/-- A full or disabled admin completion ring stops the admin ring as R507 and R508 stop a partition's (log 12). -/
def State.admOpen (s : State) (n : Nat) : Bool :=
  let b := s.port n
  s.fetching && s.portUp n && b.adm.fetchable && b.acpl.ring.en && !b.acpl.full

def State.canFetchAdm (s : State) (n : Nat) : Bool := s.admOpen n && (s.setAside (.adm n)).isNone

/-! ### Commands -/

/-- How a command of a ring goes: done with a RESULT, failed with a code, done later by a record that is owed, or not yet fetched. -/
inductive CmdRes where
  | done (s : State) (result : Nat)
  | fail (s : State) (f : FaultCode)
  | owes (s : State)
  | hold

/-- A partition's command ring with its head past the entry. -/
def State.takeCmd (s : State) (p : Nat) : State := s.setPart p { s.part p with cmd := (s.part p).cmd.advance }

/-- The record owed for the entry at the head of a partition's command ring. -/
def State.cmdOwed (s : State) (p : Nat) (e : Entry) : Owed := { tag := eTag e, index := (s.part p).cmd.head }

/-- A port's admin ring with its head past the entry. -/
def State.takeAdm (s : State) (n : Nat) : State := s.setPort n { s.port n with adm := (s.port n).adm.advance }

def State.admOwed (s : State) (n : Nat) (e : Entry) : Owed := { tag := eTag e, index := (s.port n).adm.head }

/-- Codes that R478 lists on the command ring. -/
def cmdRingCodes : List Nat :=
  [0x02, 0x03, 0x04, 0x05, 0x06, 0x07, 0x08, 0x09, 0x0A, 0x10, 0x11, 0x12, 0x13, 0x14, 0x18, 0x19, 0x1A, 0x1B, 0x1C, 0x1D]

/-- Codes on the admin ring; of 0x50 to 0x5F, those that R552 assigns. -/
def admRingCodes : List Nat :=
  [0x40, 0x41, 0x42, 0x43, 0x44, 0x45, 0x46, 0x47, 0x50, 0x51, 0x52, 0x53, 0x54, 0x55, 0x56]

/-- The entry at the head of a ring by its CODE alone (R478, R552): one that is not listed, or listed for another ring, ends in a command record FAILED
with FLT_CMD_UNKNOWN, in SCRAP with FLT_LIFECYCLE (R572); one that is listed waits for its own command. -/
def unlistedEntry (ring : RingName) (e : Entry) (s : State) : Host.Outcome State Fault Refusal :=
  match ring with
  | .req p =>
    if s.canFetchReq p && eCode e != 0x01 then
      let o : Owed := { tag := eTag e, index := (s.part p).req.head }
      .next ((s.setPart p { s.part p with req := (s.part p).req.advance }).cmdDone p o .failed fltCmdUnknown 0)
    else .next s
  | .cmd p =>
    if s.canFetchCmd p && !cmdRingCodes.contains (eCode e) then
      .next ((s.takeCmd p).cmdDone p (s.cmdOwed p e) .failed fltCmdUnknown 0)
    else .next s
  | .adm n =>
    if s.canFetchAdm n && !admRingCodes.contains (eCode e) then
      .next ((s.takeAdm n).admDone n (s.admOwed n e) .failed (if s.fuses.lc = .scrap then fltLifecycle else fltCmdUnknown) 0)
    else .next s

/-- UNLISTED_CODE_ENTRY (R478, R552, R572). -/
def execUnlistedCodeEntry (ring : RingName) (e : Entry) (s : State) : Host.Outcome State Fault Refusal := unlistedEntry ring e s

/-- A non-critical command of a partition's command ring (R475, R478, R480), by the CODE of its entry: nothing while the ring is not fetched;
FLT_ARG_RANGE for AUTH = 1 or a reserved bit; else its own effect and one command record. An entry with another CODE is not this command's. -/
def partCmd (p code : Nat) (e : Entry) (body : List (Nat × Nat × Nat)) (s : State) (f : Owed → State → CmdRes) :
    Host.Outcome State Fault Refusal :=
  if eCode e ≠ code then unlistedEntry (.cmd p) e s
  else if s.canFetchCmd p then
    let o := s.cmdOwed p e
    let t := s.takeCmd p
    if eAuth e || !entryOk body e then .next (t.cmdDone p o .failed fltArgRange 0)
    else match f o t with
      | .done u r => .next (u.cmdDone p o .done 0 r)
      | .fail u c => .next (u.cmdDone p o .failed c 0)
      | .owes u => .next u
      | .hold => .next s
  else .next s

/-! ### Ring registers -/

/-- A partition's event vector (R509). -/
def State.evtVector (s : State) (p : Nat) : State := s.interrupt (s.part p).port (s.part p).grant.vecEvt

/-- A ring halts (R475, R476): HALT set, enable cleared. -/
def HostRing.stop (r : HostRing) : HostRing := { r with halt := true, en := false }

/-- A write of TAIL (R475): out of range it halts the ring. The flag says whether it halted. -/
def HostRing.writeTail (r : HostRing) (v : W32) : HostRing × Bool :=
  let t := bits v.toNat 0 16
  if 2 ^ r.log2 ≤ t then (r.stop, true) else ({ r with tail := t }, false)

/-- Whether a port reaches a partition's block: only its owner does (R471), while it takes part in traffic. -/
def State.owns (s : State) (port p : Nat) : Bool := s.portUp port && (s.part p).state != .free && (s.part p).port == port

/-- RING_TAIL_WRITE (R475). -/
def execRingTailWrite (port : Nat) (ring : RingName) (v : W32) (s : State) : Host.Outcome State Fault Refusal :=
  match ring with
  | .req p =>
    if s.owns port p then
      let (r, h) := (s.part p).req.writeTail v
      let t := s.setPart p { s.part p with req := r }
      .next (if h then t.evtVector p else t)
    else .next s
  | .cmd p =>
    if s.owns port p then
      let (r, h) := (s.part p).cmd.writeTail v
      let t := s.setPart p { s.part p with cmd := r }
      .next (if h then t.evtVector p else t)
    else .next s
  | .adm n =>
    if n = port ∧ s.portUp n = true then
      let (r, h) := (s.port n).adm.writeTail v
      let t := s.setPort n { s.port n with adm := r }
      .next (if h then t.interrupt n (adminVectors n).evt else t)
    else .next s

/-- A write of CPL_HEAD (R475): out of range it is ignored. -/
def HostRing.writeHead (r : HostRing) (v : W32) : HostRing :=
  let t := bits v.toNat 0 16
  if 2 ^ r.log2 ≤ t then r else { r with head := t }

/-- One ring under a write of RING_CTL: its enable bit, and a 1 in its HALT bit clears HALT. -/
def HostRing.ctl (r : HostRing) (en clear : Bool) : HostRing := { r with en := en, halt := r.halt && !clear }

/-- The partition's rings under a write of RING_CTL. -/
def PartBlock.ringCtl (b : PartBlock) (v : Nat) : PartBlock :=
  { b with req := b.req.ctl (bit v 0) (bit v 8), cmd := b.cmd.ctl (bit v 1) (bit v 9),
           cpl := { b.cpl with ring := { b.cpl.ring with en := bit v 2 } } }

/-- RING_FETCH_FAIL (R476): the ring halts, HEAD stays, the event vector is raised. -/
def execRingFetchFail (ring : RingName) (s : State) : Host.Outcome State Fault Refusal :=
  match ring with
  | .req p =>
    if s.canFetchReq p then .next ((s.setPart p { s.part p with req := (s.part p).req.stop }).evtVector p) else .next s
  | .cmd p =>
    if s.canFetchCmd p then .next ((s.setPart p { s.part p with cmd := (s.part p).cmd.stop }).evtVector p) else .next s
  | .adm n =>
    if s.canFetchAdm n then
      .next ((s.setPort n { s.port n with adm := (s.port n).adm.stop }).interrupt n (adminVectors n).evt)
    else .next s

/-- IRQ_MOD_EXPIRY (R509): records written since the last VEC_CPL raise it. -/
def execIrqModExpiry (p : Nat) (s : State) : Host.Outcome State Fault Refusal :=
  let b := s.part p
  if b.state != .free && b.cpl.since != 0 && b.cpl.irqUs != 0 then
    .next ((s.setPart p { b with cpl := { b.cpl with since := 0 } }).interrupt b.port b.grant.vecCpl)
  else .next s

end Sys2Proof.Machine
end

