-- ==== Sys2Proof/Machine/Auth.lean ====
section
/-! DEFINITION. Husk's check of critical commands (18, R552 to R560). -/

namespace Sys2Proof.Machine

/-! ### Lifecycle and slots -/

/-- The lifecycle state: fused, with FIELD_DIAG in a register (18, "Lifecycle"). -/
def State.life (s : State) : LifeState := if s.fuses.lc = .field ∧ s.husk.diag = true then .fieldDiag else s.fuses.lc

/-- HUSK_STATUS.LC (R569). -/
def LifeState.code : LifeState → Nat
  | .makerTest => 0 | .provision => 1 | .field => 2 | .fieldDiag => 3 | .returned => 4 | .scrap => 5

/-- STATE of a key slot (R553). -/
inductive SlotUse where
  | empty | active | unusable
deriving DecidableEq, Repr

def SlotUse.code : SlotUse → Nat
  | .empty => 0 | .active => 1 | .unusable => 2

def State.slot (s : State) (n : Nat) : KeySlot := sget {} s.flash.slots n
def State.setSlot (s : State) (n : Nat) (k : KeySlot) : State := { s with flash := { s.flash with slots := sput {} s.flash.slots n k } }

/-- A slot's STATE as the lifecycle state applies it (R554). -/
def State.slotUse (s : State) (n : Nat) : SlotUse :=
  let loaded : SlotUse := if (s.slot n).active then .active else .empty
  match s.life with
  | .makerTest | .returned => if n = 15 then .active else .empty
  | .provision => if n = 15 then .active else loaded
  | .field | .fieldDiag => if n = 15 then .unusable else loaded
  | .scrap => .unusable

/-- Roles a slot holds in the present state (R552, R554). -/
def State.slotRoles (s : State) (n : Nat) : Nat :=
  if n = 15 then (match s.life with
    | .makerTest | .returned => 0xFF
    | .provision => 0x08
    | _ => 0)
  else (s.slot n).roles

/-- A slot's key; the maker slot's is derived inside Husk (log 5). -/
def State.slotKey (s : State) (n : Nat) : List Byte :=
  leBytes 32 (if n = 15 then Config.makerKey s.fuses.deviceId else (s.slot n).key).toNat

/-- The role of a critical command's CODE (R552). -/
def roleOf (code : Nat) : Nat :=
  if code = 0x1D then 1
  else if code = 0x50 ∨ code = 0x51 ∨ code = 0x52 then 3
  else if code = 0x40 ∨ code = 0x41 ∨ code = 0x42 then 0
  else match code with
  | 0x53 => 4 | 0x54 => 5 | 0x55 => 6 | 0x56 => 7
  | _ => 2

/-! ### The tag (R556) -/

/-- The host port that fetches a ring. -/
def State.ringPort (s : State) : RingName → Nat
  | .req p => (s.part p).port
  | .cmd p => (s.part p).port
  | .adm n => n

/-- Message M of an entry posted on a ring. -/
def State.authMessage (s : State) (r : RingName) (e : Entry) : List Byte :=
  let place := match r with
    | .adm _ => [0, 0xFF]
    | .cmd p => [1, p]
    | .req p => [1, p]
  leBytes 8 s.fuses.deviceId.toNat ++ leBytes 1 (s.ringPort r) ++ place.map (BitVec.ofNat 8) ++ List.replicate 5 0 ++ leBytes 112 e.toNat

/-- The tag of an entry under a slot's key, as the entry's 128 bits hold it. -/
def State.authTag (s : State) (r : RingName) (e : Entry) : Nat :=
  leNat ((hmac256 (s.slotKey (eSlot e)) (s.authMessage r e)).take 16)

/-! ### The checks (R557, R558, R560) -/

/-- Step 1: the slot may authenticate the command. The maker slot in PROVISION only loads an empty customer slot (R554). -/
def State.slotAllows (s : State) (r : RingName) (e : Entry) : Bool :=
  let n := eSlot e
  let k := s.slot n
  let target := eBits e 0x08 0 4
  s.slotUse n == .active && (s.slotRoles n).testBit (roleOf (eCode e)) && (!k.portEn || k.port == s.ringPort r) &&
    (!(n == 15 && s.life == .provision) || (eCode e == 0x50 && target != 15 && s.slotUse target == .empty))

/-- A write of the sealed store becomes durable: its generation and the on-die counter rise together (R553, R555). -/
def State.durable (s : State) : State :=
  { s with flash := { s.flash with gen := s.flash.gen + 1 }, husk := { s.husk with mono := s.husk.mono + 1 } }

/-- A refusal of Husk is counted and reported (R560). -/
def State.authRefused (s : State) (n : Nat) (f : FaultCode) : State :=
  let s := if f = fltKeySlot then { s with husk := { s.husk with cntSlotFail := cntAdd s.husk.cntSlotFail 1 } }
    else
      let k := s.slot n
      s.setSlot n { k with cntFail := cntAdd k.cntFail 1, streak := if f = fltAuthTag then k.streak + 1 else k.streak }
  s.event 0x0012 f.toNat n []

/-- The three checks in order: LAST takes the counter and is durable, or the first failing check's fault. -/
def State.verify (s : State) (r : RingName) (e : Entry) : Except FaultCode State :=
  let n := eSlot e
  let k := s.slot n
  if !s.slotAllows r e then .error fltKeySlot
  else if eCounter e ≤ k.last.toNat then .error fltAuthReplay
  else if eBits e 0x70 0 128 ≠ s.authTag r e then .error fltAuthTag
  else .ok (s.setSlot n { k with last := BitVec.ofNat 64 (eCounter e), streak := 0 }).durable

/-! ### Critical commands on their rings -/

def State.ringOpen (s : State) : RingName → Bool
  | .req p => s.canFetchReq p
  | .cmd p => s.cmdOpen p
  | .adm n => s.admOpen n

/-- HEAD past the entry. -/
def State.takeRing (s : State) : RingName → State
  | .req p => s.setPart p { s.part p with req := (s.part p).req.advance }
  | .cmd p => s.takeCmd p
  | .adm n => s.takeAdm n

def State.owedOn (s : State) (r : RingName) (e : Entry) : Owed :=
  match r with
  | .req p => { tag := eTag e, index := (s.part p).req.head }
  | .cmd p => s.cmdOwed p e
  | .adm n => s.admOwed n e

/-- The command record of a ring's entry. -/
def State.ringDone (s : State) (r : RingName) (o : Owed) (st : RecStatus) (f : FaultCode) (result : Nat) : State :=
  match r with
  | .req p => s.cmdDone p o st f result
  | .cmd p => s.cmdDone p o st f result
  | .adm n => s.admDone n o st f result

/-- The record of something that ends later. -/
def State.owedDone (s : State) (w : OwedAt) (st : RecStatus) (f : FaultCode) : State :=
  match w with
  | .part p o => s.cmdDone p o st f 0
  | .adm n o => s.admDone n o st f 0

def owedAt (r : RingName) (o : Owed) : OwedAt :=
  match r with
  | .req p => .part p o
  | .cmd p => .part p o
  | .adm n => .adm n o

/-- What the module refuses every critical command for, whatever its tag (R478, R555, R571, R572). -/
def State.critBarred (s : State) (e : Entry) : Option FaultCode :=
  if s.fuses.lc = .scrap ∨ s.fuses.zeroising = true then some fltLifecycle
  else if !eAuth e then some fltArgRange
  else if s.husk.locked then some fltHuskLocked
  else none

/-- A verified command: its own checks and its effect, on the ring past the entry; a reserved bit is its own check (R478, R558, R563). -/
def runCrit (r : RingName) (e : Entry) (body : List (Nat × Nat × Nat)) (o : Owed) (t : State) (f : Owed → State → CmdRes) :
    Host.Outcome State Fault Refusal :=
  if !entryOk body e then .next (t.ringDone r o .failed fltArgRange 0)
  else match f o t with
    | .done u v => .next (u.ringDone r o .done 0 v)
    | .fail u c => .next (u.ringDone r o .failed c 0)
    | .owes u => .next u
    | .hold => .next t

/-- A critical command (R477, R478, R557 to R560): nothing while its ring is not fetched or Husk has set its entry aside; set aside when its
slot is throttled; else verified, and then its own effect. An entry verified at the end of its delay takes effect without a second check. An entry with
another CODE is not this command's (R478). -/
def critCmd (r : RingName) (code : Nat) (e : Entry) (body : List (Nat × Nat × Nat)) (s : State) (f : Owed → State → CmdRes) :
    Host.Outcome State Fault Refusal :=
  if eCode e ≠ code then unlistedEntry r e s
  else if !s.ringOpen r then .next s
  else
    let o := s.owedOn r e
    match s.setAside r with
    | some d =>
      if d.passed && d.entry == e then
        runCrit r e body o ({ s with husk := { s.husk with delayed := s.husk.delayed.filter fun x => x.ring != r } }.takeRing r) f
      else .next s
    | none =>
      match s.critBarred e with
      | some c => .next ((s.takeRing r).ringDone r o .failed c 0)
      | none =>
        if 16 ≤ (s.slot (eSlot e)).streak then
          .next { s with husk := { s.husk with delayed := s.husk.delayed ++ [{ slot := eSlot e, ring := r, entry := e, passed := false }] } }
        else match s.verify r e with
          | .error c => .next (((s.authRefused (eSlot e) c).takeRing r).ringDone r o .failed c 0)
          | .ok t => runCrit r e body o (t.takeRing r) f

/-- AUTH_DELAY_END (R560): the delay of a slot's first command set aside ends and it is verified. Refused, its record is written and its ring
goes on; passed, it takes effect when it comes again (log 15). -/
def execAuthDelayEnd (slot : Nat) (s : State) : Host.Outcome State Fault Refusal :=
  match s.husk.delayed.find? fun d => d.slot == slot && !d.passed with
  | none => .next s
  | some d =>
    let rest := s.husk.delayed.filter fun x => x.ring != d.ring
    match s.verify d.ring d.entry with
    | .error c =>
      let t := { s with husk := { s.husk with delayed := rest } }.authRefused slot c
      .next ((t.takeRing d.ring).ringDone d.ring (s.owedOn d.ring d.entry) .failed c 0)
    | .ok t => .next { t with husk := { t.husk with delayed := t.husk.delayed.map fun x => if x.ring = d.ring then { x with passed := true } else x } }

end Sys2Proof.Machine
end

