-- ==== Sys2Proof/Machine/Tensor.lean ====
section
/-! DEFINITION. Tensor descriptors, blocks, scale entries and tags (03), sparse descriptors, masks and N:M groups (07, R179 to R188). -/

namespace Sys2Proof.Machine

/-! ### The tensor descriptor (R55, R57) -/

/-- A tensor descriptor (R55). -/
structure Tensor where
  base : Nat
  fmt : Nat
  sfmt : Nat
  sgran : Nat
  mapEn : Bool
  elem : Bool
  rows : Nat
  cols : Nat
  stride : Nat
  tag : Nat
  sbase : Nat
  stag : Nat
  sstride : Nat
  mbase : Nat
  reserved : Bool
deriving DecidableEq, Repr

/-- The 64 bytes of a tensor descriptor as a number, interpreted under R55. -/
def readTensor (v : Nat) : Tensor :=
  { base := bits v 0 48, fmt := bits v 48 4, sfmt := bits v 52 2, sgran := bits v 54 2, mapEn := bit v 56, elem := bit v 57
    rows := bits v 64 32, cols := bits v 96 32, stride := bits v 128 48, tag := bits v 176 16
    sbase := bits v 192 48, stag := bits v 240 16, sstride := bits v 256 48, mbase := bits v 320 48
    reserved := bits v 58 6 != 0 || bits v 304 16 != 0 || bits v 368 16 != 0 || bits v 384 128 != 0 }

/-- `n / m` rounded up. -/
def ceilDiv (n m : Nat) : Nat := (n + m - 1) / m

def Tensor.brows (t : Tensor) : Nat := ceilDiv t.rows 32
def Tensor.bcols (t : Tensor) : Nat := ceilDiv t.cols 32
/-- Bits per element. -/
def Tensor.width (t : Tensor) : Nat := fmtWidth t.fmt
/-- Bytes of a block (R47). -/
def Tensor.blockBytes (t : Tensor) : Nat := t.width * 128
/-- An empty tensor (R58). -/
def Tensor.isEmpty (t : Tensor) : Bool := t.rows == 0 || t.cols == 0
/-- Bytes of a scale entry (R61). -/
def entryBytes (sfmt : Nat) : Nat :=
  match sfmt with
  | 0 => 0 | 1 => 1 | 2 => 2 | _ => 4

/-- Formats with an element layout (R50). -/
def elemLayoutOk (f : Nat) : Bool := [5, 7, 8, 9, 12, 13, 14].contains f

/-- Whether R50 or R57 refuses the descriptor with FLT_ARG_RANGE. `ring` is the entry count of a guarded streamed ring, for which R375
replaces the lower bound on BROW_STRIDE. -/
def Tensor.bad (t : Tensor) (ring : Option Nat) : Bool :=
  let least := match ring with
    | some n => n * t.blockBytes
    | none => t.bcols * t.blockBytes
  t.reserved
    || (t.elem && !elemLayoutOk t.fmt)
    || (!t.elem && t.base % 128 != 0)
    || (!t.elem && !t.mapEn && (decide (t.stride < least) || t.stride % 128 != 0))
    || (t.elem && (t.base % (t.width / 8) != 0 || t.stride % (t.width / 8) != 0))
    || (t.elem && t.mapEn)
    || (t.sfmt == 1 && !(t.fmt == 10 || decide (t.fmt ≤ 7)))
    || (t.fmt == 10 && t.sfmt != 1)
    || t.sgran == 3 || (t.sgran == 2 && t.sfmt == 3)

/-! ### Scale entries (R61 to R65) -/

/-- The entry that covers an absent block or a tensor without a stream: scale 1.0, zero point 0. -/
def SEnt.one : SEnt := {}

/-- The value of scale entry bits (R61); a zero point acts only on INT2 to INT16 (R25). -/
def scaleEntry (sfmt fmt raw : Nat) : SEnt :=
  match sfmt with
  | 0 => .one
  | 1 => { raw := raw, s := e8m0 raw }
  | 2 => { raw := raw, s := elemValue 12 raw }
  | _ => { raw := raw, s := elemValue 12 (bits raw 0 16), z := if fmtIsInt fmt then signedOf 16 (bits raw 16 16) else 0 }

/-- Address of the scale entry that covers stored row `r` of stored block `(i, j)` (R59, R63); `idx` is the block's DATA_IDX under a map. -/
def Tensor.scaleAddr (t : Tensor) (i j r : Nat) (idx : Option Nat) : Nat :=
  let e := entryBytes t.sfmt
  let rs := if t.sgran = 0 then 32 * e else e
  match t.sgran, idx with
  | 2, _ => t.sbase + (32 * i + r) / 64 * t.sstride + j * e
  | 0, some x => t.sbase + x * rs + r * e
  | _, some x => t.sbase + x * rs
  | 0, none => t.sbase + i * t.sstride + j * rs + r * e
  | _, none => t.sbase + i * t.sstride + j * rs

/-- Whether the tag of a scale entry of this tensor differs from the tag of the data it meets (R65): both carry the index of the
same block, so the bases decide. -/
def Tensor.skewed (t : Tensor) : Bool := t.sfmt != 0 && t.tag != t.stag

/-! ### Sparse descriptors (R179, R180) -/

/-- A sparse descriptor. -/
structure SpDesc where
  kind : Nat := 0
  nm : Nat := 0
  mbase : Nat := 0
  reserved : Bool := false
deriving DecidableEq, Repr

def readSparse (v : Nat) : SpDesc :=
  { kind := bits v 0 2, nm := bits v 2 3, mbase := bits v 64 48, reserved := bits v 5 59 != 0 || bits v 112 16 != 0 }

/-- N and M of an NM code (R179). -/
def nmOf (nm : Nat) : Nat × Nat :=
  match nm with
  | 1 => (1, 4) | 2 => (2, 4) | 3 => (2, 8) | 4 => (4, 8) | 5 => (2, 4) | _ => (0, 1)

/-- The refusals of R180 on one operand. -/
def SpDesc.bad (d : SpDesc) (t : Tensor) (trans streamed conv : Bool) : Bool :=
  d.reserved || d.kind == 3 || decide (5 < d.nm)
    || (d.kind == 2 && (d.nm == 0 || d.nm == 5 || trans || t.cols % (nmOf d.nm).1 != 0))
    || (d.nm != 0 && d.kind == 0 && streamed)
    || (d.kind != 0 && conv)
    || (d.kind != 0 && d.mbase % 128 != 0)

/-! ### Blocks -/

/-- An operand of a tile instruction: its tensor, the orientation in which it is read, its sparse descriptor, and for a guarded streamed ring
the ring entry that holds the tile and the entry count (R374). -/
structure Opd where
  t : Tensor
  trans : Bool := false
  sp : SpDesc := {}
  /-- Planes read (R51). -/
  top : Nat
  ring : Option (Nat × Nat) := none
deriving DecidableEq, Repr

/-- An element as the cells see it: none where it counts as zero, else its code. -/
abbrev Elem := Option Nat

/-- A block after masks and groups, in stored orientation: rows of elements, the scale entry of each stored row, whether the tensor's map
leaves the block out, and what the checks dropped (R183, R187). -/
structure Blk where
  rows : List (List Elem)
  scales : List SEnt
  absent : Bool := false
  /-- Elements dropped by a group check. -/
  dropped : List (List Bool) := []
  /-- Per stored row, packed positions that do not rise. -/
  disorder : List Nat := []
deriving DecidableEq, Repr

/-- An absent block (R60). -/
def Blk.none : Blk := { rows := List.replicate 32 (List.replicate 32 Option.none), scales := List.replicate 32 .one, absent := true }

/-- Runs a fallible function over a list, in order. -/
def mapE {α β ε : Type} (f : α → Except ε β) : List α → Except ε (List β)
  | [] => .ok []
  | x :: xs =>
    match f x with
    | .error e => .error e
    | .ok y =>
      match mapE f xs with
      | .error e => .error e
      | .ok ys => .ok (y :: ys)

/-- `n` bytes that core `k` reads at `va`, as a number. -/
def State.readNatAt (s : State) (k va n : Nat) : Except MemFail Nat :=
  match s.readAt k va n with
  | .error e => .error e
  | .ok bs => .ok (leNat bs)

/-- Where the planes of stored block `(i, j)` lie, and its DATA_IDX under a map (R56, R59, R374); none for an absent block. -/
def State.blockBase (s : State) (k : Nat) (o : Opd) (i j : Nat) : Except MemFail (Option (Nat × Option Nat)) :=
  match o.ring with
  | some (e, _) => .ok (some (o.t.base + j * o.t.stride + e * o.t.blockBytes, none))
  | none =>
    if o.t.mapEn then
      match s.readNatAt k (o.t.mbase + 4 * (i * o.t.bcols + j)) 4 with
      | .error e => .error e
      | .ok v => if bit v 31 then .ok (some (o.t.base + bits v 0 31 * o.t.blockBytes, some (bits v 0 31))) else .ok none
    else .ok (some (o.t.base + i * o.t.stride + j * o.t.blockBytes, none))

/-- The 32 row words of one plane at `a`; granules outside `want` are not fetched and read as zero (R234). -/
def State.planeWords (s : State) (k a : Nat) (want : List Bool) : Except MemFail (List Nat) :=
  match mapE (fun (u, w) => if w then
      (match s.readAt k (a + 32 * u) 32 with
      | .error e => .error e
      | .ok bs => .ok ((List.range 8).map fun r => leNat ((bs.drop (4 * r)).take 4)))
    else .ok (List.replicate 8 0)) ((List.range want.length).zip want) with
  | .error e => .error e
  | .ok xs => .ok xs.flatten

/-- The codes of a stored block whose planes lie at `a`: the top `top` planes, the low bits clear (R51). -/
def State.blockCodes (s : State) (k a b top : Nat) (want : List Bool) : Except MemFail (List (List Nat)) :=
  match mapE (fun p => s.planeWords k (a + 128 * p) want) (List.range (min top b)) with
  | .error e => .error e
  | .ok planes =>
    .ok ((List.range 32).map fun r => (List.range 32).map fun c =>
      ((List.range planes.length).zip planes).foldl (fun acc (p, ws) =>
        if bit (ws.getD r 0) c then acc + 2 ^ (b - 1 - p) else acc) 0)

/-- Whether a code stands for zero: a code of zero, or a floating-point zero of either sign; BIN1 has no code for zero (R26, R94). -/
def codeIsZero (f c : Nat) : Bool :=
  if f = 0 then false else if f ≤ 7 || f = 11 then c % 2 ^ fmtWidth f == 0 else c % 2 ^ (fmtWidth f - 1) == 0

/-- Presence derived from the code (R182). -/
def derived (f c : Nat) : Elem := if codeIsZero f c then none else some c

/-- In each aligned group of `m`, the first `n` present elements; the others count as zero (R183). -/
def keepFirst (n m : Nat) (row : List Elem) : List Elem :=
  (List.range row.length).map fun c =>
    let g := row.drop (c / m * m)
    let before := ((g.take (c % m)).filter Option.isSome).length
    if before < n then row.getD c none else none

def transposeRows (rows : List (List Elem)) : List (List Elem) :=
  (List.range 32).map fun c => (List.range 32).map fun r => (rows.getD r []).getD c none

/-- The elements that a group check took away. -/
def droppedBits (rows kept : List (List Elem)) : List (List Bool) :=
  (rows.zip kept).map fun (r, k) => (r.zip k).map fun (x, y) => x.isSome && y.isNone

/-- How many bits of a row are set. -/
def trueCount (r : List Bool) : Nat := (r.filter id).length

/-- The group check of a declared N:M operand, on the stored orientation (R183, R184). -/
def groupCheck (nm : Nat) (rows : List (List Elem)) : List (List Elem) :=
  if nm = 0 then rows
  else
    let (n, m) := nmOf nm
    let rows1 := rows.map (keepFirst n m)
    if nm = 5 then transposeRows ((transposeRows rows1).map (keepFirst n m)) else rows1

/-- A stored row of a packed operand expanded into 32 original columns (R186, R187): the codes and positions of its packed elements for
these columns, and how many did not rise. Where two positions that each rise name one column, the first element stands (DESIGN CHOICE, log 64). -/
def expandRow (f n m : Nat) (codes pos : List Nat) : List Elem × Nat :=
  let items := (List.range codes.length).map fun u => (u, codes.getD u 0, pos.getD u 0)
  let ok := fun (u p : Nat) => u % n = 0 || decide (pos.getD (u - 1) 0 < p)
  ((List.range 32).map fun c =>
    (items.findSome? fun (u, code, p) => if u / n * m + p = c && ok u p then derived f code else none),
   (items.filter fun (u, _, p) => !ok u p).length)

/-- The scale entries of the 32 stored rows of stored block `(i, j)` (R62, R63, R374). -/
def State.blockScales (s : State) (k : Nat) (o : Opd) (i j : Nat) (idx : Option Nat) : Except MemFail (List SEnt) :=
  let t := o.t
  if t.sfmt = 0 then .ok (List.replicate 32 .one)
  else mapE (fun r =>
    let a := match o.ring with
      | some (e, _) =>
        t.sbase + j * t.sstride + (match t.sgran with
          | 0 => 32 * e + r | 1 => e | _ => (32 * e + r) / 64)
      | none => t.scaleAddr i j r idx
    match s.readNatAt k a (entryBytes t.sfmt) with
    | .error e => .error e
    | .ok v => .ok (scaleEntry t.sfmt t.fmt v)) (List.range 32)

/-- Bytes of metadata of one stored row of a packed operand, and the row's elements that one block of the original layout uses (R186). -/
def SpDesc.metaRow (d : SpDesc) : Nat := if (nmOf d.nm).2 = 4 then 8 else 12
def SpDesc.perBlock (d : SpDesc) : Nat := if d.kind = 2 then 32 * (nmOf d.nm).1 / (nmOf d.nm).2 else 32

/-- Block column of the stored tensor that holds block column `j` of the original layout (R186). -/
def SpDesc.storedCol (d : SpDesc) (j : Nat) : Nat := if d.kind = 2 then j * d.perBlock / 32 else j

/-- The stored block `(i, j)` of an operand as the cells see it, in stored orientation; `want` names the granules fetched. -/
def State.fetchBlock (s : State) (k : Nat) (o : Opd) (i j : Nat) (want : List Bool) : Except MemFail Blk :=
  let t := o.t
  let (n, m) := nmOf o.sp.nm
  let per := o.sp.perBlock
  let pj := o.sp.storedCol j
  match s.blockBase k o i pj with
  | .error e => .error e
  | .ok none => .ok .none
  | .ok (some (a, idx)) =>
    match s.blockCodes k a t.width o.top want, s.blockScales k o i pj idx with
    | .error e, _ => .error e
    | _, .error e => .error e
    | .ok codes, .ok scales =>
      if o.sp.kind = 2 then
        let bn := i * t.bcols + pj
        let mr := o.sp.metaRow
        let eb := if m = 4 then 2 else 3
        let off := j * per % 32
        match mapE (fun r => s.readNatAt k (o.sp.mbase + bn * 32 * mr + r * mr) mr) (List.range 32) with
        | .error e => .error e
        | .ok metas =>
          let rows := (List.range 32).map fun r =>
            if !want.getD (r / 8) true then (List.replicate 32 none, 0) else
            expandRow t.fmt n m (((codes.getD r []).drop off).take per)
              ((List.range per).map fun u => bits (metas.getD r 0) (eb * (off + u)) eb)
          .ok { rows := rows.map (·.1), scales := scales, disorder := rows.map (·.2) }
      else
        let bn := idx.getD (i * t.bcols + j)
        match (if o.sp.kind = 1 then mapE (fun r => s.readNatAt k (o.sp.mbase + 128 * bn + 4 * r) 4) (List.range 32)
               else .ok []) with
        | .error e => .error e
        | .ok masks =>
          let rows := (List.range 32).map fun r => (List.range 32).map fun c =>
            let code := (codes.getD r []).getD c 0
            if !want.getD (r / 8) true then none
            else if o.sp.kind = 1 then (if bit (masks.getD r 0) c then some code else none) else derived t.fmt code
          let kept := groupCheck o.sp.nm rows
          .ok { rows := kept, scales := scales, dropped := droppedBits rows kept }

/-- All four granules. -/
def allWanted : List Bool := [true, true, true, true]

/-- A block in the orientation in which it is presented (R53). -/
def Blk.present (b : Blk) (trans : Bool) : Blk :=
  if trans then
    { b with rows := transposeRows b.rows, scales := List.replicate 32 (b.scales.headD .one)
             dropped := (List.range 32).map fun c => (List.range 32).map fun r => (b.dropped.getD r []).getD c false }
  else b

/-- Elements dropped from a presented row. -/
def Blk.rowDrops (b : Blk) (r : Nat) : Nat := trueCount (b.dropped.getD r [])
def Blk.rowDisorder (b : Blk) (r : Nat) : Nat := b.disorder.getD r 0

/-- The block presented at `(i, j)`: under TRANS, stored block `(j, i)` transposed (R53). -/
def State.presentedBlock (s : State) (k : Nat) (o : Opd) (i j : Nat) (want : List Bool) : Except MemFail Blk :=
  let r := if o.trans then s.fetchBlock k o j i want else s.fetchBlock k o i j want
  match r with
  | .error e => .error e
  | .ok b => .ok (b.present o.trans)

/-- Entries of the scale stream that a block meets: their addresses and lengths (R62, R63). -/
def Tensor.scaleReads (t : Tensor) (i j : Nat) (idx : Option Nat) : List (Nat × Nat) :=
  if t.sfmt = 0 then []
  else [(t.scaleAddr i j 0 idx, if t.sgran = 0 then 32 * entryBytes t.sfmt else entryBytes t.sfmt)]

/-- The bytes that a block's fetch reads: its map entry, the planes of the granules fetched, the scale record, and its stored mask or the metadata
of its packed rows (R51, R56, R181, R186, R234). -/
def Opd.reads (o : Opd) (s : State) (k i j : Nat) (want : List Bool) : List (Nat × Nat) :=
  let (i, j) := if o.trans then (j, i) else (i, j)
  let j := o.sp.storedCol j
  let own := if o.t.mapEn then [(o.t.mbase + 4 * (i * o.t.bcols + j), 4)] else []
  match s.blockBase k o i j with
  | .ok (some (a, idx)) =>
    own ++
    ((List.range (2 * min o.top o.t.width)).filterMap fun q =>
      if want.getD (q % 2 * 2) true || want.getD (q % 2 * 2 + 1) true then some (a + 64 * q, 64) else none) ++
    o.t.scaleReads i j idx ++
    (if o.sp.kind = 1 then [(o.sp.mbase + 128 * idx.getD (i * o.t.bcols + j), 128)]
     else if o.sp.kind = 2 then [(o.sp.mbase + (i * o.t.bcols + j) * 32 * o.sp.metaRow, 32 * o.sp.metaRow)] else [])
  | _ => own

/-- The accesses of a list of reads. -/
def State.touchAll (s : State) (k : Nat) (rs : List (Nat × Nat)) : State := rs.foldl (fun s (a, n) => s.touchAt k a n) s

/-! ### Element layout (R50) -/

/-- Address of element `(r, c)` of an element-layout tensor. -/
def Tensor.elemAddr (t : Tensor) (r c : Nat) : Nat := t.base + r * t.stride + c * (t.width / 8)

end Sys2Proof.Machine
end

