-- ==== Sys2Proof/Machine/Tile.lean ====
section
/-! DEFINITION. Tile, auxiliary, termination and epilogue descriptors (R141, R221, R283, R328) and the refusals they share. -/

namespace Sys2Proof.Machine

/-! ### The tile descriptor (R283) -/

/-- A tile descriptor with its Y0 already offset by s[B] (R280). -/
structure TileDesc where
  mode : Nat
  split : Nat
  gsel : Nat
  order : Bool
  pack : Bool
  conv : Bool
  taps : Nat
  stride : Bool
  transX : Bool
  transY : Bool
  kstep : Nat
  amask : Nat
  neg : Nat
  halfR : Bool
  halfC : Bool
  ptop : Nat
  rowsN : Nat
  nb : Nat
  kb : Nat
  krows : Nat
  y0 : Nat
  x0 : Nat
  k0 : Nat
  scBase : Nat
  scStride : Nat
  xdesc : Nat
  ydesc : Nat
  reserved : Bool
deriving DecidableEq, Repr

/-- The fields of the 64 bytes `v`, with `b` added to Y0 modulo 2^32. -/
def readTileDesc (v b : Nat) : TileDesc :=
  { mode := bits v 0 2, split := bits v 2 2, gsel := bits v 4 2, order := bit v 6, pack := bit v 7, conv := bit v 8
    taps := bits v 9 2, stride := bit v 11, transX := bit v 12, transY := bit v 13, kstep := bits v 14 2 + 1
    amask := bits v 16 4, neg := bits v 20 4, halfR := bit v 24, halfC := bit v 25, ptop := bits v 26 5
    rowsN := bits v 64 16, nb := bits v 80 12, kb := bits v 92 12, krows := bits v 104 6
    y0 := (bits v 128 32 + b) % 2 ^ 32, x0 := bits v 160 32, k0 := bits v 192 32
    scBase := bits v 224 16, scStride := bits v 240 16, xdesc := bits v 256 48, ydesc := bits v 320 48
    reserved := bits v 31 33 != 0 || bits v 110 18 != 0 || bits v 304 16 != 0 || bits v 368 16 != 0 || bits v 384 128 != 0 }

/-- The instructions that read a tile descriptor. -/
inductive TileUse where
  | stream | cam | table | guard
deriving DecidableEq, Repr

/-- The refusals of R284, in the fields that the instruction reads (11, "Fields that each tile instruction reads"). -/
def TileDesc.bad (d : TileDesc) (u : TileUse) : Bool :=
  d.reserved || d.split == 3 || d.xdesc % 64 != 0 || d.ydesc % 64 != 0
    || (u == .stream && (decide (1 < d.mode) || d.gsel == 3 || (d.mode == 1 && d.taps == 3)))
    || (u != .cam && !(u == .stream && d.mode == 1) && (decide (2048 < d.nb) || decide (2048 < d.kb)))

/-- G (R283). -/
def TileDesc.group (d : TileDesc) : Nat := 4 * 2 ^ d.gsel

/-- Unmasked arrays, ascending. -/
def TileDesc.arrays (d : TileDesc) : List Nat := (List.range 4).filter fun a => bit d.amask a

/-- Logical rows of stream `k`'s sub-arrays (R84). -/
def subRows (split k : Nat) : List Nat :=
  match split with
  | 0 => List.range 32
  | 1 => List.range' (16 * k) 16
  | _ => List.range' (16 * (k / 2)) 16

/-- First stored row latched, first column, and columns (R85). -/
def TileDesc.row0 (d : TileDesc) : Nat := if d.split ≠ 0 && d.halfR then 16 else 0
def TileDesc.col0 (d : TileDesc) : Nat := if d.split = 2 && d.halfC then 16 else 0
def TileDesc.ncols (d : TileDesc) : Nat := if d.split = 2 then 16 else 32

/-! ### Fields of the instruction word (R280, R327) -/

def tStream (w : W64) : Nat := bits (fImm w) 0 2
def tStart (w : W64) : Bool := bit (fImm w) 2
def tAux (w : W64) : Nat := bits (fImm w) 3 15 * 128
def tTd (w : W64) : Bool := bit (fImm w) 18
def tSpx (w : W64) : Bool := bit (fImm w) 19
def tSpy (w : W64) : Bool := bit (fImm w) 20
def tSync (w : W64) : Bool := bit (fImm w) 21
/-- The tracker of a tile instruction (R327). -/
def tTrk (w : W64) : Option Nat := if bit (fImm w) 28 then some (bits (fImm w) 22 6) else none
/-- Slot that the first tile fills. -/
def tSlot (w : W64) : Nat := fD w % 2

/-! ### The auxiliary block (R328) -/

/-- A 32-bit word of the auxiliary block. -/
def auxWord (aux : Nat) (off : Nat) : Nat := bits aux (8 * off) 32

/-- A reserved bit of the part that SYNC_EN names. -/
def auxReserved (aux : Nat) : Bool :=
  [0x40, 0x44].any (fun o => bits (auxWord aux o) 17 14 != 0)
    || [0x48, 0x4C, 0x50, 0x54].any (fun o => bits (auxWord aux o) 18 13 != 0)
    || bits aux (8 * 0x68) (8 * 24) != 0

/-- The object of word `off` when its enable is set. -/
def auxObj (aux off : Nat) : Option Nat := if bit (auxWord aux off) 31 then some (bits (auxWord aux off) 0 17) else none

/-- A guarded ring of the block: its slot descriptor and first position; an error where R351 or R375 refuses it. -/
def State.auxRing (s : State) (k aux off posOff : Nat) : Except Unit (Option (SlotDesc × GRing)) :=
  if bit (auxWord aux off) 31 then
    match readSlotDesc (s.core k).scratch (16 * bits (auxWord aux off) 0 18) with
    | none => .error ()
    | some d =>
      if s.objGranted k d.objF && s.objGranted k d.objD then
        .ok (some (d, { objF := d.objF, objD := d.objD, n := d.n, pos := BitVec.ofNat 32 (auxWord aux posOff), units := 0 }))
      else .error ()
  else .ok none

/-- What the auxiliary block gives an instruction. -/
structure AuxUse where
  objTile : Option Nat := none
  objDone : Option Nat := none
  yRing : Option (SlotDesc × GRing) := none
  oRing : Option (SlotDesc × GRing) := none
  sRing : Option (SlotDesc × GRing) := none
  cRing : Option (SlotDesc × GRing) := none
deriving DecidableEq, Repr

/-- The synchronisation part of the block, or the refusal of R328 and R375. -/
def State.auxUse (s : State) (k aux : Nat) (sync : Bool) : Except FaultCode AuxUse :=
  if !sync then .ok {}
  else if auxReserved aux then .error fltArgRange
  else
    match s.auxRing k aux 0x48 0x58, s.auxRing k aux 0x4C 0x5C, s.auxRing k aux 0x50 0x60, s.auxRing k aux 0x54 0x64 with
    | .ok y, .ok o, .ok q, .ok c =>
      .ok { objTile := auxObj aux 0x40, objDone := auxObj aux 0x44, yRing := y, oRing := o, sRing := q, cRing := c }
    | _, _, _, _ => .error fltArgRange

/-! ### The termination descriptor (R221, R628) -/

structure TermDesc where
  et : Bool := false
  smap : Bool := false
  sel : Bool := false
  merge : Bool := false
  stopVal : W32 := 0
  theta : Nat := 0
  thN : Nat := 32
  smapBase : Nat := 0
  smapN : Nat := 32
  selBase : Nat := 0
  missBase : Nat := 0
  reserved : Bool := false
deriving DecidableEq, Repr

def readTerm (v : Nat) : TermDesc :=
  { et := bit v 0, smap := bit v 1, sel := bit v 2, merge := bit v 3, stopVal := BitVec.ofNat 32 (bits v 32 32)
    theta := bits v 64 22, thN := bits v 96 17, smapBase := bits v 128 22, smapN := bits v 160 17, selBase := bits v 192 22
    missBase := bits v 224 22
    reserved := bits v 4 28 != 0 || bits v 86 10 != 0 || bits v 113 15 != 0 || bits v 150 10 != 0 || bits v 177 15 != 0
      || bits v 214 10 != 0 || bits v 246 10 != 0 }

/-- A power of two from 32 to 65,536. -/
def pow2Entries (n : Nat) : Bool := (List.range 12).any fun i => n == 2 ^ (i + 5)

/-- A scratchpad region that ends by byte 0x2F_FFFF (R300). -/
def inScratch (base n : Nat) : Bool := decide (base + n ≤ 0x300000)

/-- The refusals of R221 in the fields that R628 has it check, with the regions of R300; those of the stop map for GUARD.RUN too (11, "GUARD.RUN"). -/
def TermDesc.bad (t : TermDesc) (guard : Bool) : Bool :=
  t.reserved
    || ((t.et || guard) && (t.theta % 8 != 0 || !pow2Entries t.thN || !inScratch t.theta (8 * t.thN)))
    || (t.smap && (t.smapBase % 4 != 0 || !pow2Entries t.smapN || !inScratch t.smapBase (4 * t.smapN)))
    || ((t.sel || guard) && t.selBase % 4 != 0) || (guard && t.missBase % 4 != 0)

/-- The termination descriptor of an instruction. -/
def termOf (w : W64) (aux : Nat) : TermDesc := if tTd w then readTerm (bits aux 0 256) else {}

/-! ### The epilogue descriptor (R141, R142, R628) -/

structure EpiDesc where
  drain : Bool
  corr : Bool
  resc : Bool
  bias : Bool
  act : Bool
  ofmt : Nat
  ovfInf : Bool
  elem : Bool
  oscale : W32
  ozp : Int
  klen : Nat
  outBase : Nat
  outBytes : Nat
  seedBase : Nat
  seedBytes : Nat
  chanBase : Nat
  chanN : Nat
  wsumBase : Nat
  wsumN : Nat
  actBase : Nat
  xmin : W32
  invw : W32
  soutBase : Nat
  soutN : Nat
  reserved : Bool
deriving DecidableEq, Repr

/-- The fields of the 64 bytes `v`. Bits of the words 0x10 to 0x30 that no field of R141's table covers are taken as reserved (DESIGN CHOICE, log 63). -/
def readEpi (v : Nat) : EpiDesc :=
  let word := fun o => bits v (8 * o) 32
  { drain := bit v 0, corr := bit v 1, resc := bit v 2, bias := bit v 3, act := bit v 4, ofmt := bits v 5 4, ovfInf := bit v 9
    elem := bit v 10, oscale := BitVec.ofNat 32 (word 0x04), ozp := signedOf 16 (word 0x08), klen := word 0x0C
    outBase := bits (word 0x10) 0 22, outBytes := bits (word 0x14) 0 22, seedBase := bits (word 0x18) 0 22
    seedBytes := bits (word 0x1C) 0 22, chanBase := bits (word 0x20) 0 22, chanN := bits (word 0x24) 0 17
    wsumBase := bits (word 0x28) 0 22, wsumN := bits (word 0x2C) 0 17, actBase := bits (word 0x30) 0 22
    xmin := BitVec.ofNat 32 (word 0x34), invw := BitVec.ofNat 32 (word 0x38)
    soutBase := bits (word 0x3C) 0 22, soutN := bits (word 0x3C) 22 10
    reserved := bits v 11 21 != 0 || bits (word 0x08) 16 16 != 0
      || [0x10, 0x14, 0x18, 0x1C, 0x20, 0x28, 0x30].any (fun o => bits (word o) 22 10 != 0)
      || [0x24, 0x2C].any (fun o => bits (word o) 17 15 != 0) }

/-- Raw word size (R118). -/
def rawBytes (intSlot : Bool) (outs : Nat) : Nat := if intSlot then 8 * outs else 4 * outs

/-- One word, for OUT_BYTES (R142). -/
def EpiDesc.wordBytes (e : EpiDesc) (raw : Nat) : Nat :=
  if e.drain then raw else if e.elem then 4 * fmtWidth e.ofmt else 128 * fmtWidth e.ofmt

/-- Whether a channel entry is read (R628). -/
def EpiDesc.usesChan (e : EpiDesc) : Bool := !e.drain && (e.corr || e.resc || e.bias)

/-- The refusal of R142 and R300 for an instruction with `arrays` output rings (none when it writes no word), START, and raw words of `raw` bytes. -/
def EpiDesc.refusal (e : EpiDesc) (arrays : Nat) (start : Bool) (raw : Nat) : Option FaultCode :=
  if e.ofmt = 15 ∨ (!e.drain ∧ e.ofmt = 14 ∧ !e.elem) then some fltFmtRole
  else if e.reserved
    || e.outBase % 128 != 0 || e.outBytes % 128 != 0 || decide (e.outBytes < e.wordBytes raw)
    || !inScratch e.outBase (arrays * e.outBytes)
    || (e.elem && !elemLayoutOk e.ofmt)
    || (!start && (e.seedBase % 128 != 0 || e.seedBytes % raw != 0 || decide (e.seedBytes < raw)
          || !inScratch e.seedBase (arrays * e.seedBytes)))
    || (e.usesChan && (e.chanBase % 16 != 0 || !pow2Entries e.chanN || !inScratch e.chanBase (16 * e.chanN)))
    || (!e.drain && e.corr && (e.wsumBase % 4 != 0 || !pow2Entries e.wsumN || !inScratch e.wsumBase (4 * e.wsumN)))
    || (!e.drain && e.act && (e.actBase % 8 != 0 || !(f32 e.xmin).isFinite || !(FV.zero.lt (f32 e.invw) && (f32 e.invw).isFinite)
          || !inScratch e.actBase 1024))
    || (!e.drain && e.ofmt == 10 && (e.soutN == 0 || !inScratch e.soutBase (arrays * 32 * e.soutN)))
  then some fltArgRange else none

/-- Operand roles of the arrays (R21): stationary and streamed. -/
def arrayRole (f : Nat) : Bool := decide (f ≤ 10) || f == 12 || f == 13

/-- Planes of a streamed operand (R74). -/
def planesOf (f : Nat) : Nat := if f = 10 then 5 else fmtWidth f

/-- PTOP as R51 and R52 take it: the planes read; none where refused. -/
def topPlanes (f ptop : Nat) : Option Nat :=
  if ptop = 0 then some (fmtWidth f)
  else if fmtWidth f < ptop then none
  else if ptop < fmtWidth f ∧ 7 < f then none
  else some ptop

/-- Both operands have integer formats: the instruction accumulates in an integer slot (R23). -/
def intSlot (fx fy : Nat) : Bool := fmtExact fx && fmtExact fy

end Sys2Proof.Machine
end

