-- ==== Sys2Proof/Machine/Lanes.lean ====
section
/-! DEFINITION. Lanes, group terms, integer rows and what plane skipping counts (02, R41 to R45; 04, R73 to R76, R92 to R94; 05, R117 to R127;
07, R189 to R192; 08, R223 to R226). -/

namespace Sys2Proof.Machine

/-! ### Lanes -/

def signOf (i : Int) : Int := if i < 0 then -1 else if 0 < i then 1 else 0

/-- Elements of `n` each. -/
def chunks {α : Type} (n : Nat) (l : List α) : List (List α) := (List.range (l.length / n)).map fun q => (l.drop (q * n)).take n

/-- The significand of a finite code of a float format, `m` of 02, "Floating-point operands in the array". -/
def elemSig (f c : Nat) : Nat :=
  let fb := (fmtFloat f).1
  let mag := c % 2 ^ (fmtWidth f - 1)
  if mag / 2 ^ fb = 0 then mag else mag % 2 ^ fb + 2 ^ fb

/-- A lane of an element that alignment leaves alone: integers as their code, BIN1 as +1 or -1, MXFP4 as twice its E2M1 value (R43); the sign
is that of code less zero point. -/
def exactLane (f : Nat) (z : Int) (e : Elem) : Lane :=
  match e with
  | none => { sg := signOf (-z) }
  | some c =>
    if f = 10 then
      match elemValue 10 c with
      | .num s n d => { i := sgn s (2 * n / d), here := true, sg := signOf (sgn s n) }
      | _ => { here := true }
    else { i := intCode f c, here := true, sg := signOf (intCode f c - z) }

/-- The largest exponent among the finite non-zero elements of a group. -/
def groupExp (f : Nat) (es : List Elem) : Option Int :=
  es.foldl (fun acc e => match e with
    | some c =>
      if (elemValue f c).isFinite && !(elemValue f c).isZero then
        some (match acc with
          | none => elemExp f c
          | some x => max x (elemExp f c))
      else acc
    | none => acc) none

/-- The lanes of one alignment group in a window of `w` bits, and the unit exponent of their integers (R41, R42). -/
def alignGroup (f w : Nat) (es : List Elem) : List Lane × Int :=
  match groupExp f es with
  | none =>
    (es.map fun e => match e with
      | none => {}
      | some c => match elemValue f c with
        | .nan => { here := true, kind := .nan }
        | .inf s => { here := true, kind := .inf s, sg := if s then -1 else 1 }
        | .num .. => { here := true }, 0)
  | some top =>
    (es.map fun e => match e with
      | none => {}
      | some c => match elemValue f c with
        | .nan => { here := true, kind := .nan }
        | .inf s => { here := true, kind := .inf s, sg := if s then -1 else 1 }
        | .num s n _ =>
          let fb := (fmtFloat f).1
          let (a, b) := shiftFrac (elemSig f c) 1 (((w : Int) - 2 - fb) - (top - elemExp f c))
          { i := sgn s (a / b), here := true, sg := if n = 0 then 0 else if s then -1 else 1 }, top - ((w : Int) - 2))

/-- A stationary row latched in groups of `g` (R41, R43); `neg` is the array's NEG bit (R83). -/
def latchRow (f g : Nat) (z : Int) (neg : Bool) (es : List Elem) : List Group :=
  let gs := if fmtAligned f then (chunks g es).map (alignGroup f 16)
            else (chunks g es).map fun x => (x.map (exactLane f z), if f = 10 then -1 else 0)
  if neg then gs.map fun (ls, u) => (ls.map fun l =>
      { l with i := -l.i, sg := -l.sg, kind := match l.kind with
          | .inf s => .inf !s
          | x => x }, u)
  else gs

/-- The window W of a streamed float format (R42). -/
def windowOf (f : Nat) : Nat := if f = 12 || f = 13 then 16 else 8

/-- A streamed 32-element segment (R42, R43). -/
def streamRow (f : Nat) (z : Int) (es : List Elem) : Group :=
  if fmtAligned f then alignGroup f (windowOf f) es else (es.map (exactLane f z), if f = 10 then -1 else 0)

/-! ### The group term of an FP32 slot (R45, R123, R124) -/

/-- A binary32 result with the flags that forming it sets. -/
structure Flagged where
  v : W32
  inf : Bool := false
  nan : Bool := false
deriving DecidableEq, Repr

/-- One rounding of an exact value (R124): beyond the range it becomes an infinity and sets FLG_INF; a NaN sets FLG_NAN. -/
def roundFlag (x : FV) : Flagged := { v := toF32 x, inf := x.isFinite && isInf32 (toF32 x), nan := x.isNaN }

/-- One slot addition (R121, R124). -/
def addFlag (a : Flagged) (t : W32) : Flagged :=
  let x := (f32 a.v).add (f32 t)
  { v := toF32 x, inf := a.inf || (x.isFinite && isInf32 (toF32 x))
    nan := a.nan || x.isNaN }

/-- The special value that replaces a group's integer sum (R45). -/
def specialTerm (xs ys : List Lane) : Option FV :=
  if (xs.zip ys).any fun (x, y) => (x.kind == .nan && y.kind != .absent) || (y.kind == .nan && x.kind != .absent) then some .nan
  else
    let prods := (xs.zip ys).filterMap fun (x, y) => match x.kind, y.kind with
      | .absent, _ => none
      | _, .absent => none
      | .inf a, .inf b => some (some (a != b))
      | .inf a, _ => some (if y.sg = 0 then none else some (a != decide (y.sg < 0)))
      | _, .inf b => some (if x.sg = 0 then none else some (b != decide (x.sg < 0)))
      | _, _ => none
    match prods with
    | [] => none
    | p :: ps => if (p :: ps).any Option.isNone || ps.any (· != p) then some .nan else some (.inf (p.getD false))

/-- The term of one group: R123, or the special value of R45 times the scales. `absent` is true when either block is absent: every product is then
zero, whatever the other block and its scale hold (R60), with the sign of R627. `neg` is the array's NEG bit, under which the lanes of `gx` hold negated integers. -/
def groupTerm (neg absent : Bool) (gx : Group) (sx : SEnt) (gy : Group) (sy : SEnt) : Flagged :=
  match (if absent then none else specialTerm gx.1 gy.1) with
  | some v => let t := (v.mul sx.s).mul sy.s; { v := toF32 t, nan := t.isNaN }
  | none =>
    let n := ((gx.1.zip gy.1).map fun (x, y) => x.i * y.i).sum
    let a := if neg then -(gx.1.map (·.i)).sum else (gx.1.map (·.i)).sum
    let c := (gy.1.map (·.i)).sum
    let corr := sy.z * a + sx.z * c - (gx.1.length : Int) * sx.z * sy.z
    let n' := if neg then n + corr else n - corr
    if absent then roundFlag (((FV.scaled 0 0).mul sx.s.unit).mul sy.s.unit) else roundFlag (((FV.scaled n' (gx.2 + gy.2)).mul sx.s).mul sy.s)

/-- One stationary block of one output's reduction: the latched groups with their scale, the streamed groups with theirs. -/
structure FpBlock where
  gx : List Group
  sx : SEnt
  gy : List Group
  sy : SEnt
  absent : Bool
deriving DecidableEq, Repr

/-- One block's terms in ascending group, one rounded addition each (R121). -/
def fpBlock (neg : Bool) (acc : Flagged) (b : FpBlock) : Flagged :=
  (b.gx.zip b.gy).foldl (fun acc (x, y) =>
    let t := groupTerm neg b.absent x b.sx y b.sy
    let r := addFlag acc t.v
    { r with inf := r.inf || t.inf, nan := r.nan || t.nan }) acc

/-- An FP32 slot entry: terms in block order (R121). -/
def fpEntry (neg : Bool) (start : W32) (blocks : List FpBlock) : Flagged := blocks.foldl (fpBlock neg) { v := start }

/-! ### Integer rows (R76, R117, R120, R126, R223 to R226) -/

/-- The planes of a row group that it streams, one flag each (R92): those in which a present lane holds a 1; a BIN1 plane when a lane is
present. `bb` is the plane count after halvings `h`. -/
def streamedPlanes (bin : Bool) (bb h : Nat) (lanes : List Lane) : List Bool :=
  if bin then [lanes.any (·.here)]
  else (List.range bb).map fun p => lanes.any fun l => ((l.i / 2 ^ h) % 2 ^ bb).toNat.testBit (bb - 1 - p)

/-- Bit of a lane in plane `p`; a BIN1 lane that is present counts as busy (R93). -/
def laneBit (bin : Bool) (bb h p : Nat) (l : Lane) : Bool :=
  if bin then l.here else ((l.i / 2 ^ h) % 2 ^ bb).toNat.testBit (bb - 1 - p)

/-- Idle lane-cycles of a row group of `n` lanes, per plane (R93). -/
def idlePlanes (bin : Bool) (bb h n : Nat) (lanes : List Lane) : List Nat :=
  ((List.range bb).zip (streamedPlanes bin bb h lanes)).map fun (p, on) =>
    if on then n - (lanes.filter (laneBit bin bb h p)).length else 0

/-- Idle lane-cycles and skipped planes of a row group. -/
def groupCounts (bin : Bool) (bb h n : Nat) (lanes : List Lane) : Nat × Nat :=
  ((idlePlanes bin bb h n lanes).sum, ((streamedPlanes bin bb h lanes).filter not).length)

/-- Sum of one plane of a row, times the plane's weight (R74 to R76, R127). -/
def planeSum (bin : Bool) (bb h p : Nat) (xs ys : List Lane) : Int :=
  if bin then ((xs.zip ys).map fun (x, y) => x.i * y.i).sum
  else
    let w : Int := if p = 0 then -((2 ^ (bb - 1) : Nat) : Int) else ((2 ^ (bb - 1 - p) : Nat) : Int)
    w * ((xs.zip ys).map fun (x, y) => if laneBit false bb h p y then x.i else 0).sum

/-- One block of an integer row: latched lanes, streamed lanes, and which planes its row group streams. -/
structure IntBlock where
  xs : List Lane
  ys : List Lane
  planes : List Bool
deriving DecidableEq, Repr

/-- How an integer row stands: its slot value, the presentation at which an addition left the 48-bit range, the one after which it stopped, and
whether any addition has been made. -/
structure IntAcc where
  v : Int := 0
  overs : Option Nat := none
  stop : Option Nat := none
  added : Bool := false
deriving DecidableEq, Repr

/-- The range of an integer slot (R113). -/
def slotRange (v : Int) : Bool := decide (-(2 ^ 47 : Int) ≤ v) && decide (v < (2 ^ 47 : Int))

/-- S of a latched block row (R223). -/
def absSum (xs : List Lane) : Nat := (xs.map fun x => x.i.natAbs).sum

/-- The order in which a row's planes arrive (R77): blocks, then planes; or planes, then blocks. -/
def planeOrder (plane : Bool) (blocks bb : Nat) : List (Nat × Nat) :=
  if plane then (List.range bb).flatMap fun p => (List.range blocks).map fun j => (j, p)
  else (List.range blocks).flatMap fun j => (List.range bb).map fun p => (j, p)

/-- Plane `p` of a block reaches a row, as presentation `pos` of its word: the slot add (R76, R126), and, in the last block, the compare of R224 to
R226 after each plane from the first to the one before plane b. -/
def intStep (bin : Bool) (b h : Nat) (last : Bool) (sInc : Nat) (theta : Option Int) (x : IntBlock) (acc : IntAcc) (p pos : Nat) : IntAcc :=
  if acc.overs.isSome || acc.stop.isSome then acc
  else
    let bb := b - h
    let acc : IntAcc :=
      if x.planes.getD p false then
        let v := acc.v + planeSum bin bb h p x.xs x.ys
        { acc with v := v, added := true, overs := if slotRange v then none else some pos }
      else acc
    match theta with
    | none => acc
    | some th =>
      if last ∧ p + 1 < b ∧ acc.overs.isNone ∧ 2 ^ h * acc.v + 2 ^ h * ((2 ^ (bb - (p + 1)) - 1) * (sInc : Int)) < th then { acc with stop := some pos }
      else acc

/-- The planes of one block in order, in BLOCK order and in activation-streaming mode: S_inc is the block's own S. -/
def intBlock (bin : Bool) (b h : Nat) (last : Bool) (theta : Option Int) (x : IntBlock) (acc : IntAcc) : IntAcc :=
  (List.range (b - h)).foldl (fun acc p => intStep bin b h last (absSum x.xs) theta x acc p p) acc

/-- A word's end: a start value outside the range to which no plane was added counts as an overflow of its last presentation (R126; DESIGN CHOICE,
log 63). -/
def IntAcc.finish (r : IntAcc) (pos : Nat) : IntAcc := if r.added || slotRange r.v then r else { r with overs := some pos }

/-- One output of a block row in an integer slot: seed, plane sums in the order of R77, overflow and early termination. -/
def intEntry (bin plane : Bool) (b h : Nat) (blocks : List IntBlock) (seed : Int) (theta : Option Int) : IntAcc :=
  let last := blocks.length - 1
  let sInc := if plane then (blocks.map fun x => absSum x.xs).sum else match blocks[last]? with
    | some x => absSum x.xs
    | none => 0
  let order := planeOrder plane blocks.length (b - h)
  let r := ((List.range order.length).zip order).foldl (fun (acc : IntAcc) (pos, j, p) =>
    match blocks[j]? with
    | none => acc
    | some x => intStep bin b h (j == last) sInc theta x acc p pos) { v := seed / 2 ^ h }
  r.finish (order.length - 1)

/-! ### Packed row groups (R189 to R192) -/

/-- A group placed in a packed row group: for each array row, the streamed lanes of its pairs in ascending column. -/
structure Placed where
  width : Nat
  pairs : List (List Lane)
deriving DecidableEq, Repr

/-- The lanes of a packed row group in use, its units, and its groups from lane 0 on. -/
structure PackGroup where
  used : Nat := 0
  units : Nat := 0
  placed : List Placed := []
deriving DecidableEq, Repr

/-- One unit's groups placed in order (R190): full groups, the current one, and whether it already counts this unit. -/
def placeGroups (gs : List Placed) (full : List PackGroup) (cur : PackGroup) (counted : Bool) : List PackGroup × PackGroup × Bool :=
  match gs with
  | [] => (full, cur, counted)
  | p :: gs =>
    let fits := decide (cur.used + p.width ≤ 20) && (counted || decide (cur.units < 8))
    if fits then
      placeGroups gs full { used := cur.used + p.width, units := if counted then cur.units else cur.units + 1, placed := cur.placed ++ [p] } true
    else placeGroups gs (full ++ [cur]) { used := p.width, units := 1, placed := [p] } true

/-- The packed row groups of a run of units (R190). -/
def packUnits (units : List (List Placed)) (full : List PackGroup) (cur : PackGroup) : List PackGroup :=
  match units with
  | [] => if cur.units = 0 then full else full ++ [cur]
  | u :: us =>
    let gs := u.filter (·.width != 0)
    if gs.isEmpty then
      if cur.units < 8 then packUnits us full { cur with units := cur.units + 1 } else packUnits us (full ++ [cur]) { units := 1 }
    else
      let (full, cur, _) := placeGroups gs full cur false
      packUnits us full cur

/-- The streamed lanes at each of the 20 lane positions of a packed row group, over all array rows. -/
def PackGroup.positions (g : PackGroup) : List (List Lane) :=
  let cols := g.placed.flatMap fun p => (List.range p.width).map fun i => p.pairs.filterMap fun r => r[i]?
  cols ++ List.replicate (20 - cols.length) []

/-- Idle lane-cycles and skipped planes of a packed row group (R192): a lane position, which serves a pair in each array row, is idle in a plane in which
none of its pairs holds a 1 (DESIGN CHOICE, log 64). -/
def PackGroup.counts (g : PackGroup) (bin : Bool) (bb h : Nat) : Nat × Nat :=
  let pos := g.positions
  let planes := streamedPlanes bin bb h pos.flatten
  (((List.range bb).zip planes).foldl (fun n (p, on) =>
      if on then n + (pos.filter fun ls => !ls.any (laneBit bin bb h p)).length else n) 0,
   (planes.filter not).length)

/-- A unit's groups: the pairs of each row in each reduction group (R189). -/
def unitGroups (g : Nat) (latched : List (List Lane)) (ys : List Lane) : List Placed :=
  (List.range (ys.length / g)).map fun q =>
    let rows := latched.map fun xs => ((((xs.drop (q * g)).take g).zip ((ys.drop (q * g)).take g)).filter fun (x, y) => x.here && y.here).map (·.2)
    { width := rows.foldl (fun n r => max n r.length) 0, pairs := rows }

end Sys2Proof.Machine
end

