-- ==== Sys2Proof/Machine/Array.lean ====
section
/-! DEFINITION. The arrays: what a tile of ARR.STREAM or a block row of GUARD.RUN computes (04, 05, 08). -/

namespace Sys2Proof.Machine

/-! ### What the instruction fixed at issue -/

/-- A tile instruction as its tiles read it. -/
structure TCtx where
  k : Nat
  kind : TileKind
  w : W64
  d : TileDesc
  e : EpiDesc
  tm : TermDesc
  x : Opd
  y : Opd
  /-- Arrays whose words are still wanted, among those that the instruction does not mask. -/
  alive : List Nat
  oPos : Nat
  sPos : Nat
  cPos : Nat
  cEn : Bool
  yRing : Option GRing
  /-- What the instruction read once, at its start (R135, R136, R228). -/
  chans : List (BitVec 128)
  thetas : List Int
  wsums : List Int
  /-- Drops that the item may still count without a fault, when a limit is in force (R219). -/
  budget : Option Nat := none
  /-- The first operand as the shadow latches hold it, by array (R80). -/
  ahead : Option (List (Nat × Stat)) := none
deriving DecidableEq, Repr

def ringPos (r : Option GRing) : Nat :=
  match r with
  | some g => 32 * g.pos.toNat
  | none => 0

/-- Arrays whose latches have failed a parity check by tile `u` (R88). -/
def TileJob.lost (j : TileJob) (u : Nat) : List Nat := (j.parity.filter fun p => decide (p.2.2 ≤ u)).map (·.1)

/-- The fields that a job's captured words give at tile `u`. GUARD.RUN reads neither NEG nor TRANS_X nor PTOP (11, "Fields that each tile instruction
reads"): it streams its g planes (R239). -/
def TileJob.ctx (j : TileJob) (k u : Nat) : TCtx :=
  let d := { readTileDesc j.desc.toNat 0 with y0 := j.y0 }
  let guard := j.kind == .guard
  let d := if guard then { d with neg := 0, transX := false, order := true, pack := false } else d
  let aux := j.aux.toNat
  let xt := readTensor j.xt.toNat
  let yt := readTensor j.yt.toNat
  let spx := if tSpx j.word then readSparse (bits aux 256 128) else {}
  let spy := if tSpy j.word then readSparse (bits aux 384 128) else {}
  { k := k, kind := j.kind, w := j.word, d := d, e := readEpi j.epi.toNat, tm := termOf j.word aux
    x := { t := xt, trans := d.transX, sp := spx, top := xt.width }
    y := { t := yt, trans := d.transY, sp := spy
           top := if guard then bits (fImm j.word) 22 4 else (topPlanes yt.fmt d.ptop).getD yt.width }
    alive := d.arrays.filter fun a => !(j.lost u).contains a && !j.tdead.contains a
    oPos := ringPos j.oRing, sPos := ringPos j.sRing, cPos := ringPos j.cRing, cEn := j.cRing.isSome, yRing := j.yRing
    chans := j.chans, thetas := j.thetas, wsums := j.wsums, ahead := j.ahead }

def TCtx.int (T : TCtx) : Bool := intSlot T.x.t.fmt T.y.t.fmt
def TCtx.bin (T : TCtx) : Bool := T.y.t.fmt == 0
def TCtx.b (T : TCtx) : Nat := planesOf T.y.t.fmt
def TCtx.negOf (T : TCtx) (a : Nat) : Bool := bit T.d.neg a
/-- Stored rows latched into the stream's logical rows, in order. -/
def TCtx.rows (T : TCtx) : List Nat := subRows T.d.split (tStream T.w)

/-- The latches of the operand that a swap makes active, by key and value (R80). -/
abbrev LatchSet := List (Nat × BitVec 16)

/-- Why a tile writes no word. -/
inductive TileFail where
  | mem (f : MemFail)
  | skew | vary
deriving DecidableEq, Repr

def TileFail.code : TileFail → FaultCode
  | .mem f => f.code
  | .skew => fltScaleSkew
  | .vary => fltScaleVary

/-- What computing one tile gives. -/
structure TileOut where
  words : List OutWord := []
  /-- The tile writes no word, or the words after those of `words` are not written because the item's chaff limit is passed (R66, R125, R219). -/
  fail : Option TileFail := none
  chaffed : Bool := false
  /-- The row whose word overflows and the stationary block (R127), and how the tile stands for its repeat. -/
  ovrow : Option (Nat × Nat) := none
  overs : Option Overflow := none
  /-- Arrays in which an overflow could not be repeated (R129). -/
  failed : List Nat := []
  idle : Nat := 0
  skip : Nat := 0
  stops : Nat := 0
  /-- Elements dropped from groups, and packed positions out of order. -/
  drops : Nat := 0
  disorder : Nat := 0
  inf : Bool := false
  nan : Bool := false
  /-- The operands latched, in order. -/
  latched : List LatchSet := []
  /-- Stall cycles for shadow loads (R81), and the cycles streamed against the last operand. -/
  stall : Nat := 0
  run : Option Nat := none
deriving DecidableEq, Repr

/-- Nothing further of the tile is presented in this pass. -/
def TileOut.halted (o : TileOut) : Bool := o.ovrow.isSome || o.chaffed

/-- Elements read are dropped: counted, and looked at against the item's limit (R183, R187, R219). -/
def TileOut.drop (o : TileOut) (budget : Option Nat) (drops disorder : Nat) : TileOut :=
  let o := { o with drops := o.drops + drops, disorder := o.disorder + disorder }
  { o with chaffed := o.chaffed || budget.any fun n => decide (n < o.drops + o.disorder) }

/-! ### Pieces -/

/-- Whether the entries of the present blocks of a reduction differ (R125). -/
def entriesVary (es : List (Bool × SEnt)) : Bool :=
  match es.filter (fun e => !e.1) with
  | [] => false
  | e :: rest => rest.any fun x => x.2.raw != e.2.raw

/-- The one entry of a reduction: that of its first present block; scale 1.0 and zero point 0 where every block is absent. -/
def entryOf (es : List (Bool × SEnt)) : SEnt :=
  match es.find? (fun e => !e.1) with
  | some e => e.2
  | none => .one

/-- The seeds of word `v` of array `a` (R117, R118, R374): 64-bit integers or binary32 words. -/
def TCtx.seeds (T : TCtx) (m : Sparse Byte) (v a n : Nat) : List Nat :=
  let es := if T.int then 8 else 4
  let base := T.e.seedBase + a * T.e.seedBytes + ((T.sPos + v) * (n * es)) % T.e.seedBytes
  (List.range n).map fun i => readNat m (base + i * es) es

/-- A word-sum entry (R136). -/
def EpiDesc.wsum (e : EpiDesc) (m : Sparse Byte) (idx : Nat) : Int := signedOf 32 (readNat m (e.wsumBase + 4 * (idx % e.wsumN)) 4)

/-- The channel entry of channel `n` (R135). -/
def EpiDesc.chanEntry (e : EpiDesc) (m : Sparse Byte) (n : Nat) : BitVec 128 :=
  BitVec.ofNat 128 (readNat m (e.chanBase + n % e.chanN * 16) 16)

/-- The threshold of channel `n` (R226). -/
def TermDesc.thetaOf (t : TermDesc) (m : Sparse Byte) (n : Nat) : Int := signedOf 64 (readNat m (t.theta + 8 * (n % t.thN)) 8)

/-- Bit `n` of a bitmap at `base` (R234). -/
def bitmapBit (m : Sparse Byte) (base n : Nat) : Bool := bit (readNat m (base + 4 * (n / 32)) 4) (n % 32)

/-- The latch entries of one array: rows of lanes into cells, each logical row at its physical row (R72). -/
def Sheaf.latchKeys (sh : Sheaf) (a : Nat) (rows : List Nat) (c0 : Nat) (lanes : List (List Lane)) : LatchSet :=
  let out := sget [] sh.splices a
  (rows.zip lanes).flatMap fun (r, ls) =>
    ((List.range ls.length).zip ls).map fun (c, l) => ((a * 34 + physRow out r) * 32 + c0 + c, BitVec.ofInt 16 l.i)

/-- First column of a stream's sub-arrays (R84). -/
def TCtx.subCol0 (T : TCtx) : Nat := if T.d.split = 2 && tStream T.w % 2 = 1 then 16 else 0

/-- Latched lanes without NEG: cells hold the code's value, and NEG acts on their outputs (R83). -/
def unNeg (neg : Bool) (ls : List Lane) : List Lane := if neg then ls.map fun l => { l with i := -l.i } else ls

/-- All lanes of a row of groups. -/
def flatLanes (gs : List Group) : List Lane := gs.flatMap (·.1)

/-- Result of one word in one array: its outputs, the presentations after which its rows stopped, the first presentation at which one overflowed,
and the flags of its roundings. -/
structure WordAcc where
  vals : List SlotVal := []
  stops : List (Option Nat) := []
  overs : Option Nat := none
  inf : Bool := false
  nan : Bool := false
deriving DecidableEq, Repr

/-- The earlier of two presentations. -/
def firstOf (a b : Option Nat) : Option Nat :=
  match a, b with
  | some x, some y => some (min x y)
  | some x, none => some x
  | none, y => y

/-- An output's entry while its word is computed: one of the two kinds (R113). -/
inductive EAcc where
  | int (r : IntAcc)
  | fp (r : Flagged)
deriving DecidableEq, Repr

def EAcc.val : EAcc → SlotVal
  | .int r => .int r.v
  | .fp r => .fp r.v

/-- A word from its entries. -/
def wordOf (es : List EAcc) : WordAcc :=
  { vals := es.map EAcc.val
    stops := es.map fun e => match e with
      | .int r => r.stop
      | .fp _ => none
    overs := es.foldl (fun acc e => match e with
      | .int r => firstOf acc r.overs
      | .fp _ => acc) none
    inf := es.any fun e => match e with
      | .fp r => r.inf
      | .int _ => false
    nan := es.any fun e => match e with
      | .fp r => r.nan
      | .int _ => false }

/-- Rows that stopped up to a presentation, every one where none is named (R230, R232). -/
def WordAcc.stopsUpTo (r : WordAcc) (cut : Option Nat) : Nat :=
  (r.stops.filter fun x => x.any fun p => cut.all fun c => decide (p ≤ c)).length

/-- Whether an overflow at halvings `h` can be repeated (R129). -/
def canRepeat (b h : Nat) : Bool := decide (h < 2) && decide (1 + h + 1 ≤ b)

/-- Cycles that a row group of planes takes: its streamed planes, or its floor (R92). -/
def groupCycles (planes : List Bool) : Nat := max (planes.filter id).length (ceilDiv planes.length 8)

/-- Cycles that the latch port takes for the stored bytes of `rows` rows of `cols` presented columns (R80): a packed operand stores fewer elements
than it presents (R186), an absent block none (R60). -/
def loadCycles (o : Opd) (rows cols : Nat) (absent : Bool) : Nat :=
  if absent then 0 else ceilDiv (rows * (cols * o.sp.perBlock / 32) * o.t.width / 8) 64

/-- The scale of an entry as binary32: every E8M0 and BF16 scale is one. -/
def SEnt.f32 (e : SEnt) : W32 := toF32 e.s

/-! ### Activation-streaming mode -/

/-- The stored rows that a convolution window starting at flat element `f` spans, as elements (R106). -/
def windowElems (f : Nat) (row : Nat → List Elem) : List Elem := ((row (f / 32)).drop (f % 32) ++ row (f / 32 + 1)).take 32

/-- Flat element at which the window of presented row `t` begins (R106). -/
def TileDesc.convStart (d : TileDesc) (t : Nat) : Nat := 32 / 2 ^ (d.taps + 1) * (if d.stride then 2 else 1) * (d.y0 + t)

/-- The presented row `t` of segment `kk`: elements, scale entry, absence of its block and of its elements (R60), and what reading it dropped. -/
structure SRow where
  es : List Elem
  sc : SEnt
  absent : Bool
  holes : List Bool := []
  drops : Nat
  disorder : Nat
deriving DecidableEq, Repr

/-- Streamed row `t` (counted from the instruction's first) of block column `K0 + kk` (R78, R106, R374). What reading it drops counts over its 32 columns,
also where SPLIT = 2 streams 16 of them (DESIGN CHOICE, log 64). -/
def State.streamedRow (s : State) (T : TCtx) (t kk : Nat) : Except MemFail SRow :=
  match T.yRing with
  | some g =>
    match s.fetchBlock T.k { T.y with ring := some ((g.pos.toNat + t / 32) % 2 ^ 32 % g.n, g.n) } 0 (T.d.k0 + kk) allWanted with
    | .error e => .error e
    | .ok b => .ok { es := b.rows.getD (t % 32) [], sc := b.scales.getD (t % 32) .one, absent := b.absent, drops := 0, disorder := 0 }
  | none =>
    if T.d.conv then
      let f := T.d.convStart t
      let at_ := fun r => s.presentedBlock T.k T.y (r / 32) T.d.k0 allWanted
      let needNext := f % 32 != 0
      match at_ (f / 32), (if needNext then at_ (f / 32 + 1) else .ok .none) with
      | .error e, _ => .error e
      | _, .error e => .error e
      | .ok b0, .ok b1 =>
        .ok { es := windowElems f fun r => if r = f / 32 then b0.rows.getD (r % 32) [] else b1.rows.getD (r % 32) []
              sc := .one, absent := b0.absent && (b1.absent || !needNext)
              holes := (List.range 32).map fun c => if f % 32 + c < 32 then b0.absent else b1.absent
              drops := b0.rowDrops (f / 32 % 32), disorder := 0 }
    else
      match s.presentedBlock T.k T.y ((T.d.y0 + t) / 32) (T.d.k0 + kk) allWanted with
      | .error e => .error e
      | .ok b =>
        let r := (T.d.y0 + t) % 32
        .ok { es := b.rows.getD r [], sc := b.scales.getD r .one, absent := b.absent, drops := b.rowDrops r, disorder := b.rowDisorder r }

/-- Stationary block `kk` of array `a` as its sub-array latches it (R78, R85). In a split mode the drops of a group check count where the sub-array latches
the element, packed positions out of order over the whole stored row (DESIGN CHOICE, log 64). -/
def State.statBlock (s : State) (T : TCtx) (a kk : Nat) : Except MemFail Stat :=
  match s.presentedBlock T.k T.x (T.d.x0 + a) (T.d.k0 + kk) allWanted with
  | .error e => .error e
  | .ok b =>
    let n := T.rows.length
    let ids := (List.range n).map (· + T.d.row0)
    .ok { rows := ids.map fun r =>
            latchRow T.x.t.fmt T.d.group (b.scales.getD r .one).z (T.negOf a) (((b.rows.getD r []).drop T.d.col0).take T.d.ncols)
          scales := ids.map fun r => b.scales.getD r .one, absent := b.absent
          drops := (ids.map fun r => trueCount (((b.dropped.getD r []).drop T.d.col0).take T.d.ncols)).sum
          disorder := (ids.map fun r => b.rowDisorder r).sum }

/-- The operand of array `a` that the shadow latches hold already. -/
def TCtx.aheadOf (T : TCtx) (a : Nat) : Option Stat := T.ahead.bind fun l => (l.find? (·.1 == a)).map (·.2)

/-- Stationary block `kk` of array `a`: the first as it was loaded ahead (R80, R81). -/
def State.latchedBlock (s : State) (T : TCtx) (a kk : Nat) : Except MemFail Stat :=
  match (if kk = 0 then T.aheadOf a else none) with
  | some st => .ok st
  | none => s.statBlock T a kk

/-- The streamed groups of a presented row within the columns that the sub-array streams (R42, R85). -/
def TCtx.streamGroups (T : TCtx) (r : SRow) : List Group :=
  let (ls, u) := streamRow T.y.t.fmt r.sc.z r.es
  let ls := if r.holes.isEmpty then ls else (ls.zip r.holes).map fun (l, hole) => if hole then { kind := .absent } else l
  (chunks T.d.group ((ls.drop T.d.col0).take T.d.ncols)).map fun g => (g, u)

/-- Element by element, the entries of a word's outputs before its first block (R117). -/
def TCtx.startWord (T : TCtx) (m : Sparse Byte) (v a n h : Nat) : List EAcc :=
  let seeds := if tStart T.w then List.replicate n 0 else T.seeds m v a n
  seeds.map fun x => if T.int then .int { v := signedOf 64 x / 2 ^ h } else .fp { v := BitVec.ofNat 32 x }

/-- The threshold of output `q` of array `a` in activation-streaming mode, as the instruction read it (R228). -/
def TCtx.actTheta (T : TCtx) (a q : Nat) : Option Int := if T.tm.et then some (T.thetas.getD (32 * a + T.d.row0 + q) 0) else none

/-- A word's entries after one more stationary block (R76, R120, R121); after the last one the word is complete. -/
def TCtx.actBlock (T : TCtx) (kk h a : Nat) (st : Stat) (r : SRow) (gs : List Group) (es : List EAcc) : List EAcc :=
  let last := kk + 1 == T.d.kstep
  let planes := streamedPlanes T.bin (T.b - h) h (flatLanes gs)
  ((List.range es.length).zip es).map fun (q, e) =>
    let gx := st.rows.getD q []
    match e with
    | .int acc =>
      let acc := intBlock T.bin T.b h last (T.actTheta a q) { xs := flatLanes gx, ys := flatLanes gs, planes := planes } acc
      .int (if last then acc.finish (T.b - h - 1) else acc)
    | .fp acc => .fp (fpBlock (T.negOf a) acc { gx := gx, sx := st.scales.getD q .one, gy := gs, sy := r.sc, absent := st.absent || r.absent })

/-- The word itself, with what the epilogue reads for it. -/
def actWord (T : TCtx) (m : Sparse Byte) (u t a h : Nat) (sts : List Stat) (yrows : List (SRow × List Group)) (r : WordAcc) : OutWord :=
  let n := T.rows.length
  let ch := a * 32 + T.d.row0
  let sx := (List.range n).map fun q => entryOf (sts.map fun st => (st.absent, st.scales.getD q .one))
  let sy := entryOf (yrows.map fun (x, _) => (x.absent, x.sc))
  { arr := a, tile := u, word := T.oPos + t, vals := r.vals, h := h, chan := ch
    chans := if T.e.usesChan then (List.range n).map fun q => T.chans.getD (ch + q) 0 else []
    col0 := T.d.row0, row0 := T.rows.headD 0, stops := r.stops.map Option.isSome, keeps := List.replicate n true
    sx := sx.map SEnt.f32, sy := List.replicate n sy.f32, zc := sx.map (·.z), zw := List.replicate n sy.z
    sumw := if !T.e.drain && T.e.corr then T.e.wsum m (T.cPos + t) else 0, neg := T.negOf a }

/-- A streamed row of a tile: its index, its segments, its halvings, the stationary blocks it has passed, and its entries in each array. -/
structure RowSt where
  t : Nat
  ys : List (SRow × List Group)
  h : Nat
  done : Nat
  accs : List (Nat × List EAcc)
deriving DecidableEq, Repr

/-- What every row of a tile meets: the tile, its latched operands by array, and the scratchpad. -/
structure ActTile where
  T : TCtx
  u : Nat
  m : Sparse Byte
  stats : List (Nat × List Stat)

/-- The stationary blocks that an array has latched. -/
def ActTile.statsOf (A : ActTile) (a : Nat) : List Stat :=
  match A.stats.find? (·.1 == a) with
  | some e => e.2
  | none => []

/-- A row meets stationary block `kk` in every array (R78): its entries, counts and, after the last block, its words; an overflow that can be repeated
ends the pass (R127), one that cannot ends the array (R129). -/
def ActTile.rowStep (A : ActTile) (kk : Nat) (r : RowSt) (o : TileOut) : RowSt × TileOut :=
  if o.halted || kk < r.done then (r, o)
  else
    let T := A.T
    let (x, gs) := r.ys.getD kk ({ es := [], sc := .one, absent := true, drops := 0, disorder := 0 }, [])
    let o := o.drop T.budget x.drops x.disorder
    if o.halted then (r, o)
    else
      let accs : List (Nat × List EAcc) := (r.accs.filter fun e => !o.failed.contains e.1).map fun (a, es) =>
        (a, match (A.statsOf a)[kk]? with
            | some st => T.actBlock kk r.h a st x gs es
            | none => es)
      let ws : List (Nat × WordAcc) := accs.map fun (a, es) => (a, wordOf es)
      let cut := ws.foldl (fun c w => firstOf c w.2.overs) none
      let ovf := (ws.filter fun w => w.2.overs.isSome).map (·.1)
      let cnt := if T.d.pack then (0, 0) else groupCounts T.bin (T.b - r.h) r.h T.d.ncols (flatLanes gs)
      let last := kk + 1 == T.d.kstep
      let rep := cut.isSome && canRepeat T.b r.h
      let stopped : Nat := (ws.map fun (w : Nat × WordAcc) => w.2.stopsUpTo (if rep then cut else w.2.overs)).sum
      let o := { o with idle := o.idle + cnt.1, skip := o.skip + cnt.2, stops := o.stops + (if last then stopped else 0)
                        inf := o.inf || (last && ws.any (·.2.inf)), nan := o.nan || (last && ws.any (·.2.nan)) }
      if rep then ({ r with accs := accs }, { o with ovrow := some (r.t, kk) })
      else
        let good := ws.filter fun w => w.2.overs.isNone
        ({ r with accs := accs, done := kk + 1 },
         { o with failed := o.failed ++ ovf
                  words := o.words ++ (if last then good.map fun (w : Nat × WordAcc) =>
                    actWord T A.m A.u r.t w.1 r.h (A.statsOf w.1) r.ys w.2 else []) })

/-- The rows of a tile against one stationary block, in order. Of two words that overflow, the earlier one starts the repeat, also where the row skew
of R89 brings the later word's overflow first (DESIGN CHOICE, log 64). -/
def ActTile.rowsStep (A : ActTile) (kk : Nat) (rs : List RowSt) (o : TileOut) : List RowSt × TileOut :=
  match rs with
  | [] => ([], o)
  | r :: rest =>
    let (r, o) := A.rowStep kk r o
    let (rest, o) := A.rowsStep kk rest o
    (r :: rest, o)

/-- The packed row groups of the rows that ran against block `kk`, those of one halving count together (R190). -/
def ActTile.packs (A : ActTile) (kk : Nat) (rs : List RowSt) : List (Nat × PackGroup) :=
  let latched := A.stats.flatMap fun (_, sts) => match sts[kk]? with
    | some st => st.rows.map flatLanes
    | none => []
  ((rs.map (·.h)).eraseDups).flatMap fun h =>
    (packUnits ((rs.filter (·.h == h)).map fun r => match r.ys[kk]? with
      | some (_, gs) => unitGroups A.T.d.group latched (flatLanes gs)
      | none => []) [] {}).map fun g => (h, g)

/-- Cycles that rows take against block `kk` (R92, R192). -/
def ActTile.cycles (A : ActTile) (kk : Nat) (rs : List RowSt) : Nat :=
  if A.T.d.pack then ((A.packs kk rs).map fun (h, g) => groupCycles (streamedPlanes A.T.bin (A.T.b - h) h g.positions.flatten)).sum
  else (rs.map fun r => match r.ys[kk]? with
    | some (_, gs) => groupCycles (streamedPlanes A.T.bin (A.T.b - r.h) r.h (flatLanes gs))
    | none => 0).sum

/-- The pass of a tile from stationary block `kk` on: the block is latched (R80, R81, R185), unless the active latches still hold it for a repeat
(R128), and every row that has not met it does. -/
def ActTile.blocks (A : ActTile) (sh : Sheaf) (held : Bool) (kks : List Nat) (rs : List RowSt) (o : TileOut) : List RowSt × TileOut :=
  match kks with
  | [] => (rs, o)
  | kk :: rest =>
    if o.halted || rs.all fun r => decide (kk < r.done) then A.blocks sh held rest rs o
    else
      let T := A.T
      let sts := A.stats.filterMap fun (a, l) => (l[kk]?).map fun st => (a, st)
      let o := if held && kk == 0 then o
        else
          let load := (sts.map fun (_, st) => loadCycles T.x T.rows.length T.d.ncols st.absent).foldl max 0
          { o.drop T.budget (sts.map (·.2.drops)).sum (sts.map (·.2.disorder)).sum with
            stall := o.stall + (match o.run with
              | some c => load - c
              | none => 0)
            latched := o.latched ++ [sts.flatMap fun (a, st) =>
              sh.latchKeys a T.rows T.subCol0 (st.rows.map fun gs => unNeg (T.negOf a) (flatLanes gs))] }
      let todo := rs.filter fun r => decide (r.done ≤ kk)
      let (rs', o) := A.rowsStep kk rs o
      let ran := match o.ovrow with
        | some (t, _) => todo.filter fun r => decide (r.t ≤ t)
        | none => if o.chaffed then [] else todo
      let cnt := if T.d.pack then (A.packs kk ran).map fun (h, g) => g.counts T.bin (T.b - h) h else []
      let o := { o with idle := o.idle + (cnt.map (·.1)).sum, skip := o.skip + (cnt.map (·.2)).sum, run := some (A.cycles kk ran) }
      A.blocks sh held rest rs' o

/-- How the tile stands for the repeat of an overflow (R127): the words from the overflowing one on start again with one more halving. -/
def raiseRows (u : Nat) (at_ : Nat × Nat) (rs : List RowSt) : Overflow :=
  { tile := u, blk := at_.2, hs := rs.map fun r => if at_.1 ≤ r.t then r.h + 1 else r.h
    done := rs.map fun r => if at_.1 ≤ r.t then 0 else r.done }

/-- The scale merge of a tile finds tags that differ, or entries that vary along a reduction (R66, R125). -/
def actMerge (T : TCtx) (stats : List (Nat × List Stat)) (ys : List (Nat × List (SRow × List Group))) : Option TileFail :=
  if (T.x.t.skewed && stats.any fun (_, sts) => sts.any fun x => !x.absent) ||
     (T.y.t.skewed && ys.any fun (_, rs) => rs.any fun x => !x.1.absent) then some .skew
  else if T.int && (stats.any (fun (_, sts) => (List.range T.rows.length).any fun q =>
        entriesVary (sts.map fun st => (st.absent, st.scales.getD q .one))) ||
      ys.any fun (_, rs) => entriesVary (rs.map fun (r, _) => (r.absent, r.sc))) then some .vary
  else none

/-- Tile `u` of an activation-streaming instruction, in its first pass or in the repeat `rep` (R78, R127); `run` is how long the active latches have
streamed. The stream stalls for the whole reload of block 0 before a repeat (R128). Every unmasked array latches; those in `alive` write words (R87). -/
def State.actTile (s : State) (T : TCtx) (u : Nat) (rep : Option Overflow) (run : Option Nat) : Except TileFail TileOut :=
  let ts := List.range' (32 * u) (min 32 (T.d.rowsN - 32 * u))
  let kks := List.range T.d.kstep
  match mapE (fun a => match mapE (s.latchedBlock T a) kks with
      | .error e => .error e
      | .ok sts => .ok (a, sts)) T.d.arrays,
    mapE (fun t => match mapE (s.streamedRow T t) kks with
      | .error e => .error e
      | .ok rs => .ok (t, rs.map fun r => (r, T.streamGroups r))) ts with
  | .error e, _ => .error (.mem e)
  | _, .error e => .error (.mem e)
  | .ok stats, .ok ys =>
    let m := (s.core T.k).scratch
    let sh := (s.core T.k).sheaf
    match actMerge T stats ys with
    | some f => .ok { fail := some f
                      drops := (stats.map fun (_, sts) => (sts.map (·.drops)).sum).sum + (ys.map fun (_, rs) => (rs.map fun r => r.1.drops).sum).sum
                      disorder := (stats.map fun (_, sts) => (sts.map (·.disorder)).sum).sum +
                        (ys.map fun (_, rs) => (rs.map fun r => r.1.disorder).sum).sum }
    | none =>
      let A : ActTile := { T := T, u := u, m := m, stats := stats }
      let rows := ((List.range ys.length).zip ys).map fun (i, t, yrows) =>
        let h := (rep.map fun v => v.hs.getD i 0).getD 0
        let done := (rep.map fun v => v.done.getD i 0).getD 0
        ({ t := t, ys := yrows, h := h, done := done
           accs := T.alive.map fun a => (a, (List.range done).foldl (fun es kk =>
             match ((stats.find? (·.1 == a)).bind fun x => x.2[kk]?), yrows[kk]? with
             | some st, some (x, gs) => T.actBlock kk h a st x gs es
             | _, _ => es) (T.startWord m t a T.rows.length h)) } : RowSt)
      let (rs, o) := A.blocks sh (rep.any fun v => v.blk == 0) kks rows { run := if rep.isSome then some 0 else run }
      .ok { o with overs := o.ovrow.map fun p => raiseRows u p rs }

/-! ### Weight-streaming mode -/

/-- An activation slice of one array (R77) is a stationary operand of one row: its groups and its entry. -/
def Stat.gs (x : Stat) : List Group := x.rows.headD []
def Stat.sc (x : Stat) : SEnt := x.scales.headD .one

/-- Activation slice `j` of array `a`: elements `32 (K0 + j)` to `32 (K0 + j) + 31` of row X0 + a (R77). -/
def State.sliceOf (s : State) (T : TCtx) (g a j : Nat) : Except MemFail Stat :=
  match s.presentedBlock T.k T.x ((T.d.x0 + a) / 32) (T.d.k0 + j) allWanted with
  | .error e => .error e
  | .ok b =>
    let r := (T.d.x0 + a) % 32
    .ok { rows := [latchRow T.x.t.fmt g (b.scales.getD r .one).z (T.negOf a) (b.rows.getD r [])], scales := [b.scales.getD r .one]
          absent := b.absent, drops := b.rowDrops r, disorder := b.rowDisorder r }

/-- Slice `j` as the arrays take it: the first as it was loaded ahead (R80, R81). -/
def State.latchedSlice (s : State) (T : TCtx) (g a j : Nat) : Except MemFail Stat :=
  match (if j = 0 then T.aheadOf a else none) with
  | some st => .ok st
  | none => s.sliceOf T g a j

/-- A weight block of block row `i`: rows of groups with their entries. -/
structure WBlock where
  rows : List (List Group)
  scales : List SEnt
  absent : Bool
  drops : Nat
  disorder : Nat
deriving DecidableEq, Repr

/-- The granules of a stored block that hold a selected row (R234); `n0` is the first stored row of the block. -/
def selGranules (m : Sparse Byte) (base n0 : Nat) (inv : Bool) : List Bool :=
  (List.range 4).map fun u => (List.range 8).any fun r => bitmapBit m base (n0 + 8 * u + r) != inv

/-- Granules of a weight block that a block row fetches (R234, R239). -/
def TCtx.granules (T : TCtx) (m : Sparse Byte) (i j : Nat) : List Bool :=
  if T.kind = .guard then selGranules m T.tm.selBase (32 * (T.d.y0 + i)) true
  else if T.tm.sel then selGranules m T.tm.selBase (32 * (if T.y.trans then T.d.k0 + j else T.d.y0 + i)) false
  else allWanted

/-- Block `(Y0 + i, K0 + j)` of the streamed weight tensor under a selection (R77, R234). -/
def State.weightBlock (s : State) (T : TCtx) (g i j : Nat) : Except MemFail WBlock :=
  let m := (s.core T.k).scratch
  let (bi, bj) := (T.d.y0 + i, T.d.k0 + j)
  match s.presentedBlock T.k T.y bi bj (T.granules m i j) with
  | .error e => .error e
  | .ok b =>
    let rows := if T.tm.sel && T.y.trans && T.kind == .stream then
        b.rows.map fun r => ((List.range 32).zip r).map fun (c, e) => if bitmapBit m T.tm.selBase (32 * bj + c) then e else none
      else b.rows
    .ok { rows := ((List.range 32).zip rows).map fun (r, es) =>
            let (ls, u) := streamRow T.y.t.fmt (b.scales.getD r .one).z es
            (chunks g ls).map fun x => (x, u)
          scales := b.scales, absent := b.absent
          drops := ((List.range 32).map b.rowDrops).sum, disorder := ((List.range 32).map b.rowDisorder).sum }

/-- Lanes of a block for plane skipping; with PACK a lane is absent also where no unmasked array holds a present activation (R195). -/
def blockLanes (T : TCtx) (slices : List Stat) (b : WBlock) : List Lane :=
  b.rows.flatMap fun gs =>
    let ls := flatLanes gs
    if T.d.pack then ((List.range ls.length).zip ls).map fun (c, l) =>
      if slices.any fun x => ((flatLanes x.gs).getD c {}).here then l else {}
    else ls

/-- Presentations of a block row that reach row 0 when every row has stopped after presentation `stop`: those up to it, and those that begin within
the 37 + s cycles after it (R103). The gated cycles of a block's floor (R92) come with its last plane (DESIGN CHOICE, log 40). -/
def presentedAfter (order : List (Nat × Nat)) (on : List (List Bool)) (bb stop left : Nat) : Nat :=
  let cost := fun (j p : Nat) =>
    let ps := on.getD j []
    (if ps.getD p false then 1 else 0) + (if p + 1 = bb then groupCycles ps - (ps.filter id).length else 0)
  let tail := (order.drop (stop + 1)).foldl (fun (acc : Nat × Nat × Bool) (j, p) =>
    let (n, used, past) := acc
    if past || decide (left ≤ used) && cost j p != 0 then (n, used, true) else (n + 1, used + cost j p, false)) (0, 0, false)
  min order.length (stop + 1 + tail.1)

/-- One word's outputs of a block row in array `a` (R120, R121, R224 to R226). -/
def TCtx.wgtEntries (T : TCtx) (m : Sparse Byte) (i a h : Nat) (slices : List Stat) (blocks : List WBlock) (planes : List (List Bool)) : List EAcc :=
  let seeds := if tStart T.w then List.replicate 32 0 else T.seeds m i a 32
  (List.range 32).map fun r =>
    let ins := slices.zip blocks
    if T.int then
      .int (intEntry T.bin T.d.order T.b h ((ins.zip planes).map fun ((x, b), ps) =>
          { xs := flatLanes x.gs, ys := flatLanes (b.rows.getD r []), planes := ps }) (signedOf 64 (seeds.getD r 0))
        (if T.tm.et then some (T.tm.thetaOf m (T.cPos + 32 * i + r)) else none))
    else .fp (fpEntry (T.negOf a) (BitVec.ofNat 32 (seeds.getD r 0)) (ins.map fun (x, b) =>
        { gx := x.gs, sx := x.sc, gy := b.rows.getD r [], sy := b.scales.getD r .one, absent := x.absent || b.absent }))

/-- The word of block row `i` in array `a`. -/
def wgtWord (T : TCtx) (m : Sparse Byte) (i a h : Nat) (slices : List Stat) (blocks : List WBlock) (sel : List Bool) (r : WordAcc) : OutWord :=
  let ch := T.cPos + 32 * i
  let sx := entryOf (slices.map fun x => (x.absent, x.sc))
  let sy := (List.range 32).map fun q => entryOf (blocks.map fun b => (b.absent, b.scales.getD q .one))
  { arr := a, tile := i, word := T.oPos + i, vals := r.vals, h := h, chan := ch
    chans := if T.e.usesChan then (List.range 32).map fun q => T.e.chanEntry m (ch + q) else []
    stops := ((r.stops.zip sel).map fun (x, y) => x.isSome || (!y && !T.tm.merge)), keeps := sel.map fun y => y || !T.tm.merge
    sx := List.replicate 32 sx.f32, sy := sy.map SEnt.f32, zc := sy.map (·.z), zw := List.replicate 32 sx.z
    sumw := T.wsums.getD a 0, neg := T.negOf a }

/-- Selected rows of block row `i` (R234); every row where no selection applies or the read is transposed. -/
def TCtx.selected (T : TCtx) (m : Sparse Byte) (i : Nat) : List Bool :=
  (List.range 32).map fun r => !T.tm.sel || T.y.trans || bitmapBit m T.tm.selBase (32 * (T.d.y0 + i) + r)

/-- Slices of every unmasked array and blocks of block row `i`. -/
def State.blockRow (s : State) (T : TCtx) (g i : Nat) : Except MemFail (List (Nat × List Stat) × List WBlock) :=
  let js := List.range T.d.kb
  match mapE (fun a => match mapE (s.latchedSlice T g a) js with
      | .error e => .error e
      | .ok xs => .ok (a, xs)) T.d.arrays, mapE (s.weightBlock T g i) js with
  | .error e, _ => .error e
  | _, .error e => .error e
  | .ok slices, .ok blocks => .ok (slices, blocks)

/-- The scale merge of a block row (R66, R125). It looks at the entries of all 32 rows, those of unselected rows too (DESIGN CHOICE, log 63). -/
def rowMerge (T : TCtx) (slices : List (Nat × List Stat)) (blocks : List WBlock) : Option TileFail :=
  if (T.x.t.skewed && slices.any fun (_, xs) => xs.any fun x => !x.absent) || (T.y.t.skewed && blocks.any fun b => !b.absent) then some .skew
  else if T.int && (slices.any (fun (_, xs) => entriesVary (xs.map fun x => (x.absent, x.sc))) ||
      (List.range 32).any fun r => entriesVary (blocks.map fun b => (b.absent, b.scales.getD r .one))) then some .vary
  else none

/-- The latch entries of a slice: every row of its array holds it (R77). -/
def TCtx.sliceKeys (T : TCtx) (sh : Sheaf) (a : Nat) (x : Stat) : LatchSet :=
  sh.latchKeys a (List.range 32) 0 (List.replicate 32 (unNeg (T.negOf a) (flatLanes x.gs)))

/-- The last two operands that a block row latches, in order (R77, R80): of the slices `js` in the order in which they become active. -/
def sliceLatches (sh : Sheaf) (T : TCtx) (slices : List (Nat × List Stat)) (js : List Nat) : List LatchSet :=
  (js.drop (js.length - 2)).map fun j => slices.flatMap fun (a, xs) => match xs[j]? with
    | some x => T.sliceKeys sh a x
    | none => []

/-- Splices that the arrays of an instruction hold, the largest count (R100). -/
def maxSplices (sh : Sheaf) (arrays : List Nat) : Nat := arrays.foldl (fun n a => max n (sget [] sh.splices a).length) 0

/-- The presentations of a block row that are made: all, those up to an overflow that is repeated, or those of R103 under `spl` splices. -/
def presentationCut (T : TCtx) (order : List (Nat × Nat)) (on : List (List Bool)) (bb h spl : Nat) (sel : List Bool) (rs : List WordAcc) : Nat :=
  match rs.foldl (fun c r => firstOf c r.overs) none with
  | some p => if canRepeat T.b h then p + 1 else order.length
  | none =>
    if T.tm.et && T.d.order && !rs.isEmpty && rs.all fun r => (r.stops.zip sel).all fun (x, y) => x.isSome || !y then
      presentedAfter order on bb (rs.foldl (fun n r => r.stops.foldl (fun n x => max n (x.getD 0)) n) 0) (37 + spl)
    else order.length

/-- Block row `i` of a weight-streaming instruction at halvings `h` (R77), in its first pass or in a repeat; `held` when its only slice is still active
from the pass that overflowed. Otherwise the stream stalls for the cycle in which slice 0 is loaded again (R128). -/
def State.wgtTile (s : State) (T : TCtx) (i h : Nat) (rep0 held : Bool) : Except TileFail TileOut :=
  let m := (s.core T.k).scratch
  let sh := (s.core T.k).sheaf
  let sel := T.selected m i
  if !sel.any id then
    .ok { words := if T.tm.merge then [] else T.alive.map fun a =>
            wgtWord T m i a 0 [] [] sel { vals := List.replicate 32 (if T.int then .int 0 else .fp 0), stops := List.replicate 32 none } }
  else
    match s.blockRow T T.d.group i with
    | .error e => .error (.mem e)
    | .ok (slices, blocks) =>
      let bb := T.b - h
      let lanes := ((List.range blocks.length).zip blocks).map fun (j, b) => blockLanes T (slices.filterMap fun (_, xs) => xs[j]?) b
      let on := lanes.map (streamedPlanes T.bin bb h)
      let order := planeOrder T.d.order blocks.length bb
      let rs := (slices.filter fun e => T.alive.contains e.1).map fun (a, xs) => (a, xs, wordOf (T.wgtEntries m i a h xs blocks on))
      let merge := rowMerge T slices blocks
      let ovf := (rs.filter fun r => r.2.2.overs.isSome).map (·.1)
      let rep := !ovf.isEmpty && canRepeat T.b h
      let cut := if merge.isSome then order.length else presentationCut T order on bb h (maxSplices sh T.d.arrays) sel (rs.map (·.2.2))
      let made := order.take cut
      let times := if T.d.order then min T.y.top bb else 1
      -- the operands in the order in which they become active
      let swaps := if held then [] else if T.d.order then (made.filter fun x => decide (x.2 < times)).map (·.1) else (made.map (·.1)).eraseDups
      -- what reading drops counts as it would without splices, which change no count of an item (R430; DESIGN CHOICE, log 64)
      let seen := if merge.isSome then order else order.take (presentationCut T order on bb h 0 sel (rs.map (·.2.2)))
      let reads := fun j => if T.d.order then (seen.filter fun x => x.1 == j && decide (x.2 < times)).length
        else if seen.any fun x => x.1 == j then (if held then 0 else 1) else 0
      let met := (List.range blocks.length).filter fun j => seen.any fun x => x.1 == j
      let out : TileOut := ({} : TileOut).drop T.budget
        ((slices.map fun (_, xs) => (((List.range xs.length).zip xs).map fun (j, x) => x.drops * reads j).sum).sum +
          (met.map fun j => ((blocks[j]?).map (·.drops)).getD 0).sum)
        ((slices.map fun (_, xs) => (((List.range xs.length).zip xs).map fun (j, x) => x.disorder * reads j).sum).sum +
          (met.map fun j => ((blocks[j]?).map (·.disorder)).getD 0).sum)
      match merge with
      | some f => .ok { out with fail := some f, chaffed := false }
      | none =>
        let idles := lanes.map (idlePlanes T.bin bb h 1024)
        let good := rs.filter fun r => r.2.2.overs.isNone
        .ok { out with
          overs := if rep && !out.chaffed then some { tile := i, blk := 0, hs := [h + 1], done := [0] } else none
          words := if rep || out.chaffed then [] else good.map fun (a, xs, r) => wgtWord T m i a h xs blocks sel r
          failed := if rep then [] else ovf
          idle := (made.map fun (j, p) => (idles.getD j []).getD p 0).sum
          skip := (met.map fun j => ((on.getD j []).filter not).length).sum
          stops := (rs.map fun (_, _, r) =>
            ({ r with stops := (r.stops.zip sel).map fun (x, y) => if y = true then x else none } : WordAcc).stopsUpTo (if rep then some (cut - 1) else r.overs)).sum
          inf := rs.any (·.2.2.inf), nan := rs.any (·.2.2.nan)
          latched := sliceLatches sh T slices swaps
          stall := if rep0 && !held then 1 else 0
          run := some (made.getLast?.elim 0 fun (j, p) =>
            if T.d.order then (if (on.getD j []).getD p false then 1 else 0) else groupCycles (on.getD j [])) }

/-! ### Accesses (R395) -/

/-- A block row of which nothing is streamed: no row of it is selected (R235), or, for a guard pass, every row is (R240). -/
def TCtx.unstreamed (T : TCtx) (m : Sparse Byte) (i : Nat) : Bool :=
  if T.kind = .guard then (List.range 32).all fun r => bitmapBit m T.tm.selBase (32 * (T.d.y0 + i) + r) else !(T.selected m i).any id

/-- The reads of operands that a tile makes; nothing for a block row that is not streamed. -/
def State.tileReads (s : State) (T : TCtx) (u : Nat) : List (Nat × Nat) :=
  let m := (s.core T.k).scratch
  if T.kind = .stream && T.d.mode == 1 then
    let rows := List.range' (32 * u) (min 32 (T.d.rowsN - 32 * u))
    let stored := if T.d.conv then rows.flatMap fun t =>
        let f := T.d.convStart t
        if f % 32 = 0 then [f / 32] else [f / 32, f / 32 + 1]
      else rows.map fun t => T.d.y0 + t
    T.d.arrays.flatMap (fun a => (List.range T.d.kstep).flatMap fun kk => T.x.reads s T.k (T.d.x0 + a) (T.d.k0 + kk) allWanted) ++
    (if T.yRing.isSome then [] else
      ((stored.map (· / 32)).eraseDups).flatMap fun i =>
        (List.range T.d.kstep).flatMap fun kk => T.y.reads s T.k i (T.d.k0 + kk) allWanted)
  else if T.unstreamed m u then []
  else
    (List.range T.d.kb).flatMap fun j =>
      T.d.arrays.flatMap (fun a => T.x.reads s T.k ((T.d.x0 + a) / 32) (T.d.k0 + j) allWanted) ++
      T.y.reads s T.k (T.d.y0 + u) (T.d.k0 + j) (T.granules m u j)

/-! ### The guard pass (R239) -/

/-- What a block row of a guard pass gives: its misses, the idle lane-cycles and skipped planes of the `g` planes streamed (R92, R93), what reading it
dropped, and what it latched. -/
structure GuardOut where
  miss : List Bool
  idle : Nat := 0
  skip : Nat := 0
  drops : Nat := 0
  disorder : Nat := 0
  latched : List LatchSet := []
  /-- Cycles streamed against the last slice (R81). -/
  run : Nat := 0
deriving DecidableEq, Repr

/-- Block row `i` of a guard pass (R239): an unselected row is a miss when its bound after `g` planes reaches its threshold in some array. -/
def State.guardRow (s : State) (T : TCtx) (g i : Nat) : Except MemFail GuardOut :=
  let m := (s.core T.k).scratch
  let uns := (List.range 32).map fun r => !bitmapBit m T.tm.selBase (32 * (T.d.y0 + i) + r)
  if !uns.any id then .ok { miss := List.replicate 32 false }
  else
    match s.blockRow T 32 i with
    | .error e => .error e
    | .ok (slices, blocks) =>
      let lanes := blocks.map fun b => b.rows.flatMap flatLanes
      .ok {
        miss := ((List.range 32).zip uns).map fun (r, un) => un && (slices.filter fun e => T.alive.contains e.1).any fun (_, xs) =>
          let v := ((xs.zip blocks).map fun (x, b) =>
            ((flatLanes x.gs).zip (flatLanes (b.rows.getD r []))).map fun (p, q) => p.i * q.i).flatten.sum
          let sInc := (xs.map fun x => absSum (flatLanes x.gs)).sum
          decide (T.tm.thetaOf m (T.cPos + 32 * i + r) ≤ v + (2 ^ (T.y.t.width - g) - 1) * (sInc : Int))
        idle := (lanes.map fun ls => ((idlePlanes false T.b 0 1024 ls).take g).sum).sum
        skip := (lanes.map fun ls => (((streamedPlanes false T.b 0 ls).take g).filter not).length).sum
        drops := (slices.map fun (_, xs) => (xs.map (·.drops)).sum).sum * g + (blocks.map (·.drops)).sum
        disorder := (slices.map fun (_, xs) => (xs.map (·.disorder)).sum).sum * g + (blocks.map (·.disorder)).sum
        latched := sliceLatches (s.core T.k).sheaf T slices
          (if T.d.order then (List.range g).flatMap fun _ => List.range T.d.kb else List.range T.d.kb)
        run := groupCycles ((lanes.getLast?.map fun ls => (streamedPlanes false T.b 0 ls).take g).getD []) }

end Sys2Proof.Machine
end

