-- ==== Sys2Proof/Machine/Trans.lean ====
section
/-! DEFINITION. Square roots, logarithms and powers of two to many more bits than any rounding needs (R31, R256 to R259, R267). -/

namespace Sys2Proof.Machine

/-- Fraction bits of the fixed-point numbers below. -/
def fxBits : Nat := 320

/-- The terms `1 / (k * 2^k)` of ln 2 for `k` from 1 to the given number, in fixed point. -/
def ln2Terms : Nat → Nat
  | 0 => 0
  | k + 1 => ln2Terms k + 2 ^ fxBits / ((k + 1) * 2 ^ (k + 1))

/-- ln 2 in fixed point. -/
def fxLn2 : Nat := ln2Terms 320

/-- The series `z + z^3/3 + z^5/5 + ...` of atanh: the term's power of `z`, the square of `z`, and the next odd divisor. -/
def atanhTerms (z2 : Nat) : Nat → Nat → Nat → Nat
  | 0, _, _ => 0
  | k + 1, p, odd => p / odd + atanhTerms z2 k (p * z2 / 2 ^ fxBits) (odd + 2)

/-- `log2(n / d)` in fixed point for `1 ≤ n / d ≤ 2`: `2 atanh((n - d) / (n + d)) / ln 2`. -/
def fxLog2 (n d : Nat) : Nat :=
  let z := (n - d) * 2 ^ fxBits / (n + d)
  2 * atanhTerms (z * z / 2 ^ fxBits) 110 z 1 * 2 ^ fxBits / fxLn2

/-- The series of the exponential: the present term and the next divisor. -/
def expTerms (y : Nat) : Nat → Nat → Nat → Nat
  | 0, _, _ => 0
  | k + 1, t, div => t + expTerms y k (t * y / 2 ^ fxBits / div) (div + 1)

/-- `2^(a / 2^320)` in fixed point for `a` below `2^320`. -/
def fxExp2 (a : Nat) : Nat := expTerms (a * fxLn2 / 2 ^ fxBits) 80 (2 ^ fxBits) 1

/-- `2^(n / d)` rounded to binary32, for an integer part `k` and a fraction `n / d` below 1: exact where the fraction is zero. -/
def exp2Of (k : Int) (n d : Nat) : FV :=
  if n = 0 then FV.scaled 1 k
  else
    let (a, b) := shiftFrac (fxExp2 (n * 2 ^ fxBits / d)) (2 ^ fxBits) k
    .num false a b

/-- VEC.EXP2 on one lane (R267). -/
def exp2F (w : W32) : W32 :=
  match f32 w with
  | .nan => nan32
  | .inf s => if s then 0 else 0x7F800000#32
  | .num s n d =>
    if 200 * d ≤ n then (if s then 0 else 0x7F800000#32)
    else
      let q := n / d
      let r := n % d
      if s then toF32 (if r = 0 then exp2Of (-(q : Int)) 0 1 else exp2Of (-(q : Int) - 1) (d - r) d)
      else toF32 (exp2Of q r d)

/-- VEC.LOG2 on one lane (R267). -/
def log2F (w : W32) : W32 :=
  match f32 w with
  | .nan => nan32
  | .inf s => if s then nan32 else 0x7F800000#32
  | .num s n d =>
    if n = 0 then 0xFF800000#32
    else if s then nan32
    else
      let e := floorLog2 n d
      let (a, b) := shiftFrac n d (-e)
      toF32 ((FV.ofInt e).add (if a = b then FV.zero else .num false (fxLog2 a b) (2 ^ fxBits)))

/-- VEC.RCP on one lane (R267). -/
def rcpF (w : W32) : W32 :=
  match f32 w with
  | .nan => nan32
  | .inf s => if s then 0x80000000#32 else 0
  | .num s n d => if n = 0 then toF32 (.inf s) else toF32 (.num s d n)

/-- VEC.RSQRT on one lane (R267): a root with 128 fraction bits and a sticky half, which rounds as the root itself does. -/
def rsqrtF (w : W32) : W32 :=
  match f32 w with
  | .nan => nan32
  | .inf s => if s then nan32 else 0
  | .num s n d =>
    if n = 0 then toF32 (.inf s)
    else if s then nan32
    else
      let q := d * 2 ^ 256 / n
      let r := isqrt q
      toF32 (.num false (if r * r * n = d * 2 ^ 256 then 2 * r else 2 * r + 1) (2 ^ 129))

/-! ### The constant tables of the table unit (R256, R258, R259) -/

/-- Rounds a fixed-point number times 256 to the nearest integer, halves up. -/
def fxRound256 (a : Nat) : Nat := (2 * 256 * a + 2 ^ fxBits) / 2 ^ (fxBits + 1)

/-- LT[i] (R256). -/
def logTable (i : Nat) : Nat := fxRound256 (fxLog2 (512 + 2 * i + 1) 512)

/-- Φ[i] (R258). -/
def phiTable (i : Nat) : Nat :=
  if 384 ≤ i then 0
  else
    -- 2^-((2i + 1) / 64) as 2^-(q + 1) times 2^(1 - r / 64)
    let q := (2 * i + 1) / 64
    let r := (2 * i + 1) % 64
    let p := fxExp2 ((64 - r) * 2 ^ fxBits / 64)
    fxRound256 (fxLog2 (2 ^ fxBits + p / 2 ^ (q + 1)) (2 ^ fxBits))

/-- EXP[f] as a value (R259). -/
def expTable (f : Nat) : FV := f32 (toF32 (exp2Of 0 f 256))

end Sys2Proof.Machine
end

