-- ==== Sys2Proof/Machine/Table.lean ====
section
/-! DEFINITION. The table unit: partial-sum tables and logarithmic sums (09, R247 to R262). -/

namespace Sys2Proof.Machine

/-! ### Activation slices -/

/-- An activation slice: its elements, and whether its block is absent (R60). -/
structure TabSlice where
  xs : List W32
  absent : Bool := false
deriving DecidableEq, Repr

/-- Elements `32 (K0 + j)` to `32 (K0 + j) + 31` of row X0 of the table operand, as binary32 words (R247, R251): every code of the formats it may
have extends exactly. An absent block, and an address outside an element-layout tensor, holds zeros. -/
def State.tabSlice (s : State) (T : TCtx) (j : Nat) : Except MemFail TabSlice :=
  let t := T.x.t
  let row := T.d.x0
  let jj := T.d.k0 + j
  let word := fun (c : Nat) => if t.fmt = 14 then BitVec.ofNat 32 c else toF32 (elemValue t.fmt c)
  if t.elem then
    match mapE (fun c =>
      let col := 32 * jj + c
      if row < t.rows ∧ col < t.cols then
        match s.readNatAt T.k (t.elemAddr row col) (t.width / 8) with
        | .error e => .error e
        | .ok v => .ok (word v)
      else .ok 0) (List.range 32) with
    | .error e => .error e
    | .ok xs => .ok { xs := xs }
  else
    match s.blockBase T.k T.x (row / 32) jj with
    | .error e => .error e
    | .ok none => .ok { xs := List.replicate 32 0, absent := true }
    | .ok (some (a, _)) =>
      match s.blockCodes T.k a t.width t.width allWanted with
      | .error e => .error e
      | .ok codes => .ok { xs := (codes.getD (row % 32) []).map word }

/-- A streamed weight block: the codes of its rows, the rows' entries, and whether it is absent. -/
structure TabBlock where
  codes : List (List Nat)
  scales : List SEnt
  absent : Bool
deriving DecidableEq, Repr

def State.tabBlock (s : State) (T : TCtx) (i j : Nat) : Except MemFail TabBlock :=
  let o := { T.y with trans := false, top := T.y.t.width }
  match s.blockBase T.k o (T.d.y0 + i) (T.d.k0 + j) with
  | .error e => .error e
  | .ok none => .ok { codes := List.replicate 32 (List.replicate 32 0), scales := List.replicate 32 .one, absent := true }
  | .ok (some (a, idx)) =>
    match s.blockCodes T.k a o.t.width o.t.width allWanted, s.blockScales T.k o (T.d.y0 + i) (T.d.k0 + j) idx with
    | .error e, _ => .error e
    | _, .error e => .error e
    | .ok codes, .ok scales => .ok { codes := codes, scales := scales, absent := false }

/-! ### The table path -/

/-- A rounded sum of an accumulated value and an exact one, with the flags of R124. -/
def Flagged.plus (a : Flagged) (x : FV) : Flagged :=
  let r := roundFlag ((f32 a.v).add x)
  { v := r.v, inf := a.inf || r.inf, nan := a.nan || r.nan }

/-- The 16 entries of a group's partial-sum table (R251): entry `i` from the entry without the highest set bit of `i`. -/
def partialSums (bin : Bool) (xs : List W32) : List Flagged :=
  let x := fun k => f32 (xs.getD k 0)
  let zero : Flagged :=
    if bin then (((Flagged.mk (toF32 (x 0).negate) false false).plus (x 1).negate).plus (x 2).negate).plus (x 3).negate
    else { v := 0 }
  (List.range' 1 15).foldl (fun acc i =>
    let j := Nat.log2 i
    let a := acc.getD (i - 2 ^ j) { v := 0 }
    acc ++ [a.plus (if bin then (FV.ofInt 2).mul (x j) else x j)]) [zero]

/-- The pattern of group `g` in plane `p` of a row of `b`-bit codes. -/
def tabIndex (b p g : Nat) (codes : List Nat) : Nat :=
  (List.range 4).foldl (fun acc u => if bit (codes.getD (4 * g + u) 0) (b - 1 - p) then acc + 2 ^ u else acc) 0

/-- Sums a list in order, the first addend unchanged; none where there is no addend. -/
def sumFrom (xs : List Flagged) : Option Flagged :=
  match xs with
  | [] => none
  | x :: rest => some (rest.foldl (fun a y => { a.plus (f32 y.v) with inf := (a.plus (f32 y.v)).inf || y.inf, nan := (a.plus (f32 y.v)).nan || y.nan }) x)

/-- Weight of plane `p` (R74). -/
def planeWeight (bin : Bool) (b p : Nat) : Int := if bin then 1 else if p = 0 then -((2 ^ (b - 1) : Nat) : Int) else ((2 ^ (b - 1 - p) : Nat) : Int)

/-- The term of one row of one block (R253). Every product with an element of an absent block is zero (R60). -/
def tabTerm (bin absent : Bool) (b : Nat) (tables : List (List Flagged)) (codes : List Nat) (e : SEnt) : Flagged :=
  let at_ := fun g i => (tables.getD g []).getD i { v := 0 }
  let planes := (List.range b).filterMap fun p =>
    (sumFrom ((List.range 8).filterMap fun g =>
      let i := tabIndex b p g codes
      if absent || (!bin && i == 0) then none else some (at_ g i))).map fun s =>
        let w := roundFlag ((FV.ofInt (planeWeight bin b p)).mul (f32 s.v))
        { w with inf := w.inf || s.inf, nan := w.nan || s.nan }
  let q := (sumFrom planes).getD { v := 0 }
  let c := if bin || absent then q
    else
      let a := (sumFrom ((List.range 8).map fun g => at_ g 15)).getD { v := 0 }
      q.plus ((FV.ofInt e.z).mul (f32 a.v)).negate
  let r := roundFlag ((f32 c.v).mul (if absent then e.s.unit else e.s))
  { r with inf := r.inf || c.inf, nan := r.nan || c.nan }

/-- Half-planes of a block that hold no 1 (R254). -/
def zeroHalves (b : Nat) (codes : List (List Nat)) : Nat :=
  ((List.range b).map fun p => ((List.range 2).filter fun h =>
    ((codes.drop (16 * h)).take 16).all fun r => r.all fun c => !bit c (b - 1 - p)).length).sum

/-! ### The logarithmic path -/

/-- λ of a non-zero finite activation (R256). -/
def lambdaOf (w : W32) : Int :=
  match f32 w with
  | .num _ n d =>
    let e := floorLog2 n d
    let (a, b) := shiftFrac n d (-e)
    256 * e + logTable (256 * (a - b) / b)
  | _ => 0

/-- The addition of two logarithms (R258). -/
def logAdd (a b : Int) : Int := max a b + phiTable ((max a b - min a b) / 8).natAbs

/-- One level of the fixed tree (R258). -/
def logLevel : List (Option Int) → List (Option Int)
  | x :: y :: rest => (match x, y with
      | some a, some b => some (logAdd a b)
      | some a, none => some a
      | none, b => b) :: logLevel rest
  | rest => rest

/-- The combined logarithm of 32 lanes. -/
def logTree (xs : List (Option Int)) : Option Int := ((List.range 5).foldl (fun l _ => logLevel l) xs).head?.join

/-- V of R259. -/
def logBack (l : Option Int) : Flagged :=
  match l with
  | none => { v := 0 }
  | some l =>
    let k := l / 256
    match expTable (l % 256).natAbs with
    | .num s n d => let (a, b) := shiftFrac n d k; roundFlag (.num s a b)
    | _ => { v := 0 }

/-- The lane of R45 of an activation or weight of the logarithmic path. -/
def tabLane (x : FV) : Lane :=
  match x with
  | .nan => { kind := .nan, here := true }
  | .inf s => { kind := .inf s, here := true, sg := if s then -1 else 1 }
  | .num s n _ => { here := true, sg := if n = 0 then 0 else if s then -1 else 1 }

/-- The term of one row of one block on the logarithmic path; none when the block adds no term (R257 to R259, R262). -/
def logTerm (absent : Bool) (xs : List W32) (codes : List Nat) (e : SEnt) : Option Flagged :=
  if absent then none
  else if xs.all fun w => (f32 w).isFinite then
    let prods := fun (neg : Bool) => (xs.zip codes).map fun (w, c) =>
      if (f32 w).isZero || c % 8 = 0 || (((f32 w).neg? != bit c 3) != neg) then none
      else some (lambdaOf w + 128 * (((c % 8 : Nat) : Int) - 7))
    match logTree (prods false), logTree (prods true) with
    | none, none => none
    | p, n =>
      let vp := logBack p
      let vn := logBack n
      let d := vp.plus (f32 vn.v).negate
      let r := roundFlag ((f32 d.v).mul e.s)
      some { r with inf := r.inf || d.inf || vn.inf, nan := r.nan || d.nan }
  else
    match specialTerm (xs.map fun w => tabLane (f32 w)) (codes.map fun c => tabLane (elemValue 11 c)) with
    | some v => let t := v.mul e.s; some { v := toF32 t, nan := t.isNaN }
    | none => none

/-! ### A block row -/

/-- A slice as its set holds it: its elements, whether its block is absent, and its tables on the table path. -/
structure TabSet where
  xs : List W32
  absent : Bool := false
  tables : List (List Flagged)
deriving DecidableEq, Repr

/-- Flags that building the tables sets (R124, R251). -/
def TabSet.inf (x : TabSet) : Bool := x.tables.flatten.any (·.inf)
def TabSet.nan (x : TabSet) : Bool := x.tables.flatten.any (·.nan)

/-- A slice is built from the bytes of its activations (R251, R252, R256). -/
def buildSet (log bin : Bool) (b : TabSlice) : TabSet :=
  { xs := b.xs, absent := b.absent, tables := if log then [] else (chunks 4 b.xs).map (partialSums bin) }

/-- The slot entry of row `r` (R117, R250, R253, R259). -/
def tabEntry (log bin : Bool) (b : Nat) (start : W32) (r : Nat) (blocks : List (TabSet × TabBlock)) : Flagged :=
  blocks.foldl (fun acc (x, blk) =>
    let absent := blk.absent || x.absent
    let codes := blk.codes.getD r []
    let e := blk.scales.getD r .one
    match (if log then logTerm absent x.xs codes e else some (tabTerm bin absent b x.tables codes e)) with
    | none => acc
    | some t => let a := addFlag acc t.v; { a with inf := a.inf || t.inf, nan := a.nan || t.nan }) { v := start }

/-- Slices that a block row builds anew (R252): with KB = 1, one only for the whole instruction, which then has a set in use (`run`). -/
def TCtx.tabBuilds (T : TCtx) (run : Option Nat) : Nat := if T.d.kb = 1 then (if run.isSome then 0 else 1) else T.d.kb

/-- The slice and tables of set `n`: the one in use, or the shadow set. -/
def TableUnit.setOf (t : TableUnit) (log : Bool) (n : Nat) : TabSet :=
  { xs := (List.range 32).map fun c => sget 0 t.acts (32 * n + c), absent := sget false t.absent n
    tables := if log then [] else (List.range 8).map fun g => (List.range 16).map fun i => { v := sget 0 t.sums (128 * n + 16 * g + i) } }

/-- A slice and its tables are built into the set not in use (R252). -/
def TableUnit.load (t : TableUnit) (x : TabSet) : TableUnit :=
  let n := (t.activeSet + 1) % 2
  { t with
    absent := sput false t.absent n x.absent
    acts := ((List.range 32).zip x.xs).foldl (fun m (c, v) => sput 0 m (32 * n + c) v) t.acts
    sums := ((List.range 8).zip x.tables).foldl (fun m (g, es) =>
      ((List.range 16).zip es).foldl (fun m (i, v) => sput 0 m (128 * n + 16 * g + i) v.v) m) t.sums }

/-- A set is built into the one not in use, which a swap then makes active (R252). -/
def TableUnit.take (t : TableUnit) (x : TabSet) : TableUnit := { t.load x with activeSet := (t.activeSet + 1) % 2 }

/-- Cycles of a block (R254, R263): the halves that are streamed, at least one; two for BIN1 and on the logarithmic path. -/
def tabCycles (log bin : Bool) (b : Nat) (x : TabBlock) : Nat :=
  if log || bin then 2 else max 1 (if x.absent then 0 else 2 * b - zeroHalves b x.codes)

/-- Stall cycles of the builds that end after the block before them (R252): a build takes 4 cycles from the block before on, a conversion 2. -/
def tabStall (log : Bool) (run : Option Nat) (cs : List Nat) : Nat :=
  let build := if log then 2 else 4
  match cs with
  | [] => 0
  | c :: rest => (match run with
      | some r => build - r
      | none => 0) + tabStall log (some c) rest

/-- The sets of a block row's slices (R252): the one that is active for KB = 1; else slice 0 as the shadow set holds it, built while the slice before it
was active, and the rest built from their bytes now. -/
def State.tabSets (s : State) (T : TCtx) (run : Option Nat) : Except MemFail (List TabSet) :=
  let log := T.kind == .log
  let t := (s.core T.k).tab
  if T.tabBuilds run = 0 then .ok [t.setOf log (t.activeSet % 2)]
  else match mapE (fun j => if j = 0 && T.ahead.isSome then .ok (t.setOf log ((t.activeSet + 1) % 2)) else match s.tabSlice T j with
      | .error e => .error e
      | .ok b => .ok (buildSet log T.bin b)) (List.range T.d.kb) with
    | .error e => .error e
    | .ok xs => .ok xs

/-- What a block row of a TAB instruction gives: the tile, the half-planes skipped and the slices built. -/
structure TabOut where
  out : TileOut
  halves : Nat := 0
  built : List TabSet := []
deriving DecidableEq, Repr

/-- Block row `i` of a TAB instruction; `run` is how long the set in use has served. -/
def State.tabTile (s : State) (T : TCtx) (i : Nat) (run : Option Nat) : Except TileFail TabOut :=
  let log := T.kind == .log
  match s.tabSets T run, mapE (s.tabBlock T i) (List.range T.d.kb) with
  | .error e, _ => .error (.mem e)
  | _, .error e => .error (.mem e)
  | .ok sets, .ok blocks =>
    let builds := if T.tabBuilds run = 0 then [] else sets
    if T.y.t.skewed && blocks.any fun b => !b.absent then .ok { out := { fail := some .skew, run := some 0 }, built := builds }
    else
      let m := (s.core T.k).scratch
      let b := T.y.t.width
      let ins := sets.zip blocks
      let seeds := if tStart T.w then List.replicate 32 0 else T.seeds m i 0 32
      let rs := (List.range 32).map fun r => tabEntry log T.bin b (BitVec.ofNat 32 (seeds.getD r 0)) r ins
      let ch := T.cPos + 32 * i
      let word : OutWord :=
        { arr := 0, tile := i, word := T.oPos + i, vals := rs.map fun r => .fp r.v, chan := ch
          chans := if T.e.usesChan then (List.range 32).map fun q => T.e.chanEntry m (ch + q) else []
          stops := List.replicate 32 false, keeps := List.replicate 32 true
          sx := List.replicate 32 0x3F800000#32, sy := List.replicate 32 0x3F800000#32, zc := List.replicate 32 0, zw := List.replicate 32 0 }
      let cs := blocks.map (tabCycles log T.bin b)
      .ok { out := { words := [word], inf := rs.any (·.inf) || builds.any (·.inf), nan := rs.any (·.nan) || builds.any (·.nan)
                     stall := if builds.isEmpty then 0 else tabStall log run cs, run := some ((if builds.isEmpty then run.getD 0 else 0) + cs.getLastD 0) }
            halves := if log || T.bin then 0 else ((blocks.filter fun b => !b.absent).map fun x => zeroHalves b x.codes).sum
            built := builds }

/-- The reads of operands that a block row of a TAB instruction makes (R395). -/
def State.tabReads (s : State) (T : TCtx) (run : Option Nat) (u : Nat) : List (Nat × Nat) :=
  (List.range T.d.kb).flatMap fun j =>
    (if T.tabBuilds run = 0 then []
     else if T.x.t.elem then
      (if T.d.x0 < T.x.t.rows then
        let c0 := 32 * (T.d.k0 + j)
        let n := min 32 (T.x.t.cols - c0)
        if n = 0 then [] else [(T.x.t.elemAddr T.d.x0 c0, n * (T.x.t.width / 8))]
      else [])
     else { T.x with trans := false }.reads s T.k (T.d.x0 / 32) (T.d.k0 + j) allWanted) ++
    { T.y with trans := false, top := T.y.t.width }.reads s T.k (T.d.y0 + u) (T.d.k0 + j) allWanted

end Sys2Proof.Machine
end

