-- ==== Sys2Proof/Machine/TileRun.lean ====
section
/-! DEFINITION. How a tile instruction advances through its tiles and rings, and the issue of ARR.STREAM and GUARD.RUN (R77 to R88, R114,
R219, R240, R373 to R376). -/

namespace Sys2Proof.Machine

/-! ### Instructions in flight -/

def State.setTile (s : State) (k id : Nat) (j : TileJob) : State := s.modOp k id fun o => { o with job := .tile j }

/-! ### Dropped data (R218, R219) -/

/-- Chaff counted for a core and its instruction's item; true when the item's count now exceeds the limit in force (R219). -/
def State.chaff (s : State) (k : Nat) (b : Option (Nat × Nat)) (overs range disorder : Nat) : State × Bool :=
  let n := overs + range + disorder
  let c := (((s.core k).count 0x2C0 overs).count 0x2C4 range).count 0x2C8 disorder
  let s := s.setCore k c
  let lim := bits c.chaff.toNat 0 24
  let before := match b with
    | some (r, i) => match s.request r with
      | some q => if s.itemOpen r i then some (q.item i).dropped else none
      | none => none
    | none => none
  let s := if n = 0 then s else s.charge b fun x => { x with dropped := x.dropped + n }
  (s, bit c.chaff.toNat 31 && match before with
    | some d => decide (d ≤ lim) && decide (lim < d + n)
    | none => false)

/-! ### Guarded rings (R373, R376) -/

/-- A consumer ring's next tested unit is released: OBJ_D is given 1. -/
def State.releaseUnit (s : State) (r : Option GRing) : State × Option GRing :=
  match r with
  | none => (s, none)
  | some g => if g.released < g.tested then (s.signal g.objD 1, some { g with released := g.released + 1 }) else (s, some g)

/-- Every tested unit of a consumer ring is released (R376). -/
def State.releaseTested (s : State) (r : Option GRing) : State × Option GRing :=
  match r with
  | none => (s, none)
  | some g => (s.signal g.objD (BitVec.ofNat 32 (g.tested - g.released)), some { g with released := g.tested })

def TileJob.ring (j : TileJob) : RingId → Option GRing
  | .streamed => j.yRing | .output => j.oRing | .seed => j.sRing | .channel => j.cRing

def TileJob.setRing (j : TileJob) (r : RingId) (g : Option GRing) : TileJob :=
  match r with
  | .streamed => { j with yRing := g }
  | .output => { j with oRing := g }
  | .seed => { j with sRing := g }
  | .channel => { j with cRing := g }

/-- The object of a class W wait. -/
def WaitKind.obj? : WaitKind → Option Nat
  | .sync n _ => some n
  | .slot n _ _ _ _ => some n
  | _ => none

/-- Every wait of an instruction's rings leaves its object's list. -/
def State.dropRings (s : State) (k id : Nat) (j : TileJob) : State :=
  [RingId.streamed, .output, .seed, .channel].foldl (fun s r =>
    match (j.ring r).bind (·.waiting) with
    | some w => match w.kind.obj? with
      | some n => s.dropWaiter n k (.ring id r)
      | none => s
    | none => s) s

/-- The instruction writes nothing further: what it has tested is released, and its words are discarded when `drop` is set (R219, R329, R376). Without it
the words that are final stay and are written: R219's words made are the words computed (DESIGN CHOICE, log 64). -/
def State.stopTile (s : State) (k id : Nat) (j : TileJob) (drop : Bool) : State :=
  let s := s.dropRings k id j
  let (s, y) := if j.yRing.any (fun g => g.released < g.tested) then s.releaseTested j.yRing else (s, j.yRing)
  let (s, q) := if j.sRing.any (fun g => g.released < g.tested) then s.releaseTested j.sRing else (s, j.sRing)
  let (s, c) := if j.cRing.any (fun g => g.released < g.tested) then s.releaseTested j.cRing else (s, j.cRing)
  let still := fun (r : Option GRing) => r.map fun g => { g with waiting := none }
  s.setTile k id { j with
    next := j.tiles, overflow := none, words := if drop then [] else j.words, ends := if drop then [] else j.ends
    yRing := still y, sRing := still q, cRing := still c, oRing := still j.oRing }

/-- Whether a ring lets unit `u` be used. -/
def ringAllows (r : Option GRing) (u : Nat) : Bool :=
  match r with
  | none => true
  | some g => decide (u < g.tested)

/-- Tile `u` starts a unit of 32 words, and ends one (R373): in weight-streaming mode a word is one block row. -/
def TileJob.perTile (j : TileJob) : Bool := j.kind == .stream && bits j.desc.toNat 0 2 == 1
def TileJob.wordUnit (j : TileJob) (u : Nat) : Nat := if j.perTile then u else u / 32
def TileJob.endsUnit (j : TileJob) (u : Nat) : Bool := j.perTile || u % 32 == 31 || u + 1 == j.tiles

/-- An instruction of the table unit. -/
def TileJob.onTable (j : TileJob) : Bool := j.kind == .table || j.kind == .log

/-- Slot that tile `u` fills (R96). -/
def TileJob.slotOf (j : TileJob) (u : Nat) : Nat := (tSlot j.word + u) % 2

/-- Every tile has been computed: nothing of the instruction is still to be streamed. -/
def TileJob.streamed (j : TileJob) : Bool := j.overflow.isNone && decide (j.tiles ≤ j.next)

/-- A word of the instruction still waits in slot `n` (R97). -/
def TileJob.holdsSlot (j : TileJob) (n : Nat) : Bool := j.words.any fun w => j.slotOf w.tile == n

/-- Its output ring has no free space for the word to be written next: the unit's test has failed (R90, R373). -/
def TileJob.ringFull (j : TileJob) : Bool := j.oRing.any fun g => g.waiting.isSome

/-- The instruction's own rings and slots let its next tile be computed: a slot accepts a tile once its last word has been sent (R90, R97, R373). -/
def TileJob.ready (j : TileJob) : Bool :=
  j.overflow.isNone && decide (j.next < j.tiles) && ringAllows j.yRing j.next && ringAllows j.cRing j.next &&
    ringAllows j.sRing (j.wordUnit j.next) && !j.holdsSlot (j.slotOf j.next) && !j.ringFull

/-- An instruction in flight holds its whole stream, from the feeders to the epilogue: it still streams (R91), its output ring is full (R90), or an add of
it waits before a full bank queue (R210). -/
def Core.holdsStream (x : Core) (e : InFlight) : Bool :=
  match e.job with
  | .tile i => !i.streamed || i.ringFull
  | .scatter => x.scat.stalled.any (·.id == e.id)
  | _ => false

/-- An earlier instruction of the unit keeps the next tile of `j` from being streamed: it holds the stream (R90, R91, R210), or a word of it waits in the
slot that the tile fills (R97). -/
def Core.keepsBack (x : Core) (o : InFlight) (j : TileJob) (e : InFlight) : Bool :=
  e.unit == o.unit && (x.holdsStream e || match e.job with
    | .tile i => i.holdsSlot (j.slotOf j.next)
    | _ => false)

/-! ### Computing a tile -/

/-- Counts of idle lane-cycles, skipped planes and stall cycles of a stream (R90, R92, R93). -/
def State.laneCounts (s : State) (k st idle skip stall : Nat) : State :=
  s.setCore k ((((s.core k).count (0x220 + 0x10 * st) idle).count (0x224 + 0x10 * st) skip).count (0x228 + 0x10 * st) stall)

/-- Slot entries of a word (R96): those of its array rows, in the column of its streamed row, or in column 0 for a block row (DESIGN CHOICE, log 63);
the 16 columns of a SPLIT = 2 sub-array serve two streamed rows each. -/
def wordSlots (w : W64) (d : TileDesc) (o : OutWord) : List (Nat × SlotVal) :=
  let slot := (tSlot w + o.tile) % 2
  let col := if d.mode ≠ 1 then 0 else if d.split = 2 then (if tStream w % 2 = 1 then 16 else 0) + o.word % 16 else o.word % 32
  ((List.range o.vals.length).zip o.vals).map fun (q, v) => (((o.arr * 2 + slot) * 32 + o.row0 + q) * 32 + col, v)

/-- The parity bit of a physical row's active latches: the exclusive or of their bits (R88 leaves the polarity open; DESIGN CHOICE, log 64). -/
def rowParity (m : Sparse (BitVec 16)) (row : Nat) : Bool :=
  (List.range 32).foldl (fun b c => b != ((List.range 16).foldl (fun x i => x != (sget 0 m (row * 32 + c)).getLsbD i) false)) false

/-- The next operand is loaded into the shadow latches while the active latches compute (R80). -/
def Sheaf.load (sh : Sheaf) (set : LatchSet) : Sheaf := { sh with shadow := set.foldl (fun m (key, v) => sput 0 m key v) sh.shadow }

/-- A swap (R80, R81): the set becomes active, and the shadow latches hold what was active in the same cells. -/
def Sheaf.swap (sh : Sheaf) (set : LatchSet) : Sheaf :=
  let active := set.foldl (fun m (key, v) => sput 0 m key v) sh.active
  { sh with
    active := active
    shadow := set.foldl (fun m (key, _) => sput 0 m key (sget 0 sh.active key)) sh.shadow
    parity := ((set.map fun e => e.1 / 32).eraseDups).foldl (fun m row => sput false m row (rowParity active row)) sh.parity }

/-- Slot values and latches take what a tile left in them: of its latched operands, the last two. -/
def Sheaf.absorb (sh : Sheaf) (w : W64) (d : TileDesc) (words : List OutWord) (latched : List LatchSet) : Sheaf :=
  let sh := (latched.drop (latched.length - 2)).foldl Sheaf.swap sh
  { sh with slots := (words.flatMap (wordSlots w d)).foldl (fun m (key, v) => sput (.int 0) m key v) sh.slots }

/-- The accumulator slots of the table unit take a word (R250). -/
def TableUnit.absorb (t : TableUnit) (w : W64) (o : TileOut) : TableUnit :=
  let es := o.words.flatMap fun x => ((List.range x.vals.length).zip x.vals).map fun (q, v) => ((tSlot w + x.tile) % 2 * 32 + q, v)
  { t with slots := es.foldl (fun m (key, v) => match v with
      | .fp y => sput 0 m key y
      | .int _ => m) t.slots }

/-- A tile fails without a word (R66, R125, R178, R387): its end releases its units and signals nothing. -/
def State.tileFails (s : State) (k : Nat) (o : InFlight) (j : TileJob) (u : Nat) (f : TileFail) : State :=
  let s := s.opFault k o f.code
  let s := if f = .skew then s.coreCount k 0x2A4 1 else s
  s.setTile k o.id { j with next := u + 1, tdead := [], overflow := none, ends := j.ends ++ [(u, false)] }

/-- What a tile leaves in the sheaf or the table unit, and its counts. -/
def State.tileLeaves (s : State) (k : Nat) (j : TileJob) (out : TileOut) : State :=
  let c := (s.core k).count 0x2E0 out.stops
  let c := c.setFlags out.inf out.nan
  let c := if j.kind = .stream || j.kind = .guard then
      let sh := c.sheaf.absorb j.word (readTileDesc j.desc.toNat 0) out.words out.latched
      { c with sheaf := { sh with since := sput none sh.since (tStream j.word) (out.run.orElse fun _ => sget none sh.since (tStream j.word)) } }
           else { c with tab := c.tab.absorb j.word out }
  (s.setCore k c).laneCounts k (tStream j.word) out.idle out.skip out.stall

/-- A tile's words join the job (R97), with what the tile counts; past the item's chaff limit nothing further is written (R219). -/
def State.tileGives (s : State) (k : Nat) (o : InFlight) (j : TileJob) (u : Nat) (out : TileOut) : State :=
  let s := s.tileLeaves k j out
  let j := { j with run := out.run.orElse fun _ => j.run, ahead := if out.latched.isEmpty && out.run.isNone then j.ahead else none }
  let (s, overs) := s.chaff k o.bind out.drops 0 out.disorder
  let s := if out.failed.isEmpty then s else s.opFault k o fltAccOvf
  if overs then (s.opFault k o fltChaffLimit).stopTile k o.id { j with words := j.words ++ out.words } false
  else match out.fail with
  | some f => s.tileFails k o j u f
  | none =>
    match out.overs with
    | some v => s.setTile k o.id { j with words := j.words ++ out.words, overflow := some v, tdead := j.tdead ++ out.failed }
    | none =>
      s.setTile k o.id { j with
        words := j.words ++ out.words, next := u + 1, overflow := none, tdead := []
        ends := j.ends ++ [(u, (j.lost u).isEmpty && (j.tdead ++ out.failed).isEmpty)] }

/-- A block row of a guard pass (R239, R241): the miss bitmap word and the counts. -/
def State.guardGives (s : State) (k : Nat) (o : InFlight) (j : TileJob) (T : TCtx) (i : Nat) (g : GuardOut) : State :=
  let s := s.tileLeaves k j { idle := g.idle, skip := g.skip, latched := g.latched, run := some g.run }
  let (s, overs) := s.chaff k o.bind g.drops 0 g.disorder
  if overs then (s.opFault k o fltChaffLimit).stopTile k o.id j true
  else
    let n := trueCount g.miss
    let word := ((List.range 32).zip g.miss).foldl (fun v (r, b) => if b then v + 2 ^ r else v) 0
    let c := s.core k
    let c := { c with scratch := writeBytes c.scratch (T.tm.missBase + 4 * (T.d.y0 + i)) (leBytes 4 word) }
    let c := (c.count 0x2E4 n).count 0x2E8 (if bit (fImm j.word) 28 then n else 0)
    let s := (s.setCore k c).charge o.bind fun x => { x with misses := x.misses + n }
    s.setTile k o.id { j with next := i + 1, ends := j.ends ++ [(i, true)], ahead := if g.latched.isEmpty then j.ahead else none }

/-- Drops that an instruction's item may still count without a fault (R219). -/
def State.chaffBudget (s : State) (k : Nat) (b : Option (Nat × Nat)) : Option Nat :=
  let c := (s.core k).chaff
  if bit c.toNat 31 then
    match b with
    | some (r, i) => match s.request r with
      | some q => if s.itemOpen r i && decide ((q.item i).dropped ≤ bits c.toNat 0 24) then some (bits c.toNat 0 24 - (q.item i).dropped) else none
      | none => none
    | none => none
  else none

/-- Rows, by array and logical row, whose parity check fails at latch swaps (R88): the item fails (R87), and the physical rows stand for a splice
(R511). -/
def State.parityFails (s : State) (k : Nat) (o : InFlight) (rows : List (Nat × Nat)) : State :=
  if rows.isEmpty then s
  else
    let x := s.core k
    let bad := rows.map fun p => (p.1, physRow (sget [] x.sheaf.splices p.1) p.2)
    (s.setCore k { x with sheaf := { x.sheaf with failing := (x.sheaf.failing ++ bad).eraseDups } }).opFault k o fltArrParity

/-- The first operand of a tile instruction's next tile, by array: a stationary block, or an activation slice (R77, R78); none where its bytes cannot be
read, which the tile itself then meets. -/
def State.firstOperand (s : State) (T : TCtx) : Option (List (Nat × Stat)) :=
  match mapE (fun a =>
      match (if T.kind = .stream && T.d.mode == 1 then s.statBlock T a 0 else s.sliceOf T (if T.kind = .guard then 32 else T.d.group) a 0) with
      | .error e => .error e
      | .ok x => .ok (a, x)) T.d.arrays with
  | .error _ => none
  | .ok l => some l

/-- The latch entries of a first operand. -/
def TCtx.firstKeys (T : TCtx) (sh : Sheaf) (l : List (Nat × Stat)) : LatchSet :=
  l.flatMap fun (a, x) =>
    if T.kind = .stream && T.d.mode == 1 then
      sh.latchKeys a T.rows T.subCol0 (x.rows.map fun gs => unNeg (T.negOf a) (flatLanes gs))
    else T.sliceKeys sh a x

/-- The operand of the next tile is loaded into the shadow latches, or a slice's tables into the shadow set, as soon as the last operand before it has
become active (R80, R81, R252). -/
def State.loadAhead (s : State) (k : Nat) (o : InFlight) (j : TileJob) : State :=
  let T := { j.ctx k j.next with ahead := none }
  let x := s.core k
  if j.onTable then
    if T.tabBuilds j.run = 0 then s
    else match s.tabSlice T 0 with
      | .error _ => s
      | .ok b =>
        let b := buildSet (j.kind == .log) T.bin b
        let x := { x with tab := x.tab.load b }.setFlags b.inf b.nan
        (s.setCore k x).setTile k o.id { j with ahead := some [] }
  else match s.firstOperand T with
    | none => s
    | some l => (s.setCore k { x with sheaf := x.sheaf.load (T.firstKeys x.sheaf l) }).setTile k o.id { j with ahead := some l }

/-- Splits the list of instructions at the first one that meets a test. -/
def beforeFirst (p : InFlight → Bool) : List InFlight → Option (List InFlight × InFlight)
  | [] => none
  | o :: os => if p o then some ([], o) else (beforeFirst p os).map fun (es, x) => (o :: es, x)

/-- The instruction whose next operand the latch ports load: started, with a tile to come, and behind no instruction of its unit that still streams. -/
def Core.loadsNext (x : Core) (o : InFlight) : Bool :=
  match o.job, beforeFirst (·.id == o.id) x.ops with
  | .tile j, some (earlier, _) =>
    o.started && j.ahead.isNone && j.overflow.isNone && decide (j.next < j.tiles) && !earlier.any fun e => e.unit == o.unit && match e.job with
      | .tile i => !i.streamed
      | _ => false
  | _, _ => false

/-- Every unit of a core loads its next operand. -/
def State.loadAll (s : State) (k : Nat) : State :=
  (s.core k).ops.foldl (fun s o => match s.opOf k o.id with
    | some o => match o.job with
      | .tile j => if (s.core k).loadsNext o then s.loadAhead k o j else s
      | _ => s
    | none => s) s

/-- Computes tile `u`, the arrays whose rows fail a parity check at its swaps losing their words from it on (R87), or repeats it as `rep` says (R127). -/
def State.computeTile (s : State) (k : Nat) (o : InFlight) (j : TileJob) (u : Nat) (rep : Option Overflow) : State :=
  let s := if rep.isSome then s else s.parityFails k o ((j.parity.filter fun p => p.2.2 == u).map fun p => (p.1, p.2.1))
  let j := { j with run := j.run.orElse fun _ => if j.onTable then none else (sget none (s.core k).sheaf.since (tStream j.word) : Option Nat) }
  let T := { j.ctx k u with budget := s.chaffBudget k o.bind, ahead := if rep.isSome then none else j.ahead }
  let s1 := (s.touchAll k (if j.onTable then s.tabReads T j.run u else s.tileReads T u)).startFarOf k o
  match j.kind with
  | .guard =>
    match s.guardRow T (bits (fImm j.word) 22 4) u with
    | .error f => s1.tileFails k o j u (.mem f)
    | .ok g => s1.guardGives k o j T u g
  | .stream =>
    match (if T.d.mode = 1 then s.actTile T u rep j.run
           else s.wgtTile T u ((rep.bind fun v => v.hs.head?).getD 0) rep.isSome (rep.isSome && !T.d.order && T.d.kb == 1)) with
    | .error f => s1.tileFails k o j u f
    | .ok out => s1.tileGives k o j u out
  | _ =>
    match s.tabTile T u j.run with
    | .error f => s1.tileFails k o j u f
    | .ok r =>
      let c := s1.core k
      let c := { c with tab := r.built.foldl TableUnit.take c.tab }
      ((s1.setCore k c).coreCount k 0x304 r.halves).tileGives k o j u r.out

/-- Computes tile `u`, or repeats it; then the next operand is on its way to the shadow latches. -/
def State.runTile (s : State) (k : Nat) (o : InFlight) (j : TileJob) (u : Nat) (rep : Option Overflow) : State :=
  (s.computeTile k o j u rep).loadAll k

/-- Whether a started tile instruction can stream its next tile. -/
def Core.canStream (x : Core) (id : Nat) : Bool :=
  match beforeFirst (·.id == id) x.ops with
  | some (earlier, o) => match o.job with
    | .tile j => o.started && j.ready && !earlier.any (x.keepsBack o j)
    | _ => false
  | none => false

/-- Computes tiles in order as far as the rings, slots and overflows allow. -/
def State.advance (fuel : Nat) (s : State) (k id : Nat) : State :=
  match fuel with
  | 0 => s
  | fuel + 1 =>
    match s.opOf k id with
    | some o =>
      match o.job with
      | .tile j => if (s.core k).canStream id then State.advance fuel (s.runTile k o j j.next none) k id else s
      | _ => s
    | none => s

/-- Every tile instruction of a core goes on as far as it can, in the order of issue. -/
def State.advanceAll (s : State) (k : Nat) : State :=
  (s.core k).ops.foldl (fun s o => match o.job with
    | .tile j => s.advance (j.tiles + 1) k o.id
    | _ => s) s

/-! ### Issue -/

/-- An instruction of a stream, of the table unit or of a guard pass is in flight on the core (R86): adds of the exact unit keep no stream busy. -/
def Core.tilesInFlight (x : Core) : Bool := x.ops.any fun o => match o.job with
  | .tile _ => true
  | .scatter => o.unit != .vec
  | _ => false

/-- EPI.LOAD of a stream is in flight (R330). -/
def Core.epiLoading (x : Core) (st : Nat) : Bool := x.ops.any fun o => o.job == .epiLoad st

/-- A GUARD.SEL or GUARD.RUN is in flight (R236). -/
def Core.guarding (x : Core) : Bool := x.ops.any fun o => o.unit == .guard

/-- What a tile instruction reads at issue. -/
structure TileIssue where
  d : TileDesc
  desc : BitVec 512
  xt : BitVec 512
  yt : BitVec 512
  aux : BitVec 1024
  use : AuxUse
deriving DecidableEq, Repr

/-- The descriptors of a tile instruction and its auxiliary block, with the refusals of R284, R281 (STREAM), R300 and R328 that every tile
instruction shares. -/
def State.tileIssue (s : State) (k c : Nat) (w : W64) (u : TileUse) : Except FaultCode TileIssue :=
  let x := s.ctx k c
  let t := x.readT (fA w)
  let d := readTileDesc t.toNat (bits (x.readS (fB w)).toNat 0 32)
  let uses := tTd w || tSpx w || tSpy w || tSync w
  let aux := if uses then readNat (s.core k).scratch (tAux w) 128 else 0
  if d.bad u then .error fltArgRange
  else if reachesHole d.xdesc 64 || reachesHole d.ydesc 64 || (uses && !inScratch (tAux w) 128) then .error fltArgRange
  else
    match s.readNatAt k d.xdesc 64, s.readNatAt k d.ydesc 64 with
    | .error e, _ => .error e.code
    | _, .error e => .error e.code
    | .ok xt, .ok yt =>
      match s.auxUse k aux (tSync w) with
      | .error f => .error f
      | .ok use => .ok { d := d, desc := t, xt := BitVec.ofNat 512 xt, yt := BitVec.ofNat 512 yt, aux := BitVec.ofNat 1024 aux, use := use }

/-- A guarded ring with its unit count. -/
def ringOf (r : Option (SlotDesc × GRing)) (units : Nat) : Option GRing := r.map fun x => { x.2 with units := units }

/-- Refusals of R375 that depend on the streamed ring. -/
def yRingBad (d : TileDesc) (yt : Tensor) (spy : SpDesc) (r : Option (SlotDesc × GRing)) (act : Bool) : Bool :=
  match r with
  | none => false
  | some (sd, _) =>
    !act || decide (0x300000 ≤ yt.base) || d.transY || d.conv || spy.kind != 0 || decide (1 < yt.sfmt) ||
      decide (yt.stride < sd.n * yt.blockBytes) || yt.mapEn

/-- Slot tags of unmasked sub-arrays (R114): all as the instruction needs them. -/
def Sheaf.tagsMatch (sh : Sheaf) (arrays : List Nat) (st : Nat) (t : SlotTag) : Bool :=
  arrays.all fun a => sget {} sh.tags (a * 4 + st) == t

def Sheaf.writeTags (sh : Sheaf) (arrays : List Nat) (st : Nat) (t : SlotTag) : Sheaf :=
  { sh with tags := arrays.foldl (fun m a => sput {} m (a * 4 + st) t) sh.tags }

/-- The splits that the streams show once a split is in force: those in use under it show it (R112). -/
def Sheaf.showSplit (sh : Sheaf) (split : Nat) : Sparse Nat := (List.range (streamsOf split)).foldl (fun m k => sput 0 m k split) sh.lastSplit

/-- The sheaf takes a split; a change clears every tag (R86, R116), all four fields of an array's, VALID of the table unit's (DESIGN CHOICE, log 64), and
the streams in use show it (R112). -/
def Core.setSplit (c : Core) (split : Nat) : Core :=
  if c.sheaf.split = split then c
  else { c with
    sheaf := { c.sheaf with
      split := split, tags := []
      lastSplit := c.sheaf.showSplit split }
    tab := { c.tab with tag := { c.tab.tag with valid := false } } }

/-- The refusals of ARR.STREAM after R22's LOG4: roles, then descriptors, then scale axis and slot tag. With START clear, a SPLIT that differs from
the sheaf's is refused with FLT_ACC_TAG at once, without the wait of R86, because the change would clear the tag (DESIGN CHOICE, log 63). -/
def arrRefusal (sh : Sheaf) (w : W64) (t : TileIssue) (e : EpiDesc) (tm : TermDesc) (xt yt : Tensor) (spx spy : SpDesc) : Option FaultCode :=
  let d := t.d
  let st := tStream w
  let act := d.mode == 1
  let int := intSlot xt.fmt yt.fmt
  let outs := (subRows d.split st).length
  let rings := match d.arrays.getLast? with
    | some a => a + 1
    | none => 0
  let yr := match t.use.yRing with
    | some (sd, _) => some sd.n
    | none => none
  if !arrayRole (fFmt w) || !arrayRole xt.fmt || !arrayRole yt.fmt then some fltFmtRole
  else if e.refusal rings (tStart w) (rawBytes int outs) = some fltFmtRole then some fltFmtRole
  else if fFmt w != yt.fmt || decide (streamsOf d.split ≤ st)
    || xt.elem || yt.elem || xt.bad none || yt.bad yr
    || (topPlanes yt.fmt d.ptop).isNone
    || (!act && d.split != 0)
    || (act && d.conv && (d.split != 0 || d.kstep != 1 || d.transY || yt.sfmt != 0 || yt.fmt == 10))
    || (d.pack && act && (d.split != 0 || d.conv))
    || (!int && !act && d.order)
    || spx.bad xt d.transX false (act && d.conv) || spy.bad yt d.transY true (act && d.conv)
    || (e.refusal rings (tStart w) (rawBytes int outs)).isSome
    || tm.bad false || (tm.et && !int) || ((tm.et || tm.sel) && e.drain) || (tm.sel && (act || d.pack))
    || (tm.sel && !inScratch tm.selBase (4 * (if d.transY then d.k0 + d.kb else d.y0 + d.nb)))
    || yRingBad d yt spy t.use.yRing act
  then some fltArgRange
  else if (d.transX && xt.sgran == 0 && xt.sfmt != 0) || (d.transY && yt.sgran == 0 && yt.sfmt != 0) then some fltScaleAxis
  else if !tStart w && !(sh.split == d.split && sh.tagsMatch d.arrays st { valid := true, kind := if int then 0 else 1, fx := xt.fmt, fy := yt.fmt })
  then some fltAccTag
  else none

/-- Tiles of an instruction: 32-row tiles, or block rows (R78, R77). -/
def TileDesc.tiles (d : TileDesc) : Nat := if d.mode = 1 then ceilDiv d.rowsN 32 else d.nb

/-- An instruction that completes at once (R58, R79, R235). -/
def arrEmpty (m : Sparse Byte) (d : TileDesc) (tm : TermDesc) (xt yt : Tensor) : Bool :=
  xt.isEmpty || yt.isEmpty || (if d.mode = 1 then d.rowsN == 0 else d.nb == 0 || d.kb == 0) ||
    (d.mode == 0 && tm.sel && tm.merge && !d.transY &&
      !(List.range (32 * d.nb)).any fun n => bitmapBit m tm.selBase (32 * d.y0 + n))

/-- The job of a tile instruction; a guard pass reads no seeds (R240, R373). -/
def mkJob (kind : TileKind) (w : W64) (t : TileIssue) (epi : BitVec 512) (tiles units : Nat) : TileJob :=
  { kind := kind, word := w, desc := t.desc, y0 := t.d.y0, xt := t.xt, yt := t.yt, aux := t.aux, epi := epi, tiles := tiles
    objTile := if kind = .guard then none else t.use.objTile, yRing := ringOf t.use.yRing tiles, oRing := ringOf t.use.oRing units
    sRing := if tStart w || kind = .guard then none else ringOf t.use.sRing units, cRing := ringOf t.use.cRing tiles }

/-- A tile's operands, or its guarded streamed ring with its scale entries (R374), reach the addresses that name nothing (R299). -/
def State.tileHole (s : State) (T : TCtx) (tiles : Nat) : Bool :=
  ((List.range tiles).any fun u => (if T.kind = .table || T.kind = .log then s.tabReads T none u else s.tileReads T u).any fun (a, n) => reachesHole a n)
    || match T.yRing with
      | some g => (List.range T.d.kstep).any fun kk =>
        reachesHole (T.y.t.base + (T.d.k0 + kk) * T.y.t.stride) (g.n * T.y.t.blockBytes) ||
          (T.y.t.sfmt != 0 && reachesHole (T.y.t.sbase + (T.d.k0 + kk) * T.y.t.sstride) (match T.y.t.sgran with
            | 0 => 32 * g.n | 1 => g.n | _ => ceilDiv g.n 2))
      | none => false

/-- ARR.STREAM at issue (R77, R78, R82 to R88, R114). An instruction that completes at once has no other effect (R58, R79, R319). `parity` names the
array, the logical row and the tile of each latch row that fails its parity check. -/
def arrIssue (k c : Nat) (w : W64) (parity : List (Nat × Nat × Nat)) (s : State) : Issued :=
  let x := s.core k
  let st := tStream w
  if s.namesLog4 k c w then .refuse fltFmtRole
  else
    match s.tileIssue k c w .stream with
    | .error f => .refuse f
    | .ok t =>
      let aux := t.aux.toNat
      let tm := termOf w aux
      let xt := readTensor t.xt.toNat
      let yt := readTensor t.yt.toNat
      let spx := if tSpx w then readSparse (bits aux 256 128) else {}
      let spy := if tSpy w then readSparse (bits aux 384 128) else {}
      let epi := sget 0 x.sheaf.epi st
      let d := t.d
      match arrRefusal x.sheaf w t (readEpi epi.toNat) tm xt yt spx spy with
      | some f => .refuse f
      | none =>
        let units := if d.mode = 1 then d.tiles else ceilDiv d.nb 32
        let j := mkJob .stream w t epi d.tiles units
        let j := { j with parity := parity.filter fun p => d.arrays.contains p.1 && (subRows d.split st).contains p.2.1 }
        let empty := arrEmpty x.scratch d tm xt yt
        if !empty && s.tileHole (j.ctx k 0) d.tiles then .refuse fltArgRange
        else if (!empty && d.split != x.sheaf.split && x.tilesInFlight) || x.epiLoading st || (tm.sel && x.guarding) then .hold
        else
          let s1 := (s.touchAt k d.xdesc 64).touchAt k d.ydesc 64
          if empty then .go (s1.launch k c (.stream st) 1 t.use.objDone.toList [] .empty)
          else
            let x1 := (s1.core k).setSplit d.split
            let tag : SlotTag := { valid := true, kind := if intSlot xt.fmt yt.fmt then 0 else 1, fx := xt.fmt, fy := yt.fmt }
            let x1 := if tStart w then { x1 with sheaf := x1.sheaf.writeTags d.arrays st tag } else x1
            .go ((s1.setCore k x1).launch k c (.stream st) 1 t.use.objDone.toList [] (.tile j))

/-- ARR_STREAM (R77): one array product on a stream; `parity` names the rows, by array, logical row and tile, whose latches fail their parity
check (R88). -/
def execArrStream (k c : Nat) (w : W64) (parity : List (Nat × Nat × Nat)) (s : State) : Host.Outcome State Fault Refusal :=
  issue k c w (spells w 0x20 0) (unitIssue s k (.stream (tStream w)) (arrIssue k c w parity s)) s

/-- The refusals of GUARD.RUN (R22, R57, R64, R240, R281, R375). -/
def guardRefusal (w : W64) (t : TileIssue) (tm : TermDesc) (xt yt : Tensor) : Option FaultCode :=
  let d := t.d
  let g := bits (fImm w) 22 4
  if [fFmt w, xt.fmt, yt.fmt].any (fun f => f == 14 || f == 15) then some fltFmtRole
  else if !fmtExact xt.fmt || !fmtExact yt.fmt || g == 0 || decide (yt.width ≤ g) || d.transY || !tTd w
    || fFmt w != yt.fmt || tStream w != 0 || d.split != 0
    || xt.elem || yt.elem || xt.bad none || yt.bad none
    || tm.bad true || !inScratch tm.selBase (4 * (d.y0 + d.nb)) || !inScratch tm.missBase (4 * (d.y0 + d.nb))
    || t.use.yRing.isSome || t.use.oRing.isSome
  then some fltArgRange
  else none

/-- GUARD.RUN at issue (R239, R240). It latches as ARR.STREAM does (R77); `parity` names the array, the logical row and the block row of each latch
row that fails its parity check (R88). -/
def guardIssue (k c : Nat) (w : W64) (parity : List (Nat × Nat × Nat)) (s : State) : Issued :=
  let x := s.core k
  match s.tileIssue k c w .guard with
  | .error f => .refuse f
  | .ok t =>
    let tm := termOf w t.aux.toNat
    let xt := readTensor t.xt.toNat
    let yt := readTensor t.yt.toNat
    match guardRefusal w t tm xt yt with
    | some f => .refuse f
    | none =>
      let j := { mkJob .guard w t 0 t.d.nb 0 with parity := parity.filter fun p => t.d.arrays.contains p.1 }
      let empty := xt.isEmpty || yt.isEmpty || t.d.nb == 0 || t.d.kb == 0
      if !empty && s.tileHole (j.ctx k 0) t.d.nb then .refuse fltArgRange
      else if (!empty && x.sheaf.split != 0 && x.tilesInFlight) || x.guarding then .hold
      else
        let s1 := (s.touchAt k t.d.xdesc 64).touchAt k t.d.ydesc 64
        .go (if empty then s1.launch k c .guard 6 t.use.objDone.toList [] .empty
             else (s1.setCore k ((s1.core k).setSplit 0)).launch k c .guard 6 t.use.objDone.toList [] (.tile j))

/-- GUARD_RUN (R239). -/
def execGuardRun (k c : Nat) (g : GuardOp) (s : State) : Host.Outcome State Fault Refusal :=
  issue k c g.word (spells g.word 0x71 0) (unitIssue s k .guard (guardIssue k c g.word g.parity s)) s

/-- Operands outside the table of R247. -/
def tabRoleBad (log : Bool) (xt yt : Tensor) : Bool :=
  !(xt.fmt == 12 || xt.fmt == 13 || xt.fmt == 14) || xt.sfmt != 0
    || (if log then yt.fmt != 11 || !(yt.sfmt == 0 || yt.sfmt == 2) else decide (2 < yt.fmt) || (yt.sfmt == 3 && yt.fmt == 0))

/-- The refusals of a TAB instruction: roles, then descriptors (R22, R49, R57, R142, R247, R248, R281), then the tag (R114). -/
def tabRefusal (x : Core) (log : Bool) (w : W64) (t : TileIssue) (e : EpiDesc) (xt yt : Tensor) : Option FaultCode :=
  let d := t.d
  if (if log then fFmt w != 11 else decide (2 < fFmt w)) || tabRoleBad log xt yt || (xt.fmt == 14 && !xt.elem) then some fltFmtRole
  else if e.refusal 1 (tStart w) 128 = some fltFmtRole then some fltFmtRole
  else if fFmt w != yt.fmt || tStream w != 0 || x.sheaf.split != 0 || d.split != 0 || d.pack || d.conv || d.order || e.corr
    || xt.bad none || yt.bad none || yt.elem || (e.refusal 1 (tStart w) 128).isSome || t.use.yRing.isSome
  then some fltArgRange
  else if !tStart w && x.tab.tag != { valid := true, kind := 1, fx := xt.fmt, fy := yt.fmt } then some fltAccTag
  else none

/-- A TAB instruction at issue (R247 to R250, R330). -/
def tabIssue (log : Bool) (k c : Nat) (w : W64) (s : State) : Issued :=
  let x := s.core k
  match s.tileIssue k c w .table with
  | .error f => .refuse f
  | .ok t =>
    let xt := readTensor t.xt.toNat
    let yt := readTensor t.yt.toNat
    let epi := sget 0 x.sheaf.epi 0
    match tabRefusal x log w t (readEpi epi.toNat) xt yt with
    | some f => .refuse f
    | none =>
      let j := mkJob (if log then .log else .table) w t epi t.d.nb (ceilDiv t.d.nb 32)
      let empty := xt.isEmpty || yt.isEmpty || t.d.nb == 0 || t.d.kb == 0
      if !empty && s.tileHole (j.ctx k 0) t.d.nb then .refuse fltArgRange
      else if (x.ops.any fun o => o.unit == .tab) || x.epiLoading 0 then .hold
      else if empty then .go (s.launch k c .tab 4 t.use.objDone.toList [] .empty)
      else
        let tag := if tStart w then { valid := true, kind := 1, fx := xt.fmt, fy := yt.fmt } else x.tab.tag
        let x1 := { x with tab := { x.tab with tag := tag, path := if log then 1 else 0 } }
        let s1 := ((s.setCore k x1).touchAt k t.d.xdesc 64).touchAt k t.d.ydesc 64
        .go (s1.launch k c .tab 4 t.use.objDone.toList [] (.tile j))

/-- TAB_STREAM (R253): a weight-streaming product through partial-sum tables. -/
def execTabStream (k c : Nat) (w : W64) (s : State) : Host.Outcome State Fault Refusal :=
  issue k c w (spells w 0x50 0) (unitIssue s k .tab (tabIssue false k c w s)) s

/-- TAB_LOG (R259): a weight-streaming product through logarithmic sums. -/
def execTabLog (k c : Nat) (w : W64) (s : State) : Host.Outcome State Fault Refusal :=
  issue k c w (spells w 0x51 0) (unitIssue s k .tab (tabIssue true k c w s)) s

end Sys2Proof.Machine
end

