-- ==== Sys2Proof/Machine/Epilogue.lean ====
section
/-! DEFINITION. The quantisation trackers' observations (R147 to R151, R164 to R166) and the epilogue (R131 to R139, R230, R231). -/

namespace Sys2Proof.Machine

/-! ### Trackers -/

def Core.slotOf (c : Core) (i : Nat) : W64 := sget emptySlot c.history i

/-- One conversion as a tracker sees it: its channel, the value presented, the value divided by the scale, the value of the code written in units
of the scale, and the conversion's clips; `noError` marks the finite elements of an MXFP4 group of scale 0xFF (R164). -/
structure Obs where
  ch : Nat
  x : FV
  y : FV
  v : FV
  clips : Nat := 0
  noError : Bool := false
deriving DecidableEq, Repr

/-- The binary32 word next to an exact finite value, toward +infinity or -infinity (R149). -/
def f32Toward (up : Bool) (x : FV) : W32 :=
  match x with
  | .num s n d =>
    if n = 0 then toF32 x
    else
      let away := up != s
      let e := max (floorLog2 n d) (-126)
      let (a, b) := shiftFrac n d (23 - e)
      let c := (e + 126).natAbs * 2 ^ 23 + a / b + (if away && a % b != 0 then 1 else 0)
      let c := if 0x7F7FFFFF < c then (if away then 0x7F800000 else 0x7F7FFFFF) else c
      BitVec.ofNat 32 (if s then c + 0x80000000 else c)
  | _ => toF32 x

/-- A maximum or minimum held in binary32 takes a value (R149). -/
def raiseMax (m : W32) (x : FV) : W32 := if (f32 m).lt x then f32Toward true x else m
def lowerMin (m : W32) (x : FV) : W32 := if x.lt (f32 m) then f32Toward false x else m

/-- floor(d² × 2^24) of an observation, none where d² is infinite (R164, R165). -/
def errorOf (o : Obs) : Option Nat :=
  match o.y with
  | .num .. =>
    let d := toF32 (o.y.add o.v.negate)
    match f32 (mulF d d) with
    | .num _ n e => some (n * 2 ^ 24 / e)
    | _ => none
  | _ => none

/-- The sum of errors with its saturation (R165). -/
def addError (sse : W64) (e : Option Nat) : W64 :=
  match e with
  | some k => if 2 ^ 64 - 1 < sse.toNat + k then BitVec.allOnes 64 else sse + BitVec.ofNat 64 k
  | none => BitVec.allOnes 64

/-- One observation in tracker `n` (R148, R149, R164 to R166). -/
def Core.observe (c : Core) (n : Nat) (o : Obs) : Core :=
  let t := c.tracker n
  let t := { t with clip := cntAdd t.clip o.clips }
  if o.x.isFinite then
    let i := t.tbase + o.ch % (t.cm1 + 1) * (t.nm1 + 2) + t.ptr
    let h := c.slotOf i
    let mx := raiseMax (h.extractLsb' 0 32) o.x
    let mn := lowerMin (h.extractLsb' 32 32) o.x
    let t := { t with curMax := raiseMax t.curMax o.x, curMin := lowerMin t.curMin o.x }
    let t := if o.noError then t else { t with sse := addError t.sse (errorOf o), count := t.count + 1 }
    { c with history := sput emptySlot c.history i (mn ++ mx) }.setTracker n t
  else c.setTracker n { t with nonfin := cntAdd t.nonfin 1 }

/-- The observations of an instruction that names a tracker (R147). -/
def State.observe (s : State) (k : Nat) (trk : Option Nat) (os : List Obs) : State :=
  match trk with
  | none => s
  | some n => s.setCore k (os.foldl (fun c o => c.observe n o) (s.core k))

/-- The value of a code in units of its scale (R164). -/
def unitValue (f c : Nat) (z : Int) : FV := if fmtIsInt f then FV.ofInt (intCode f c - z) else elemValue f c

/-- The observation of one conversion to a format other than MXFP4. -/
def obsOf (f ch : Nat) (x s : FV) (z : Int) (c : Conv) : Obs :=
  { ch := ch, x := x, y := x.div s, v := unitValue f c.code z, clips := c.clips }

/-- The observation of one element of an MXFP4 group with scale code `e`. -/
def obsOfMx (ch e : Nat) (x : FV) (c : Conv) : Obs :=
  { ch := ch, x := x, y := x.div (e8m0 e), v := elemValue 10 c.code, clips := c.clips, noError := e == 255 }

/-! ### Rounding steps of the epilogue -/

/-- floor of a finite value, clamped to `0 .. top`; an infinity goes to its own end. -/
def clampIndex (top : Nat) (x : FV) : Nat :=
  match x with
  | .num s n d => if s then 0 else min (n / d) top
  | .inf s => if s then 0 else top
  | .nan => 0

/-- The activation table of R137. An infinite value on an end segment of slope 0 passes the bits of its INTERCEPT as they are, those of a NaN too (DESIGN
CHOICE, log 63). -/
def actTable (m : Sparse Byte) (e : EpiDesc) (v : W32) : Flagged :=
  let seg := fun i => (BitVec.ofNat 32 (readNat m (e.actBase + 8 * i) 4), BitVec.ofNat 32 (readNat m (e.actBase + 8 * i + 4) 4))
  match f32 v with
  | .nan => { v := nan32, nan := true }
  | .inf neg =>
    let (sl, ic) := seg (if neg then 0 else 127)
    if (f32 sl).isZero then { v := ic, nan := isNaN32 ic } else { v := toF32 (.inf (sl.msb != neg)) }
  | x =>
    let d := f32 (toF32 (x.add (f32 e.xmin).negate))
    let (sl, ic) := seg (clampIndex 127 (f32 (toF32 (d.mul (f32 e.invw)))))
    let r := ((f32 sl).mul x).add (f32 ic)
    { v := toF32 r, inf := r.isFinite && isInf32 (toF32 r), nan := r.isNaN }

/-- The next rounded step on a value, with the flags so far. -/
def Flagged.step (a : Flagged) (x : FV) : Flagged :=
  let r := roundFlag x
  { v := r.v, inf := a.inf || r.inf, nan := a.nan || r.nan }

/-- Fields of a channel entry (R135). -/
def chanRescale (c : BitVec 128) : W32 := c.extractLsb' 0 32
def chanBias (c : BitVec 128) : W32 := c.extractLsb' 32 32
def chanSum (c : BitVec 128) : Int := (c.extractLsb' 64 32).toInt

/-- Stage E1 and the activation for output `q` of a word (R132): the conversion of an integer slot takes the product rounded to binary32 also where
RESC_EN is 0 (DESIGN CHOICE, log 63). -/
def epilogueValue (m : Sparse Byte) (e : EpiDesc) (w : OutWord) (q : Nat) : Flagged :=
  let ch := w.chans.getD q 0
  let resc : FV := if e.resc then f32 (chanRescale ch) else FV.ofInt 1
  let a : Flagged := match w.vals.getD q (.int 0) with
    | .int i =>
      let c := (2 ^ w.h : Nat) * i
      let zc := w.zc.getD q 0
      let zw := w.zw.getD q 0
      let corr := zw * chanSum ch + zc * w.sumw - (e.klen : Int) * zc * zw
      let c := if e.corr then (if w.neg then c + corr else c - corr) else c
      ({ v := 0 } : Flagged).step ((((FV.ofInt c).mul (f32 (w.sx.getD q 0))).mul (f32 (w.sy.getD q 0))).mul resc)
    | .fp v => if e.resc then ({ v := 0 } : Flagged).step ((f32 v).mul resc) else { v := v }
  let a := if e.bias then a.step ((f32 a.v).add (f32 (chanBias ch))) else a
  if e.act then
    let b := actTable m e a.v
    { b with inf := a.inf || b.inf, nan := a.nan || b.nan }
  else a

/-! ### Where a word lies (R138) -/

/-- Address of plane `p`'s row of a plane-layout word in array `a`'s ring. -/
def EpiDesc.planeRow (e : EpiDesc) (a w p : Nat) : Nat :=
  let blk := fmtWidth e.ofmt * 128
  e.outBase + a * e.outBytes + w / 32 % (e.outBytes / blk) * blk + 128 * p + 4 * (w % 32)

/-- The codes that a plane-layout word holds from column `c0` on. -/
def EpiDesc.oldCodes (e : EpiDesc) (m : Sparse Byte) (w : OutWord) (n : Nat) : List Nat :=
  let b := fmtWidth e.ofmt
  let rows := (List.range b).map fun p => readNat m (e.planeRow w.arr w.word p) 4
  (List.range n).map fun q => ((List.range b).zip rows).foldl (fun acc (p, r) => if bit r (w.col0 + q) then acc + 2 ^ (b - 1 - p) else acc) 0

/-- A 32-bit word with the bits of `n` columns from `c0` on replaced where a new one is given. -/
def mergeBits (old c0 : Nat) (new : List (Option Bool)) : Nat :=
  (List.range 32).foldl (fun acc c =>
    let b := if c < c0 then bit old c else match new[c - c0]? with
      | some (some x) => x
      | _ => bit old c
    if b then acc + 2 ^ c else acc) 0

/-- The scratchpad with a word's codes in place; an output without a code keeps its entry (R138, R234). -/
def EpiDesc.putCodes (e : EpiDesc) (m : Sparse Byte) (w : OutWord) (codes : List (Option Nat)) : Sparse Byte :=
  let b := fmtWidth e.ofmt
  if e.elem then
    let base := e.outBase + w.arr * e.outBytes + w.word * (4 * b) % e.outBytes
    ((List.range codes.length).zip codes).foldl (fun m (q, c) => match c with
      | some x => writeBytes m (base + (w.col0 + q) * (b / 8)) (leBytes (b / 8) x)
      | none => m) m
  else
    (List.range b).foldl (fun m p =>
      let a := e.planeRow w.arr w.word p
      writeBytes m a (leBytes 4 (mergeBits (readNat m a 4) w.col0 (codes.map fun c => c.map fun x => bit x (b - 1 - p))))) m

/-- The scratchpad with a raw word in place, within its ring (R118, R131, R138). -/
def EpiDesc.putRaw (e : EpiDesc) (m : Sparse Byte) (w : OutWord) : Sparse Byte :=
  let bs := w.vals.flatMap fun v => match v with
    | .int i => leBytes 8 (codeOf 64 ((2 ^ w.h : Nat) * i))
    | .fp x => leBytes 4 x.toNat
  let off := w.word * bs.length
  ((List.range bs.length).zip bs).foldl (fun m (i, b) => sput 0 m (e.outBase + w.arr * e.outBytes + (off + i) % e.outBytes) b) m

/-- The scratchpad with a word's stop map in place (R231). -/
def TermDesc.putStops (t : TermDesc) (m : Sparse Byte) (w : OutWord) : Sparse Byte :=
  if t.smap then
    let a := t.smapBase + 4 * ((4 * w.word + w.arr) % t.smapN)
    let new := (List.range w.stops.length).map fun q => if w.keeps.getD q true then some (w.stops.getD q false) else none
    writeBytes m a (leBytes 4 (mergeBits (if t.merge then readNat m a 4 else 0) w.row0 new))
  else m

/-! ### A word through the epilogue -/

/-- What a word writes: the scratchpad, its conversions, its observations, and the flags of its roundings. -/
structure WordOut where
  mem : Sparse Byte
  convs : List Conv := []
  obs : List Obs := []
  inf : Bool := false
  nan : Bool := false
deriving DecidableEq, Repr

/-- Values presented to the conversion; none for an entry that merge leaves (R132, R230, R234). -/
def presented (m : Sparse Byte) (e : EpiDesc) (t : TermDesc) (w : OutWord) : List (Option Flagged) :=
  (List.range w.vals.length).map fun q =>
    if !w.keeps.getD q true then none
    else if w.stops.getD q false then some { v := t.stopVal }
    else some (epilogueValue m e w q)

/-- An MXFP4 word (R39, R139): its scale chosen over its outputs, and over the values of the entries that merge leaves. -/
def mxWord (m : Sparse Byte) (e : EpiDesc) (w : OutWord) (vs : List (Option Flagged)) : WordOut :=
  let sa := e.soutBase + w.arr * (32 * e.soutN) + w.word % (32 * e.soutN)
  let old := readNat m sa 1
  let oldCodes := e.oldCodes m w vs.length
  let xs := (vs.zip oldCodes).map fun (v, c) => match v with
    | some f => f32 f.v
    | none => (elemValue 10 c).mul (e8m0 old)
  let (sc, cs) := convertMx xs
  let kept := fun (v : Option Flagged) => v.isNone && sc == old
  let rows := (List.range vs.length).zip (vs.zip (oldCodes.zip (xs.zip cs)))
  { mem := writeBytes (e.putCodes m w (rows.map fun (_, v, oc, _, c) => some (if kept v then oc else c.code))) sa (leBytes 1 sc)
    convs := rows.filterMap fun (_, v, _, _, c) => if kept v then none else some c
    obs := rows.filterMap fun (q, v, _, x, c) => if v.isSome then some (obsOfMx (w.chan + q) sc x c) else none }

/-- A word of R131 to R139 and R230. -/
def epilogueWord (m : Sparse Byte) (e : EpiDesc) (t : TermDesc) (w : OutWord) : WordOut :=
  if e.drain then { mem := t.putStops (e.putRaw m w) w }
  else
    let vs := presented m e t w
    let out : WordOut :=
      if e.ofmt = 14 then { mem := e.putCodes m w (vs.map fun v => v.map fun f => f.v.toNat) }
      else if e.ofmt = 10 then mxWord m e w vs
      else
        let rows : List (Nat × Option (FV × Conv)) := ((List.range vs.length).zip vs).map fun (q, v) =>
          (q, v.map fun f => (f32 f.v, convert e.ofmt (f32 f.v) (f32 e.oscale) e.ozp e.ovfInf))
        { mem := e.putCodes m w (rows.map fun (_, r) => r.map fun (_, c) => c.code)
          convs := rows.filterMap fun (_, r) => r.map (·.2)
          obs := rows.filterMap fun (q, r) => r.map fun (x, c) => obsOf e.ofmt (w.chan + q) x (f32 e.oscale) e.ozp c }
    { out with mem := t.putStops out.mem w, inf := vs.any fun v => v.any (·.inf), nan := vs.any fun v => v.any (·.nan) }

/-- Word `w` of the tile instruction `o` is written (R97). -/
def State.writeWord (s : State) (k : Nat) (o : InFlight) (j : TileJob) (w : OutWord) : State :=
  let e := readEpi j.epi.toNat
  let r := epilogueWord (s.core k).scratch e (termOf j.word j.aux.toNat) w
  let c := s.core k
  let s := s.setCore k ({ c with scratch := r.mem }.setFlags r.inf r.nan)
  (s.convEffects k o.bind r.convs).observe k (tTrk j.word) r.obs

end Sys2Proof.Machine
end

