-- ==== Sys2Proof/Machine/Units.lean ====
section
/-! DEFINITION. The units' own steps: starting, writing words, ending tiles, guarded rings, completing, waits and time limits (R93, R97, R127,
R140, R276, R287, R288, R309, R310, R317, R329, R366, R373, R376, R378). -/

namespace Sys2Proof.Machine

/-! ### Order of starting and completing -/

/-- Runs on stream 0 although its unit is not a stream (R249, R281). -/
def InFlight.onStream0 (o : InFlight) : Bool :=
  match o.unit, o.job with
  | .stream 0, _ => true
  | .tab, _ => true
  | .guard, .tile _ => true
  | _, _ => false

/-- An earlier instruction of the list keeps `o` from starting: one of its queue that has not started (R287), the one that a serial unit still
runs (R249, R626), or one of another unit that still holds stream 0. -/
def blocksStart (o e : InFlight) : Bool :=
  (e.unit == o.unit && e.job != .empty && (!e.started || o.unit == .tab || o.unit == .quant)) || (e.unit != o.unit && e.onStream0 && o.onStream0)

/-- What a tile instruction reads once, as it starts: channel entries and thresholds of activation-streaming mode (R135, R228), and the word sums of
weight-streaming mode (R136). -/
def TileJob.readOnce (j : TileJob) (k : Nat) (m : Sparse Byte) : TileJob :=
  let T := j.ctx k 0
  let act := j.perTile
  { j with
    chans := if act && T.e.usesChan then (List.range 128).map (T.e.chanEntry m) else []
    thetas := if act && T.tm.et then (List.range 128).map (T.tm.thetaOf m) else []
    wsums := if j.kind == .stream && !act && !T.e.drain && T.e.corr then
      (List.range 4).map fun a => signedOf 32 (readNat m (T.e.wsumBase + 4 * a) 4) else [] }

/-- A tile instruction starts on its stream: the stream's counts begin anew (R93), its mode and slot show, what is read once is read, and tiles are
streamed as far as rings and slots allow. -/
def State.startTile (s : State) (k : Nat) (o : InFlight) (j : TileJob) : State :=
  let x := s.core k
  let st := tStream j.word
  let mode := if j.kind = .stream then bits j.desc.toNat 0 2 else 0
  let x := x.modOp o.id fun o => { o with started := true, job := .tile (j.readOnce k x.scratch) }
  let x := { x with
    cnt := sput 0 (sput 0 x.cnt (0x220 + 0x10 * st) 0) (0x224 + 0x10 * st) 0
    sheaf := { x.sheaf with mode := sput 0 x.sheaf.mode st mode, nextSlot := sput 0 x.sheaf.nextSlot st (tSlot j.word) } }
  ((s.setCore k x).loadAll k).advance (j.tiles + 1) k o.id

/-! ### Words and tiles -/

/-- Word `w` may be written: its unit of a guarded output ring has been tested (R373). -/
def TileJob.mayWrite (j : TileJob) (w : OutWord) : Bool :=
  match j.oRing with
  | none => true
  | some g => decide ((w.word - ringPos j.oRing) / 32 < g.tested)

/-- OUTPUT_WORD_WRITE (R97): the oldest final word of a started instruction passes the epilogue into its ring; a slot that it leaves free accepts the
next tile. -/
def execOutputWordWrite (k id : Nat) (s : State) : Host.Outcome State Fault Refusal :=
  match s.opOf k id with
  | some o =>
    match o.job, o.started with
    | .tile j, true =>
      match j.words with
      | [] => .next s
      | w :: rest => if j.mayWrite w then .next (((s.writeWord k o j w).setTile k id { j with words := rest }).advanceAll k) else .next s
    | _, _ => .next s
  | none => .next s

/-- A tile's end (R140, R373, R376): units are released, the output unit filled when its last word was written, the tile object given 1. -/
def State.endTile (s : State) (k id : Nat) (j : TileJob) (u : Nat) (good : Bool) (rest : List (Nat × Bool)) : State :=
  let j := { j with ends := rest }
  let (s, y) := s.releaseUnit j.yRing
  let (s, c) := s.releaseUnit j.cRing
  let last := j.endsUnit u
  let (s, q) := if last then s.releaseUnit j.sRing else (s, j.sRing)
  let s := match j.oRing with
    | some g => if last && good then s.signal g.objF 1 else s
    | none => s
  let s := match j.objTile with
    | some n => if good then s.signal n 1 else s
    | none => s
  let j := { j with yRing := y, cRing := c, sRing := q }
  let x := s.core k
  let st := tStream j.word
  let x := { x with sheaf := { x.sheaf with nextSlot := sput 0 x.sheaf.nextSlot st ((tSlot j.word + u + 1) % 2) } }
  (s.setCore k x).setTile k id j

/-- The output unit of a good tile that ends it has been tested, so that it can be filled (R373). -/
def TileJob.mayEnd (j : TileJob) (u : Nat) (good : Bool) : Bool :=
  !(j.words.any fun w => decide (w.tile ≤ u)) && match j.oRing with
    | some g => !(good && j.endsUnit u) || decide (j.wordUnit u < g.tested)
    | none => true

/-- TILE_DONE (R140): after the last word of a tile is written. -/
def execTileDone (k id : Nat) (s : State) : Host.Outcome State Fault Refusal :=
  match s.opOf k id with
  | some o =>
    match o.job, o.started with
    | .tile j, true =>
      match j.ends with
      | [] => .next s
      | (u, good) :: rest => if j.mayEnd u good then .next (s.endTile k id j u good rest) else .next s
    | _, _ => .next s
  | none => .next s

/-- ACC_REPEAT (R127, R129, R232): the tile is computed again from the overflowing word, with one more halving; its swaps check parity
as the first pass does (R88). -/
def execAccRepeat (k : Nat) (r : RepeatOp) (s : State) : Host.Outcome State Fault Refusal :=
  match s.opOf k r.op with
  | some o =>
    match o.job, o.started with
    | .tile j, true =>
      match j.overflow with
      | none => .next s
      | some v =>
        let s := (s.coreCount k 0x2A0 1).charge o.bind fun x => { x with halvings := x.halvings + 1 }
        let T := j.ctx k v.tile
        let rows := r.parity.filter fun p => T.d.arrays.contains p.1 && T.rows.contains p.2 && !(j.lost v.tile).contains p.1
        let j := { j with overflow := none, parity := j.parity ++ rows.map fun p => (p.1, p.2, v.tile) }
        .next ((((s.setTile k r.op j).parityFails k o rows).runTile k { o with job := .tile j } j v.tile (some v)).advanceAll k)
    | _, _ => .next s
  | none => .next s

/-! ### Guarded rings (R373) -/

/-- The object a ring tests, and the wait on its next unit. -/
def GRing.test (g : GRing) (out : Bool) : Nat × WaitKind :=
  let k := g.pos + BitVec.ofNat 32 g.tested
  if out then (g.objD, .slot g.objD (BitVec.ofNat 32 g.n) k 0 0) else (g.objF, .slot g.objF 0 k 0 0)

/-- An output unit that no word will fill: its tiles have all been computed, none of its words waits, and none of its tiles ends well (R376). -/
def TileJob.deadUnit (j : TileJob) (v : Nat) : Bool :=
  (j.streamed || decide (v < j.wordUnit j.next)) && !(j.words.any fun w => (w.word - ringPos j.oRing) / 32 == v) &&
    !(j.ends.any fun e => e.2 && j.wordUnit e.1 == v)

/-- The first unit of an output ring, from `v` on, that the instruction will fill; `n` units are looked at. -/
def TileJob.nextUnit (j : TileJob) (v : Nat) : Nat → Nat
  | 0 => v
  | n + 1 => if j.deadUnit v then j.nextUnit (v + 1) n else v

/-- The ring as it stands for its next test: a unit of the output ring that no word will fill is passed over (R376, R387). -/
def TileJob.aim (j : TileJob) (r : RingId) (g : GRing) : GRing :=
  if r = .output then { g with tested := j.nextUnit g.tested (g.units - g.tested) } else g

/-- The instruction has come to test the ring's next unit: a consumer ahead of its tiles, a producer when the unit's first word is final, or when
its block rows leave no word to write (R235, R373). -/
def TileJob.mayTest (j : TileJob) (r : RingId) (g : GRing) : Bool :=
  g.waiting.isNone && decide (g.tested < g.units) &&
    (if r = .output then (j.words.any fun w => (w.word - ringPos j.oRing) / 32 == g.tested) || decide (g.tested < j.wordUnit j.next) || j.streamed
     else decide (j.next < j.tiles))

/-- GUARDED_RING_UNIT (R373): a feeder or epilogue tests the next unit of a ring; where the test fails it waits on the object. -/
def execGuardedRingUnit (k id : Nat) (r : RingId) (s : State) : Host.Outcome State Fault Refusal :=
  match s.opOf k id with
  | some o =>
    match o.job, o.started with
    | .tile j, true =>
      match j.ring r with
      | none => .next s
      | some g =>
        let g := j.aim r g
        if j.mayTest r g then
          let (n, w) := g.test (r == .output)
          if w.holds (s.obj n) then .next ((s.setTile k id (j.setRing r (some { g with tested := g.tested + 1 }))).advanceAll k)
          else
            let s := s.setTile k id (j.setRing r (some { g with waiting := some { kind := w, wdExp := (s.core k).wdExp } }))
            .next (s.addWaiter n { core := k, who := .ring id r })
        else .next s
    | _, _ => .next s
  | none => .next s

/-! ### Completion -/

/-- Nothing of the instruction is left to do, and no transfer of Tier F for it is in flight. -/
def Core.jobDone (x : Core) (o : InFlight) : Bool :=
  !x.farOf o && match o.job with
  | .tile j => j.words.isEmpty && j.ends.isEmpty && j.overflow.isNone && j.next == j.tiles
  | .scatter => !(x.scat.stalled.any (·.id == o.id)) && x.scat.queues.all fun e => e.2.all (·.id != o.id)
  | .list j => j.next == j.n
  | .kv j => j.done
  | .fab j => j.done
  | _ => true

/-- Results reach their registers (R276). -/
def State.deliver (s : State) (k c : Nat) (rs : List Result) : State :=
  rs.foldl (fun s r => match r with
    | .scalar d v => s.setCtx k c ((s.ctx k c).writeS d v)
    | .pred d v => s.setCtx k c ((s.ctx k c).writeP d v)
    | .pastScalar _ => s
    | .pastPred _ => s) s

/-- A context whose class F wait, or whose SESS.END, has nothing left to wait for goes on (R289, R303, R357). -/
def State.recheck (s : State) (k c : Nat) : State :=
  let x := s.core k
  match (x.ctx c).wait with
  | some { kind := .fence mask, .. } => if x.inClasses c mask then s else s.endWait k c .run
  | some { kind := .halt, .. } => if x.ops.any (·.ctx == c) then s else s.endWait k c .halted
  | some { kind := .sessEnd ids cs, bind := b, .. } =>
    if !cs.isEmpty || x.ops.any fun o => ids.contains o.id then s
    else
      let s := match b with
        | some (r, i) => s.finishItem k r i
        | none => s
      s.endWait k c .run
  | _ => s

/-- Every context of a core is looked at, as often as one that goes on may let another go on. -/
def State.recheckAll (s : State) (k : Nat) : State := ([0, 1, 2, 3] ++ [0, 1, 2, 3] ++ [0, 1, 2, 3] ++ [0, 1, 2, 3]).foldl (fun s c => s.recheck k c) s

/-- The stream that an instruction runs on: the table unit and a guard pass take stream 0 (R249, R281). -/
def InFlight.streamOf (o : InFlight) : Nat :=
  match o.unit with
  | .stream k => k
  | _ => 0

/-- An instruction that streams through the arrays. -/
def InFlight.usesLatches (o : InFlight) : Bool :=
  match o.unit with
  | .stream _ => true
  | .guard => true
  | _ => false

/-- An instruction leaves its unit: an idle stream counts no cycles toward a load (R81); objects are given 1 unless it faulted (R317, R318), results delivered, waiting contexts looked at. -/
def State.complete (s : State) (k : Nat) (o : InFlight) : State :=
  let x := s.core k
  let ops := x.ops.filter fun e => e.id != o.id
  let idle := o.usesLatches && !ops.any (·.unit == o.unit)
  let s := s.setCore k { x with ops := ops, sheaf := if idle then { x.sheaf with since := sput none x.sheaf.since o.streamOf none } else x.sheaf }
  let s := if o.faulted then s else o.objs.foldl (fun s n => s.signal n 1) s
  (s.deliver k o.ctx o.results).recheckAll k

/-- INSTR_COMPLETE (R276, R288, R317, R318): in the order of starting, but for the DMA engine and instructions whose count is zero (R319). -/
def execInstrComplete (k id : Nat) (s : State) : Host.Outcome State Fault Refusal :=
  let x := s.core k
  match beforeFirst (·.id == id) x.ops with
  | none => .next s
  | some (earlier, o) =>
    if o.started && x.jobDone o && (o.unit == .dma || o.job == .empty || !earlier.any fun e => e.unit == o.unit) then .next (s.complete k o) else .next s

/-! ### Releases (R378) -/

/-- A waiter whose condition has held is released: a context goes on, with its slot address; a ring's unit counts as tested. -/
def State.releaseWaiter (s : State) (w : Waiter) : State :=
  match w.who with
  | .ctx c =>
    match (s.ctx w.core c).wait with
    | some { kind := .slot _ _ _ d a, .. } => ((s.endWait w.core c .run).putS w.core c d a).recheckAll w.core
    | _ => (s.endWait w.core c .run).recheckAll w.core
  | .ring id r =>
    match s.opOf w.core id with
    | some { job := .tile j, .. } =>
      (s.setTile w.core id (j.setRing r ((j.ring r).map fun g => { g with tested := g.tested + 1, waiting := none }))).advanceAll w.core
    | _ => s

/-- WAIT_SATISFIED (R378): every waiter of the object whose condition has held leaves the list, in order of arrival. -/
def execWaitSatisfied (n : Nat) (s : State) : Host.Outcome State Fault Refusal :=
  let ws := sget [] s.waiters n
  let t := { s with waiters := sput [] s.waiters n (ws.filter fun w => !w.satisfied) }
  .next ((ws.filter (·.satisfied)).foldl State.releaseWaiter t)

/-! ### Time limits -/

/-- A number of events of the present health period raised by one (R529). -/
def bumpHead : List Nat → List Nat
  | [] => [1]
  | x :: xs => (x + 1) :: xs

/-- The watchdog counts of a partition's cores stand still: a substitution has begun (R313, R520); securing, restore and the filling of REPAIR are
each done within one step. -/
def PartBlock.wdPaused (b : PartBlock) : Bool := !b.refill.isEmpty

def State.wdPaused (s : State) (k : Nat) : Bool :=
  match s.partOf k with
  | some p => (s.part p).wdPaused
  | none => false

/-- An agent's wait is already met, and its release is on its way (R310, R355). -/
def State.waitMet (s : State) (n k : Nat) (who : WaitAgent) : Bool :=
  (sget [] s.waiters n).any fun w => w.core == k && w.who == who && w.satisfied

/-- The condition of a SESS.STEP of the core has held: the step boundary has come (R304, R310, R312). -/
def State.boundaryMet (s : State) (k : Nat) : Bool :=
  match s.partOf k with
  | some p => s.atBoundary p
  | none => false

/-- A context's wait on object `n` fails: its item fails, the context leaves the object's list and goes on (R310, R378). -/
def State.failWait (s : State) (k c n : Nat) (w : Wait) (f : FaultCode) : State :=
  ((((s.faultAt k c w.bind f).dropWaiter n k (.ctx c)).endWait k c .run)).recheckAll k

/-- WATCHDOG_EXPIRY (R310, R329, R352, R376): a class W wait, or a wait of a guarded ring, fails with FLT_SYNC_TIMEOUT. -/
def execWatchdogExpiry (k : Nat) (who : WaitAgent) (s : State) : Host.Outcome State Fault Refusal :=
  if s.wdPaused k then .next s
  else match who with
  | .ctx c =>
    match (s.ctx k c).wait with
    | some w =>
      match w.kind, w.kind.obj? with
      | .step, _ =>
        if s.boundaryMet k then .next s
        else .next (((s.faultAt k c w.bind fltSyncTimeout).endWait k c .run).recheckAll k)
      | _, some n => if s.waitMet n k who then .next s else .next (s.failWait k c n w fltSyncTimeout)
      | _, none => .next s
    | none => .next s
  | .ring id r =>
    match s.opOf k id with
    | some o =>
      match o.job with
      | .tile j =>
        match ((j.ring r).bind (·.waiting)).bind fun w => w.kind.obj? with
        | some n =>
          if s.waitMet n k who then .next s
          else .next (((s.opFault k o fltSyncTimeout).stopTile k id j true).advanceAll k)
        | none => .next s
      | _ => .next s
    | none => .next s

/-- A handshake timeout of a core, counted for it, for CORE_FAIL and for the health monitor (R309, R513, R529). -/
def State.xiCount (s : State) (k : Nat) : State :=
  let s := s.coreCount k 0x14 1
  let x := s.core k
  let s := s.setCore k { x with island := { x.island with xiTimes := s.time :: x.island.xiTimes.filter fun t => decide (s.time < t + 2 ^ 20) } }
  { s with health := { s.health with timeouts := bumpHead s.health.timeouts } }

/-- Whether a word's instruction sends a request across a handshake as it issues: a load or store of module memory, a read of TIMEBASE, or a wait on an
object (R309). -/
def crosses (x : Ctx) (w : W64) : Bool :=
  if [0x07, 0x08, 0x09, 0x0A].contains (fOpc w) then decide (0x400000 ≤ addrOf x w)
  else if [0x47, 0x48].contains (fOpc w) then decide (0x400000 ≤ (x.readS (fA w)).toNat)
  else if fOpc w = 0x0E then selector w == 0 && bits (fImm w) 0 16 == 0x20
  else [0x80, 0x81, 0x91].contains (fOpc w)

/-- The register that a failed load leaves with a value that the spec leaves open (log 10). -/
def State.openResult (s : State) (k c : Nat) (w : W64) : State :=
  if [0x07, 0x08, 0x0E].contains (fOpc w) then let (v, t) := s.free; t.putS k c (fD w) v
  else if fOpc w = 0x47 then
    let (vs, t) := (List.range 64).foldl (fun (vs, t) _ => let (v, t) := t.free; (vs ++ [v.truncate 32], t)) (([] : List W32), s)
    t.putV k c (fD w) vs
  else s

/-- A request of a context went unacknowledged: that of its wait, of the next instruction it issues, or of the line fill that holds it, whose
instruction then fails unseen (DESIGN CHOICE, log 63). None where the context has sent no request. -/
def State.xiContext (s : State) (k c : Nat) : Option State :=
  let x := s.core k
  let y := x.ctx c
  match y.wait with
  | some w => match w.kind.obj? with
    | some n => if s.waitMet n k (.ctx c) then none else some (s.failWait k c n w fltXiTimeout)
    | none => none
  | none =>
    if y.mode = .run then
      match x.fetched y.pc with
      | none => some ((s.faultAt k c y.bind fltXiTimeout).setPc k c (y.pc + 8))
      | some w =>
        if s.ready k c w && wellFormedWord w && crosses y w then
          some ((((s.openResult k c w).bindItem y.bind).faultAt k c y.bind fltXiTimeout).setPc k c (y.pc + 8))
        else none
    else none

/-- XI_TIMEOUT (R309, R383, R513): a handshake of an instruction in flight, or of a context, went unacknowledged for 65,536 cycles. -/
def execXiTimeout (k : Nat) (who : XiAgent) (s : State) : Host.Outcome State Fault Refusal :=
  match who with
  | .op id =>
    match s.opOf k id with
    | some o => .next ((s.opFault k o fltXiTimeout).xiCount k)
    | none => .next s
  | .ctx c => .next (((s.xiContext k c).map fun t => t.xiCount k).getD s)

/-! ### Time passes -/

/-- A started instruction that stalls its stream (R90, R210, R252): the stream's next tile is its own and its rings or slots hold it back, its output ring
has no free space, or an add of it waits before a full bank queue; an earlier instruction that holds the stream stalls it in its own name. -/
def Core.stalled (x : Core) (o : InFlight) : Bool :=
  match beforeFirst (·.id == o.id) x.ops with
  | some (earlier, _) =>
    o.started && !(earlier.any fun e => e.unit == o.unit && x.holdsStream e) && match o.job with
      | .tile j => j.ringFull || (j.overflow.isNone && decide (j.next < j.tiles) && !x.canStream o.id)
      | .scatter => o.unit != .vec && x.holdsStream o
      | _ => false
  | none => false

/-- An instruction's stream stalls `n` cycles (R90); they count toward the latch swap that it waits for (R81). -/
def Core.stall (x : Core) (n : Nat) (o : InFlight) : Core :=
  let st := o.streamOf
  let x := x.count (0x228 + 0x10 * st) n
  let x := { x with sheaf := { x.sheaf with since := sput none x.sheaf.since st ((sget none x.sheaf.since st).map (· + n)) } }
  match o.job with
  | .tile j => x.modOp o.id fun o => { o with job := .tile { j with run := j.run.map fun m => m + n } }
  | _ => x

/-- A core's streams stall for the island cycles `n` that pass. -/
def Core.pass (x : Core) (n : Nat) : Core := (x.ops.filter x.stalled).foldl (fun x o => x.stall n o) x

/-- A nanosecond passes: TIMEBASE counts it (R307), and streams that are held back stall (R90; DESIGN CHOICE, log 8). -/
def State.tick (s : State) : State :=
  { s with
    time := s.time + 1
    cores := s.cores.map fun e => (e.1, e.2.pass ((s.groupAt (groupOf e.1)).cycles (s.time + 1) - (s.groupAt (groupOf e.1)).cycles s.time)) }

/-- NARROW_PROMOTE (R366, R388): a narrow access is promoted, having waited 64 cycles at a bank. -/
def execNarrowPromote (k : Nat) (s : State) : Host.Outcome State Fault Refusal := .next ((s.coreCount k 0x368 1).coreCount k 0x364 64)

end Sys2Proof.Machine
end

