-- ==== Sys2Proof/Machine/Cam.lean ====
section
/-! DEFINITION. Compressed rows, the CAM path and the scatter accumulator (R196 to R213, R330, R331, R631). -/

namespace Sys2Proof.Machine

/-! ### Compressed-row tensors (R196 to R200) -/

structure CRow where
  valBase : Nat
  fmt : Nat
  sfmt : Nat
  rows : Nat
  cols : Nat
  ptrBase : Nat
  tag : Nat
  idxBase : Nat
  stag : Nat
  scaleBase : Nat
  ptrStride : Nat
  cap : Nat
  reserved : Bool
deriving DecidableEq, Repr

def readCRow (v : Nat) : CRow :=
  { valBase := bits v 0 48, fmt := bits v 48 4, sfmt := bits v 52 2, rows := bits v 64 32, cols := bits v 96 32
    ptrBase := bits v 128 48, tag := bits v 176 16, idxBase := bits v 192 48, stag := bits v 240 16, scaleBase := bits v 256 48
    ptrStride := bits v 320 48, cap := bits v 384 32
    reserved := bits v 54 10 != 0 || bits v 304 16 != 0 || bits v 368 16 != 0 || bits v 416 96 != 0 }

/-- The refusals of R199. -/
def CRow.bad (d : CRow) : Bool :=
  d.reserved || d.valBase % 128 != 0 || d.ptrBase % 4 != 0 || d.idxBase % 2 != 0 || d.ptrStride % 4 != 0
    || [10, 11, 14, 15].contains d.fmt || d.sfmt == 3 || (d.sfmt == 2 && decide (d.fmt ≤ 7)) || (d.sfmt == 1 && decide (7 < d.fmt))

def CRow.skewed (d : CRow) : Bool := d.sfmt != 0 && d.tag != d.stag

/-- Address of ordinal `n`'s plane `p`. -/
def CRow.planeWord (d : CRow) (n p : Nat) : Nat := d.valBase + n / 1024 * (fmtWidth d.fmt * 128) + 128 * p + 4 * (n / 32 % 32)

/-- What the checks of R200 make of one element of a row: kept with its index and code, or dropped. -/
inductive RowEvent where
  | keep (idx code : Nat)
  | range
  | order
deriving DecidableEq, Repr

/-- One row as it is read (R200): its elements in order, and its scale. A row with bad pointers is one drop. -/
structure CRowData where
  events : List RowEvent := []
  scale : SEnt := .one
deriving DecidableEq, Repr

/-- The kept entries of a row by index, and its drops. -/
def CRowData.entries (r : CRowData) : List (Nat × Nat) := r.events.filterMap fun e => match e with
  | .keep i c => some (i, c)
  | _ => none
def CRowData.range (r : CRowData) : Nat := r.events.count .range
def CRowData.order (r : CRowData) : Nat := r.events.count .order

/-- The code of ordinal `n`. -/
def State.crowCode (s : State) (k : Nat) (d : CRow) (n : Nat) : Except MemFail Nat :=
  let b := fmtWidth d.fmt
  match mapE (fun p => s.readNatAt k (d.planeWord n p) 4) (List.range b) with
  | .error e => .error e
  | .ok ws => .ok (((List.range b).zip ws).foldl (fun acc (p, w) => if bit w (n % 32) then acc + 2 ^ (b - 1 - p) else acc) 0)

/-- The ordinals of row `i` in window `w`: none where the pointers are refused (R197, R200). -/
def State.crowSpan (s : State) (k : Nat) (d : CRow) (w i : Nat) : Except MemFail (Option (Nat × Nat)) :=
  let a := d.ptrBase + w * d.ptrStride + 4 * i
  match s.readNatAt k a 4, s.readNatAt k (a + 4) 4 with
  | .error e, _ => .error e
  | _, .error e => .error e
  | .ok lo, .ok hi => .ok (if hi < lo ∨ d.cap < hi then none else some (lo, hi - lo))

/-- The elements of a row under the checks of R200: kept where the index is in range and rises. -/
def rowEvents (lim : Nat) (last : Option Nat) : List (Nat × Nat) → List RowEvent
  | [] => []
  | (i, c) :: rest =>
    if lim ≤ i then .range :: rowEvents lim last rest
    else if last.any fun l => i ≤ l then .order :: rowEvents lim last rest
    else .keep i c :: rowEvents lim (some i) rest

/-- Reads row `i` of window `w` (R197, R198, R200). -/
def State.crowRow (s : State) (k : Nat) (d : CRow) (w i : Nat) : Except MemFail CRowData :=
  match s.crowSpan k d w i with
  | .error e => .error e
  | .ok none => .ok { events := [.range] }
  | .ok (some (n0, n)) =>
    match mapE (fun x => s.readNatAt k (d.idxBase + 2 * x) 2) (List.range' n0 n), mapE (s.crowCode k d) (List.range' n0 n),
        (if d.sfmt = 0 then .ok 0 else s.readNatAt k (d.scaleBase + i * entryBytes d.sfmt) (entryBytes d.sfmt)) with
    | .error e, _, _ => .error e
    | _, .error e, _ => .error e
    | _, _, .error e => .error e
    | .ok ix, .ok cs, .ok sc => .ok { events := rowEvents (min (d.cols - 65536 * w) 65536) none (ix.zip cs), scale := scaleEntry d.sfmt d.fmt sc }

/-- The accesses of reading row `i` of window `w` (R395). -/
def State.crowReads (s : State) (k : Nat) (d : CRow) (w i : Nat) : List (Nat × Nat) :=
  (d.ptrBase + w * d.ptrStride + 4 * i, 8) ::
  match s.crowSpan k d w i with
  | .ok (some (n0, n)) =>
    if n = 0 then [] else
    (d.idxBase + 2 * n0, 2 * n) :: (if d.sfmt = 0 then [] else [(d.scaleBase + i * entryBytes d.sfmt, entryBytes d.sfmt)]) ++
      ((List.range' (n0 / 1024) ((n0 + n - 1) / 1024 - n0 / 1024 + 1)).flatMap fun m =>
        let lo := max n0 (1024 * m)
        let hi := min (n0 + n - 1) (1024 * m + 1023)
        (List.range (fmtWidth d.fmt)).map fun p => (d.planeWord lo p, d.planeWord hi p + 4 - d.planeWord lo p))
  | _ => []

/-! ### The CAM path (R203 to R206) -/

/-- A CAM entry: its index, its key row within the load, its code, its row's scale, and whether the row's tags differ (R198). -/
structure CamKey where
  idx : Nat
  kr : Nat
  code : Nat
  scale : SEnt
  skew : Bool
deriving DecidableEq, Repr

/-- A pair of codes with the scales of their rows. -/
structure Pair where
  x : Nat
  y : Nat
  sx : SEnt
  sy : SEnt
deriving DecidableEq, Repr

/-- Pieces of at most `n`, in order; the fuel bounds their number. -/
def cutEvery {α : Type} (n : Nat) : Nat → List α → List (List α)
  | 0, _ => []
  | fuel + 1, l => if l.isEmpty then [] else l.take n :: cutEvery n fuel (l.drop n)

/-- A packet's scatter term (R206). -/
def packetTerm (fx fy : Nat) (ps : List Pair) : Flagged :=
  if intSlot fx fy then
    match ps with
    | [] => { v := 0 }
    | p :: _ => roundFlag (((FV.ofInt ((ps.map fun q => intCode fx q.x * intCode fy q.y).sum)).mul p.sx.s).mul p.sy.s)
  else
    let term := fun (q : Pair) => groupTerm false false ((latchRow fx 1 0 false [some q.x]).headD ([], 0)) q.sx (streamRow fy 0 [some q.y]) q.sy
    match ps.map term with
    | [] => { v := 0 }
    | t :: ts => ts.foldl (fun a t => { addFlag a t.v with inf := (addFlag a t.v).inf || t.inf, nan := (addFlag a t.v).nan || t.nan }) t

/-- The terms of one probe row against one load, for its key rows in ascending order (R204). -/
def probeTerms (fx fy : Nat) (keys : List CamKey) (krows : Nat) (y : CRowData) : List (Nat × Flagged) :=
  (List.range krows).flatMap fun kr =>
    let mine := keys.filter (·.kr == kr)
    let pairs := y.entries.filterMap fun (i, c) => (mine.find? fun q => q.idx == i && !q.skew).map fun q => ({ x := q.code, y := c, sx := q.scale, sy := y.scale } : Pair)
    (cutEvery (if intSlot fx fy then 32 else 8) (pairs.length + 1) pairs).map fun ps => (kr, packetTerm fx fy ps)

/-- What an ARR.CAM gives: its adds in order, the drops, the rows left out for skewed tags, the fault that stopped it, its reads, the entries of the
load in hand and whether one has been matched, and the stall cycles of a row group that a load's end started with fewer than 128 packets. -/
structure CamOut where
  adds : List (Nat × Flagged) := []
  range : Nat := 0
  order : Nat := 0
  skews : Nat := 0
  stop : Option FaultCode := none
  reads : List (Nat × Nat) := []
  keys : List CamKey := []
  later : Bool := false
  waiting : Bool := false
  stall : Nat := 0
deriving DecidableEq, Repr

/-- Drops are counted, and they may pass the limit (R219): `room` is what the item may still drop. -/
def CamOut.drops (o : CamOut) (room : Option Nat) (range order : Nat) : CamOut :=
  let o := { o with range := o.range + range, order := o.order + order }
  match room with
  | some n => if n < o.range + o.order then { o with stop := some fltChaffLimit } else o
  | none => o

/-- Cycles pass; those that a started row group waits for packets are stalls (R207). -/
def CamOut.pass (o : CamOut) (n : Nat) : CamOut := if o.waiting then { o with stall := o.stall + n } else o

/-- The packets of a probe row are formed: a row group that has its 128 packets waits no longer (R207). -/
def CamOut.form (o : CamOut) (adds : List (Nat × Flagged)) : CamOut :=
  let n := o.adds.length
  { o with adds := o.adds ++ adds, waiting := o.waiting && (n + adds.length) / 128 == n / 128 }

/-- The probe rows against one load (R204); the first load counts a skewed row. -/
def State.camProbe (s : State) (k : Nat) (x y : CRow) (d : TileDesc) (room : Option Nat) (o : CamOut) : CamOut :=
  (List.range d.rowsN).foldl (fun o j =>
    if o.stop.isSome then o
    else
      match s.crowRow k y d.k0 (d.y0 + j) with
      | .error e => { o with stop := some e.code }
      | .ok r =>
        let o := { o.drops room r.range r.order with reads := o.reads ++ s.crowReads k y d.k0 (d.y0 + j) }
        if o.stop.isSome then o
        else
          let o := o.pass (max 1 ((r.entries.length + 31) / 32))
          if y.skewed then { o with skews := o.skews + (if o.later then 0 else 1) }
          else o.form ((probeTerms x.fmt y.fmt o.keys d.krows r).map fun (kr, t) => ((d.scBase + j * d.scStride + kr) % 65536, t))) o

/-- A load is matched (R203, R204, R207): its cycles, its probe rows, and at its end the row group begun is started. -/
def State.camLoad (s : State) (k : Nat) (x y : CRow) (d : TileDesc) (room : Option Nat) (o : CamOut) : CamOut :=
  if o.keys.isEmpty then o
  else
    let o := s.camProbe k x y d room (o.pass ((o.keys.length + 31) / 32))
    { o with keys := [], later := true, waiting := o.adds.length % 128 != 0 }

/-- Reading goes on: a full load of 256 entries is matched first, so that what it adds was made before any later drop (R203, R219; DESIGN CHOICE,
log 64). -/
def State.camNext (s : State) (k : Nat) (x y : CRow) (d : TileDesc) (room : Option Nat) (o : CamOut) : CamOut :=
  if o.stop.isSome || decide (o.keys.length < 256) then o else s.camLoad k x y d room o

/-- A key row element by element, into the load (R203); those of a row whose tags differ are loaded too, and give no pair (R198). -/
def State.camKeyRow (s : State) (k : Nat) (x y : CRow) (d : TileDesc) (room : Option Nat) (kr : Nat) (o : CamOut) : CamOut :=
  let o := s.camNext k x y d room o
  if o.stop.isSome then o
  else
    match s.crowRow k x d.k0 (d.x0 + kr) with
    | .error e => { o with stop := some e.code }
    | .ok r =>
      let o := { o with reads := o.reads ++ s.crowReads k x d.k0 (d.x0 + kr), skews := o.skews + (if x.skewed then 1 else 0) }
      r.events.foldl (fun o e =>
        let o := s.camNext k x y d room o
        if o.stop.isSome then o
        else match e with
        | .keep i c => { o with keys := o.keys ++ [{ idx := i, kr := kr, code := c, scale := r.scale, skew := x.skewed }] }
        | .range => o.drops room 1 0
        | .order => o.drops room 0 1) o

/-- The whole product (R201 to R206); with ROWS_N = 0 it completes at once and reads nothing (R202). A row group started at a load's end waits for the
packets of the loads that follow, and none follows the last (DESIGN CHOICE, log 64). -/
def State.camRun (s : State) (k : Nat) (x y : CRow) (d : TileDesc) (room : Option Nat) : CamOut :=
  if d.rowsN = 0 then {}
  else
    let o := (List.range d.krows).foldl (fun o kr => s.camKeyRow k x y d room kr o) {}
    if o.stop.isSome then o else s.camLoad k x y d room o

/-- A row that the product reads lies in part at the addresses that name nothing (R299). -/
def State.camHole (s : State) (k : Nat) (x y : CRow) (d : TileDesc) : Bool :=
  d.rowsN != 0 && (((List.range d.krows).any fun kr => (s.crowReads k x d.k0 (d.x0 + kr)).any fun (a, n) => reachesHole a n) ||
    (List.range d.rowsN).any fun j => (s.crowReads k y d.k0 (d.y0 + j)).any fun (a, n) => reachesHole a n)

/-! ### The scatter accumulator (R208 to R211) -/

/-- Adds enter their banks' queues in order; a source whose add meets a full queue waits with all its later adds (R209, R210). -/
def fillQueues (queues : Sparse (List ScatAdd)) (blocked : List Nat) (adds kept : List ScatAdd) : Sparse (List ScatAdd) × List ScatAdd :=
  match adds with
  | [] => (queues, kept)
  | a :: rest =>
    let q := sget [] queues (a.entry % 16)
    if blocked.contains a.src || decide (8 ≤ q.length) then fillQueues queues (a.src :: blocked) rest (kept ++ [a])
    else fillQueues (sput [] queues (a.entry % 16) (q ++ [a])) blocked rest kept

/-- Adds reach the accumulator behind those that wait already. -/
def Scatter.present (x : Scatter) (adds : List ScatAdd) : Scatter :=
  let (q, st) := fillQueues x.queues [] (x.stalled ++ adds) []
  { x with queues := q, stalled := st }

/-- No add waits (R213). -/
def Scatter.idle (x : Scatter) : Bool := x.stalled.isEmpty && x.queues.all fun e => e.2.isEmpty

/-- SCATTER_ADD_ISSUE (R209, R211): a bank issues the head of its queue; `waited` says that the add did not issue in the cycle after it arrived. -/
def execScatterAddIssue (k bank : Nat) (waited : Bool) (s : State) : Host.Outcome State Fault Refusal :=
  let c := s.core k
  match sget [] c.scat.queues bank with
  | [] => .next s
  | a :: rest =>
    let r := addFlag { v := sget 0 c.scat.acc a.entry } a.value
    let x : Scatter := { c.scat with acc := sput 0 c.scat.acc a.entry r.v, queues := sput [] c.scat.queues bank rest }
    let c := { c with scat := x.present [] }.setFlags r.inf r.nan
    .next (s.setCore k (c.count 0x2CC (if waited then 1 else 0)))

/-! ### ARR.CAM (R199 to R207) -/

/-- What an item may still drop before its limit is exceeded (R219); none where no limit can stop it. -/
def State.chaffRoom (s : State) (k : Nat) (b : Option (Nat × Nat)) : Option Nat :=
  let c := (s.core k).chaff.toNat
  match b with
  | some (r, i) =>
    match s.request r with
    | some q =>
      let d := (q.item i).dropped
      if bit c 31 && s.itemOpen r i && decide (d ≤ bits c 0 24) then some (bits c 0 24 - d) else none
    | none => none
  | none => none

/-- ARR.CAM at issue. -/
def camIssue (k c : Nat) (w : W64) (s : State) : Issued :=
  let x := s.core k
  let st := tStream w
  match s.tileIssue k c w .cam with
  | .error f => .refuse f
  | .ok t =>
    let d := t.d
    let xr := readCRow t.xt.toNat
    let yr := readCRow t.yt.toNat
    if xr.bad || yr.bad || d.krows == 0 || decide (32 < d.krows) || x.sheaf.split != 0 || d.split != 0 || xr.cols != yr.cols
      || fFmt w != yr.fmt || st != 0 || fD w != 0 || t.use.yRing.isSome || t.use.oRing.isSome then .refuse fltArgRange
    else
      let b := (s.ctx k c).bind
      let o := s.camRun k xr yr d (s.chaffRoom k b)
      if s.camHole k xr yr d then .refuse fltArgRange
      else
        let s1 := ((s.touchAt k d.xdesc 64).touchAt k d.ydesc 64).touchAll k o.reads
        let (s1, _) := s1.chaff k b 0 o.range o.order
        let s1 := (s1.coreCount k 0x2A4 o.skews).coreCount k (0x228 + 0x10 * st) o.stall
        let id := (s1.core k).nextId
        let s1 := s1.launch k c (.stream st) 1 t.use.objDone.toList [] (if d.rowsN = 0 then .empty else .scatter)
        let x1 := s1.core k
        let adds := o.adds.map fun (e, f) => ({ entry := e, value := f.v, src := st, id := id } : ScatAdd)
        let x1 := { x1 with scat := x1.scat.present adds }.setFlags (o.adds.any (·.2.inf)) (o.adds.any (·.2.nan))
        let s1 := s1.setCore k x1
        let s1 := if 0 < o.skews then (s1.faultAt k c b fltScaleSkew).faultLast k else s1
        .go (match o.stop with
          | some f => (s1.faultAt k c b f).faultLast k
          | none => s1)

/-- ARR_CAM (R201): the product of two compressed-row tensors over one column window, into the scatter accumulator. -/
def execArrCam (k c : Nat) (w : W64) (s : State) : Host.Outcome State Fault Refusal :=
  issue k c w (spells w 0x21 0) (unitIssue s k (.stream (tStream w)) (camIssue k c w s)) s

/-! ### The EPI instructions (R212, R213, R330, R331) -/

/-- EPI_LOAD (R330). -/
def execEpiLoad (k c : Nat) (w : W64) (s : State) : Host.Outcome State Fault Refusal :=
  let a := ((s.ctx k c).readS (fA w)).toNat
  let st := bits (fImm w) 0 2
  issue k c w (spells w 0x30 0) (unitIssue s k .epi (
    if badAddr a 64 64 then .refuse fltArgRange
    else match s.readNatAt k a 64 with
    | .error e => .refuse e.code
    | .ok v =>
      let s1 := s.touchAt k a 64
      let x := s1.core k
      let s1 := s1.setCore k { x with sheaf := { x.sheaf with epi := sput 0 x.sheaf.epi st (BitVec.ofNat 512 v) } }
      .go (s1.launch k c .epi 2 [] [] (.epiLoad st)))) s

/-- EPI_SZERO (R212, R213). -/
def execEpiSzero (k c : Nat) (w : W64) (s : State) : Host.Outcome State Fault Refusal :=
  let x := s.core k
  let e0 := bits ((s.ctx k c).readS (fA w)).toNat 0 16
  let ne := bits (fImm w) 0 17
  issue k c w (spells w 0x31 0) (unitIssue s k .epi (
    if ne % 32 != 0 || decide (65536 < ne) then .refuse fltArgRange
    else if ne = 0 then .go (s.launch k c .epi 2 (complObj ((s.ctx k c).readS (fB w))) [] .empty)
    else if !x.scat.idle then .hold
    else
      let acc := x.scat.acc.filter fun e => !decide ((e.1 + 65536 - e0) % 65536 < ne)
      .go ((s.setCore k { x with scat := { x.scat with acc := acc } }).launch k c .epi 2 (complObj ((s.ctx k c).readS (fB w))) [] .plain))) s

/-- The words of EPI.SDRAIN (R212): NE entries from E0, 32 each. -/
def drainWords (x : Core) (e : EpiDesc) (e0 ne : Nat) : List OutWord :=
  (List.range (ne / 32)).map fun v =>
    { arr := 0, tile := v, word := v, chan := 32 * v
      vals := (List.range 32).map fun c => .fp (sget 0 x.scat.acc ((e0 + 32 * v + c) % 65536))
      chans := if e.usesChan then (List.range 32).map fun c => e.chanEntry x.scratch (32 * v + c) else []
      stops := List.replicate 32 false, keeps := List.replicate 32 true }

/-- EPI_SDRAIN (R212, R213, R331): its words pass the epilogue of the named stream and no tracker. -/
def execEpiSdrain (k c : Nat) (w : W64) (s : State) : Host.Outcome State Fault Refusal :=
  let x := s.core k
  let e0 := bits ((s.ctx k c).readS (fA w)).toNat 0 16
  let ne := bits (fImm w) 0 17
  let epi := sget 0 x.sheaf.epi (bits (fImm w) 18 2)
  let e := readEpi epi.toNat
  issue k c w (spells w 0x32 0) (unitIssue s k .epi (
    match e.refusal 1 true 128 with
    | some f => .refuse f
    | none =>
      if e.corr || ne % 32 != 0 || decide (65536 < ne) then .refuse fltArgRange
      else if ne = 0 then .go (s.launch k c .epi 2 (complObj ((s.ctx k c).readS (fB w))) [] .empty)
      else if !x.scat.idle then .hold
      else
        let o : InFlight := { id := 0, ctx := c, unit := .epi, cls := 2, bind := (s.ctx k c).bind }
        let j : TileJob := { kind := .stream, word := 0, desc := 0, y0 := 0, xt := 0, yt := 0, aux := 0, epi := epi }
        let s1 := (drainWords x e e0 ne).foldl (fun s w => s.writeWord k o j w) s
        let x1 := s1.core k
        let acc := if bit (fImm w) 17 then x1.scat.acc.filter fun e => !decide ((e.1 + 65536 - e0) % 65536 < ne) else x1.scat.acc
        .go ((s1.setCore k { x1 with scat := { x1.scat with acc := acc } }).launch k c .epi 2 (complObj ((s.ctx k c).readS (fB w))) [] .plain))) s

end Sys2Proof.Machine
end

