-- ==== Sys2Proof/Machine/Vector.lean ====
section
/-! DEFINITION. The exact unit's VEC instructions (R265 to R272, R332 to R339). -/

namespace Sys2Proof.Machine

/-! ### Lane operations -/

/-- Whether `a` is below `b`, -0 below +0 (R268, R332); neither is a NaN. -/
def belowF (a b : W32) : Bool := (f32 a).lt (f32 b) || ((f32 a).isZero && (f32 b).isZero && a.msb && !b.msb)

def minF (a b : W32) : W32 := if isNaN32 a || isNaN32 b then nan32 else if belowF b a then b else a
def maxF (a b : W32) : W32 := if isNaN32 a || isNaN32 b then nan32 else if belowF a b then b else a
def subF (a b : W32) : W32 := toF32 ((f32 a).add (f32 b).negate)

/-- 1.0 or +0.0 (R332). -/
def truthF (b : Bool) : W32 := if b then 0x3F800000#32 else 0

/-- The conditions of VEC.CMP. -/
def cmpF (cond : Nat) (a b : W32) : W32 :=
  let n := isNaN32 a || isNaN32 b
  let lt := (f32 a).lt (f32 b)
  let gt := (f32 b).lt (f32 a)
  truthF (match cond with
    | 0 => !n && !lt && !gt
    | 1 => lt
    | 2 => !n && !gt
    | _ => n)

/-- One level of the fixed reduction tree (R268). -/
def pairLevel (f : W32 → W32 → W32) : List W32 → List W32
  | a :: b :: rest => f a b :: pairLevel f rest
  | rest => rest

/-- The tree of six levels over 64 lanes. -/
def reduceTree (f : W32 → W32 → W32) (v : List W32) : W32 := ((List.range 6).foldl (fun l _ => pairLevel f l) v).headD 0

/-! ### The interpolated tables (R269, R270) -/

/-- Entry `i` of ACT (`base` 0) or DER (`base` 256): Y and D. -/
def ExactTables.entry (t : ExactTables) (base i : Nat) : W32 × W32 :=
  let e := sget 0 t.entries (base + i)
  (e.extractLsb' 0 32, e.extractLsb' 32 32)

/-- The end entry's answer where `e` or the input is an infinity. -/
def endValue (y d : W32) (neg : Bool) : W32 := if (f32 d).isZero then y else toF32 (.inf (d.msb != neg))

/-- A table evaluated at one lane (R269). -/
def ExactTables.eval (t : ExactTables) (base : Nat) (v : W32) : W32 :=
  let (xmin, invw) := if base = 0 then (t.actXmin, t.actInvw) else (t.derXmin, t.derInvw)
  match f32 v with
  | .nan => nan32
  | .inf neg => let (y, d) := t.entry base (if neg then 0 else 255); endValue y d neg
  | x =>
    let e := f32 (toF32 ((f32 (toF32 (x.add (f32 xmin).negate))).mul (f32 invw)))
    match e with
    | .inf neg => let (y, d) := t.entry base (if neg then 0 else 255); endValue y d neg
    | _ =>
      let i := clampIndex 255 e
      let (y, d) := t.entry base i
      toF32 (((e.add (FV.ofInt (-(i : Int)))).mul (f32 d)).add (f32 y))

/-! ### Issue -/

/-- VEC instructions wait behind a VEC.SADD that stalls at a full queue (R339). -/
def Core.vecStalled (x : Core) : Bool := x.scat.stalled.any (·.src == 4)

def vecIssue (s : State) (k : Nat) (r : Issued) : Issued := if (s.core k).vecStalled then .hold else r

/-- The second operand: v[B], or s[B] in every lane (R332). -/
def operandB (x : Ctx) (w : W64) : List W32 :=
  if bit (fImm w) 3 then List.replicate 64 ((x.readS (fB w)).truncate 32) else x.readV (fB w)

/-- A lane operation on v[A] and the second operand into v[D]. -/
def vecOp2 (k c : Nat) (w : W64) (n : Nat) (f : W32 → W32 → W32) (s : State) : Host.Outcome State Fault Refusal :=
  let x := s.ctx k c
  issue k c w (spells w 0x40 n)
    (vecIssue s k (.go (s.putV k c (fD w) (((x.readV (fA w)).zip (operandB x w)).map fun (a, b) => f a b)))) s

/-- A lane operation on v[A] into v[D]. -/
def vecFn (k c : Nat) (w : W64) (n : Nat) (f : W32 → W32) (s : State) : Host.Outcome State Fault Refusal :=
  issue k c w (spells w 0x43 n) (vecIssue s k (.go (s.putV k c (fD w) (((s.ctx k c).readV (fA w)).map f)))) s

/-- A lane reduction into s[D] (R334). -/
def vecRed (k c : Nat) (w : W64) (n : Nat) (f : W32 → W32 → W32) (s : State) : Host.Outcome State Fault Refusal :=
  issue k c w (spells w 0x46 n)
    (vecIssue s k (.go (s.putS k c (fD w) ((reduceTree f ((s.ctx k c).readV (fA w))).zeroExtend 64)))) s

/-! ### Meanings -/

/-- VEC_ADD (R332). -/
def execVecAdd (k c : Nat) (w : W64) (s : State) : Host.Outcome State Fault Refusal := vecOp2 k c w 0 addF s
/-- VEC_SUB (R332). -/
def execVecSub (k c : Nat) (w : W64) (s : State) : Host.Outcome State Fault Refusal := vecOp2 k c w 1 subF s
/-- VEC_MUL (R332). -/
def execVecMul (k c : Nat) (w : W64) (s : State) : Host.Outcome State Fault Refusal := vecOp2 k c w 2 mulF s
/-- VEC_MIN (R332). -/
def execVecMin (k c : Nat) (w : W64) (s : State) : Host.Outcome State Fault Refusal := vecOp2 k c w 3 minF s
/-- VEC_MAX (R332). -/
def execVecMax (k c : Nat) (w : W64) (s : State) : Host.Outcome State Fault Refusal := vecOp2 k c w 4 maxF s

/-- VEC_FMA (R332): v[D] := v[A] × b + v[D]. -/
def execVecFma (k c : Nat) (w : W64) (s : State) : Host.Outcome State Fault Refusal :=
  let x := s.ctx k c
  issue k c w (spells w 0x41 0)
    (vecIssue s k (.go (s.putV k c (fD w) (((x.readV (fA w)).zip ((operandB x w).zip (x.readV (fD w)))).map fun (a, b, d) => fmaF a b d)))) s

/-- VEC_CMP (R332). -/
def execVecCmp (k c : Nat) (w : W64) (s : State) : Host.Outcome State Fault Refusal :=
  let x := s.ctx k c
  issue k c w (spells w 0x42 0)
    (vecIssue s k (.go (s.putV k c (fD w) (((x.readV (fA w)).zip (operandB x w)).map fun (a, b) => cmpF (bits (fImm w) 0 2) a b)))) s

/-- VEC_EXP2 (R333). -/
def execVecExp2 (k c : Nat) (w : W64) (s : State) : Host.Outcome State Fault Refusal := vecFn k c w 0 exp2F s
/-- VEC_LOG2 (R333). -/
def execVecLog2 (k c : Nat) (w : W64) (s : State) : Host.Outcome State Fault Refusal := vecFn k c w 1 log2F s
/-- VEC_RCP (R333). -/
def execVecRcp (k c : Nat) (w : W64) (s : State) : Host.Outcome State Fault Refusal := vecFn k c w 2 rcpF s
/-- VEC_RSQRT (R333). -/
def execVecRsqrt (k c : Nat) (w : W64) (s : State) : Host.Outcome State Fault Refusal := vecFn k c w 3 rsqrtF s

/-- VEC_ACT (R269, R333). -/
def execVecAct (k c : Nat) (w : W64) (s : State) : Host.Outcome State Fault Refusal :=
  issue k c w (spells w 0x44 0)
    (vecIssue s k (.go (s.putV k c (fD w) (((s.ctx k c).readV (fA w)).map ((s.core k).exact.eval 0))))) s

/-- VEC_DACT (R270, R333). -/
def execVecDact (k c : Nat) (w : W64) (s : State) : Host.Outcome State Fault Refusal :=
  let x := s.ctx k c
  issue k c w (spells w 0x45 0)
    (vecIssue s k (.go (s.putV k c (fD w) (((x.readV (fA w)).zip (x.readV (fB w))).map fun (g, v) => mulF g ((s.core k).exact.eval 256 v))))) s

/-- VEC_RSUM (R268, R334). -/
def execVecRsum (k c : Nat) (w : W64) (s : State) : Host.Outcome State Fault Refusal := vecRed k c w 0 addF s
/-- VEC_RMAX (R268, R334). -/
def execVecRmax (k c : Nat) (w : W64) (s : State) : Host.Outcome State Fault Refusal := vecRed k c w 1 maxF s

/-- An element of BF16, FP16 or FP32 extended to binary32; a NaN keeps its sign and fraction (R266, R335). -/
def extendF (f : Nat) (v : Nat) : W32 :=
  if f = 14 then BitVec.ofNat 32 v
  else if f = 12 then BitVec.ofNat 32 (v * 65536)
  else if (elemValue 13 v).isNaN then BitVec.ofNat 32 (v / 32768 * 2 ^ 31 + 0x7F800000 + v % 1024 * 8192)
  else toF32 (elemValue 13 v)

/-- VEC_LD (R335, R337). -/
def execVecLd (k c : Nat) (w : W64) (s : State) : Host.Outcome State Fault Refusal :=
  let x := s.ctx k c
  let va := (x.readS (fA w)).toNat
  let f := fFmt w
  let n := fmtWidth f / 8
  issue k c w (spells w 0x47 0) (vecIssue s k (
    if !(f == 12 || f == 13 || f == 14) then .refuse fltFmtRole
    else if badAddr va (64 * n) n then .refuse fltArgRange
    else match s.readAt k va (64 * n) with
    | .ok bs => .go ((s.touchAt k va (64 * n)).putV k c (fD w) ((List.range 64).map fun l => extendF f (leNat ((bs.drop (n * l)).take n))))
    | .error e =>
      let (vs, t) := (List.range 64).foldl (fun (vs, t) _ => let (v, t) := t.free; (vs ++ [v.truncate 32], t)) (([] : List W32), s)
      .go ((t.faultAt k c x.bind e.code).putV k c (fD w) vs))) s

/-- VEC_ST (R266, R336, R337): with a converting format, each lane is a conversion that the named tracker observes. -/
def execVecSt (k c : Nat) (w : W64) (s : State) : Host.Outcome State Fault Refusal :=
  let x := s.ctx k c
  let va := (x.readS (fA w)).toNat
  let f := fFmt w
  let n := fmtWidth f / 8
  let d := x.readS (fD w)
  let sc := if fD w = 0 then FV.ofInt 1 else f32 (d.truncate 32)
  let z := if fD w = 0 then 0 else (d.extractLsb' 32 16).toInt
  let lanes := x.readV (fB w)
  issue k c w (spells w 0x48 0) (vecIssue s k (
    if !([5, 7, 8, 9, 12, 14].contains f) then .refuse fltFmtRole
    else if !(FV.zero.lt sc && sc.isFinite) || (z != 0 && !fmtIsInt f) then .refuse fltArgRange
    else if badAddr va (64 * n) n then .refuse fltArgRange
    else match s.writableAt k va (64 * n) with
    | some e => .go (s.faultAt k c x.bind e.code)
    | none =>
      if f = 14 then .go (s.writeAt k va (lanes.flatMap fun v => leBytes 4 v.toNat))
      else
        let cs := lanes.map fun v => convert f (f32 v) sc z (bit (fImm w) 7)
        let obs := ((List.range 64).zip (lanes.zip cs)).map fun (l, v, cv) => obsOf f l (f32 v) sc z cv
        .go (((s.writeAt k va (cs.flatMap fun cv => leBytes n cv.code)).convEffects k x.bind cs).observe k
          (if bit (fImm w) 6 then some (bits (fImm w) 0 6) else none) obs))) s

/-- VEC_BCAST (R334). -/
def execVecBcast (k c : Nat) (w : W64) (s : State) : Host.Outcome State Fault Refusal :=
  issue k c w (spells w 0x49 0)
    (vecIssue s k (.go (s.putV k c (fD w) (List.replicate 64 (((s.ctx k c).readS (fA w)).truncate 32))))) s

/-- VEC_TLOAD (R271, R338). -/
def execVecTload (k c : Nat) (w : W64) (s : State) : Host.Outcome State Fault Refusal :=
  let x := s.ctx k c
  let a := (x.readS (fA w)).toNat
  let p := x.readS (fB w)
  let xmin : W32 := p.extractLsb' 0 32
  let invw : W32 := p.extractLsb' 32 32
  let y := s.core k
  issue k c w (spells w 0x4A 0) (vecIssue s k (
    if a % 8 != 0 || !inScratch a 2048 then .refuse fltArgRange
    else if !(f32 xmin).isFinite || !((f32 invw).isFinite && FV.zero.lt (f32 invw)) then .refuse fltArgRange
    else
      let base := if bit (fImm w) 0 then 256 else 0
      let es := (List.range 256).foldl (fun m i => sput 0 m (base + i) (BitVec.ofNat 64 (readNat y.scratch (a + 8 * i) 8))) y.exact.entries
      let t := if base = 0 then { y.exact with entries := es, actXmin := xmin, actInvw := invw }
               else { y.exact with entries := es, derXmin := xmin, derInvw := invw }
      .go (s.setCore k { y with exact := t }))) s

/-- VEC_SADD (R339): it is in flight until each of its adds has left its bank queue, as ARR.CAM is (DEDUCED, log 63). -/
def execVecSadd (k c : Nat) (w : W64) (s : State) : Host.Outcome State Fault Refusal :=
  let x := s.ctx k c
  let y := s.core k
  let adds := ((x.readV (fA w)).zip (x.readV (fB w))).map fun (v, e) => ({ entry := e.toNat % 65536, value := v, src := 4, id := y.nextId } : ScatAdd)
  issue k c w (spells w 0x4B 0)
    (vecIssue s k (.go ((s.setCore k { y with scat := y.scat.present adds }).launch k c .vec 3 [] [] .scatter))) s

end Sys2Proof.Machine
end

