-- ==== Sys2Proof/Machine/Quant.lean ====
section
/-! DEFINITION. The QUANT instructions (R152 to R169, R626) and GUARD.SEL (R237, R238, R350). -/

namespace Sys2Proof.Machine

/-! ### Waiting for earlier conversions (R157) -/

/-- An instruction in flight that has conversions to make into tracker `n`: a drained word is not converted (R147). -/
def InFlight.observes (o : InFlight) (n : Nat) : Bool :=
  match o.job with
  | .tile j => j.kind != .guard && !(readEpi j.epi.toNat).drain && tTrk j.word == some n && !(j.words.isEmpty && j.overflow.isNone && j.next == j.tiles)
  | .list j => j.trk == some n && decide (j.next < j.n)
  | .kv j => bits j.desc.toNat 166 1 == 1 && bits j.desc.toNat 160 6 == n && !j.done
  | _ => false

/-- A QUANT instruction on the trackers that meet a test waits for their observers. -/
def quantIssue (s : State) (k : Nat) (names : Nat → Bool) (r : Issued) : Issued :=
  if (s.core k).ops.any fun o => (List.range 64).any fun n => names n && o.observes n then .hold else unitIssue s k .quant r

/-! ### Trackers -/

/-- The history entries of tracker `t`'s slot `i` in every channel emptied. -/
def Core.emptySlots (c : Core) (t : Tracker) (slots : List Nat) : Core :=
  { c with history := (List.range (t.cm1 + 1)).foldl (fun m ch =>
      slots.foldl (fun m i => sput emptySlot m (t.tbase + ch * (t.nm1 + 2) + i) emptySlot) m) c.history }

/-- The tracker that a descriptor names (R154); none where R155 refuses it. -/
def readTracker (v : Nat) : Option Tracker :=
  let t : Tracker := { tbase := bits v 0 12, cm1 := bits v 12 12, nm1 := bits v 24 4, tfmt := bits v 28 4, asym := bit v 32, psfmt := bits v 33 2
                       margin := BitVec.ofNat 32 (bits v 64 32) }
  let m := f32 t.margin
  if 4096 < t.tbase + (t.cm1 + 1) * (t.nm1 + 2) || !(m.isFinite && !m.lt (FV.ofInt 1) && !(FV.ofInt 16).lt m)
    || decide (14 ≤ t.tfmt) || (t.asym && !fmtIsInt t.tfmt) || (t.asym && t.psfmt != 3) || (!t.asym && t.psfmt == 3) || t.psfmt == 0
    || bits v 35 29 != 0 || bits v 96 32 != 0 then none
  else some t

/-- QUANT_CFG (R154, R155). -/
def execQuantCfg (k c : Nat) (w : W64) (s : State) : Host.Outcome State Fault Refusal :=
  let a := ((s.ctx k c).readS (fA w)).toNat
  let n := bits (fImm w) 0 6
  let x := s.core k
  issue k c w (spells w 0x60 0) (quantIssue s k (· == n) (
    if a % 16 != 0 || !inScratch a 16 then .refuse fltArgRange
    else match readTracker (readNat x.scratch a 16) with
    | none => .refuse fltArgRange
    | some t => .go ((s.setCore k ((x.emptySlots t (List.range (t.nm1 + 2))).setTracker n t)).launch k c .quant 5 [] [] .plain))) s

/-- The step of one tracker closes (R158). -/
def Core.closeStep (x : Core) (n : Nat) : Core :=
  let t := x.tracker n
  let p := (t.ptr + 1) % (t.nm1 + 2)
  (x.emptySlots t [p]).setTracker n
    { t with ptr := p, filled := min (t.filled + 1) (t.nm1 + 1), curMax := 0xFF800000#32, curMin := 0x7F800000#32
             sse := 0, count := 0, clip := 0, nonfin := 0 }

/-- QUANT_STEP (R158, R626). -/
def execQuantStep (k c : Nat) (w : W64) (s : State) : Host.Outcome State Fault Refusal :=
  let m := ((s.ctx k c).readS (fA w)).toNat
  issue k c w (spells w 0x61 0) (quantIssue s k (bit m) (
    .go ((s.setCore k (((List.range 64).filter (bit m)).foldl Core.closeStep (s.core k))).launch k c .quant 5 [] []
      (if m = 0 then .empty else .plain)))) s

/-- QUANT_CLR (R169, R626). -/
def execQuantClr (k c : Nat) (w : W64) (s : State) : Host.Outcome State Fault Refusal :=
  let m := ((s.ctx k c).readS (fA w)).toNat
  let clr := fun (x : Core) n => x.setTracker n { x.tracker n with sse := 0, count := 0, clip := 0, nonfin := 0 }
  issue k c w (spells w 0x62 0) (quantIssue s k (bit m) (
    .go ((s.setCore k (((List.range 64).filter (bit m)).foldl clr (s.core k))).launch k c .quant 5 [] []
      (if m = 0 then .empty else .plain)))) s

/-- The two conditions of R167. -/
def Tracker.passes (t : Tracker) (bound : FV) (limit : Nat) : Bool :=
  !(bound.mul (FV.ofInt t.count.toNat)).lt (.num false t.sse.toNat (2 ^ 24)) && decide (t.clip.toNat ≤ limit)

/-- QUANT_CHECK (R167, R168): the predicate arrives when the instruction completes. -/
def execQuantCheck (k c : Nat) (w : W64) (s : State) : Host.Outcome State Fault Refusal :=
  let v := ((s.ctx k c).readS (fA w)).toNat
  let bound := f32 (BitVec.ofNat 32 (bits v 0 32))
  let n := bits (fImm w) 0 6
  let x := s.core k
  issue k c w (spells w 0x63 0) (quantIssue s k (· == n) (
    if !bound.isFinite || bound.lt FV.zero then .refuse fltArgRange
    else .go ((s.setCore k (x.dropPred c (fD w))).launch k c .quant 5 []
      [.pred (fD w) ((x.tracker n).passes bound (bits v 32 32))] .plain))) s

/-! ### Proposals (R159 to R162) -/

/-- QMAX of a target format. -/
def qmaxOf (f : Nat) : Nat :=
  if f = 0 then 1 else if f ≤ 7 then 2 ^ (fmtWidth f - 1) - 1 else if f = 8 then 448 else if f = 9 then 57344 else 1

/-- The least BF16 code not below a positive value, at most 0x7F7F (R160, R175). -/
def bf16Up (n d : Nat) : Nat :=
  if n = 0 then 0
  else
    let e := max (floorLog2 n d) (-126)
    let (a, b) := shiftFrac n d (7 - e)
    min ((e + 126).natAbs * 128 + a / b + (if a % b = 0 then 0 else 1)) 0x7F7F

/-- The least E8M0 code not below a positive value, at most 254 (R160). -/
def e8m0Up (n d : Nat) : Nat :=
  let e := floorLog2 n d
  let (a, b) := shiftFrac n d (-e)
  min (max ((if a = b then e else e + 1) + 127) 0).natAbs 254

/-- The entry proposed for channel `ch` (R159 to R161), as the bits of the PSFMT encoding. An infinite extreme, which stands for a value beyond the
binary32 range (R149), takes the largest encodable scale. -/
def Core.proposal (x : Core) (t : Tracker) (ch : Nat) : Nat :=
  let n1 := t.nm1 + 2
  let slots := ((List.range t.filled).map fun i => x.slotOf (t.tbase + ch * n1 + (t.ptr + n1 - (i + 1) % n1) % n1)).filter (· != emptySlot)
  let one := if t.psfmt = 1 then 127 else 0x3F80
  match slots with
  | [] => one
  | e :: es =>
    let hi := es.foldl (fun m e => if m.lt (f32 (e.extractLsb' 0 32)) then f32 (e.extractLsb' 0 32) else m) (f32 (e.extractLsb' 0 32))
    let lo := es.foldl (fun m e => if (f32 (e.extractLsb' 32 32)).lt m then f32 (e.extractLsb' 32 32) else m) (f32 (e.extractLsb' 32 32))
    let b := fmtWidth t.tfmt
    let lo0 := if lo.lt FV.zero then lo else FV.zero
    let hi0 := if FV.zero.lt hi then hi else FV.zero
    let raw := if t.asym then ((hi0.add lo0.negate).mul (f32 t.margin)).div (FV.ofInt ((2 ^ b - 1 : Nat) : Int))
               else ((hi.maxAbs lo).mul (f32 t.margin)).div (FV.ofInt (qmaxOf t.tfmt))
    let lim : Int := ((2 ^ (b - 1) : Nat) : Int)
    let scale := match raw with
      | .num _ n d => if t.psfmt = 1 then e8m0Up n d else bf16Up n d
      | _ => if t.psfmt = 1 then 254 else 0x7F7F
    let z := match lo0.div (elemValue 12 scale) with
      | .num g p q => max (-lim) (min (lim - 1) (-lim - sgn g (roundDiv false p q)))
      | _ => lim - 1
    if raw.isZero then one else if t.asym then scale + codeOf 16 z * 65536 else scale

/-- QUANT_PROPOSE (R159 to R163). -/
def execQuantPropose (k c : Nat) (w : W64) (s : State) : Host.Outcome State Fault Refusal :=
  let a := ((s.ctx k c).readS (fA w)).toNat
  let n := bits (fImm w) 0 6
  let x := s.core k
  let t := x.tracker n
  let eb := entryBytes t.psfmt
  issue k c w (spells w 0x64 0) (quantIssue s k (· == n) (
    if t.tfmt = 10 || t.tfmt = 12 || t.tfmt = 13 || a % eb != 0 || !inScratch a ((t.cm1 + 1) * eb) then .refuse fltArgRange
    else
      let bs := (List.range (t.cm1 + 1)).flatMap fun ch => leBytes eb (x.proposal t ch)
      .go ((s.setCore k { x with scratch := writeBytes x.scratch a bs }).launch k c .quant 5
        (complObj ((s.ctx k c).readS (fB w))) [] .plain))) s

/-! ### GUARD.SEL (R237, R238) -/

/-- A score's rank key: larger for higher scores, the same for both zeros, 0 for a NaN. -/
def scoreKey (f c : Nat) : Nat :=
  if f = 7 then (signedOf 16 c + 32769).natAbs
  else
    let m := c % 32768
    if 0x7F80 < m then 0 else if c < 32768 then 32769 + m else 32769 - m

/-- The largest threshold, of `b` bits, that at least `n` keys reach. -/
def topThreshold (keys : List Nat) (n : Nat) : Nat → Nat → Nat
  | 0, t => t
  | b + 1, t => topThreshold keys n b (if n ≤ (keys.filter fun k => decide (t + 2 ^ b ≤ k)).length then t + 2 ^ b else t)

/-- Marks the keys above a threshold, and the first `n` that equal it. -/
def markTop (t : Nat) : List Nat → Nat → List Bool
  | [], _ => []
  | k :: ks, n => if t < k then true :: markTop t ks n else if k = t ∧ 0 < n then true :: markTop t ks (n - 1) else false :: markTop t ks n

/-- The `n` highest scores (R237). -/
def topK (keys : List Nat) (n : Nat) : List Bool :=
  let t := topThreshold keys n 17 0
  markTop t keys (n - (keys.filter fun k => decide (t < k)).length)

/-- Every bit of a granule that holds a set bit (R237). -/
def widen (bs : List Bool) : List Bool := (List.range (bs.length / 8)).flatMap fun u => List.replicate 8 (((bs.drop (8 * u)).take 8).any id)

/-- A list of bits as bytes, in 32-bit words. -/
def bitmapBytes (bs : List Bool) : List Byte :=
  (List.range (ceilDiv bs.length 32 * 4)).map fun i =>
    BitVec.ofNat 8 (((List.range 8).zip ((bs.drop (8 * i)).take 8)).foldl (fun acc (u, b) => if b then acc + 2 ^ u else acc) 0)

/-- An array instruction of the core has words still to write (R238). -/
def Core.arraysBusy (x : Core) : Bool := x.ops.any fun o => match o.job with
  | .tile j => j.kind == .stream && !(j.words.isEmpty && j.overflow.isNone && j.next == j.tiles)
  | _ => false

/-- GUARD_SEL (R237, R238, R350). -/
def execGuardSel (k c : Nat) (w : W64) (s : State) : Host.Outcome State Fault Refusal :=
  let x := s.core k
  let a := ((s.ctx k c).readS (fA w)).toNat
  let t := ((s.ctx k c).readS (fB w)).toNat
  let (sa, ba) := (bits a 0 22, bits a 32 22)
  let nn := bits (fImm w) 0 17
  let top := bit (fImm w) 17
  let f := fFmt w
  let kk := bits t 32 17
  issue k c w (spells w 0x70 0) (unitIssue s k .guard (
    if !(f == 7 || f == 12) then .refuse fltFmtRole
    else if nn % 8 != 0 || decide (65536 < nn) || (top && nn != 0 && (kk == 0 || decide (nn < kk)))
      || (f == 12 && isNaN32 (BitVec.ofNat 32 (bits t 0 32))) || sa % 2 != 0 || ba % 4 != 0
      || !inScratch sa (2 * nn) || !inScratch ba (ceilDiv nn 32 * 4) then .refuse fltArgRange
    else if nn = 0 then .go (s.launch k c .guard 6 [] [] .empty)
    else if x.arraysBusy || x.vecStalled then .hold
    else
      let scores := (List.range nn).map fun i => readNat x.scratch (sa + 2 * i) 2
      let sel :=
        if top then topK (scores.map (scoreKey f)) kk
        else scores.map fun c => if f = 7 then decide (signedOf 32 t < signedOf 16 c) else (f32 (BitVec.ofNat 32 (bits t 0 32))).lt (elemValue 12 c)
      .go ((s.setCore k { x with scratch := writeBytes x.scratch ba (bitmapBytes (widen sel)) }).launch k c .guard 6 [] [] .plain))) s

end Sys2Proof.Machine
end

