-- ==== Sys2Proof/Machine/Header.lean ====
section
/-! DEFINITION. Vopex packets as this module sends them (15, R438, R440, R441, R444, R445, R449, R451). -/

namespace Sys2Proof.Machine

/-! ### The header (R444) -/

end Sys2Proof.Machine

namespace Sys2Proof

open Sys2Proof.Machine

def Packet.field (p : Packet) (lo n : Nat) : Nat := bits p.hdr.toNat lo n
def Packet.cls (p : Packet) : Nat := p.field 0 4
def Packet.vc (p : Packet) : Nat := p.field 4 2
def Packet.last (p : Packet) : Bool := bit p.hdr.toNat 6
def Packet.dst (p : Packet) : Nat := p.field 8 12
def Packet.src (p : Packet) : Nat := p.field 20 12
def Packet.tag (p : Packet) : Nat := p.field 32 16
def Packet.len (p : Packet) : Nat := p.field 48 6
def Packet.hops (p : Packet) : Nat := p.field 54 5
def Packet.offset (p : Packet) : Nat := p.field 64 45
def Packet.status (p : Packet) : Nat := p.field 109 8
def Packet.key (p : Packet) : Nat := p.field 128 64
def Packet.epoch (p : Packet) : Nat := p.field 192 16
def Packet.seq (p : Packet) : Nat := p.field 208 32
def Packet.rdlen (p : Packet) : Nat := p.field 240 10

/-- Burst index and packet index of SEQ. -/
def Packet.burst (p : Packet) : Nat := p.seq / 16
def Packet.idx (p : Packet) : Nat := p.seq % 16

/-- A packet with its VC and HOPS replaced. -/
def Packet.hop (p : Packet) (vc hops : Nat) : Packet :=
  { p with hdr := BitVec.ofNat 256 (p.hdr.toNat - p.vc * 2 ^ 4 - p.hops * 2 ^ 54 + bits vc 0 2 * 2 ^ 4 + bits hops 0 5 * 2 ^ 54) }

/-- The header's reserved bits. -/
def Packet.reserved (p : Packet) : Nat := p.field 7 1 + p.field 59 5 + p.field 117 11 + p.field 250 6

/-- A malformed packet: a reserved CLASS, a reserved bit, a LEN or payload that does not match the class (R446), or a NACK of an unlisted
STATUS (R618). -/
def Packet.bad (p : Packet) : Bool :=
  let c := p.cls
  c == 0 || decide (7 < c) || p.reserved != 0 ||
    (if c = 2 ∨ c = 3 then p.payload.length != 4 * (p.len + 1) else p.len != 0 || !p.payload.isEmpty) ||
    (c == 5 && (p.status == 0 || decide (7 < p.status)))

end Sys2Proof

namespace Sys2Proof.Machine

/-- Packet classes (R445). -/
def clsRdReq : Nat := 1
def clsRdRsp : Nat := 2
def clsWr : Nat := 3
def clsWrAck : Nat := 4
def clsNack : Nat := 5
def clsProbe : Nat := 6
def clsProbeRsp : Nat := 7

/-- Classes that travel on the request channels. -/
def isRequest (c : Nat) : Bool := c == clsRdReq || c == clsWr || c == clsProbe

/-- A header's fields as numbers. -/
structure Hdr where
  cls : Nat
  vc : Nat := 0
  last : Bool := true
  dst : Nat
  src : Nat
  tag : Nat
  hops : Nat := 0
  offset : Nat := 0
  status : Nat := 0
  key : Nat := 0
  epoch : Nat := 0
  seq : Nat := 0
  rdlen : Nat := 0

/-- The packet of a header and a payload; LEN follows the payload. -/
def Hdr.packet (h : Hdr) (payload : List Byte) : Packet :=
  { hdr := BitVec.ofNat 256 (bits h.cls 0 4 + bits h.vc 0 2 * 2 ^ 4 + (if h.last then 2 ^ 6 else 0) + bits h.dst 0 12 * 2 ^ 8 +
      bits h.src 0 12 * 2 ^ 20 + bits h.tag 0 16 * 2 ^ 32 + bits (payload.length / 4 - 1) 0 6 * 2 ^ 48 + bits h.hops 0 5 * 2 ^ 54 +
      bits h.offset 0 45 * 2 ^ 64 + bits h.status 0 8 * 2 ^ 109 + bits h.key 0 64 * 2 ^ 128 + bits h.epoch 0 16 * 2 ^ 192 +
      bits h.seq 0 32 * 2 ^ 208 + bits h.rdlen 0 10 * 2 ^ 240)
    payload := payload }

/-! ### The trailer (R440, R444) -/

/-- One bit, and one byte, of a CRC-32C: the polynomial 0x1EDC6F41 with its bits reflected (PRESUMED, log 19). -/
def crcBit (c : Nat) : Nat := if c % 2 = 1 then (c / 2) ^^^ 0x82F63B78 else c / 2
def crcByte (c : Nat) (b : Byte) : Nat := crcBit (crcBit (crcBit (crcBit (crcBit (crcBit (crcBit (crcBit (c ^^^ b.toNat))))))))

/-- CRC-32C of bytes. -/
def crc32c (bs : List Byte) : W32 := BitVec.ofNat 32 (bs.foldl crcByte 0xFFFFFFFF ^^^ 0xFFFFFFFF)

end Sys2Proof.Machine

namespace Sys2Proof

open Sys2Proof.Machine

/-- The trailer of a packet, over its header and its payload (R440). -/
def Packet.crc (p : Packet) : W32 := crc32c (leBytes 32 p.hdr.toNat ++ p.payload)

end Sys2Proof

namespace Sys2Proof.Machine

/-! ### Refusals (R618) -/

/-- NACK STATUS values and the sender's faults (R618). -/
def nackKey : Nat := 1
def nackClosed : Nat := 2
def nackRange : Nat := 3
def nackUnmapped : Nat := 4
def nackGap : Nat := 5
def nackUnreach : Nat := 6
def nackPoison : Nat := 7

def nackFault (st : Nat) : FaultCode :=
  match st with
  | 1 => fltWindowKey | 2 => fltWindowClosed | 3 => fltWindowRange | 4 => fltMemUnmapped | 5 => fltStreamGap | 6 => fltFabUnreach
  | _ => fltMemUe

/-! ### Counters of the fabric block -/

def State.fabCount (s : State) (off k : Nat) : State :=
  { s with fabric := { s.fabric with cnt := sput 0 s.fabric.cnt off (cntAdd (sget 0 s.fabric.cnt off) k) } }

/-! ### Leaving (R438, R441, R451) -/

/-- The port that a transaction's packets take in a direction (R438, R441): its TAG's own, or the other while that one is not up, which takes every
packet of the direction. -/
def State.outPort (s : State) (d tag : Nat) : Nat :=
  let (a, b) := dirPorts d
  let (own, other) := if tag % 2 = 0 then (a, b) else (b, a)
  if s.vport own = 1 then own else if s.vport other = 1 then other
  else if s.vport own = 2 then own else other

/-- A packet leaves on a port, its trailer behind it (R440, R444). -/
def State.sendOn (s : State) (port : Nat) (p : Packet) : State := s.emit (.packet port p p.crc)

def Path.is (x : Path) (d : Nat) (q : Packet) : Bool := x.dir == d && x.src == q.src && x.dst == q.dst && x.tag == q.tag

/-- The port of a packet in a direction: that of its burst's earlier packets while it is up, for a transaction moves over at a burst boundary (R441). -/
def State.pathPort (s : State) (d : Nat) (q : Packet) : Nat :=
  match s.fabric.paths.find? (·.is d q) with
  | some x => if x.burst = q.burst ∧ s.vport x.port = 1 then x.port else s.outPort d q.tag
  | none => s.outPort d q.tag

/-- A packet leaves in a direction; the port stays its burst's until the last packet (R441, R448). -/
def State.sendVia (s : State) (d : Nat) (q : Packet) : State :=
  let n := s.pathPort d q
  let others := s.fabric.paths.filter fun x => !x.is d q
  let paths := if q.last then others else others ++ [{ dir := d, src := q.src, dst := q.dst, tag := q.tag, burst := q.burst, port := n }]
  { s with fabric := { s.fabric with paths := paths } }.sendOn n q

/-! ### Outputs that are busy (R452) -/

/-- Packets in input buffers that wait for an output and VC, `key` direction * 4 + VC. -/
def waitsFor (key : Nat) (e : Nat × Packet) : Bool := e.1 * 4 + e.2.vc == key

/-- Every packet that waits for an output and VC: in the input buffers, of the module's own, and parked. -/
def State.waitingAt (s : State) (key : Nat) : List Packet :=
  (List.range 12).flatMap (fun n => ((sget [] s.fabric.inbuf n).filter (waitsFor key)).map (·.2)) ++ sget [] s.fabric.locals key ++
    (sget [] s.fabric.parked key).map (·.2)

/-- A response waits for an output: it is served before the requests. -/
def State.responseWaits (s : State) (d : Nat) : Bool := !(s.waitingAt (4 * d + 2) ++ s.waitingAt (4 * d + 3)).isEmpty

/-- A packet cannot leave at once although its output is free: a request while a response waits for that output, and one whose transaction has a packet
that waits there (R448, R452). -/
def State.mustWait (s : State) (d : Nat) (q : Packet) : Bool :=
  (isRequest q.cls && s.responseWaits d) || (s.waitingAt (4 * d + q.vc)).any fun x => x.src == q.src && x.tag == q.tag

/-- VC of a packet that leaves on a hop (R445, R449): bit 0 set by a dateline, cleared by a turn. -/
def vcOf (cls old : Nat) (dateline turn : Bool) : Nat :=
  (if isRequest cls then 0 else 2) + (if dateline then 1 else if turn then 0 else old % 2)

/-- A packet of the module's own on its first hop: out, or waiting for its output, or none where R451 refuses it. -/
def State.inject (s : State) (h : Hdr) (payload : List Byte) : Option State :=
  match s.hopOf h.dst with
  | .out d dl =>
    let q := { h with src := s.fabric.id, hops := 1, vc := vcOf h.cls 0 dl true }.packet payload
    let key := 4 * d + q.vc
    if s.mustWait d q then some { s with fabric := { s.fabric with locals := sput [] s.fabric.locals key (sget [] s.fabric.locals key ++ [q]) } }
    else some (s.sendVia d q)
  | _ => none

/-- A response of the module's own; one that cannot leave is dropped and counted (R451). -/
def State.respond (s : State) (h : Hdr) (payload : List Byte) : State := (s.inject h payload).getD (s.fabCount 0x100 1)

/-- A NACK of a packet back to its source (R445, R456). -/
def State.nackTo (s : State) (p : Packet) (status : Nat) : State :=
  (s.fabCount 0x10C 1).respond
    { cls := clsNack, dst := p.src, src := 0, tag := p.tag, offset := p.offset, status := status, seq := p.seq } []

end Sys2Proof.Machine
end

