-- ==== Sys2Proof/Machine/Spill.lean ====
section
/-! DEFINITION. Tier F: Winnow's import table, transfers that fail, and units that are lost (13, R393; 15, R463 to R465). -/

namespace Sys2Proof.Machine

/-! ### LOST units (R465) -/

/-- Marks units LOST in every partition and reports them toward each partition that holds one (R465). -/
def State.loseUnits (s : State) (owner : Nat) (sel : PUnit → Bool) : State :=
  let hit (u : PUnit) : Bool := u.tier == .F && u.owner == owner && !u.lost && sel u
  s.parts.foldl (fun s e =>
    let n := (e.2.mem.units.filter fun x => hit x.2).length
    if n = 0 then s
    else
      let m := s.mem e.1
      (s.setMem e.1 { m with units := m.units.map fun x => if hit x.2 then (x.1, { x.2 with lost := true }) else x }).event 0x000F owner n [e.1]) s

/-! ### Winnow's import table (R393, R464) -/

/-- A Tier F place lies in the spill window of an import entry, on another module (R393). -/
def State.inSpillWin (s : State) (n frame size : Nat) : Bool :=
  let e := s.spillWin n
  let off := frame % 2 ^ 29 * 65536
  e.module == frame / 2 ^ 29 && e.module != s.fabric.id && decide (e.ebase ≤ off) && decide (off + size ≤ e.ebase + e.size)

/-! ### Losses in Tier F (R465) -/

/-- Winnow's window on a module that covers an exposure offset, by its import-table entry (R464). -/
def State.spillEntry (s : State) (owner off : Nat) : Option Nat :=
  (s.parts.findSome? fun e => (e.2.mem.units.find? fun x =>
    x.2.tier == .F && x.2.owner == owner && decide (x.2.exposure ≤ off) && decide (off < x.2.exposure + x.2.size)).map fun x => x.2.die).orElse fun _ =>
  (s.fabric.imports.find? fun e => e.2.module == owner && decide (e.2.ebase ≤ off) && decide (off < e.2.ebase + e.2.size)).map (·.1)

/-- A transfer to a spill window is refused for its key or its closing: every unit in that window is LOST (R465). -/
def State.spillRefused (s : State) (owner off : Nat) : State :=
  match s.spillEntry owner off with
  | none => s
  | some d => s.loseUnits owner fun u => u.die == d

/-- Whether Winnow holds units at an owner. -/
def State.holdsAt (s : State) (owner : Nat) : Bool := s.parts.any fun e => e.2.mem.units.any fun x => x.2.tier == .F && x.2.owner == owner && !x.2.lost

/-- A transfer to an owner of Tier F units met FLT_FAB_UNREACH or FLT_FAB_TIMEOUT: Winnow sends three PROBEs (R465). -/
def State.startProbes (s : State) (owner : Nat) : State :=
  if s.holdsAt owner && !s.fabric.probing.contains owner then
    let s := { s with fabric := { s.fabric with probing := s.fabric.probing ++ [owner] } }
    (List.range 3).foldl (fun s i => (s.inject { cls := clsProbe, dst := owner, src := 0, tag := 0, seq := 16 * i } []).getD s) s
  else s

/-- SPILL_PROBE_TIMEOUT (R465): none of the three PROBEs was answered, or no PROBE could leave for the owner. -/
def execSpillProbeTimeout (owner : Nat) (s : State) : Host.Outcome State Fault Refusal :=
  if s.fabric.probing.contains owner || s.noRoute owner then
    .next (({ s with fabric := { s.fabric with probing := s.fabric.probing.filter (· != owner) } }).loseUnits owner fun _ => true)
  else .next s

/-! ### Transfers that fail inside a step (R393, R463) -/

/-- A refusal for key or closing loses the units of its window, and an owner without answer is probed (R465). -/
def State.spillFailed (s : State) (u : PUnit) (f : FaultCode) : State :=
  if f = fltWindowKey ∨ f = fltWindowClosed then s.loseUnits u.owner fun x => x.die == u.die
  else if f = fltFabUnreach ∨ f = fltFabTimeout then s.startProbes u.owner
  else s

/-- A transfer of a Tier F unit inside a step fails: the unit cannot be reached in this step (R393, R463, R465). -/
def State.cutOff (s : State) (p va : Nat) (f : FaultCode) : State :=
  match (s.mem p).unitAt va with
  | some (base, u) =>
    if u.tier = .F ∧ u.lost = false then
      let s := s.spillFailed u f
      match (s.mem p).unitAt va with
      | some (_, u) => s.setMem p ((s.mem p).setUnit base { u with cut := f })
      | none => s
    else s
  | none => s

/-- What befalls a partition's memory inside a step: errors of its storage (R526, R527), and transfers of Tier F units that the fabric does not
complete (R393, R463). -/
def State.strike (s : State) (p : Nat) : MemErr → State
  | .fab va f => s.cutOff p va (fabCode f)
  | .seq a b => (s.strike p a).strike p b
  | e => s.memError p e

/-- Something among what befalls a step is a transfer that fails. -/
def memCuts : MemErr → Bool
  | .fab _ _ => true
  | .seq a b => memCuts a || memCuts b
  | _ => false

/-- After the step, a transfer of the unit is tried anew (R393). -/
def State.mend (s : State) (p : Nat) (e : MemErr) : State :=
  if memCuts e then s.setMem p { s.mem p with units := (s.mem p).units.map fun (x : Nat × PUnit) => (x.1, { x.2 with cut := 0 }) } else s

/-- The outcome of a step inside which something may befall the memory of a partition. -/
def mended (p : Option Nat) (e : MemErr) (o : Host.Outcome State Fault Refusal) : Host.Outcome State Fault Refusal :=
  match p, o with
  | some p, .next t => .next (t.mend p e)
  | _, o => o

end Sys2Proof.Machine
end

