-- ==== Sys2Proof/Machine/Dma.lean ====
section
/-! DEFINITION. The DMA engine: DMA.COPY, DMA.LIN, DMA.LIST (03, R49 to R67; 06, R171 to R178; 07, R214 to R217; 11, R340 to R347; 12, R381 to
R385). -/

namespace Sys2Proof.Machine

/-! ### The DMA descriptor (R341) -/

structure DmaDesc where
  src : Nat
  dst : Nat
  row0 : Nat
  nrows : Nat
  drow0 : Nat
  win : Nat
  comp : Nat
  sums : Bool
  csums : Bool
  rstride : Nat
  cstride : Nat
  ovfInf : Bool
  trk : Option Nat
  mcg : Nat
  done : Option Nat
  rsum : Nat
  csum : Nat
  sclSrc : Nat
  reserved : Bool
deriving DecidableEq, Repr

/-- The 64 bytes `v` of a DMA descriptor, with the row offset `b` added to ROW0 and DROW0 modulo 2^32. -/
def readDma (v b : Nat) : DmaDesc :=
  { src := bits v 0 48, dst := bits v 64 48, row0 := (bits v 128 32 + b) % 2 ^ 32, nrows := bits v 160 32
    drow0 := (bits v 192 32 + b) % 2 ^ 32, win := bits v 224 16, comp := bits v 256 2, sums := bit v 258, csums := bit v 259
    rstride := if bit v 260 then 16 else 4, cstride := if bit v 261 then 16 else 4, ovfInf := bit v 262
    trk := if bit v 269 then some (bits v 263 6) else none, mcg := bits v 270 8
    done := if bit v 295 then some (bits v 278 17) else none
    rsum := bits v 320 48, csum := bits v 384 48, sclSrc := bits v 448 48
    reserved := bits v 48 16 != 0 || bits v 112 16 != 0 || bits v 240 16 != 0 || bits v 296 24 != 0 || bits v 368 16 != 0
      || bits v 432 16 != 0 || bits v 496 16 != 0 }

/-! ### A copy in progress -/

/-- How far a DMA instruction has come: the state it has made, the fault that stopped it (R340), the blocks whose tags differed (R177), the row
and column sums of the codes written (R171), and whether it named an address that names nothing (R299) or, for a multicast, one outside the
scratchpad (R382). -/
structure Run where
  s : State
  stop : Option FaultCode := none
  skew : Bool := false
  rowSums : Sparse Int := []
  colSums : Sparse Int := []
  hole : Bool := false
  high : Bool := false

/-- Who runs it: the core and its item, and the cores that a multicast delivers to (R381). -/
structure DmaBy where
  k : Nat
  ctx : Nat
  bind : Option (Nat × Nat)
  targets : List Nat
deriving DecidableEq, Repr

/-- A read of `n` bytes; after a stop, what would be read, with no access made. -/
def Run.get (r : Run) (by' : DmaBy) (va n : Nat) : Run × List Byte :=
  let r := { r with hole := r.hole || reachesHole va n }
  match r.stop, r.s.readAt by'.k va n with
  | some _, .ok bs => (r, bs)
  | some _, .error _ => (r, List.replicate n 0)
  | none, .ok bs => ({ r with s := r.s.touchAt by'.k va n }, bs)
  | none, .error f => ({ r with stop := some f.code }, List.replicate n 0)

/-- The destination names `n` bytes, whether or not they come to be written (R299, R382). -/
def Run.reach (r : Run) (va n : Nat) : Run :=
  { r with hole := r.hole || reachesHole va n, high := r.high || (n != 0 && decide (0x300000 < va + n)) }

/-- A write of bytes; those before a failure stay written (R340). A write into the scratchpad reaches every target. -/
def Run.put (r : Run) (by' : DmaBy) (va : Nat) (bs : List Byte) : Run :=
  let r := r.reach va bs.length
  if r.stop.isSome then r
  else if va < 0x300000 then { r with s := by'.targets.foldl (fun s t => s.writeAt t va bs) r.s }
  else
    let (s, f) := r.s.writeUpTo by'.k va bs
    { r with s := s, stop := f.map MemFail.code }

/-- How many of `n` bytes at an address a write of the instruction stores before it fails (R340). -/
def Run.room (r : Run) (by' : DmaBy) (va n : Nat) : Nat :=
  if r.stop.isSome then 0
  else if va < 0x300000 then n
  else match r.s.partOf by'.k with
    | none => 0
    | some p => match r.s.check p false va n with
      | none => n
      | some (_, stop) => stop - va

/-- The cores of the partition that a DMA instruction's scratchpad writes reach: the issuer, and the members of group `g` (R381). -/
def State.dmaTargets (s : State) (k g : Nat) : List Nat :=
  if g = 0 then [k]
  else k :: (match s.partOf k with
    | some p => (s.part p).cores.filter fun j => j != k && bit (sget 0 (s.core j).mcast (g / 32)).toNat (g % 32)
    | none => [])

/-! ### Source elements (R342) -/

/-- A source element: its code, the scale entry that covers it, and its exact value. -/
structure SrcEl where
  code : Nat
  ent : SEnt
  val : FV
deriving DecidableEq, Repr

/-- s × (q - z), ±s, or the format value times its scale (R342). -/
def srcEl (f : Nat) (e : SEnt) (c : Nat) : SrcEl := { code := c, ent := e, val := e.s.mul (unitValue f c e.z) }

/-- A part of the source on its way to one destination block: elements by row (none beyond the source), the entries of its rows, whether the
source's map leaves it out, and whether its tags differ. -/
structure Chunk where
  els : List (List (Option SrcEl))
  ents : List SEnt := List.replicate 32 .one
  absent : Bool := false
  skew : Bool := false
deriving DecidableEq, Repr

/-- Where block `(i, j)` of a plane-layout tensor lies, and its DATA_IDX under a map; none for an absent block (R56, R59). -/
def Run.place (r : Run) (by' : DmaBy) (t : Tensor) (i j : Nat) : Run × Option (Nat × Option Nat) :=
  if t.mapEn then
    let (r, bs) := r.get by' (t.mbase + 4 * (i * t.bcols + j)) 4
    let v := leNat bs
    (r, if bit v 31 then some (t.base + bits v 0 31 * t.blockBytes, some (bits v 0 31)) else none)
  else (r, some (t.base + i * t.stride + j * t.blockBytes, none))

/-- The bytes of the scale record of block `(i, j)`: one entry, or the 32 of SGRAN 0. -/
def recBytes (t : Tensor) : Nat := if t.sgran = 0 then 32 * entryBytes t.sfmt else entryBytes t.sfmt

/-- The raw entries of the 32 stored rows that a record spells. -/
def recRaws (t : Tensor) (bs : List Byte) : List Nat :=
  let eb := entryBytes t.sfmt
  if t.sgran = 0 then (List.range 32).map fun r => leNat ((bs.drop (eb * r)).take eb) else List.replicate 32 (leNat bs)

/-- The 32 scale entries of block `(i, j)`, from the record at the address of R63 shifted by `off`. -/
def Run.record (r : Run) (by' : DmaBy) (t : Tensor) (a : Nat) : Run × List SEnt :=
  if t.sfmt = 0 then (r, List.replicate 32 .one)
  else
    let (r, bs) := r.get by' a (recBytes t)
    (r, (recRaws t bs).map (scaleEntry t.sfmt t.fmt))

/-- The codes that the planes of a block spell, plane 0 the top bit (R47). -/
def planeCodes (b : Nat) (bs : List Byte) : List (List Nat) :=
  let words := (List.range b).map fun p => (List.range 32).map fun r => leNat ((bs.drop (128 * p + 4 * r)).take 4)
  (List.range 32).map fun r => (List.range 32).map fun c =>
    ((List.range b).zip words).foldl (fun acc (p, ws) => if bit (ws.getD r 0) c then acc + 2 ^ (b - 1 - p) else acc) 0

/-- The word of one row in plane `p` of a `b`-bit format. -/
def rowWord (b p : Nat) (codes : List Nat) : Nat :=
  ((List.range 32).zip codes).foldl (fun acc (c, q) => if bit q (b - 1 - p) then acc + 2 ^ c else acc) 0

/-- The bytes of the first rows of plane `p`. -/
def planeRows (b p : Nat) (rows : List (List Nat)) : List Byte := rows.flatMap fun q => leBytes 4 (rowWord b p q)

/-- Source block `(i, j)` of a plane-layout tensor: the elements that lie in the tensor. -/
def Run.planeChunk (r : Run) (by' : DmaBy) (t : Tensor) (i j : Nat) : Run × Chunk :=
  let inside := fun row c => decide (32 * i + row < t.rows) && decide (32 * j + c < t.cols)
  let (r, at') := r.place by' t i j
  match at' with
  | none =>
    (r, { absent := true
          els := (List.range 32).map fun row => (List.range 32).map fun c =>
            if inside row c then some { code := 0, ent := .one, val := FV.zero } else none })
  | some (a, idx) =>
    let (r, ents) := r.record by' t (t.scaleAddr i j 0 idx)
    let (r, bs) := r.get by' a t.blockBytes
    let codes := planeCodes t.width bs
    (r, { ents := ents, skew := t.skewed
          els := (List.range 32).map fun row => (List.range 32).map fun c =>
            if inside row c then some (srcEl t.fmt (ents.getD row .one) ((codes.getD row []).getD c 0)) else none })

/-- One row of 32 columns of an element-layout tensor, each element under its entry (R50, R62). -/
def Run.elemRow (r : Run) (by' : DmaBy) (t : Tensor) (row j : Nat) : Run × List (Option SrcEl) :=
  let n := min 32 (t.cols - 32 * j)
  let w := t.width / 8
  let (r, e) := if t.sfmt = 0 then (r, SEnt.one) else
    let (r, bs) := r.get by' (t.scaleAddr (row / 32) j (row % 32) none) (entryBytes t.sfmt)
    (r, scaleEntry t.sfmt t.fmt (leNat bs))
  let (r, bs) := r.get by' (t.elemAddr row (32 * j)) (n * w)
  (r, (List.range 32).map fun c => if c < n then some (srcEl t.fmt e (leNat ((bs.drop (w * c)).take w))) else none)

/-- `n` rows from row `row` on, 32 columns, of an element-layout tensor. -/
def Run.elemChunk (r : Run) (by' : DmaBy) (t : Tensor) (row n j : Nat) : Run × Chunk :=
  let (r, rows) := (List.range n).foldl (fun (r, acc) i =>
    let (r, x) := r.elemRow by' t (row + i) j
    (r, acc ++ [x])) (r, ([] : List (List (Option SrcEl))))
  (r, { els := rows ++ List.replicate (32 - n) (List.replicate 32 none) })

/-- The 32 rows from source row `row` on (of which `n` belong to the copy), block column `j`. -/
def Run.chunk (r : Run) (by' : DmaBy) (t : Tensor) (row n j : Nat) : Run × Chunk :=
  if t.elem then r.elemChunk by' t row n j else r.planeChunk by' t (row / 32) j

/-- Chunks side by side: the `m` source blocks that a packed destination block takes (R186). -/
def Run.wide (r : Run) (by' : DmaBy) (t : Tensor) (row n j m : Nat) : Run × Chunk :=
  (List.range m).foldl (fun (r, c) u =>
    if t.bcols ≤ j + u then (r, { c with els := c.els.map fun x => x ++ List.replicate 32 none })
    else
      let (r, x) := r.chunk by' t row n (j + u)
      (r, if u = 0 then x else
        { els := (c.els.zip x.els).map fun (a, b) => a ++ b, ents := c.ents, absent := c.absent && x.absent, skew := c.skew || x.skew }))
    (r, { els := List.replicate 32 [] })

/-! ### Conversion (R32 to R39, R342 to R344, R630) -/

/-- Equal values, whatever the fraction that spells them. -/
def FV.same (a b : FV) : Bool :=
  match a, b with
  | .num s n d, .num s' n' d' => s == s' && n * d' == n' * d
  | .inf s, .inf s' => s == s'
  | .nan, .nan => true
  | _, _ => false

/-- A destination element: its code, the conversion that gave it, if one did, and whether a sparse store takes it as zero (R214); `x` is zero for
padding, for the codes of an absent block and for those that fill a packed group. -/
structure Cell where
  code : Nat := 0
  conv : Option Conv := none
  zero : Bool := true
  x : FV := FV.zero
  ent : SEnt := .one
deriving DecidableEq, Repr

/-- The code of padding under an entry (R343). -/
def padCode (f : Nat) (e : SEnt) : Nat := if fmtIsInt f then (convertY f FV.zero e.z false).code else 0

/-- One element under one entry: copied unchanged, or converted (R342); padding beyond the source (R343). -/
def dmaCell (fy : Nat) (unchanged ovfInf : Bool) (e : SEnt) (x : Option SrcEl) : Cell :=
  match x with
  | none => { code := padCode fy e, ent := e }
  | some x =>
    if unchanged then
      { code := x.code, zero := x.val.isZero || codeIsZero fy x.code, x := x.val, ent := e }
    else
      let v := if fy = 14 then convertF32 x.val e.s else convert fy x.val e.s e.z ovfInf
      { code := v.code, conv := some v, zero := x.val.isZero || codeIsZero fy v.code, x := x.val, ent := e }

/-- The rows of one MXFP4 scale group under the scale that R39 chooses. -/
def mxCells (rows : List (List (Option SrcEl))) : List (List Cell) :=
  let (e, cs) := convertMx (rows.flatten.filterMap fun x => x.map (·.val))
  let ent := scaleEntry 1 10 e
  (rows.foldl (fun (acc, cs) row =>
    let (row, cs) := row.foldl (fun (out, cs) x =>
      match x, cs with
      | some y, v :: cs => (out ++ [{ code := v.code, conv := some v, zero := y.val.isZero || codeIsZero 10 v.code, x := y.val, ent := ent }], cs)
      | _, cs => (out ++ [{ ent := ent }], cs)) (([] : List Cell), cs)
    (acc ++ [row], cs)) (([] : List (List Cell)), cs)).1

/-- Rows converted in scale groups of `n` rows. -/
def mxGroups (n : Nat) (rows : List (List (Option SrcEl))) : List (List Cell) :=
  (List.range (ceilDiv rows.length n)).flatMap fun g => mxCells ((rows.drop (g * n)).take n)

/-- What a tracker observes of a cell that a converting store writes to column `ch` (R147, R148): each code written, those of padding among them. -/
def Cell.obs (c : Cell) (f ch : Nat) : Obs :=
  let v := c.conv.getD { code := c.code }
  if f = 10 then obsOfMx ch c.ent.raw c.x v else obsOf f ch c.x c.ent.s c.ent.z v

/-! ### Writing a destination block -/

/-- The whole of one copy: who, the descriptor, the two tensors (the destination as it is stored: packed columns under COMP = 2), N, M and the
address of masks or metadata, and whether every code is copied unchanged (R342). -/
structure DmaCopy where
  by' : DmaBy
  d : DmaDesc
  x : Tensor
  y : Tensor
  cr : CRow
  n : Nat
  m : Nat
  mbase : Nat
  unchanged : Bool := false
deriving DecidableEq, Repr

/-- Destination columns are unchanged copies of MXFP4 groups (R342, R344). -/
def DmaCopy.mxCopy (C : DmaCopy) : Bool := C.x.fmt == 10 && C.y.fmt == 10 && C.x.sgran == C.y.sgran && C.x.elem == C.y.elem && C.d.comp != 2

/-- A packed row (R186, R214): the cells of each group with their positions, and the elements dropped. `lim` columns exist. -/
def packRow (n m first lim : Nat) (pad : Cell) (row : List Cell) : List (Cell × Nat) × Nat :=
  (List.range (row.length / m)).foldl (fun (out, drops) g =>
    let cells := (row.drop (g * m)).take m
    if lim ≤ first + g * m then (out ++ (List.range n).map fun p => (pad, p), drops)
    else
      let nz := (List.range m).filter fun p => !(cells.getD p {}).zero
      let kept := nz.take n
      let fill := ((List.range m).filter fun p => !kept.contains p).take (n - kept.length)
      (out ++ ((List.range m).filter fun p => kept.contains p || fill.contains p).map fun p =>
        (if kept.contains p then cells.getD p {} else { ent := pad.ent }, p), drops + (nz.length - kept.length))) (([] : List (Cell × Nat)), 0)

/-- One destination block's share of a strip: its block row, the first source row and the rows of the copy in it, where it lies, and the source
elements. -/
structure DmaPart where
  i : Nat
  row : Nat
  n : Nat
  place : Option (Nat × Option Nat)
  src : Chunk
deriving DecidableEq, Repr

/-- The metadata or mask bytes of a row: positions under the table of *Packed N:M*, or mask bits. -/
def posBytes (m : Nat) (ps : List Nat) : List Byte :=
  let eb := if m = 4 then 2 else 3
  leBytes (if m = 4 then 8 else 12) (((List.range ps.length).zip ps).foldl (fun acc (u, p) => acc + p * 2 ^ (eb * u)) 0)

/-- Elements dropped from packed rows, row by row, until the limit of R219 is exceeded: how many rows may be stored. -/
def Run.dropRows (r : Run) (by' : DmaBy) (drops : List Nat) : Run × Nat :=
  drops.foldl (fun (r, n) d =>
    if r.stop.isSome then (r, n)
    else
      let (s, overs) := r.s.chaff by'.k by'.bind d 0 0
      ({ r with s := s, stop := if overs then some fltChaffLimit else none }, if overs then n else n + 1)) (r, 0)

/-- Codes added to the row and column sums (R171). -/
def Run.addSums (r : Run) (f row col : Nat) (codes : List (List Nat)) : Run :=
  let q := codes.map fun c => c.map (intCode f)
  { r with rowSums := ((List.range q.length).zip q).foldl (fun m (i, c) => sput 0 m (row + i) (sget 0 m (row + i) + c.sum)) r.rowSums
           colSums := (List.range 32).foldl (fun m j =>
             sput 0 m (col + j) (sget 0 m (col + j) + (q.map fun c => c.getD j 0).sum)) r.colSums }

/-- The conversions of cells counted (R34 to R40). -/
def Run.converts (r : Run) (C : DmaCopy) (cells : List Cell) : Run :=
  if r.stop.isSome then r else { r with s := r.s.convEffects C.by'.k C.by'.bind (cells.filterMap (·.conv)) }

/-- The cells that a converting store has written, with their columns, observed (R147, R148, R151). -/
def Run.observed (r : Run) (C : DmaCopy) (f : Nat) (written : List (Cell × Nat)) : Run :=
  if C.unchanged then r else { r with s := r.s.observe C.by'.k C.d.trk (written.map fun (c, ch) => c.obs f ch) }

/-- Cells of a row with their columns, from column `col` on. -/
def atColumns (col : Nat) (row : List Cell) : List (Cell × Nat) := ((List.range row.length).zip row).map fun (c, e) => (e, col + c)

/-- Cells of a packed row with the columns of the elements in the destination tensor, whose COLS is the source's (R148, R186, R345). -/
def packedColumns (n m first : Nat) (row : List (Cell × Nat)) : List (Cell × Nat) :=
  ((List.range row.length).zip row).map fun (u, c) => (c.1, first + u / n * m + c.2)

/-- A plane-layout block written: scale entries that change, planes, mask or metadata (R173, R181, R186, R344). A mask lies at the block's DATA_IDX
where there is a map (R181), metadata at its linear index (R186). The scale entries are written for every row, those that the limit of R219 leaves
unwritten among them (DESIGN CHOICE, log 64). -/
def Run.writePlanes (r : Run) (C : DmaCopy) (q : DmaPart) (jp : Nat) (a : Nat) (idx : Option Nat) (newEnts : Option (List Nat))
    (rows : List (List Cell)) : Run :=
  let y := C.y
  let b := y.width
  let by' := C.by'
  let n := q.i * y.bcols + jp
  let r := match newEnts with
    | none => r
    | some raws => r.put by' (y.scaleAddr q.i jp 0 idx) ((raws.take (if y.sgran = 0 then 32 else 1)).flatMap (leBytes (entryBytes y.sfmt)))
  if C.d.comp = 2 then
    let packed := (List.range 32).map fun row =>
      let cells := rows.getD row []
      let pad : Cell := { code := padCode y.fmt (cells.headD {}).ent }
      if q.n ≤ row then packRow C.n C.m 0 0 pad cells else packRow C.n C.m (jp * 32 * C.m / C.n) C.x.cols pad cells
    let mb := if C.m = 4 then 8 else 12
    let r := (r.reach a (128 * b)).reach (C.mbase + n * 32 * mb) (32 * mb)
    let (r0, ok) := r.dropRows by' (packed.map (·.2))
    let keep := packed.take ok
    let stop := r0.stop
    let r := { r0 with stop := r.stop }
    let codes := keep.map fun x => x.1.map fun c => c.1.code
    let r := r.converts C (rows.take ok).flatten
    let r := (List.range b).foldl (fun r p => r.put by' (a + 128 * p) (planeRows b p codes)) r
    let r := if r.stop.isSome then r else r.observed C y.fmt (keep.flatMap fun x => packedColumns C.n C.m (jp * 32 * C.m / C.n) x.1)
    let r := r.put by' (C.mbase + n * 32 * mb) (keep.flatMap fun x => posBytes C.m (x.1.map (·.2)))
    { r with stop := r.stop.or stop }
  else
    let codes := rows.map fun row => row.map (·.code)
    let r := r.converts C rows.flatten
    let r := (List.range b).foldl (fun r p => r.put by' (a + 128 * p) (planeRows b p codes)) r
    let r := if r.stop.isSome then r else r.observed C y.fmt (rows.flatMap (atColumns (32 * jp)))
    let r := if C.d.sums || C.d.csums then r.addSums y.fmt (32 * q.i) (32 * jp) codes else r
    if C.d.comp = 1 then
      r.put by' (C.mbase + 128 * idx.getD n) (rows.flatMap fun row =>
        leBytes 4 (((List.range 32).zip row).foldl (fun acc (c, e) => if e.zero then acc else acc + 2 ^ c) 0))
    else r

/-- The raw entry that stands for scale 1.0 with zero point 0 (R60). -/
def oneRaw (sfmt : Nat) : Nat := if sfmt = 1 then 127 else 0x3F80

/-- A block whose tags differ: counted, the item fails, nothing is written (R177, R178). -/
def Run.skewed (r : Run) (by' : DmaBy) : Run :=
  if r.stop.isSome then r
  else
    let s := r.s.coreCount by'.k 0x2A4 1
    { r with s := if r.skew then s else s.faultAt by'.k by'.ctx by'.bind fltScaleSkew, skew := true }

/-- The destination entries of a block outside MXFP4: none stored, the stored ones (none where their tags differ), or those of SCL_SRC, which are
then written (R344). -/
def Run.dstEnts (r : Run) (C : DmaCopy) (a : Nat) : Run × Option (List SEnt × Option (List Nat)) :=
  let y := C.y
  if y.sfmt = 0 then (r, some (List.replicate 32 .one, none))
  else if C.d.sclSrc = 0 then
    let (r, es) := r.record C.by' y a
    (r, if y.skewed then none else some (es, none))
  else
    let (r, bs) := r.get C.by' (C.d.sclSrc + (a - y.sbase)) (recBytes y)
    let raws := recRaws y bs
    (r, some (raws.map (scaleEntry y.sfmt y.fmt), some raws))

/-- One block of a strip written into a plane-layout destination; `mx` are its cells where the strip chose MXFP4 scales, and `alone` says that no
present block of the strip shares its scale entries: those of an absent block then become 1.0 (R60; else the present block's stand, log 47). -/
def Run.planePart (r : Run) (C : DmaCopy) (jp : Nat) (q : DmaPart) (mx : Option (List (List Cell))) (alone : Bool) : Run :=
  match q.place with
  | none => r
  | some (a, idx) =>
    if q.src.skew then (r.reach a C.y.blockBytes).skewed C.by'
    else if q.src.absent then
      let zero := q.src.els.map fun row => row.map fun _ => ({ ent := scaleEntry C.y.sfmt C.y.fmt (oneRaw C.y.sfmt) } : Cell)
      r.writePlanes C q jp a idx (if C.y.sfmt = 0 || !alone then none else some (List.replicate 32 (oneRaw C.y.sfmt))) zero
    else if C.mxCopy then
      let rows := q.src.els.map fun row => row.map fun x => match x with
        | some x => ({ code := x.code, zero := x.val.isZero || codeIsZero 10 x.code } : Cell)
        | none => {}
      r.writePlanes C q jp a idx (some (q.src.ents.map (·.raw))) rows
    else match mx with
      | some rows => r.writePlanes C q jp a idx (some (rows.map fun row => (row.headD {}).ent.raw)) rows
      | none =>
        let (r, es) := r.dstEnts C (C.y.scaleAddr q.i jp 0 idx)
        match es with
        | none => (r.reach a C.y.blockBytes).skewed C.by'
        | some (ents, new) =>
          let rows := (ents.zip q.src.els).map fun (e, row) => row.map (dmaCell C.y.fmt C.unchanged C.d.ovfInf e)
          r.writePlanes C q jp a idx new rows

/-- The rows of a strip's element-layout destination: one row at a time, each under its own entry (R50, R344). Masks and
metadata of an element-layout tensor are laid out by its blocks of 32 rows and columns, as those of a plane-layout one (DESIGN CHOICE, log 64). -/
def Run.elemPart (r : Run) (C : DmaCopy) (jp row : Nat) (src : Chunk) (n : Nat) : Run :=
  let y := C.y
  let w := y.width / 8
  let cols := min 32 (y.cols - 32 * jp)
  if src.skew then ((List.range n).foldl (fun r i => r.reach (y.elemAddr (row + i) (32 * jp)) (w * cols)) r).skewed C.by'
  else
    let first := jp * 32 * C.m / C.n
    (List.range n).foldl (fun r i =>
      let R := row + i
      let ea := y.scaleAddr (R / 32) jp (R % 32) none
      let (r, e, new) := if y.sfmt = 0 then (r, SEnt.one, none)
        else
          let (r, bs) := r.get C.by' (if C.d.sclSrc = 0 then ea else C.d.sclSrc + (ea - y.sbase)) (entryBytes y.sfmt)
          (r, scaleEntry y.sfmt y.fmt (leNat bs), if C.d.sclSrc = 0 then none else some bs)
      let r := match new with
        | some bs => r.put C.by' ea bs
        | none => r
      let cells := (src.els.getD i []).map (dmaCell y.fmt C.unchanged C.d.ovfInf e)
      if C.d.comp = 2 then
        let (pk, drops) := packRow C.n C.m first C.x.cols { code := padCode y.fmt e } cells
        let mb := if C.m = 4 then 8 else 12
        let ma := C.mbase + ((R / 32) * y.bcols + jp) * 32 * mb + R % 32 * mb
        let r := (r.reach (y.elemAddr R (32 * jp)) (w * cols)).reach ma mb
        let (r, ok) := r.dropRows C.by' [drops]
        if ok = 0 then r
        else
          let r := r.converts C cells
          let done := r.room C.by' (y.elemAddr R (32 * jp)) (w * cols) / w
          let r := r.put C.by' (y.elemAddr R (32 * jp)) ((pk.take cols).flatMap fun c => leBytes w c.1.code)
          let r := r.observed C y.fmt (packedColumns C.n C.m first (pk.take (min cols done)))
          r.put C.by' ma (posBytes C.m (pk.map (·.2)))
      else
        let cells := cells.take cols
        let r := r.converts C cells
        let done := r.room C.by' (y.elemAddr R (32 * jp)) (w * cells.length) / w
        let r := r.put C.by' (y.elemAddr R (32 * jp)) (cells.flatMap fun c => leBytes w c.code)
        let r := r.observed C y.fmt (atColumns (32 * jp) (cells.take done))
        if C.d.comp = 1 then
          r.put C.by' (C.mbase + 128 * ((R / 32) * y.bcols + jp) + 4 * (R % 32))
            (leBytes 4 (((List.range cols).zip cells).foldl (fun acc (c, e) => if e.zero then acc else acc + 2 ^ c) 0))
        else r) r

/-- The strips of a copy's groups of 32 rows: pairs where two destination block rows share scale entries, else one each. -/
def DmaCopy.strips (C : DmaCopy) : List (List Nat) :=
  let nq := ceilDiv C.d.nrows 32
  if C.y.sgran = 2 && !C.y.elem then
    let i0 := C.d.drow0 / 32
    (List.range ((i0 + nq + 1) / 2 - i0 / 2)).map fun g => (List.range nq).filter fun q => (i0 + q) / 2 == i0 / 2 + g
  else (List.range nq).map fun q => [q]

/-- The parts of strip `qs` in destination block column `jp`, read from the source. -/
def Run.parts (r : Run) (C : DmaCopy) (jp : Nat) (qs : List Nat) : Run × List DmaPart :=
  qs.foldl (fun (r, acc) q =>
    let n := min 32 (C.d.nrows - 32 * q)
    let (r, c) := r.wide C.by' C.x (C.d.row0 + 32 * q) n (jp * C.m / C.n) (C.m / C.n)
    let i := (C.d.drow0 + 32 * q) / 32
    let (r, at') := if C.y.elem then (r, none) else r.place C.by' C.y i jp
    (r, acc ++ [{ i := i, row := C.d.drow0 + 32 * q, n := n, place := at', src := c }])) (r, ([] : List DmaPart))

/-- A part whose elements come to be written. -/
def DmaPart.live (q : DmaPart) : Bool := q.place.isSome && !q.src.absent && !q.src.skew

/-- Every source element of the strip stands under an entry equal to the one it is written under (R342). -/
def Run.agrees (r : Run) (C : DmaCopy) (jp : Nat) (qs : List Nat) : Bool :=
  let (r, ps) := r.parts C jp qs
  ps.all fun q =>
    let ents := if C.y.elem then
        (List.range q.n).map fun i =>
          if C.y.sfmt = 0 then SEnt.one
          else
            let ea := C.y.scaleAddr ((q.row + i) / 32) jp ((q.row + i) % 32) none
            scaleEntry C.y.sfmt C.y.fmt (leNat (r.get C.by' (if C.d.sclSrc = 0 then ea else C.d.sclSrc + (ea - C.y.sbase)) (entryBytes C.y.sfmt)).2)
      else match q.place with
        | some (_, idx) => ((r.dstEnts C (C.y.scaleAddr q.i jp 0 idx)).2.map (·.1)).getD []
        | none => []
    q.src.absent || (ents.zip q.src.els).all fun (e, row) => row.all fun x => match x with
      | some x => x.ent.s.same e.s && x.ent.z == e.z
      | none => true

/-- Whether a copy leaves every code unchanged: formats, layouts, scales and zero points agree (R342). -/
def Run.allAgree (r : Run) (C : DmaCopy) : Bool :=
  C.mxCopy || (C.x.fmt == C.y.fmt && C.y.fmt != 10 && C.x.elem == C.y.elem &&
    C.strips.all fun qs => (List.range C.y.bcols).all fun jp => r.agrees C jp qs)

/-- One strip in one block column. The scale that R39 chooses for an MXFP4 group of a packed store is taken over every source element that feeds the
group, those that packing drops included (DESIGN CHOICE, log 63). -/
def Run.strip (r : Run) (C : DmaCopy) (jp : Nat) (qs : List Nat) : Run :=
  let (r, ps) := r.parts C jp qs
  if C.y.elem then ps.foldl (fun r q => r.elemPart C jp q.row q.src q.n) r
  else
    let chosen : List (Nat × List (List Cell)) :=
      if C.y.fmt = 10 && !C.mxCopy then
        let l := ps.filter (·.live)
        let cells := mxGroups (match C.y.sgran with
          | 0 => 1 | 1 => 32 | _ => 64) (l.flatMap fun q => q.src.els)
        ((List.range l.length).zip l).map fun (u, q) => (q.i, (cells.drop (32 * u)).take 32)
      else []
    ps.foldl (fun r q => r.planePart C jp q ((chosen.find? (·.1 == q.i)).map (·.2)) (!ps.any fun u => u.i != q.i && u.live)) r

/-- The sums written after the last plane byte (R171, R173). -/
def Run.writeSums (r : Run) (C : DmaCopy) : Run :=
  let r := if C.d.sums then (List.range (32 * C.y.brows)).foldl (fun r u =>
    r.put C.by' (C.d.rsum + C.d.rstride * u) (leBytes 4 (codeOf 32 (sget 0 r.rowSums u)))) r else r
  if C.d.csums then (List.range (32 * C.y.bcols)).foldl (fun r c =>
    r.put C.by' (C.d.csum + C.d.cstride * c) (leBytes 4 (codeOf 32 (sget 0 r.colSums c)))) r else r

/-! ### Compressed-row destinations (R216) -/

/-- One ordinal's value and index written: the bit of each plane word, the others kept; its code is observed once it is written (R147). -/
def Run.writeOrdinal (r : Run) (C : DmaCopy) (n : Nat) (c : Cell) (index : Nat) : Run :=
  let b := fmtWidth C.cr.fmt
  let r := (List.range b).foldl (fun r p =>
    let a := C.cr.planeWord n p
    let old := match r.s.readNatAt C.by'.k a 4 with
      | .ok v => v
      | .error _ => 0
    let low := old % 2 ^ (n % 32)
    let high := old / 2 ^ (n % 32 + 1) * 2 ^ (n % 32 + 1)
    r.put C.by' a (leBytes 4 (high + (if bit c.code (b - 1 - p) then 2 ^ (n % 32) else 0) + low))) r
  let r := if r.stop.isSome then r else r.observed C C.cr.fmt [(c, 65536 * C.d.win + index)]
  r.put C.by' (C.cr.idxBase + 2 * n) (leBytes 2 index)

/-- One row of the store: its scale, its non-zeros from ordinal `ord` on, and ptr(w, i + 1). A row whose stored scale carries another tag than its
values is not written (R177, R198). A row that finds fewer ordinals below NNZ_CAP than it has non-zeros, one without any behind a full tensor among them,
stops the store (R216; DESIGN CHOICE for the empty row, log 64). -/
def Run.crowStore (r : Run) (C : DmaCopy) (i ord : Nat) (els : List (Nat × Option SrcEl)) : Run × Nat :=
  let c := C.cr
  let eb := entryBytes c.sfmt
  let pa := c.ptrBase + C.d.win * c.ptrStride + 4 * (i + 1)
  let r := r.reach pa 4
  let (r, e, new) := if c.sfmt = 0 then (r, SEnt.one, none)
    else
      let (r, bs) := r.get C.by' (if C.d.sclSrc = 0 then c.scaleBase + i * eb else C.d.sclSrc + i * eb) eb
      (r, scaleEntry c.sfmt c.fmt (leNat bs), if C.d.sclSrc = 0 then none else some bs)
  let cells := els.filterMap fun x => x.2.map fun y => (dmaCell c.fmt false C.d.ovfInf e (some y), x.1)
  let kept := cells.filter fun x => !x.1.zero
  if c.sfmt != 0 && C.d.sclSrc == 0 && c.skewed then (r.skewed C.by', ord)
  else if c.cap < ord + kept.length then ({ r with stop := r.stop.or (some fltCompFull) }, ord)
  else
    let r := match new with
      | some bs => r.put C.by' (c.scaleBase + i * eb) bs
      | none => r
    let r := r.converts C (cells.map (·.1))
    let r := ((List.range kept.length).zip kept).foldl (fun r (u, x) => r.writeOrdinal C (ord + u) x.1 x.2) r
    (r.put C.by' pa (leBytes 4 (ord + kept.length)), ord + kept.length)

/-- A compressed-row store: the source's block rows in order, each row of the range in turn. The elements of a block whose tags differ are left out,
and counted once for the block (R177, R178; DEDUCED, log 47). -/
def Run.crow (r : Run) (C : DmaCopy) : Run :=
  let d := C.d
  let w := d.win
  let js := (List.range C.x.bcols).filter fun j => j / 2048 == w
  let (r, bs) := r.get C.by' (C.cr.ptrBase + w * C.cr.ptrStride + 4 * d.drow0) 4
  ((List.range (ceilDiv (d.row0 + d.nrows) 32 - d.row0 / 32)).foldl (fun (r, ord) g =>
    let ib := d.row0 / 32 + g
    let lo := max d.row0 (32 * ib)
    let hi := min (d.row0 + d.nrows) (32 * ib + 32)
    let (r, cs) := js.foldl (fun (r, acc) j =>
      let (r, c) := r.chunk C.by' C.x (if C.x.elem then lo else 32 * ib) (hi - lo) j
      (if c.skew then r.skewed C.by' else r, acc ++ [(j, c)])) (r, ([] : List (Nat × Chunk)))
    (List.range' lo (hi - lo)).foldl (fun (r, ord) row =>
      r.crowStore C (d.drow0 + (row - d.row0)) ord ((cs.filter fun x => !x.2.skew).flatMap fun (j, c) =>
        let els := c.els.getD (if C.x.elem then row - lo else row - 32 * ib) []
        ((List.range els.length).zip els).map fun (q, e) => (32 * (j % 2048) + q, e))) (r, ord)) (r, leNat bs)).1

/-! ### The refusals (R172, R199, R217, R345) -/

/-- Why DMA.COPY is refused at issue, from its descriptor and the two it names. -/
def dmaRefusal (d : DmaDesc) (x y : Tensor) (c : CRow) (n m : Nat) : Option FaultCode :=
  let role := fun (t : Tensor) => t.fmt == 15 || (t.fmt == 14 && !t.elem)
  if role x || (if d.comp = 3 then c.fmt == 15 else role y) then some fltFmtRole
  else
    let yrows := if d.comp = 3 then c.rows else y.rows
    let b := y.width
    let sumsBad := (d.sums || d.csums) && (decide (1 < d.comp) || d.row0 != 0 || d.drow0 != 0 || d.nrows != x.rows || d.nrows != y.rows
      || y.elem || !fmtIsInt y.fmt || (d.sums && decide (2 ^ (32 - b) < 32 * y.bcols)) || (d.csums && decide (2 ^ (32 - b) < 32 * y.brows)))
    let bad := d.reserved || x.bad none || (if d.comp = 3 then c.bad else y.bad none)
      || (d.comp != 3 && x.cols != y.cols)
      || (d.comp != 3 && ((!x.elem && d.row0 % 32 != 0) || (!y.elem && d.drow0 % 32 != 0)))
      || (d.nrows % 32 != 0 && d.row0 + d.nrows != x.rows)
      || decide (x.rows < d.row0 + d.nrows) || decide (yrows < d.drow0 + d.nrows)
      || sumsBad || (d.comp == 2 && (x.cols % m != 0 || decide (n = 0)))
    if bad then some fltArgRange else none

/-! ### The whole copy -/

/-- What starting a copy answers: refused, or run as far as it goes. -/
inductive DmaAnswer where
  | refuse (f : FaultCode)
  /-- Nothing to copy (R58, R319). -/
  | empty (s : State)
  | ran (s : State) (stop : Option FaultCode) (skew : Bool)

/-- A copy from a descriptor: refused under R345, stopped at a descriptor that cannot be read (R340), or run. -/
def State.dmaCopy (s : State) (by' : DmaBy) (desc : BitVec 512) (d : DmaDesc) : DmaAnswer :=
  let k := by'.k
  if badAddr d.src 64 64 || badAddr d.dst 64 64 then .refuse fltArgRange
  else match s.readNatAt k d.src 64, s.readNatAt k d.dst 64 with
    | .error f, _ => .ran s (some f.code) false
    | _, .error f => .ran s (some f.code) false
    | .ok xn, .ok yn =>
      let yv := BitVec.ofNat 512 yn
      let x := readTensor xn
      let y := readTensor yn
      let c := readCRow yn
      let (n, m) := if d.comp = 2 then nmOf ((Config.dmaNm desc yv).toNat + 1) else (1, 1)
      match dmaRefusal d x y c n m with
      | some f => .refuse f
      | none =>
        let t := (s.touchAt k d.src 64).touchAt k d.dst 64
        if d.nrows = 0 || x.isEmpty || (d.comp != 3 && y.isEmpty) || (d.comp == 3 && (c.rows == 0 || c.cols == 0)) then .empty s
        else
          let C : DmaCopy :=
            { by' := by', d := d, x := x
              y := if d.comp = 2 then { y with cols := y.cols * n / m } else y
              cr := c, n := n, m := m, mbase := (Config.dmaMetaBase desc yv).toNat }
          let r : Run := { s := t }
          let C := if d.comp = 3 then C else { C with unchanged := r.allAgree C }
          let r := if d.comp = 3 then r.crow C
            else (C.strips.foldl (fun r qs => (List.range C.y.bcols).foldl (fun r jp => r.strip C jp qs) r) r).writeSums C
          if r.hole || (d.mcg != 0 && r.high) then .refuse fltArgRange else .ran r.s r.stop r.skew

/-- An instruction's effect after which the fabric's failure of its step is over. -/
def Issued.mended (p : Option Nat) (e : MemErr) (r : Issued) : Issued :=
  match p, r with
  | some p, .go t => .go (t.mend p e)
  | _, r => r

/-- DMA.COPY at issue. -/
def dmaCopyIssue (k c : Nat) (w : W64) (mem : MemErr) (s : State) : Issued :=
  let x := s.ctx k c
  let va := addrOf x w
  if badAddr va 64 64 then .refuse fltArgRange
  else
    let t := match s.partOf k with
      | some p => s.strike p mem
      | none => s
    match t.readNatAt k va 64 with
    | .error f => .go (((t.launch k c .dma 0 [] [] .plain).faultAt k c x.bind f.code).faultLast k)
    | .ok v =>
      let d := readDma v (x.readS (fB w)).toNat
      match t.dmaCopy { k := k, ctx := c, bind := x.bind, targets := s.dmaTargets k d.mcg } (BitVec.ofNat 512 v) d with
      | .refuse f => .refuse f
      | .empty u => .go (u.launch k c .dma 0 d.done.toList [] .empty)
      | .ran u stop skew =>
        let u := (u.touchAt k va 64).launch k c .dma 0 d.done.toList [] .plain
        let u := if skew then u.faultLast k else u
        .go (match stop with
          | some f => (u.faultAt k c x.bind f).faultLast k
          | none => u)

/-- DMA_COPY (R341 to R345). `mem` is a memory error that the copy meets (R526, R527). -/
def execDmaCopy (k c : Nat) (w : W64) (mem : MemErr) (s : State) : Host.Outcome State Fault Refusal :=
  issue k c w (spells w 0x10 0) (unitIssue s k .dma ((dmaCopyIssue k c w mem s).mended (s.partOf k) mem)) s

/-! ### DMA.LIN (R346) -/

/-- Where an access of partition memory stops, counted from its first byte, and why. -/
def State.stopAt (s : State) (k : Nat) (isRead : Bool) (va n : Nat) : Option (Nat × FaultCode) :=
  if va < 0x300000 then none
  else match s.partOf k with
    | none => some (0, fltMemUnmapped)
    | some p => (s.check p isRead va n).map fun (f, a) => (a - va, f.code)

/-- The earlier of two stops; a read comes before the write of the same byte. -/
def firstStop (a b : Option (Nat × FaultCode)) : Option (Nat × FaultCode) :=
  match a, b with
  | some (i, f), some (j, g) => if j < i then some (j, g) else some (i, f)
  | some x, none => some x
  | none, y => y

/-- DMA.LIN at issue. -/
def dmaLinIssue (k c : Nat) (w : W64) (mem : MemErr) (s : State) : Issued :=
  let x := s.ctx k c
  let n := (x.readS (fD w)).toNat
  let a := (x.readS (fA w)).toNat
  let b := (x.readS (fB w)).toNat
  let g := bits (fImm w) 18 8
  let objs := if bit (fImm w) 17 then [bits (fImm w) 0 17] else []
  if a % 4 != 0 || b % 4 != 0 || n % 4 != 0 || (n != 0 && (reachesHole a n || reachesHole b n))
    || (n != 0 && decide (a < b + n) && decide (b < a + n)) || (g != 0 && n != 0 && decide (0x300000 < b + n)) then .refuse fltArgRange
  else
    let t := match s.partOf k with
      | some p => s.strike p mem
      | none => s
    let stop := firstStop (t.stopAt k true a n) (t.stopAt k false b n)
    let len := match stop with
      | some (i, _) => i
      | none => n
    let by' : DmaBy := { k := k, ctx := c, bind := x.bind, targets := s.dmaTargets k g }
    let (r, bs) := ({ s := t } : Run).get by' a len
    let u := (r.put by' b bs).s.launch k c .dma 0 objs [] (if n = 0 then .empty else .plain)
    .go (match stop with
      | some (_, f) => (u.faultAt k c x.bind f).faultLast k
      | none => u)

/-- DMA_LIN (R346). -/
def execDmaLin (k c : Nat) (w : W64) (mem : MemErr) (s : State) : Host.Outcome State Fault Refusal :=
  issue k c w (spells w 0x11 0) (unitIssue s k .dma ((dmaLinIssue k c w mem s).mended (s.partOf k) mem)) s

/-! ### DMA.LIST (R347, R384, R385) -/

/-- DMA.LIST at issue: its descriptor is read; its entries start later. -/
def dmaListIssue (k c : Nat) (w : W64) (s : State) : Issued :=
  let x := s.ctx k c
  let va := (x.readS (fA w)).toNat
  let list := (x.readS (fB w)).toNat
  let n := bits (fImm w) 0 17
  if badAddr va 64 64 || badAddr list (16 * n) 16 || decide (65536 < n) then .refuse fltArgRange
  else match s.readNatAt k va 64 with
    | .error f => .go (((s.launch k c .dma 0 [] [] .plain).faultAt k c x.bind f.code).faultLast k)
    | .ok v =>
      let d := readDma v 0
      .go ((s.touchAt k va 64).launch k c .dma 0 d.done.toList [] 
        (if n = 0 then .empty else .list { desc := BitVec.ofNat 512 v, list := list, n := n, trk := d.trk, targets := s.dmaTargets k d.mcg }))

/-- DMA_LIST (R347). -/
def execDmaList (k c : Nat) (w : W64) (s : State) : Host.Outcome State Fault Refusal :=
  issue k c w (spells w 0x12 0) (unitIssue s k .dma (dmaListIssue k c w s)) s

/-- One entry's copy: the descriptor with SRC and DST replaced where the entry's fields are not zero (R347). -/
def State.listCopy (s : State) (k : Nat) (o : InFlight) (j : ListJob) : State × Option FaultCode × Bool :=
  let a := j.list + 16 * j.next
  match s.readNatAt k a 16 with
  | .error f => (s, some f.code, false)
  | .ok e =>
    if bits e 48 16 != 0 || bits e 112 16 != 0 then (s, some fltArgRange, false)
    else
      let v := j.desc.toNat
      let v := if bits e 0 48 = 0 then v else v / 2 ^ 48 * 2 ^ 48 + bits e 0 48
      let v := if bits e 64 48 = 0 then v else v / 2 ^ 112 * 2 ^ 112 + bits e 64 48 * 2 ^ 64 + v % 2 ^ 64
      match (s.touchAt k a 16).dmaCopy { k := k, ctx := o.ctx, bind := o.bind, targets := j.targets } (BitVec.ofNat 512 v) (readDma v 0) with
      | .refuse _ => (s, some fltArgRange, false)
      | .empty u => (u, none, false)
      | .ran u stop skew => (u, stop, skew)

/-- The next entry of a list runs. After FLT_CHAFF_LIMIT the list stores nothing further (R219). -/
def State.listEntry (s : State) (k : Nat) (o : InFlight) (j : ListJob) (mem : MemErr) : State :=
  let t := match s.partOf k with
    | some p => s.strike p mem
    | none => s
  let (u, stop, skew) := t.listCopy k o j
  let u := u.modOp k o.id fun x =>
    { x with job := .list { j with next := if stop = some fltChaffLimit then j.n else j.next + 1 }, faulted := x.faulted || stop.isSome || skew }
  (match stop with
  | some f => u.faultAt k o.ctx o.bind f
  | none => u).startFarOf k o

/-- DMA_LIST_ENTRY (R347, R384): the engine starts the next entry of a list. -/
def execDmaListEntry (k id : Nat) (mem : MemErr) (s : State) : Host.Outcome State Fault Refusal :=
  match s.opOf k id with
  | some o =>
    match o.job, o.started with
    | .list j, true => if j.n ≤ j.next then .next s else mended (s.partOf k) mem (.next (s.listEntry k o j mem))
    | _, _ => .next s
  | none => .next s

end Sys2Proof.Machine
end

