-- ==== Sys2Proof/Machine/Winnow.lean ====
section
/-! DEFINITION. Winnow (13): placement units, MEM_MAP and MEM_UNMAP, the key-value arena, sessions, epochs and moves. -/

namespace Sys2Proof.Machine

/-! ### Placement units -/

/-- The least number from `k` on, among `n` numbers, that meets a test. -/
def firstFrom (f : Nat → Bool) (n k : Nat) : Option Nat :=
  match n with
  | 0 => none
  | n + 1 => if f k then some k else firstFrom f n (k + 1)

/-- A unit inserted in ascending order of address. -/
def insertUnit (base : Nat) (u : PUnit) : List (Nat × PUnit) → List (Nat × PUnit)
  | [] => [(base, u)]
  | e :: m => if base < e.1 then (base, u) :: e :: m else e :: insertUnit base u m

/-! ### Storage (R2, R16, R402, R464) -/

/-- Die distance (R422). -/
def dieDistance (a b : Nat) : Nat := if a = b then 0 else if a + b = 3 then 2 else 1

/-- Memory parts of a die (R2): 6 stacks of 64 GB in Tier H, 12 packages of 48 GB in Tier L, and the frames of 2 MiB that lie whole in one. -/
def tierParts : Tier → Nat
  | .H => 6 | .L => 12 | .F => 0
def partFrames : Tier → Nat
  | .H => 64000000000 / 2097152 | .L => 48000000000 / 2097152 | .F => 0

/-- Number of the first frame of part `i` of a die; a tier's frames are numbered die by die, part by part (log 38). -/
def partBase (t : Tier) (die i : Nat) : Nat := (die * tierParts t + i) * partFrames t

/-- Frames at the start of a part that are not for placement: the park region of R452, 128 MiB of Tier H on each die, in its first part (log 38). -/
def parkFrames (t : Tier) (i : Nat) : Nat := if t = .H ∧ i = 0 then 64 else 0

/-- The die of a frame. -/
def frameDie (t : Tier) (n : Nat) : Nat := n / partFrames t / tierParts t

/-- The parts of a die that start-up has not left out (R583). -/
def State.partsOf (s : State) (t : Tier) (die : Nat) : List Nat :=
  (List.range (tierParts t)).filter fun i => !s.flash.repair.parts.contains (t, die, i)

/-- A frame of a local tier that can take units: it lies in a part in use, outside the park region, and is not retired (R452, R528, R583). -/
def State.frameUsable (s : State) (t : Tier) (n : Nat) : Bool :=
  t != .F && decide (n / partFrames t < 4 * tierParts t) &&
    (s.partsOf t (frameDie t n)).contains (n / partFrames t % tierParts t) &&
    decide (parkFrames t (n / partFrames t % tierParts t) ≤ n % partFrames t) && !s.frames.retired.contains (frameKey t n)

/-- The units that lie in a frame of a local tier. -/
def State.unitsIn (s : State) (t : Tier) (n : Nat) : List PUnit :=
  s.parts.flatMap fun e => (e.2.mem.units.filter fun x => x.2.tier == t && x.2.frame == n).map (·.2)

/-- A frame has room for one more unit: a page takes a whole frame, a subpage one of its 32 places. -/
def State.frameTakes (s : State) (t : Tier) (sub : Bool) (n : Nat) : Bool :=
  let us := s.unitsIn t n
  s.frameUsable t n && (if sub then us.all (·.sub) && decide (us.length < 32) else us.isEmpty)

/-- Tier L storage that Winnow holds for other ends than placement, in frames: the securing reservations (R533) and what backs spill windows (R454). -/
def State.reservedL (s : State) : Nat :=
  (s.parts.map (·.2.secPages)).sum + ((s.fabric.wins.filter fun e => e.2.owner == 16 && e.2.state != .free).map fun e => (e.2.size + 2097151) / 2097152).sum

/-- Frames of Tier L that hold a unit. -/
def State.usedL (s : State) : List Nat :=
  (s.parts.flatMap fun e => (e.2.mem.units.filter fun x => x.2.tier == .L).map (·.2.frame)).eraseDups

/-- Frames of Tier L that hold nothing, less those reserved. -/
def State.freeL (s : State) : Nat :=
  ((List.range 4).map fun d => (s.partsOf .L d).length * partFrames .L).sum -
    (((s.usedL ++ s.frames.retired.filterMap fun k => if 2 ^ 31 ≤ k ∧ k < 2 ^ 32 then some (k - 2 ^ 31) else none).filter fun n =>
      (s.partsOf .L (frameDie .L n)).contains (n / partFrames .L % tierParts .L)).eraseDups.length + s.reservedL)

/-- The lowest frame of a local tier with room on a die. -/
def State.frameOn (s : State) (t : Tier) (sub : Bool) (die : Nat) : Option Nat :=
  (s.partsOf t die).findSome? fun i =>
    firstFrom (s.frameTakes t sub) (partFrames t - parkFrames t i) (partBase t die i + parkFrames t i)

/-- The dies in order of distance from one (R422). -/
def diesFrom (die : Nat) : List Nat := (List.range 3).flatMap fun d => (List.range 4).filter fun e => dieDistance die e == d

/-- A frame of Tier L that subpages already share and that has room for one more, on the nearest die that has one: it takes nothing from what Tier L keeps
back. -/
def State.frameShared (s : State) (die : Nat) : Option (Tier × Nat × Nat) :=
  (diesFrom die).findSome? fun d => ((s.usedL.filter fun n => frameDie .L n == d && s.frameTakes .L true n).min?).map fun n => (.L, d, n)

/-- A frame with room in a local tier, on the nearest die that has one. -/
def State.frameNear (s : State) (t : Tier) (sub : Bool) (die : Nat) : Option (Tier × Nat × Nat) :=
  (diesFrom die).findSome? fun d => (s.frameOn t sub d).map fun n => (t, d, n)

/-- A Tier F place is free: in a spill window that Winnow holds, and under no other unit (R393). -/
def State.spillFree (s : State) (n frame size : Nat) : Bool :=
  s.inSpillWin n frame size && !s.parts.any fun e => e.2.mem.units.any fun x => x.2.tier == .F && x.2.die == n &&
    decide (x.2.frame * 65536 < frame * 65536 + size) && decide (frame * 65536 < x.2.frame * 65536 + x.2.size)

/-- A free Tier F place in one of the spill windows held. -/
def State.spillPlace (s : State) (size : Nat) : Option (Tier × Nat × Nat) :=
  s.fabric.imports.findSome? fun e =>
    let base := e.2.module * 2 ^ 29 + e.2.ebase / 65536
    (firstFrom (fun i => s.spillFree e.1 (base + size / 65536 * i) size) (e.2.size / size) 0).map fun i => (.F, e.1, base + size / 65536 * i)

/-- Where a new unit goes (13, "Placement as shipped"; log 13): Tier H of its die, else of the nearest die, else Tier L, else spill storage; none when
the module cannot back it (R402). -/
def State.placeFor (s : State) (sub : Bool) (die : Nat) : Option (Tier × Nat × Nat) :=
  (s.frameNear .H sub die).orElse fun _ =>
    (if s.freeL ≠ 0 then s.frameNear .L sub die else if sub then s.frameShared die else none).orElse fun _ => s.spillPlace (if sub then 65536 else 2097152)

/-- A placement unit mapped, zero-filled (R412, R487, R489); where it is placed in Tier F that is counted (R425), and its zeros are sent there (R464). None
when no storage is left for it. -/
def State.mapUnit (s : State) (p base : Nat) (sub : Bool) (die : Nat) : Option State :=
  (s.placeFor sub die).map fun (t, d, n) =>
    let u : PUnit := { sub := sub, tier := t, die := d, frame := n }
    let m := s.mem p
    let s := s.setMem p { m with units := insertUnit base u m.units, bytes := sclear m.bytes base u.size }
    if t = .F then
      (s.setPart p ((s.part p).count 0x1024 1)).startOwn { job := s.unitJob base u 0 u.size true, part := p, base := base, move := false }
    else s

/-- A placement unit freed, with its bytes, its pin and its poison (R400, R417, R489). -/
def Mem.drop (m : Mem) (base : Nat) (u : PUnit) : Mem :=
  { m with
    units := m.units.filter (·.1 != base)
    bytes := sclear m.bytes base u.size
    poison := m.poison.filter fun x => !(decide (base ≤ 64 * x) && decide (64 * x < base + u.size)) }

/-- Whether every byte of a range is mapped. -/
def Mem.mapped (m : Mem) (va n : Nat) : Bool :=
  n == 0 || (List.range' (va / 65536) ((va + n - 1) / 65536 - va / 65536 + 1)).all fun g => (m.unitAt (65536 * g)).isSome

/-- The use counted against MEM_QUOTA (R489), in 2 MiB pages. -/
def PartBlock.memUse (b : PartBlock) : Nat :=
  (b.mem.units.filter fun e => !e.2.sub).length + b.secPages + ((b.mem.units.filter fun e => e.2.sub).length + 31) / 32

/-- Whether a range meets the arena (R489). -/
def meetsArena (a : Option (Nat × Nat)) (va n : Nat) : Bool :=
  match a with
  | some (b, pages) => decide (va < b + pages * 2097152) && decide (b < va + n)
  | none => false

/-- The frame of MEM_MAP and MEM_UNMAP bodies (R481). -/
def memBody : List (Nat × Nat × Nat) := [(0x08, 0, 48), (0x10, 0, 32)]

/-- MEM_MAP (R489). Pages of a partition have no accesses yet that prefer a die: the model prefers die 0 for them, and where the storage of R402 cannot
back a page it refuses the command as a use beyond its quota (DESIGN CHOICE, log 13). -/
def execMemMap (p : Nat) (e : Entry) (s : State) : Host.Outcome State Fault Refusal :=
  partCmd p 0x05 e memBody s fun _ t =>
    let va := eBits e 0x08 0 48
    let pages := eBits e 0x10 0 32
    let b := t.part p
    if va % 2097152 ≠ 0 ∨ pages = 0 ∨ va < 0x400000 ∨ 2 ^ 48 < va + pages * 2097152 ∨ meetsArena b.arena va (pages * 2097152) = true
    then .fail t fltArgRange
    else
      let new := (List.range pages).map (fun i => va + 2097152 * i) |>.filter fun a => (b.mem.unitAt a).isNone
      if new ≠ [] ∧ b.grant.memQuota < b.memUse + new.length then .fail t fltMemQuota
      else match new.foldl (fun u a => u.bind fun u => u.mapUnit p a false 0) (some t) with
        | some u => .done u 0
        | none => .fail t fltMemQuota

/-- MEM_UNMAP (R489, R400). -/
def execMemUnmap (p : Nat) (e : Entry) (s : State) : Host.Outcome State Fault Refusal :=
  partCmd p 0x06 e memBody s fun _ t =>
    let va := eBits e 0x08 0 48
    let pages := eBits e 0x10 0 32
    if va % 2097152 ≠ 0 ∨ pages = 0 then .fail t fltArgRange
    else
      let m := t.mem p
      let gone := m.units.filter fun x => !x.2.sub && decide (va ≤ x.1) && decide (x.1 < va + pages * 2097152)
      .done (t.setMem p (gone.foldl (fun m x => m.drop x.1 x.2) m)) 0

/-- KV_ARENA (R401, R481). -/
def execKvArena (p : Nat) (e : Entry) (s : State) : Host.Outcome State Fault Refusal :=
  partCmd p 0x10 e memBody s fun _ t =>
    let base := eBits e 0x08 0 48
    let pages := eBits e 0x10 0 32
    let b := t.part p
    let open' := t.sess.any fun x => x.2.part == p && x.2.state != .free
    let mapped := b.mem.units.any fun x => decide (x.1 < base + pages * 2097152) && decide (base < x.1 + x.2.size)
    if base % 2097152 ≠ 0 ∨ pages = 0 ∨ open' = true ∨ base < 0x400000 ∨ 2 ^ 48 < base + pages * 2097152 ∨ mapped = true
    then .fail t fltArgRange
    else .done (t.setPart p { b with arena := some (base, pages) }) 0

/-! ### Sessions (R403 to R418) -/

/-- Bits of a value of a session's side (0 INT4, 1 E4M3). -/
def kvBits (fmt : Nat) : Nat := if fmt = 0 then 4 else 8

/-- Tokens of a subpage (R68): 64 KiB over D columns of b bits. -/
def subTokens (dm32 fmt : Nat) : Nat := 524288 / (32 * dm32 * kvBits fmt)

/-- Cache of layer `l`, head `h`, side `kv` (R410). -/
def Sess.cache (x : Sess) (l h kv : Nat) : Nat := (l * x.heads + h) * 2 + kv

/-- Address of the page-list entry of subpage `u` of a cache (R410). -/
def Sess.entryAt (x : Sess) (cache u : Nat) : Nat := x.plBase + (cache * x.spc + u % x.spc) * 256

/-- Tokens per subpage of a cache's side. -/
def Sess.tokens (x : Sess) (cache : Nat) : Nat := subTokens x.dm32 (if cache % 2 = 0 then x.fmtK else x.fmtV)

/-- The session that a command of partition `p` names, when it is open to it. -/
def State.sessFor (s : State) (p n : Nat) : Option Sess :=
  let x := s.sessOf n
  if x.state != .free && x.part == p then some x else none

def sessOpenBody : List (Nat × Nat × Nat) :=
  [(0x08, 0, 6), (0x0C, 0, 20), (0x10, 0, 48), (0x18, 0, 16)]

/-- SESS_OPEN (R404, R405). -/
def execSessOpen (p : Nat) (e : Entry) (s : State) : Host.Outcome State Fault Refusal :=
  partCmd p 0x11 e sessOpenBody s fun _ t =>
    let x : Sess := { state := .open, part := p, fmtK := eBits e 0x08 0 1, fmtV := eBits e 0x08 1 1, dm32 := eBits e 0x08 2 4,
                      layers := eBits e 0x0C 0 12, heads := eBits e 0x0C 12 8, plBase := eBits e 0x10 0 48, spc := eBits e 0x18 0 16 }
    let n := x.layers * x.heads * 2 * x.spc * 256
    let b := t.part p
    if x.dm32 = 0 ∨ 8 < x.dm32 ∨ x.layers = 0 ∨ x.heads = 0 ∨ x.spc = 0 ∨ x.plBase % 256 ≠ 0 ∨ b.arena = none ∨ x.plBase < 0x400000 ∨
        2 ^ 48 < x.plBase + n ∨ b.mem.mapped x.plBase n = false then .fail t fltArgRange
    else match firstFrom (fun i => (t.sessOf i).state == .free) 262144 0 with
      | none => .fail t fltSessFull
      | some i =>
        let m := b.mem
        let m := { m with bytes := sclear m.bytes x.plBase n,
                          poison := m.poison.filter fun u => !(decide (x.plBase ≤ 64 * u) && decide (64 * u < x.plBase + n)) }
        .done ((t.setMem p m).setSess i x) i

/-- Clears the page-list entries of subpages, whatever they hold (R408, R417); a page that is no longer mapped has none. -/
def State.clearEntries (s : State) (p : Nat) (x : Sess) (hs : List HeldSub) : State :=
  hs.foldl (fun s h =>
    let a := x.entryAt h.cache h.u
    if (s.mem p).mapped a 256 then s.setMem p ((s.mem p).fill a (List.replicate 256 0)) else s) s

/-- Frees subpages of a partition and counts them (R417). -/
def State.freeSubs (s : State) (p : Nat) (vas : List Nat) : State :=
  vas.foldl (fun s va =>
    match (s.mem p).units.find? (·.1 == va) with
    | some (_, u) =>
      let s := s.setMem p ((s.mem p).drop va u)
      s.setPart p ((s.part p).count 0x1030 1)
    | none => s) s

/-- Subpages awaiting release are freed once ASSIGNED is 0 (R417). -/
def State.flushSess (s : State) (n : Nat) : State :=
  let x := s.sessOf n
  if x.assigned = 0 then (s.setSess n { x with awaiting := [] }).freeSubs x.part x.awaiting else s

/-- An append in flight that names the session will find it FREE (R416). -/
def InFlight.loseSess (o : InFlight) (n : Nat) : InFlight :=
  match o.job with
  | .kv j => if bits j.desc.toNat 32 18 = n then { o with job := .kv { j with gone := true } } else o
  | _ => o

/-- A session reaches FREE (R403, R416). -/
def State.sessFree (s : State) (n : Nat) : State :=
  { s with cores := s.cores.map fun (e : Nat × Core) => (e.1, { e.2 with ops := e.2.ops.map fun (o : InFlight) => o.loseSess n }) }.setSess n {}

/-- A CLOSING session with ASSIGNED at 0 is released: its subpages are freed, the records owed are written, the entry is FREE (R407). -/
def State.releaseSess (s : State) (n : Nat) : State :=
  let x := s.sessOf n
  let s := s.clearEntries x.part x x.held
  let s := s.freeSubs x.part (x.awaiting ++ x.held.map (·.va))
  let s := x.closers.foldl (fun s o => s.cmdDone x.part o .done 0 0) s
  s.sessFree n

def sessBody : List (Nat × Nat × Nat) := [(0x08, 0, 18)]

/-- Requests of a session that wait in a queue, oldest first. -/
def State.queuedOf (s : State) (n : Nat) : List Nat :=
  (s.reqs.filter fun e => e.2.session == some n && !e.2.assigned && e.2.openCount != 0).map (·.1)

/-- SESS_CLOSE (R407, R417). -/
def execSessClose (p : Nat) (e : Entry) (s : State) : Host.Outcome State Fault Refusal :=
  partCmd p 0x12 e sessBody s fun o t =>
    let n := eBits e 0x08 0 18
    match t.sessFor p n with
    | none => .fail t fltSessUnknown
    | some x =>
      if x.state = .closing then .owes (t.setSess n { x with closers := x.closers ++ [o] })
      else
        let t := t.clearEntries p x x.held
        let t := t.setSess n { x with state := .closing, held := [], awaiting := x.awaiting ++ x.held.map (·.va), closers := [o] }
        let t := (t.queuedOf n).foldl (fun t r => t.endItems r .cancelled 0 fun _ => true) t
        .owes (if (t.sessOf n).assigned = 0 then t.releaseSess n else t)

/-- SESSION_RELEASE (R407, R417): ASSIGNED has reached 0. -/
def execSessionRelease (n : Nat) (s : State) : Host.Outcome State Fault Refusal :=
  let x := s.sessOf n
  if x.state = .free ∨ x.assigned ≠ 0 then .next s
  else if x.state = .closing then .next (s.releaseSess n)
  else .next (s.flushSess n)

/-- SESS_TRIM (R408, R417). -/
def execSessTrim (p : Nat) (e : Entry) (s : State) : Host.Outcome State Fault Refusal :=
  partCmd p 0x13 e (sessBody ++ [(0x10, 0, 64)]) s fun _ t =>
    let n := eBits e 0x08 0 18
    let lo := eBits e 0x10 0 32
    let hi := eBits e 0x14 0 32
    match t.sessFor p n with
    | none => .fail t fltSessUnknown
    | some x =>
      if hi < lo then .fail t fltArgRange
      else
        let out (h : HeldSub) : Bool :=
          lo == hi || decide (h.u * x.tokens h.cache + x.tokens h.cache ≤ lo) || decide (hi ≤ h.u * x.tokens h.cache)
        let gone := x.held.filter out
        let t := t.clearEntries p x gone
        let t := t.setSess n { x with held := x.held.filter (fun h => !out h), awaiting := x.awaiting ++ gone.map (·.va), high := min x.high hi }
        .done (t.flushSess n) 0

/-- HEAT of a session: the largest heat of its subpages (R403). -/
def Sess.heat (x : Sess) (m : Mem) : Nat :=
  (x.held.map (·.va) ++ x.awaiting).foldl (fun h va => match m.units.find? (·.1 == va) with
    | some (_, u) => max h u.heat
    | none => h) 0

def SessState.code : SessState → Nat
  | .free => 0 | .open => 1 | .closing => 2

/-- The 64-byte directory entry (R403). -/
def Sess.bytes (x : Sess) (m : Mem) : List Byte :=
  leBytes 4 (x.state.code + x.part * 2 ^ 2 + x.fmtK * 2 ^ 6 + x.fmtV * 2 ^ 7 + x.dm32 * 2 ^ 8) ++
  leBytes 4 (x.layers + x.heads * 2 ^ 12) ++ leBytes 8 x.plBase ++ leBytes 4 x.spc ++ leBytes 4 x.high ++
  leBytes 4 (x.held.length + x.awaiting.length) ++ leBytes 4 (bits x.queued 0 16 + bits x.assigned 0 16 * 2 ^ 16) ++
  leBytes 4 (x.die + x.group * 2 ^ 2 + x.heat m * 2 ^ 8) ++ List.replicate 28 0

/-- SESS_QUERY (R409). -/
def execSessQuery (p : Nat) (e : Entry) (hostOk : Bool) (s : State) : Host.Outcome State Fault Refusal :=
  partCmd p 0x14 e (sessBody ++ [(0x10, 0, 64)]) s fun _ t =>
    let n := eBits e 0x08 0 18
    let a := eBits e 0x10 0 64
    if a % 64 ≠ 0 then .fail t fltArgRange
    else match t.sessFor p n with
      | none => .fail t fltSessUnknown
      | some x =>
        if hostOk then
          let port := (t.part p).port
          .done (t.setHostMem port (writeBytes (t.hostMemOf port) a (x.bytes (t.mem p)))) 0
        else .fail t fltHostTimeout

/-! ### Requests (R420 to R424) -/

/-- The core groups of a partition, ascending (R422): die × 16 + group. -/
def PartBlock.groups (b : PartBlock) : List Nat := (List.range 64).filter fun g => b.grant.groups.toNat.testBit g

/-- QUEUED plus ASSIGNED requests of a group. -/
def State.groupLoad (s : State) (g : Nat) : Nat :=
  (s.reqs.filter fun e => e.2.group == g && e.2.openCount != 0).length

/-- The element of least key, the first among equals. -/
def argMin (f : Nat → Nat) : List Nat → Option Nat
  | [] => none
  | x :: xs => match argMin f xs with
    | none => some x
    | some y => if f y < f x then some y else some x

/-- Bytes of a session's subpages in Tier H of a die. -/
def Sess.bytesOn (x : Sess) (m : Mem) (d : Nat) : Nat :=
  ((x.held.map (·.va) ++ x.awaiting).filter fun va => match m.units.find? (·.1 == va) with
    | some (_, u) => u.tier == .H && u.die == d
    | none => false).length * 65536

/-- The target die of a session's request (R423): most bytes in Tier H, ties to the entry's DIE, then to the lowest die. -/
def Sess.targetDie (x : Sess) (m : Mem) : Nat :=
  let best := (List.range 4).foldl (fun b d => max b (x.bytesOn m d)) 0
  if best = 0 ∨ x.bytesOn m x.die = best then x.die
  else (firstFrom (fun d => x.bytesOn m d == best) 4 0).getD x.die

/-- The core group that Winnow chooses for a request (R423), as a global group number. -/
def State.chooseGroup (s : State) (p : Nat) (sess : Option Nat) : Nat :=
  let gs := (s.part p).groups
  let idx (g : Nat) : Nat := gs.idxOf g
  match sess with
  | none => (argMin (fun g => s.groupLoad g * 64 + idx g) gs).getD 0
  | some n =>
    match s.reqs.find? fun e => e.2.session == some n && e.2.openCount != 0 with
    | some (_, q) => q.group
    | none =>
      let x := s.sessOf n
      let d := x.targetDie (s.mem p)
      let key (g : Nat) : Nat :=
        ((dieDistance d (g / 16) * 65536 + s.groupLoad g) * 2 + (if idx g = x.group then 0 else 1)) * 64 + idx g
      (argMin key gs).getD 0

/-- A request joins the queue of its group, and its session's entry takes the DIE and GROUP (R423, R424). -/
def State.enqueue (s : State) (r : Nat) (q : Request) : State :=
  let g := (s.freeRequest r).chooseGroup q.part q.session
  let s := s.setRequest r { q with group := g }
  let s := { s with queues := sput [] s.queues g (sget [] s.queues g ++ [r]) }
  match q.session with
  | some n =>
    let x := s.sessOf n
    s.setSess n { x with queued := x.queued + 1, die := g / 16, group := (s.part q.part).groups.idxOf g }
  | none => s

def reqBody : List (Nat × Nat × Nat) := [(0x08, 0, 20), (0x0C, 0, 32), (0x10, 0, 384)]

/-- The 64 bytes of a request's table entry (R495). -/
def requestBytes (e : Entry) : List Byte :=
  leBytes 4 (eBits e 0x0C 0 32) ++ leBytes 4 (eBits e 0x08 0 32) ++ leBytes 4 (eTag e).toNat ++ leBytes 4 0 ++ leBytes 48 (eBits e 0x10 0 384)

/-- The item record of a REQ entry without items (R480, R496). -/
def emptyRecord (s : State) (r : Nat) (tag : W32) (st : RecStatus) (f : FaultCode) (frees : Option Nat) : HeldRec :=
  { bits := mkRecord (bits r 0 14 + st.code * 2 ^ 14 + 2 ^ 19) 0xFFFFFFFF f.toNat 0 0 0 tag.toNat s.time, frees := frees }

/-- REQ (R420, R421, R478, R480, R494 to R497). -/
def execReq (p : Nat) (e : Entry) (s : State) : Host.Outcome State Fault Refusal :=
  let b := s.part p
  if eCode e ≠ 0x01 then unlistedEntry (.req p) e s
  else if s.canFetchReq p then
    let t := s.setPart p { b with req := b.req.advance }
    if eAuth e || !entryOk reqBody e then .next (t.postPart p (emptyRecord t 0 (eTag e) .failed fltArgRange none))
    else match firstFrom (fun r => (s.request r).isNone) 16384 0 with
      | none => .next s
      | some r =>
        let n := eBits e 0x0C 0 32
        let sess := if eBits e 0x08 18 1 = 1 then some (eBits e 0x08 0 18) else none
        let q : Request := { part := p, tag := eTag e, session := sess, count := n, seq := t.reqSeq }
        let t := { t with reqs := t.reqs ++ [(r, q)], reqSeq := t.reqSeq + 1 }
        let known := match sess with
          | some i => (t.sessOf i).state == .open && (t.sessOf i).part == p
          | none => true
        let drop (f : FaultCode) : State :=
          (t.setRequest r { q with session := none }).endItems r .failed f fun _ => true
        if n = 0 then .next (t.postPart p (emptyRecord t r q.tag .done 0 (some r)))
        else if !known then .next (drop fltSessUnknown)
        else
          let a := b.grant.reqTable + 64 * r
          match t.check p false a 64 with
          | some _ => .next (drop fltMemUnmapped)
          | none => .next (((t.setMem p ((t.mem p).store a (requestBytes e))).startFarOwn p).enqueue r q)
  else .next s

/-- CANCEL (R500): the RESULT is the number of requests that match. -/
def execCancel (p : Nat) (e : Entry) (s : State) : Host.Outcome State Fault Refusal :=
  partCmd p 0x02 e [(0x08, 0, 32)] s fun _ t =>
    let tag := BitVec.ofNat 32 (eBits e 0x08 0 32)
    let hit := (t.reqs.filter fun x => x.2.part == p && x.2.tag == tag).map (·.1)
    let u := hit.foldl (fun u r =>
      let u := match u.request r with
        | some q => { u with queues := sput [] u.queues q.group ((sget [] u.queues q.group).filter (· != r)) }
        | none => u
      u.endItems r .cancelled 0 fun x => x.bound.isNone) t
    .done u hit.length

/-! ### Epochs and moves -/

/-- Heat at an epoch boundary (R395); a unit that is warm again is no first candidate for demotion (R397). -/
def PUnit.epoch (u : PUnit) : PUnit :=
  let h := 3 * u.heat / 4 + min 64 (u.accesses / 256)
  { u with heat := h, accesses := 0, cold := u.cold && h == 0 }

/-- Storage of a partition in a tier, in 64 KiB units (13, "Registers"). -/
def Mem.inTier (m : Mem) (t : Tier) : Nat := (m.units.map fun e => if e.2.tier = t then e.2.pinCount else 0).sum

/-- A partition at an epoch boundary: heats, and the residency registers sampled. -/
def PartBlock.epoch (b : PartBlock) : PartBlock :=
  let m := { b.mem with units := b.mem.units.map fun e => (e.1, e.2.epoch) }
  { b with mem := m, res := sput 0 (sput 0 (sput 0 b.res 0 (m.inTier .H)) 1 (m.inTier .L)) 2 (m.inTier .F) }

/-- WINNOW_EPOCH (R395). -/
def execWinnowEpoch (s : State) : Host.Outcome State Fault Refusal :=
  .next { s with parts := s.parts.map fun e => (e.1, if e.2.state = .free then e.2 else e.2.epoch) }

/-- Tiers by distance from the cores. -/
def tierDepth : Tier → Nat
  | .H => 0 | .L => 1 | .F => 2

/-- Whether a unit that some partition holds meets a test. -/
def State.anyUnit (s : State) (f : PUnit → Bool) : Bool := s.parts.any fun e => e.2.mem.units.any fun x => f x.2

/-- What bars a unit from a tier (R397, R398): a pinned unit leaves Tier H never and reaches Tier F never; a pinned unit elsewhere that Tier H has room
for comes before any unpinned one; a unit made a candidate by COLD is demoted before any other of its tier. -/
def State.moveBarred (s : State) (u : PUnit) (t : Tier) : Bool :=
  (u.pinned && (t == .F || (u.tier == .H && t != .H))) ||
  (!u.pinned && t == .H && u.tier != .H &&
    s.anyUnit fun x => x.pinned && x.tier != .H && !x.lost && (s.frameNear .H x.sub x.die).isSome) ||
  (decide (tierDepth u.tier < tierDepth t) && !u.cold && s.anyUnit fun x => x.cold && !x.pinned && !x.lost && x.tier == u.tier)

/-- A place that takes a unit: a frame with room on its die, or a free place in a spill window held (R393, R528). -/
def State.placeTakes (s : State) (u : PUnit) (t : Tier) (die frame : Nat) : Bool :=
  if t = .F then s.spillFree die frame u.size else die == frameDie t frame && s.frameTakes t u.sub frame

/-- What a move still has to transfer: from Tier F the unit is read first, into Tier F it is then written at its new place (R464). -/
def PUnit.toTransfer (u : PUnit) (t : Tier) (frame : Nat) : Option Bool :=
  match u.moving with
  | .sent f => if t = .F ∧ f ≠ frame then some true else none
  | .got => if t = .F then some true else none
  | _ => if u.tier = .F then some false else if t = .F then some true else none

/-- A transfer of the placement class begins for a move (R464): the unit as it is read, or as it is written at its new place. -/
def State.beginMove (s : State) (p va : Nat) (u : PUnit) (die frame : Nat) (put : Bool) : State :=
  let s := if put then s.setImport die (s.spillWin die) else s
  let job := if put then s.unitJob va { u with die := die, frame := frame } 0 u.size true else s.unitJob va u 0 u.size false
  (s.setMem p ((s.mem p).setUnit va { u with moving := .busy })).startOwn { job := job, part := p, base := va, move := true }

/-- UNIT_MOVE_DONE (R390, R391, R393, R397, R398, R425, R464): the unit lies elsewhere, its bytes unchanged. A unit LOST moves nowhere (R465). A move into
or out of Tier F is done once its transfers have been made: until then the command begins the one that is due, and the unit stays (log 67). -/
def execUnitMoveDone (p va : Nat) (tier : Tier) (die frame : Nat) (s : State) : Host.Outcome State Fault Refusal :=
  let b := s.part p
  match b.mem.units.find? (·.1 == va) with
  | none => .next s
  | some (_, u) =>
    if u.lost || s.moveBarred u tier || !s.placeTakes u tier die frame || u.moving == .busy then .next s
    else match u.toTransfer tier frame with
    | some put => .next (s.beginMove p va u die frame put)
    | none =>
      let b := if tier = .H ∧ u.tier ≠ .H then b.count 0x101C 1 else b
      let b := if u.tier = .H ∧ tier ≠ .H then b.count 0x1020 1 else b
      let b := if tier = .F ∧ u.tier ≠ .F then b.count 0x1024 1 else b
      let b := if u.tier = .F ∧ tier ≠ .F then b.count 0x1028 1 else b
      let s := if tier = .F then s.setImport die (s.spillWin die) else s
      .next (s.setPart p { b with mem := b.mem.setUnit va { u with tier := tier, die := die, frame := frame, cold := u.cold && tier == u.tier, moving := .idle } })

end Sys2Proof.Machine
end

