-- ==== Sys2Proof/Machine/Window.lean ====
section
/-! DEFINITION. Windows, the remote window table, route loads and CXL.mem (15, R453 to R460; 16, R481, R504). -/

namespace Sys2Proof.Machine

/-! ### Windows -/

def State.win (s : State) (w : Nat) : Window := sget {} s.fabric.wins w
def State.setWin (s : State) (w : Nat) (x : Window) : State := { s with fabric := { s.fabric with wins := sput {} s.fabric.wins w x } }

/-- The window that is not FREE and covers an exposure offset (R443; no two overlap, R454). -/
def State.winAt (s : State) (off : Nat) : Option (Nat × Window) :=
  s.fabric.wins.find? fun e => e.2.state != .free && decide (e.2.ebase ≤ off) && decide (off < e.2.ebase + e.2.size)

/-- Accepted bursts of a window not yet committed or discarded (WIN_INFLIGHT). -/
def State.winInflight (s : State) (w : Nat) : Nat := (s.fabric.bursts.filter fun b => b.win == w && !b.overs).length

def winGrantBody : List (Nat × Nat × Nat) :=
  [(0x08, 0, 32), (0x0C, 0, 16), (0x10, 0, 45), (0x18, 0, 45), (0x20, 0, 48), (0x28, 0, 64), (0x30, 0, 24)]

/-- A gap timer field: 0 gives 1,000 µs (R453). -/
def gapOf (us : Nat) : Nat := if us = 0 then 1000 else us

/-- A gap timer outside 10 to 10,000,000 µs, and not 0. -/
def gapBad (us : Nat) : Bool := us != 0 && (decide (us < 10) || decide (10000000 < us))

/-- Two ranges share a byte. -/
def overlaps (a n b m : Nat) : Bool := decide (a < b + m) && decide (b < a + n)

/-- The fields of a WIN_GRANT entry (R453). -/
def readGrant (e : Entry) : Nat × Window :=
  (eBits e 0x08 0 12,
   { state := .open, owner := eBits e 0x08 12 5, ebase := eBits e 0x10 0 45, size := eBits e 0x18 0 45, lva := eBits e 0x20 0 48,
     key := BitVec.ofNat 64 (eBits e 0x28 0 64), epoch := eBits e 0x0C 0 16, rd := eBits e 0x08 17 1 = 1, wr := eBits e 0x08 18 1 = 1,
     peerEn := eBits e 0x08 19 1 = 1, peer := eBits e 0x08 20 12, gapUs := gapOf (eBits e 0x30 0 24) })

/-- What R454 refuses with FLT_ARG_RANGE, for a command that may name `owner` only (R481). -/
def State.grantBad (s : State) (owner w : Nat) (x : Window) (gap : Nat) : Bool :=
  let old := s.win w
  x.owner != owner || x.size == 0 || x.size % 65536 != 0 || x.ebase % 65536 != 0 || decide (2 ^ 45 < x.ebase + x.size) || gapBad gap ||
    s.fabric.wins.any (fun e => e.1 != w && e.2.state != .free && overlaps x.ebase x.size e.2.ebase e.2.size) ||
    old.state == .open || old.state == .closing || (old.state == .closed && old.owner != owner) ||
    (owner != 16 && (x.lva % 65536 != 0 || decide (x.lva < 0x400000) || decide (2 ^ 48 < x.lva + x.size)))

/-- The window opens: with the command's epoch from FREE, with its own from CLOSED (R455). -/
def State.openWin (s : State) (w : Nat) (x : Window) : State :=
  let old := s.win w
  s.setWin w { x with epoch := if old.state = .free then x.epoch else old.epoch }

/-- WIN_GRANT (R453 to R455). -/
def execWinGrant (p : Nat) (e : Entry) (s : State) : Host.Outcome State Fault Refusal :=
  critCmd (.cmd p) 0x18 e winGrantBody s fun _ t =>
    let (w, x) := readGrant e
    if t.grantBad p w x (eBits e 0x30 0 24) then .fail t fltArgRange else .done (t.openWin w x) 0

/-- SPILL_WIN_GRANT (R453, R454): `backed` says whether Winnow can back the window from storage that no partition holds, which it takes in Tier L
(log 13). The bytes behind a granted spill window start at 0 (log 16). -/
def execSpillWinGrant (n : Nat) (e : Entry) (backed : Bool) (s : State) : Host.Outcome State Fault Refusal :=
  critCmd (.adm n) 0x45 e winGrantBody s fun _ t =>
    let (w, x) := readGrant e
    if t.grantBad 16 w x (eBits e 0x30 0 24) then .fail t fltArgRange
    else if !backed || decide (t.freeL < (x.size + 2097151) / 2097152) then .fail t fltSpillFull
    else
      let t := t.openWin w x
      .done { t with fabric := { t.fabric with
        spill := sclear t.fabric.spill x.ebase x.size
        spillPoison := t.fabric.spillPoison.filter fun u => !(decide (x.ebase ≤ 64 * u) && decide (64 * u < x.ebase + x.size)) } } 0

/-- The close point of a window (R459). -/
def Window.close (x : Window) (closer : Option OwedAt) : Window :=
  { x with state := .closing, epoch := (x.epoch + 1) % 65536, closer := closer, recalling := false }

def winBody : List (Nat × Nat × Nat) := [(0x08, 0, 12)]

/-- WIN_CLOSE (R459, R460): the record follows when no accepted burst remains. A window that is not OPEN is refused (log 17). -/
def execWinClose (p : Nat) (e : Entry) (s : State) : Host.Outcome State Fault Refusal :=
  critCmd (.cmd p) 0x19 e winBody s fun o t =>
    let w := eBits e 0x08 0 12
    let x := t.win w
    if x.state != .open || x.owner != p then .fail t fltArgRange else .owes (t.setWin w (x.close (some (.part p o))))

/-- SPILL_WIN_CLOSE (R394, R459): the window stays OPEN while the importing module recalls the units that it holds, and reaches its close point after
the last; the command fails, and the window stays in use, when that module's storage cannot take them (log 17). -/
def execSpillWinClose (n : Nat) (e : Entry) (localRoom : Bool) (s : State) : Host.Outcome State Fault Refusal :=
  critCmd (.adm n) 0x46 e winBody s fun o t =>
    let w := eBits e 0x08 0 12
    let x := t.win w
    if x.state != .open || x.owner != 16 || x.recalling then .fail t fltArgRange
    else if !localRoom then .fail t fltSpillFull
    else .owes (t.setWin w { x with recalling := true, closer := some (.adm n o) })

/-- A CLOSED window owes its record no longer (R460). -/
def State.closeOwed (s : State) (w : Nat) : State :=
  let x := s.win w
  match x.closer with
  | some o => (s.setWin w { x with closer := none }).owedDone o .done 0
  | none => s

/-- WINDOW_CLOSED (R460). -/
def execWindowClosed (w : Nat) (s : State) : Host.Outcome State Fault Refusal :=
  let x := s.win w
  if x.state = .closing ∧ s.winInflight w = 0 then .next ((s.setWin w { x with state := .closed }).closeOwed w) else .next s

/-- SPILL_RECALL_DONE (R394, R459): the last unit of a spill window has been recalled, and the window reaches its close point. -/
def execSpillRecallDone (w : Nat) (s : State) : Host.Outcome State Fault Refusal :=
  let x := s.win w
  if x.recalling ∧ x.state = .open then .next (s.setWin w (x.close x.closer)) else .next s

/-- WIN_FREE of a CLOSED window (R455). -/
def freeWin (owner : Nat) (e : Entry) (t : State) : CmdRes :=
  let w := eBits e 0x08 0 12
  let x := t.win w
  if x.state != .closed || x.owner != owner then .fail t fltArgRange else .done (t.setWin w {}) 0

/-- WIN_FREE (R455). -/
def execWinFree (p : Nat) (e : Entry) (s : State) : Host.Outcome State Fault Refusal :=
  critCmd (.cmd p) 0x1A e winBody s fun _ t => freeWin p e t

/-- SPILL_WIN_FREE (R455). -/
def execSpillWinFree (n : Nat) (e : Entry) (s : State) : Host.Outcome State Fault Refusal :=
  critCmd (.adm n) 0x47 e winBody s fun _ t => freeWin 16 e t

/-! ### The remote window table (R458) -/

def PartBlock.rwin (b : PartBlock) (r : Nat) : RemoteWin := sget {} b.rwins r

def winImportBody : List (Nat × Nat × Nat) :=
  [(0x08, 0, 24), (0x0C, 0, 16), (0x10, 0, 45), (0x18, 0, 45), (0x28, 0, 64), (0x30, 0, 24)]

/-- WIN_IMPORT (R458). -/
def execWinImport (p : Nat) (e : Entry) (s : State) : Host.Outcome State Fault Refusal :=
  partCmd p 0x1B e winImportBody s fun _ t =>
    let gap := eBits e 0x30 0 24
    let x : RemoteWin := { module := eBits e 0x08 12 12, ebase := eBits e 0x10 0 45, size := eBits e 0x18 0 45,
                           key := BitVec.ofNat 64 (eBits e 0x28 0 64), epoch := eBits e 0x0C 0 16, gapUs := gapOf gap }
    if x.size = 0 ∨ x.module = t.fabric.id ∨ x.size % 65536 ≠ 0 ∨ x.ebase % 65536 ≠ 0 ∨ 2 ^ 45 < x.ebase + x.size ∨ gapBad gap = true
    then .fail t fltArgRange
    else
      let b := t.part p
      .done (t.setPart p { b with rwins := sput {} b.rwins (eBits e 0x08 0 12) x }) 0

/-- WIN_FORGET (R458). -/
def execWinForget (p : Nat) (e : Entry) (s : State) : Host.Outcome State Fault Refusal :=
  partCmd p 0x1C e winBody s fun _ t =>
    let b := t.part p
    .done (t.setPart p { b with rwins := sput {} b.rwins (eBits e 0x08 0 12) {} }) 0

/-! ### Route loads (R450, R481) -/

/-- Entry `n` of a route table of 2,048 bytes. -/
def routeEntry (bs : List Byte) (n : Nat) : Nat := bits (bs.getD (n / 2) 0).toNat (4 * (n % 2)) 4

/-- The 4,096 entries as a table, entry 0 the default. -/
def routeTable (bs : List Byte) : Sparse Nat :=
  ((List.range 4096).map fun n => (n, routeEntry bs n)).filter fun e => e.2 != 0

/-- ROUTE_LOAD (R450, R481). -/
def execRouteLoad (n : Nat) (e : Entry) (hostOk : Bool) (s : State) : Host.Outcome State Fault Refusal :=
  critCmd (.adm n) 0x43 e [(0x08, 0, 64), (0x10, 0, 256)] s fun _ t =>
    let a := eBits e 0x08 0 64
    if a % 64 ≠ 0 then .fail t fltArgRange
    else if !hostOk then .fail t fltHostTimeout
    else
      let bs := readBytes (t.hostMemOf n) a 2048
      if leNat (sha256 bs) ≠ eBits e 0x10 0 256 then .fail t fltArgRange
      else .done { t with fabric := { t.fabric with route := routeTable bs } } 0

/-! ### CXL.mem (R504) -/

/-- CXL_WIN (R504): WIN 0xFFF unbinds; another window must be one that the partition owns. -/
def execCxlWin (p : Nat) (e : Entry) (s : State) : Host.Outcome State Fault Refusal :=
  partCmd p 0x0A e winBody s fun _ t =>
    let w := eBits e 0x08 0 12
    let n := (t.part p).port
    let x := t.win w
    if w = 0xFFF then .done (t.setPort n { t.port n with cxl := none }) 0
    else if x.state = .free ∨ x.owner ≠ p then .fail t fltArgRange
    else .done (t.setPort n { t.port n with cxl := some (p, w) }) 0

/-- A bound window that a host's accesses reach: OPEN, and still one that the binding partition owns (R504). -/
def State.cxlOpen (s : State) (p w : Nat) : Bool := (s.win w).state == .open && (s.win w).owner == p

/-- The bytes of a bound window as a host reads them through the decoder: poisoned where the window is not OPEN, does not reach or maps
nothing readable (R504; log 18). -/
def State.cxlRead (s : State) (p w off len : Nat) : List (Option Byte) :=
  let x := s.win w
  (List.range len).map fun i =>
    let a := x.lva + off + i
    if !s.cxlOpen p w || decide (x.size ≤ off + i) then none
    else match s.failOf x.owner true (a / 64) with
      | some _ => none
      | none => some (sget 0 (s.mem x.owner).bytes a)

/-- CXL_MEM_ACCESS (R504): an access through the HDM decoder at an offset from the bound window's first byte. A write is dropped, and counted,
while the window is not OPEN or where it cannot take the bytes (log 18). -/
def execCxlMemAccess (n : Nat) (write : Bool) (off len : Nat) (data : List Byte) (s : State) : Host.Outcome State Fault Refusal :=
  if !s.portUp n then .next s
  else match (s.port n).cxl with
  | none => .next (if write then s else s.emit (.data (List.replicate len none)))
  | some (p, w) =>
    let x := s.win w
    if write then
      if s.cxlOpen p w = true ∧ off + data.length ≤ x.size ∧ (s.check x.owner false (x.lva + off) data.length).isNone = true then
        .next ((s.setMem x.owner ((s.mem x.owner).store (x.lva + off) data)).startFarOwn x.owner)
      else .next (s.setPart p ((s.part p).count 0x7C 1))
    else
      let t := if s.cxlOpen p w then (s.setMem x.owner ((s.mem x.owner).touch (x.lva + off) len)).startFarOwn x.owner else s
      .next (t.emit (.data (s.cxlRead p w off len)))

end Sys2Proof.Machine
end

