-- ==== Sys2Proof/Machine/Packet.lean ====
section
/-! DEFINITION. Vopex packets on their way, and links (15, R440, R441, R446, R449 to R452). -/

namespace Sys2Proof.Machine

/-! ### Forwarding (R451, R452) -/

/-- Bytes that a packet takes in a buffer: its header and its payload. -/
def packetBytes (q : Packet) : Nat := 32 + q.payload.length

/-- The input buffer of a port is more than three quarters full: of 128 KiB (R452). -/
def State.bufferHigh (s : State) (n : Nat) : Bool := decide (98304 < ((sget [] s.fabric.inbuf n).map fun e => packetBytes e.2).sum)

/-- Bytes that a die's park region holds. -/
def State.parkUsed (s : State) (die : Nat) : Nat :=
  ((List.range 28).flatMap fun key => ((sget [] s.fabric.parked key).filter (·.1 == die)).map fun e => packetBytes e.2).sum

/-- The packets of a port's input buffer that wait for one output and VC go to the park region of the port's die in order, as far as its 128 MiB take
them; each is counted (R452). -/
def State.parkAll (s : State) (n key : Nat) : List (Nat × Packet) → State
  | [] => s
  | e :: rest =>
    if s.parkUsed (n / 3) + packetBytes e.2 ≤ 134217728 then
      let f := s.fabric
      ({ s with fabric := { f with
          inbuf := sput [] f.inbuf n ((sget [] f.inbuf n).erase e)
          parked := sput [] f.parked key (sget [] f.parked key ++ [(n / 3, e.2)]) } }.fabCount 0x114 1).parkAll n key rest
    else s

/-- A packet joins the input buffer of its port; while that is more than three quarters full, what waits there for the same output is parked (R452). -/
def State.keepWaiting (s : State) (n d : Nat) (q : Packet) : State :=
  let key := 4 * d + q.vc
  let t := { s with fabric := { s.fabric with inbuf := sput [] s.fabric.inbuf n (sget [] s.fabric.inbuf n ++ [(d, q)]) } }
  if t.bufferHigh n then t.parkAll n key ((sget [] t.fabric.inbuf n).filter (waitsFor key)) else t

/-- PACKET_FORWARD (R446, R449 to R452): a header arrives on a port. A packet for this module is delivered: the command of its class follows
(log 19). Others are refused, leave, or wait while their output is busy or serves others first. -/
def execPacketForward (n : Nat) (p : Packet) (busy : Bool) (s₀ : State) : Host.Outcome State Fault Refusal :=
  let s := { s₀ with fabric := { s₀.fabric with crc := sput 0 s₀.fabric.crc n 0 } }
  if p.bad then .next (s.fabCount 0x110 1)
  else
    let refuse : State := if isRequest p.cls then s.nackTo p nackUnreach else s.fabCount 0x100 1
    match s.hopOf p.dst with
    | .here => .next s
    | .refused => .next refuse
    | .out d dl =>
      if 31 ≤ p.hops + 1 then .next refuse
      else
        let turn := (portDir n - 1) / 2 != (d - 1) / 2
        let q := p.hop (vcOf p.cls p.vc dl turn) (p.hops + 1)
        .next (if busy || s.mustWait d q then s.keepWaiting n d q else s.sendVia d q)

/-- The oldest packet for an output and VC of one of its sources: input ports 0 to 11, 12 the module's own, 13 the park region; and the state without
it. -/
def State.takeWaiting (s : State) (key i : Nat) : Option (Packet × State) :=
  let f := s.fabric
  if i < 12 then
    ((sget [] f.inbuf i).find? (waitsFor key)).map fun e =>
      (e.2, { s with fabric := { f with inbuf := sput [] f.inbuf i ((sget [] f.inbuf i).erase e) } })
  else if i = 12 then
    match sget [] f.locals key with
    | [] => none
    | q :: rest => some (q, { s with fabric := { f with locals := sput [] f.locals key rest } })
  else
    match sget [] f.parked key with
    | [] => none
    | e :: rest => some (e.2, { s with fabric := { f with parked := sput [] f.parked key rest } })

/-- The packet that an output and VC serves next, in round robin over its sources (R452), and the state that has served it. -/
def State.serveNext (s : State) (key : Nat) : Option (Packet × State) :=
  (List.range 14).findSome? fun j =>
    let i := (sget 0 s.fabric.turn key + j) % 14
    (s.takeWaiting key i).map fun e => (e.1, { e.2 with fabric := { e.2.fabric with turn := sput 0 e.2.fabric.turn key ((i + 1) % 14) } })

/-- PARK_RELEASE (R452): an output is free for a VC, and a packet that waited for it leaves, a request only when no response waits. -/
def execParkRelease (dir vc : Nat) (s : State) : Host.Outcome State Fault Refusal :=
  match s.serveNext (4 * dir + vc) with
  | none => .next s
  | some (q, t) => if s.dirDown dir || (decide (vc < 2) && s.responseWaits dir) then .next s else .next (t.sendVia dir q)

/-! ### Links (R440) -/

def State.setVport (s : State) (n v : Nat) : State := { s with fabric := { s.fabric with ports := sput 0 s.fabric.ports n v } }

/-- A link retrains: counted, and reported to the health monitor. -/
def State.retrain (s : State) (n : Nat) : State :=
  let s := (s.setVport n 2).fabCount 0x108 1
  { s with health := { s.health with retrains := bumpHead s.health.retrains } }

/-- LINK_CRC_ERROR (R440): the packet is discarded and a replay is asked for; after 8 failed replays of one packet the link retrains. -/
def execLinkCrcError (n : Nat) (s : State) : Host.Outcome State Fault Refusal :=
  if s.vport n ≠ 1 then .next s
  else
    let c := sget 0 s.fabric.crc n
    let set (v : Nat) : State := { s with fabric := { s.fabric with crc := sput 0 s.fabric.crc n v } }
    if c < 8 then .next (((set (c + 1)).fabCount 0x104 1).emit (.replay n)) else .next ((set 0).retrain n)

/-- LINK_RETRAIN_END (R440): the port is up, or after 3 failures in a row down; a failure before that retrains again. -/
def execLinkRetrainEnd (n : Nat) (ok : Bool) (s : State) : Host.Outcome State Fault Refusal :=
  if s.vport n ≠ 2 then .next s
  else
    let c := sget 0 s.fabric.retrain n
    let set (v : Nat) : State := { s with fabric := { s.fabric with retrain := sput 0 s.fabric.retrain n v } }
    if ok then .next ((set 0).setVport n 1)
    else if c < 2 then .next ((set (c + 1)).retrain n)
    else .next (((set 0).setVport n 3).event 0x000D n (portDir n - 1) [])

end Sys2Proof.Machine
end

