-- ==== Sys2Proof/Machine/Fabric.lean ====
section
/-! DEFINITION. FAB instructions and their transactions, packets at their owner and at their requester, and takeover (11, R360,
R361; 15, R447, R448, R456 to R468). -/

namespace Sys2Proof.Machine

/-! ### FAB.GET and FAB.PUT (R360, R361) -/

/-- A FAB instruction at issue: the descriptor is read and checked, and the window entry's key, epoch and gap timer are taken (R360). -/
def fabIssue (k c : Nat) (w : W64) (put : Bool) (s : State) : Issued :=
  let x := s.ctx k c
  let va := addrOf x w
  if badAddr va 32 32 then .refuse fltArgRange
  else match s.readAt k va 32 with
    | .error f => .go (((s.launch k c .fab 10 [] [] .plain).faultAt k c x.bind f.code).faultLast k)
    | .ok bs =>
      let v := leNat bs
      let off := bits v 0 45
      let m := bits v 45 12
      let la := bits v 64 48
      let n := bits v 128 40
      let e : RemoteWin := match s.partOf k with
        | some p => (s.part p).rwin (bits v 192 12)
        | none => {}
      let reserved := bits v 57 7 + bits v 112 16 + bits v 168 24 + bits v 222 34
      let outside := n != 0 && (e.module != m || decide (off < e.ebase) || decide (e.ebase + e.size < off + n))
      if reserved != 0 || e.size == 0 || m == s.fabric.id || off % 4 != 0 || la % 4 != 0 || n % 4 != 0 || outside || reachesHole la n then
        .refuse fltArgRange
      else
        .go ((s.touchAt k va 32).launch k c .fab 10 (if bit v 221 then [bits v 204 17] else []) []
          (if n = 0 then .empty
           else .fab { put := put, module := m, goff := off, laddr := la, len := n, key := e.key, epoch := e.epoch, gapUs := e.gapUs }))

/-- FAB_GET (R360, R361). -/
def execFabGet (k c : Nat) (w : W64) (s : State) : Host.Outcome State Fault Refusal :=
  issue k c w (spells w 0xB0 0) (unitIssue s k .fab (fabIssue k c w false s)) s

/-- FAB_PUT (R360, R361). -/
def execFabPut (k c : Nat) (w : W64) (s : State) : Host.Outcome State Fault Refusal :=
  issue k c w (spells w 0xB1 0) (unitIssue s k .fab (fabIssue k c w true s)) s

/-! ### Transactions (R447, R463) -/

def State.transOf (s : State) (tag : Nat) : Option Trans := (s.fabric.trans.find? (·.1 == tag)).map (·.2)
def State.setTrans (s : State) (tag : Nat) (t : Trans) : State :=
  { s with fabric := { s.fabric with trans := s.fabric.trans.map fun e => if e.1 = tag then (tag, t) else e } }
def State.dropTrans (s : State) (tag : Nat) : State :=
  { s with fabric := { s.fabric with trans := s.fabric.trans.filter fun e => e.1 != tag } }

/-- The instruction of a transaction, or the transfer of Winnow for one. -/
def State.fabOf (s : State) (t : Trans) : Option (InFlight × FabJob) :=
  match s.opOf t.core t.id with
  | some o => match o.job with
    | .fab j => some (o, j)
    | _ => none
  | none => none

/-- What a transaction transfers; none once its instruction is gone. -/
def State.jobOf (s : State) (t : Trans) : Option FabJob :=
  match t.own with
  | some w => some w.job
  | none => (s.fabOf t).map (·.2)

/-- Bytes of burst `b` of a transfer. -/
def FabJob.burstLen (j : FabJob) (b : Nat) : Nat := min 4096 (j.len - 4096 * b)

/-- Transfers of the module's own that wait get the transactions that have become free. -/
def State.wakeOwn (s : State) : State :=
  let l := s.fabric.waiting
  l.foldl (fun s w => s.startOwn w) { s with fabric := { s.fabric with waiting := [] } }

/-- A move into or out of Tier F has been transferred, or has failed and is asked anew (R463, R464). -/
def State.endMove (s : State) (t : Trans) : State :=
  match t.own with
  | some w =>
    match (s.mem w.part).units.find? (·.1 == w.base) with
    | some (_, u) =>
      if w.move = true ∧ u.moving = .busy then
        s.setMem w.part ((s.mem w.part).setUnit w.base
          { u with moving := if t.failed then .idle else if w.job.put then .sent (w.job.module * 2 ^ 29 + w.job.goff / 65536) else .got })
      else s
    | none => s
  | none => s

/-- A transaction with nothing left to send or to await (R463): its TAG is free. A FAB instruction is done; a transfer of Winnow for an instruction
leaves, and what waited for it goes on; a move has come one step on. -/
def State.settleTrans (s : State) (tag : Nat) : State :=
  match s.transOf tag with
  | none => s
  | some t =>
    match s.jobOf t with
    | none => (s.dropTrans tag).wakeOwn
    | some j =>
      if t.live.isEmpty && (t.failed || decide (j.len ≤ 4096 * t.next)) then
        let u := (s.dropTrans tag).wakeOwn
        match t.own, s.fabOf t with
        | none, some (o, _) =>
          if j.tierF then u.complete t.core o else u.modOp t.core o.id fun o => { o with job := .fab { j with done := true } }
        | _, _ => u.endMove t
      else s

/-- A transaction fails (R456, R463): the item of its instruction fails, and of the instruction for which Winnow transfers (R393); it sends no new burst.
A transfer of the module's own fails no item. -/
def State.failTrans (s : State) (tag : Nat) (f : FaultCode) : State :=
  match s.transOf tag with
  | none => s
  | some t =>
    let s := match t.own, s.fabOf t with
      | none, some (o, j) =>
        let s := s.opFault t.core o f
        match j.owner with
        | some id => s.modOp t.core id fun x => { x with faulted := true }
        | none => s
      | _, _ => s
    s.setTrans tag { t with failed := true }

/-- Burst `b` of a transaction is no longer outstanding. -/
def State.endBurst (s : State) (tag b : Nat) : State :=
  match s.transOf tag with
  | none => s
  | some t => (s.setTrans tag { t with live := t.live.filter (·.idx != b) }).settleTrans tag

/-- The packets of one burst, 256 bytes each in ascending address (R447). -/
def burstPackets (off b : Nat) (h : Hdr) (bs : List Byte) : List (Hdr × List Byte) :=
  let n := (bs.length + 255) / 256
  (List.range n).map fun i =>
    ({ h with offset := off + 256 * i, seq := 16 * b + i, last := i + 1 == n }, (bs.drop (256 * i)).take 256)

/-- Sends packets in order, where the first hop takes them. -/
def State.sendAll (s : State) (ps : List (Hdr × List Byte)) : Option State :=
  ps.foldl (fun s p => s.bind fun s => s.inject p.1 p.2) (some s)

/-! ### Sending (R447) -/

/-- The local bytes of the next burst of a PUT: of a FAB instruction as it reads them (R361), of a transfer of Winnow as the unit holds them. -/
def State.putBytes (s : State) (t : Trans) (j : FabJob) : Except MemFail (List Byte) :=
  let a := j.laddr + 4096 * t.next
  if j.tierF then
    .ok (readBytes (match t.own, s.partOf t.core with
      | some w, _ => (s.mem w.part).bytes
      | none, some p => (s.mem p).bytes
      | none, none => []) a (j.burstLen t.next))
  else s.readAt t.core a (j.burstLen t.next)

/-- The next burst of a transaction as packets, with the local bytes of a PUT. -/
def State.nextBurst (s : State) (t : Trans) (j : FabJob) : Except MemFail (List (Hdr × List Byte)) :=
  let b := t.next
  let n := j.burstLen b
  let h : Hdr := { cls := if j.put then clsWr else clsRdReq, dst := j.module, src := 0, tag := (j.tag.getD 0), offset := j.goff + 4096 * b,
                   key := j.key.toNat, epoch := j.epoch, seq := 16 * b }
  if j.put then (s.putBytes t j).map fun bs => burstPackets (j.goff + 4096 * b) b h bs
  else .ok [({ h with rdlen := n / 4 - 1 }, [])]

/-- A FAB instruction has accessed its local bytes: the access counts (R395), and what it meets in Tier F is transferred (R464). -/
def State.fabTouch (s : State) (t : Trans) (j : FabJob) : State :=
  match s.fabOf t with
  | some (o, _) => if j.put && !j.tierF then (s.touchAt t.core (j.laddr + 4096 * t.next) (j.burstLen t.next)).startFarOf t.core o else s
  | none => s

/-- FAB_BURST_SEND (R447, R448, R451, R464): the next burst of a transaction while fewer than 16 are outstanding. -/
def execFabBurstSend (tag : Nat) (s : State) : Host.Outcome State Fault Refusal :=
  match s.transOf tag with
  | none => .next s
  | some t =>
    match s.jobOf t with
    | none => .next s
    | some j =>
      if t.failed || decide (16 ≤ t.live.length) || decide (j.len ≤ 4096 * t.next) then .next s
      else match s.nextBurst t j with
        | .error f => .next ((s.failTrans tag f.code).settleTrans tag)
        | .ok ps =>
          let u := s.fabTouch t j
          match u.sendAll ps with
          | none => .next (((s.failTrans tag fltFabUnreach).settleTrans tag).startProbes j.module)
          | some u => .next (u.setTrans tag { t with next := t.next + 1, live := t.live ++ [{ idx := t.next, got := [] }] })

/-! ### Receiving -/

/-- A packet of a class that reaches this module (R446, R451): malformed ones are dropped and counted; others of another class or for another
module are not this command's. -/
def receive (cls : Nat) (p : Packet) (s : State) (f : Host.Outcome State Fault Refusal) : Host.Outcome State Fault Refusal :=
  if p.bad then .next (s.fabCount 0x110 1)
  else if p.cls = cls ∧ p.dst = s.fabric.id then f else .next s

/-- A packet that R462 recognises as late. -/
def State.lateDrop (s : State) : State := s.fabCount 0x100 1

/-- The outstanding burst that a response names, with its transaction and its transfer. -/
def State.awaited (s : State) (p : Packet) : Option (Trans × OutBurst × FabJob) :=
  match s.transOf p.tag with
  | none => none
  | some t =>
    match s.jobOf t, t.live.find? (·.idx == p.burst) with
    | some j, some b => some (t, b, j)
    | _, _ => none

/-- The data of a response packet reach the destination of FAB.GET (R361); the bytes of a unit in Tier F the module holds already (R390). -/
def State.takeData (s : State) (t : Trans) (b : OutBurst) (j : FabJob) (p : Packet) : State × Option MemFail :=
  match s.fabOf t with
  | some (o, _) =>
    if j.tierF then (s, none)
    else
      let (u, fail) := s.writeUpTo t.core (j.laddr + 4096 * b.idx + 256 * p.idx) (p.payload.take (j.burstLen b.idx - 256 * p.idx))
      (u.startFarOf t.core o, fail)
  | none => (s, none)

/-- RD_RSP (R361, R461, R462): data of a requested burst is stored once; the burst ends when every packet has come. -/
def execRdRsp (p : Packet) (s : State) : Host.Outcome State Fault Refusal :=
  receive clsRdRsp p s (match s.awaited p with
    | none => .next s.lateDrop
    | some (t, b, j) =>
      let n := j.burstLen b.idx
      if j.put || p.src != j.module || b.got.contains p.idx || decide (n ≤ 256 * p.idx) then .next s.lateDrop
      else
        let (s, fail) := s.takeData t b j p
        let b' : OutBurst := { b with got := p.idx :: b.got }
        let s := s.setTrans p.tag { t with live := t.live.map fun x => if x.idx = b.idx then b' else x }
        let s := match fail with
          | some f => s.failTrans p.tag f.code
          | none => s
        .next (if 256 * b'.got.length < n then s else s.endBurst p.tag b.idx))

/-- WR_ACK (R457, R463). -/
def execWrAck (p : Packet) (s : State) : Host.Outcome State Fault Refusal :=
  receive clsWrAck p s (match s.awaited p with
    | none => .next s.lateDrop
    | some (_, b, j) => if j.put && p.src == j.module then .next (s.endBurst p.tag b.idx) else .next s.lateDrop)

/-- NACK (R456, R465, R618): the burst ends refused and its item fails. A refusal by key or closing loses the units that Winnow holds in that window; the
owner of a transaction that meets NACK_UNREACH is probed. -/
def execNack (p : Packet) (s : State) : Host.Outcome State Fault Refusal :=
  receive clsNack p s (
    match s.awaited p with
    | none => .next s.lateDrop
    | some (_, b, j) =>
      let t := (s.failTrans p.tag (nackFault p.status)).endBurst p.tag b.idx
      .next (if p.status = nackKey ∨ p.status = nackClosed then t.spillRefused j.module p.offset
        else if p.status = nackUnreach then t.startProbes j.module else t))

/-- PROBE (R445): the module answers. -/
def execProbe (p : Packet) (s : State) : Host.Outcome State Fault Refusal :=
  receive clsProbe p s (.next (s.respond { cls := clsProbeRsp, dst := p.src, src := 0, tag := p.tag, seq := p.seq } []))

/-- PROBE_RSP (R465, R466): the owner counts as reachable, and a takeover of its ID is refused. -/
def execProbeRsp (p : Packet) (s : State) : Host.Outcome State Fault Refusal :=
  receive clsProbeRsp p s (
    let s := { s with fabric := { s.fabric with probing := s.fabric.probing.filter (· != p.src) } }
    let hit := s.fabric.takeover.filter (·.id == p.src)
    let s := { s with fabric := { s.fabric with takeover := s.fabric.takeover.filter (·.id != p.src) } }
    .next (hit.foldl (fun s t => s.admDone t.port t.owed .failed fltTakeoverLive 0) s))

/-! ### Timeouts (R461, R463) -/

/-- FAB_RSP_TIMEOUT (R463): no response packet of a burst has come. -/
def execFabRspTimeout (tag burst : Nat) (s : State) : Host.Outcome State Fault Refusal :=
  match s.transOf tag with
  | none => .next s
  | some t =>
    match t.live.find? (·.idx == burst) with
    | some b =>
      if b.got.isEmpty then
        let owner := (s.jobOf t).map fun j => j.module
        let u := (s.failTrans tag fltFabTimeout).endBurst tag burst
        .next (match owner with
          | some m => u.startProbes m
          | none => u)
      else .next s
    | none => .next s

/-- The gap timer of a burst in progress at its requester: the transaction ends (R461). -/
def State.gapAtRequester (s : State) (tag burst : Nat) : State :=
  match s.transOf tag with
  | none => s
  | some t =>
    match t.live.find? (·.idx == burst) with
    | some b =>
      if b.got.isEmpty then s
      else
        let s := s.failTrans tag fltStreamGap
        match s.transOf tag with
        | some t => (s.setTrans tag { t with live := [] }).settleTrans tag
        | none => s
    | none => s

/-! ### The owner's checks (R456) -/

/-- What the checks of a request's packet find: the window accepts it, or a STATUS and the window that covers the offset. -/
inductive Checked where
  | ok (w : Nat) (x : Window)
  | refuse (status : Nat) (w : Option Nat)

/-- Whether the storage of a window's bytes is mapped for its owner; a unit LOST counts as unmapped (log 20). The pages of a window whose partition has
been destroyed were mapped when a burst was accepted (R459). -/
def State.winMapped (s : State) (x : Window) (off n : Nat) : Bool :=
  x.owner == 16 || x.gone || (s.check x.owner false (x.lva + (off - x.ebase)) n).isNone

/-- Checks 1 to 6 of a packet at `off` that covers `n` bytes. -/
def State.checkReq (s : State) (p : Packet) (n : Nat) (write : Bool) : Checked :=
  match s.winAt p.offset with
  | none => .refuse nackKey none
  | some (w, x) =>
    if p.key ≠ x.key.toNat then .refuse nackKey (some w)
    else if (x.peerEn && x.peer != p.src) || !(if write then x.wr else x.rd) then .refuse nackKey (some w)
    else if x.state ≠ .open ∨ p.epoch ≠ x.epoch then .refuse nackClosed (some w)
    else if x.ebase + x.size < p.offset + n then .refuse nackRange (some w)
    else if !s.winMapped x p.offset n then .refuse nackUnmapped (some w)
    else .ok w x

/-- A refusal: its NACK, and at steps 1 to 3 its count and its event (R456). -/
def State.refuseReq (s : State) (p : Packet) (status : Nat) (w : Option Nat) : State :=
  let s := s.nackTo p status
  if status = nackKey then
    let ps := match w with
      | some n => if (s.win n).owner < 16 then [(s.win n).owner] else []
      | none => []
    (s.fabCount 0x118 1).event 0x000E p.src (w.getD 0xFFFF) ps
  else s

/-- The bytes of a window's storage, or whether one is poisoned (R527). -/
def State.winRead (s : State) (x : Window) (off n : Nat) : Option (List Byte) :=
  if x.owner = 16 then
    (if (unitsOf off n).any s.fabric.spillPoison.contains then none else some (readBytes s.fabric.spill off n))
  else
    let a := x.lva + (off - x.ebase)
    if (s.check x.owner true a n).isSome then none else some (readBytes (s.mem x.owner).bytes a n)

/-- The answer to a read request that has passed the checks: the burst's packets, or NACK_POISON where a byte does not read (R461, R527). -/
def State.answerRead (s : State) (p : Packet) (x : Window) (n : Nat) : State :=
  match s.winRead x p.offset n with
  | none => s.nackTo p nackPoison
  | some bs =>
    let h : Hdr := { cls := clsRdRsp, dst := p.src, src := 0, tag := p.tag }
    (burstPackets p.offset p.burst h bs).foldl (fun s q => s.respond q.1 q.2) s

/-- RD_REQ (R456, R461, R527): checked, then answered by the burst's packets. -/
def execRdReq (p : Packet) (mem : MemErr) (s : State) : Host.Outcome State Fault Refusal :=
  receive clsRdReq p s (
    let n := 4 * (p.rdlen + 1)
    match s.checkReq p n false with
    | .refuse st w => .next (s.refuseReq p st w)
    | .ok _ x =>
      if x.owner < 16 then
        let t := s.strike x.owner mem
        let t := t.setMem x.owner ((t.mem x.owner).touch (x.lva + (p.offset - x.ebase)) n)
        mended (some x.owner) mem (.next ((t.startFarOwn x.owner).answerRead p x n))
      else .next ((s.spillError mem).answerRead p x n))

/-! ### Write bursts at the owner (R457, R459, R461, R462) -/

/-- Burst `b` of a source's transaction. -/
def InBurst.is (b : InBurst) (src tag idx : Nat) : Bool := b.src == src && b.tag == tag && b.idx == idx

def State.inBurst (s : State) (src tag idx : Nat) : Option InBurst := s.fabric.bursts.find? (·.is src tag idx)

def State.setInBurst (s : State) (b : InBurst) : State :=
  { s with fabric := { s.fabric with bursts := s.fabric.bursts.map fun x => if x.is b.src b.tag b.idx then b else x } }

/-- The burst has ended: its packets are given up, later ones are late. -/
def InBurst.ended (b : InBurst) : InBurst := { b with overs := true, pkts := [] }

/-- Every packet up to the LAST one has arrived. -/
def InBurst.whole (b : InBurst) : Bool :=
  match b.last with
  | none => false
  | some n => (List.range (n + 1)).all fun i => b.pkts.any (·.1 == i)

/-- The staged bytes in packet order. -/
def InBurst.bytes (b : InBurst) : List Byte :=
  (List.range 16).flatMap fun i => ((b.pkts.find? (·.1 == i)).map (·.2)).getD []

/-- A response header for a burst. -/
def InBurst.reply (b : InBurst) (cls status : Nat) : Hdr :=
  { cls := cls, dst := b.src, src := 0, tag := b.tag, offset := b.first, status := status, seq := 16 * b.idx }

/-- A burst commits: its bytes reach the window's storage and WR_ACK is sent; where its pages have gone since, it is refused instead. A burst that a
window accepted before its partition was destroyed commits too (R459); its bytes go the way of the memory that the destruction unmapped (log 63). -/
def State.commit (s : State) (b : InBurst) : State :=
  let x := s.win b.win
  let bs := b.bytes
  let s := s.setInBurst b.ended
  if x.gone then s.respond (b.reply clsWrAck 0) []
  else if x.owner = 16 then
    { s with fabric := s.fabric.spillStore b.first bs }.respond (b.reply clsWrAck 0) []
  else if s.winMapped x b.first bs.length then
    ((s.setMem x.owner ((s.mem x.owner).store (x.lva + (b.first - x.ebase)) bs)).startFarOwn x.owner).respond (b.reply clsWrAck 0) []
  else (s.fabCount 0x10C 1).respond (b.reply clsNack nackUnmapped) []

/-- Commits the whole bursts of a transaction that no earlier burst holds back, in burst order (R457). -/
def State.commitReady (fuel : Nat) (s : State) (src tag : Nat) : State :=
  match fuel with
  | 0 => s
  | fuel + 1 =>
    let mine := s.fabric.bursts.filter fun b => b.src == src && b.tag == tag
    match mine.find? fun b => !b.overs && b.whole && (List.range b.idx).all fun i => mine.any fun e => e.idx == i && e.overs with
    | none => s
    | some b => (s.commit b).commitReady fuel src tag

/-- A write packet joins its burst; one beyond the window or over a page not mapped refuses the burst (R456, steps 5 and 6). -/
def State.stage (s : State) (p : Packet) (b : InBurst) : State :=
  let x := s.win b.win
  let n := p.payload.length
  let refuse (st : Nat) : State := (s.setInBurst b.ended).nackTo p st
  let s := if x.ebase + x.size < p.offset + n ∨ p.offset < x.ebase then refuse nackRange
    else if !s.winMapped x p.offset n then refuse nackUnmapped
    else s.setInBurst { b with pkts := (p.idx, p.payload) :: b.pkts, last := if p.last then some p.idx else b.last }
  s.commitReady 65536 p.src p.tag

/-- The bursts that a source's TAG still names: packet 0 of burst 0, once every burst of the TAG has ended, begins its next transaction
(log 21). -/
def State.renewTag (s : State) (p : Packet) : State :=
  let mine := s.fabric.bursts.filter fun b => b.src == p.src && b.tag == p.tag
  if p.seq = 0 ∧ mine.all (·.overs) = true then
    { s with fabric := { s.fabric with bursts := s.fabric.bursts.filter fun b => !(b.src == p.src && b.tag == p.tag) } }
  else s

/-- WR (R456, R457, R462). -/
def execWr (p : Packet) (s : State) : Host.Outcome State Fault Refusal :=
  receive clsWr p s (
    let s := s.renewTag p
    match s.inBurst p.src p.tag p.burst with
    | some b => if b.overs || b.pkts.any (·.1 == p.idx) then .next s.lateDrop else .next (s.stage p b)
    | none =>
      let b (w : Nat) (overs : Bool) : InBurst :=
        { src := p.src, tag := p.tag, idx := p.burst, win := w, first := p.offset - 256 * p.idx, pkts := [], last := none, overs := overs }
      let add (b : InBurst) : State := { s with fabric := { s.fabric with bursts := s.fabric.bursts ++ [b] } }
      match s.checkReq p p.payload.length true with
      | .refuse st w => .next (((add (b (w.getD 0) true)).refuseReq p st w).commitReady 65536 p.src p.tag)
      | .ok w _ => .next ((add (b w false)).stage p (b w false)))

/-- FAB_GAP_EXPIRY (R461): at the owner the staged packets are discarded and the sender told; at the requester the transaction ends. -/
def execFabGapExpiry (owner : Bool) (src tag burst : Nat) (s : State) : Host.Outcome State Fault Refusal :=
  if owner then
    match s.inBurst src tag burst with
    | some b =>
      if b.overs then .next s
      else .next ((((s.setInBurst b.ended).fabCount 0x10C 1).respond (b.reply clsNack nackGap) []).commitReady 65536 src tag)
    | none => .next s
  else .next (s.gapAtRequester tag burst)

/-! ### Taking over a failed module's ID (R466, R467) -/

/-- Every window is FREE. -/
def State.noWindows (s : State) : Bool := s.fabric.wins.all fun e => e.2.state == .free

/-- A partition holds window records kept from a record of the named module (R547). -/
def State.keptFrom (s : State) (p id : Nat) : Bool :=
  match (s.part p).kept with
  | some (m, ws) => m == id && !ws.isEmpty
  | none => false

/-- Partitions that PMASK names. -/
def maskParts (mask : Nat) : List Nat := (List.range 16).filter fun p => mask.testBit p

/-- TAKEOVER (R466): refused, or the named ID is probed and the command waits. -/
def execTakeover (n : Nat) (e : Entry) (s : State) : Host.Outcome State Fault Refusal :=
  critCmd (.adm n) 0x44 e [(0x08, 0, 12), (0x0C, 0, 16)] s fun o t =>
    let id := eBits e 0x08 0 12
    let mask := eBits e 0x0C 0 16
    if !t.fabric.standby || !t.noWindows then .fail t fltArgRange
    else if mask = 0 ∨ (maskParts mask).all (t.keptFrom · id) = false then .fail t fltRestoreMismatch
    else
      let wait : TakeoverWait := { port := n, owed := o, id := id, pmask := mask }
      let t : State := { t with fabric := { t.fabric with takeover := t.fabric.takeover ++ [wait] } }
      .owes ((t.inject { cls := clsProbe, dst := id, src := 0, tag := 0 } []).getD t)

/-- The windows kept for the partitions of a mask, each opened with the epoch after the recorded one. -/
def State.openKept (s : State) (mask : Nat) : State × Nat :=
  (maskParts mask).foldl (fun (s, n) p =>
    match (s.part p).kept with
    | some (_, ws) =>
      (ws.foldl (fun s e => s.setWin e.1 { e.2 with state := .open, epoch := (e.2.epoch + 1) % 65536, closer := none }) s, n + ws.length)
    | none => (s, n)) (s, 0)

/-- TAKEOVER_PROBE_TIMEOUT (R466, R467): the oldest waiting takeover proceeds. -/
def execTakeoverProbeTimeout (s : State) : Host.Outcome State Fault Refusal :=
  match s.fabric.takeover with
  | [] => .next s
  | t :: rest =>
    let s := { s with fabric := { s.fabric with takeover := rest } }
    if !s.fabric.standby || !s.noWindows then .next (s.admDone t.port t.owed .failed fltArgRange 0)
    else
      let (s, n) := s.openKept t.pmask
      let s := { s with fabric := { s.fabric with id := t.id, standby := false } }
      .next ((s.event 0x0010 t.id n []).admDone t.port t.owed .done 0 0)

end Sys2Proof.Machine
end

