-- ==== Sys2Proof/Machine/Crypto.lean ====
section
/-! DEFINITION. AES-256 Key Unwrap of RFC 3394 and the P-384 Diffie-Hellman step that Husk's key blocks use (R562). -/

namespace Sys2Proof.Machine

/-! ### AES-256, the inverse cipher -/

/-- A byte times x in the field of AES. -/
def gfDouble (a : Nat) : Nat := if a < 128 then 2 * a else (2 * a) ^^^ 0x11B

/-- The product of two bytes in the field of AES. -/
def gfMul (a b : Nat) : Nat :=
  ((List.range 8).foldl (fun (acc : Nat × Nat) i => (if b.testBit i then acc.1 ^^^ acc.2 else acc.1, gfDouble acc.2)) (0, a)).1

/-- The inverse of a byte, 0 for 0: its 254th power. -/
def gfInv (a : Nat) : Nat :=
  ((List.range 7).foldl (fun (acc : Nat × Nat) _ => let q := gfMul acc.2 acc.2; (gfMul acc.1 q, q)) (1, a)).1

def rotl8 (a n : Nat) : Nat := (a * 2 ^ n + a / 2 ^ (8 - n)) % 256

/-- The substitution box of AES. -/
def aesBox : List Nat :=
  (List.range 256).map fun a => let b := gfInv a; b ^^^ rotl8 b 1 ^^^ rotl8 b 2 ^^^ rotl8 b 3 ^^^ rotl8 b 4 ^^^ 0x63

/-- Its inverse. -/
def aesUnbox : List Nat := (List.range 256).map fun y => aesBox.idxOf y

def xorBytes (a b : List Nat) : List Nat := List.zipWith (fun x y => x ^^^ y) a b

/-- The key schedule of AES-256: words of 4 bytes, the newest first. -/
def aesExpand (box : List Nat) (i n rcon : Nat) (ws : List (List Nat)) : List (List Nat) :=
  match n with
  | 0 => ws
  | n + 1 =>
    let prev := ws.headD []
    let back := (ws.drop 7).headD []
    let sub (w : List Nat) : List Nat := w.map fun b => box.getD b 0
    let t := if i % 8 = 0 then xorBytes (sub (prev.drop 1 ++ prev.take 1)) [rcon, 0, 0, 0] else if i % 8 = 4 then sub prev else prev
    aesExpand box (i + 1) n (if i % 8 = 0 then gfDouble rcon else rcon) (xorBytes back t :: ws)

/-- The 15 round keys of a 32-byte key. -/
def aesKeys (key : List Byte) : List (List Nat) :=
  let k := key.map (·.toNat)
  let first := (List.range 8).map fun i => (k.drop (4 * i)).take 4
  let ws := (aesExpand aesBox 8 52 1 first.reverse).reverse
  (List.range 15).map fun r => ((ws.drop (4 * r)).take 4).flatten

/-- Rows of the state moved back, then substituted back: byte `r + 4 c` comes from column `c - r`. -/
def aesUnshift (unbox s : List Nat) : List Nat :=
  (List.range 16).map fun i => unbox.getD (s.getD (i % 4 + 4 * ((i / 4 + 4 - i % 4) % 4)) 0) 0

/-- Columns of the state mixed back. -/
def aesUnmix (s : List Nat) : List Nat :=
  (List.range 16).map fun i =>
    let c := i / 4 * 4
    ([14, 11, 13, 9].mapIdx fun j m => gfMul m (s.getD (c + (i + j) % 4) 0)).foldl (· ^^^ ·) 0

/-- One block of 16 bytes deciphered under 15 round keys. -/
def aesDecrypt (keys : List (List Nat)) (block : List Nat) : List Nat :=
  let unbox := aesUnbox
  let s := xorBytes block (keys.getD 14 [])
  let s := (List.range 13).foldl (fun s r => aesUnmix (xorBytes (aesUnshift unbox s) (keys.getD (13 - r) []))) s
  xorBytes (aesUnshift unbox s) (keys.getD 0 [])

/-- AES Key Unwrap (RFC 3394): the key, when the integrity check value is in place. -/
def aesUnwrap (kek wrapped : List Byte) : Option (List Byte) :=
  let keys := aesKeys kek
  let c := wrapped.map (·.toNat)
  let n := c.length / 8 - 1
  let regs := (List.range n).map fun i => (c.drop (8 * (i + 1))).take 8
  let steps := (List.range (6 * n)).map fun k => 6 * n - k
  let (a, rs) := steps.foldl (fun (acc : List Nat × List (List Nat)) t =>
    let i := (t - 1) % n
    let a := (acc.1.take 7) ++ [acc.1.getD 7 0 ^^^ t]
    let b := aesDecrypt keys (a ++ acc.2.getD i [])
    (b.take 8, acc.2.set i (b.drop 8))) (c.take 8, regs)
  if a = List.replicate 8 0xA6 then some (rs.flatten.map (BitVec.ofNat 8)) else none

/-! ### P-384 -/

def p384 : Nat := 2 ^ 384 - 2 ^ 128 - 2 ^ 96 + 2 ^ 32 - 1
def p384b : Nat := 0xb3312fa7e23ee7e4988e056be3f82d19181d9c6efe8141120314088f5013875ac656398d8a2ed19d2a85c8edd3ec2aef

/-- `a ^ e` modulo the field's prime, over the low `n` bits of `e`. -/
def p384Pow (a e n : Nat) : Nat :=
  match n with
  | 0 => 1
  | n + 1 => let h := p384Pow (a * a % p384) (e / 2) n; if e % 2 = 1 then h * a % p384 else h

def p384Inv (a : Nat) : Nat := p384Pow a (p384 - 2) 384

/-- A point of the curve; none is the point at infinity. -/
abbrev CurvePoint := Option (Nat × Nat)

def onCurve (x y : Nat) : Bool := decide (x < p384) && decide (y < p384) && y * y % p384 == (x * x * x + (p384 - 3) * x + p384b) % p384

/-- The point with slope `l` through one of abscissas `x1`, `x2` and ordinate `y1`. -/
def chord (l x1 y1 x2 : Nat) : CurvePoint :=
  let x := (l * l + 2 * p384 - x1 - x2) % p384
  some (x, (l * (x1 + p384 - x) + p384 - y1) % p384)

def curveAdd (a b : CurvePoint) : CurvePoint :=
  match a, b with
  | none, b => b
  | a, none => a
  | some (x1, y1), some (x2, y2) =>
    if x1 = x2 then
      if (y1 + y2) % p384 = 0 then none else chord ((3 * x1 * x1 + p384 - 3) * p384Inv (2 * y1 % p384) % p384) x1 y1 x2
    else chord ((y2 + p384 - y1) * p384Inv (x2 + p384 - x1) % p384) x1 y1 x2

/-- `k` times a point, over the low `n` bits of `k`. -/
def curveMul (k n : Nat) (a : CurvePoint) : CurvePoint :=
  match n with
  | 0 => none
  | n + 1 => let h := curveMul (k / 2) n (curveAdd a a); if k % 2 = 1 then curveAdd h a else h

/-- A big-endian number of bytes, as SEC 1 writes coordinates. -/
def beNat (bs : List Byte) : Nat := leNat bs.reverse

/-- The ECDH shared X coordinate, 48 bytes, of a private scalar and an uncompressed public key; none when the key is not on the curve. -/
def ecdh384 (d : Nat) (pub : List Byte) : Option (List Byte) :=
  let x := beNat ((pub.drop 1).take 48)
  let y := beNat ((pub.drop 49).take 48)
  if pub.headD 0 = 4 ∧ onCurve x y = true then (curveMul d 384 (some (x, y))).map fun q => (leBytes 48 q.1).reverse else none

end Sys2Proof.Machine
end

