-- ==== Sys2Proof/Machine/Record.lean ====
section
/-! DEFINITION. Secured records: their bytes, securing and restore (17, R533 to R547). -/

namespace Sys2Proof.Machine

/-- 1 MiB, the size of a chunk. -/
def mib : Nat := 1048576

/-- Pieces of bytes laid over zeros. -/
def layBytes (n : Nat) (ps : List (Nat × List Byte)) : List Byte :=
  readBytes (ps.foldl (fun m p => writeBytes m p.1 p.2) []) 0 n

/-- A table of `n` entries given by a function. -/
def stable {α : Type} [DecidableEq α] (d : α) (n : Nat) (f : Nat → α) : Sparse α :=
  ((List.range n).map fun i => (i, f i)).filter fun e => !decide (e.2 = d)

/-! ### Writing a record (R535, R536) -/

/-- A context's part of a state block. The predicates are one word, p_n in bit n (log 23). -/
def Ctx.pieces (x : Ctx) (base : Nat) : List (Nat × List Byte) :=
  [(base, leBytes 8 x.pc.toNat), (base + 8, leBytes 4 x.mode.code), (base + 0xC, leBytes 4 x.item.word), (base + 0x10, leBytes 4 x.item.item),
   (base + 0x14, leBytes 4 ((List.range 8).map fun i => if x.readP i then 2 ^ i else 0).sum),
   (base + 0x100, (List.range 32).flatMap fun r => leBytes 8 (x.readS r).toNat),
   (base + 0x200, (List.range 16).flatMap fun r => leBytes 64 (x.readT r).toNat),
   (base + 0x600, (List.range 2048).flatMap fun l => leBytes 4 (sget 0 x.v l).toNat)]

/-- Registers of a tracker in register order (R154). -/
def Tracker.words (t : Tracker) : List Nat := (List.range 12).map fun i => (t.reg (4 * i)).getD 0

/-- Registers of a random stream in register order (R540). -/
def RngStream.words (r : RngStream) : List Nat := (List.range 7).map fun i => (r.reg (4 * i)).getD 0

/-- The state block of a core: chunk 4 + 4i. -/
def Core.pieces (x : Core) (nctx : Nat) : List (Nat × List Byte) :=
  (List.range nctx).flatMap (fun c => (x.ctx c).pieces (0x4000 * c)) ++
  (List.range 64).map (fun n => (0x10000 + 0x40 * n, (x.tracker n).words.flatMap (leBytes 4))) ++
  (List.range 4).map (fun k => (0x11000 + 64 * k, leBytes 64 (sget 0 x.sheaf.epi k).toNat)) ++
  (List.range 16).map (fun n => (0x11100 + 4 * n, leBytes 4 (sget ({} : SlotTag) x.sheaf.tags n).word)) ++
  [(0x11140, leBytes 4 x.tab.tag.word), (0x11144, leBytes 4 x.sheaf.split), (0x11148, leBytes 4 x.wdExp)] ++
  (List.range 8).map (fun m => (0x11160 + 4 * m, leBytes 4 (sget 0 x.mcast m).toNat)) ++
  (List.range 8).map (fun n => (0x11200 + 32 * n, (x.rngOf n).words.flatMap (leBytes 4))) ++
  (List.range 512).map (fun i => (0x12000 + 8 * i, leBytes 8 (sget 0 x.exact.entries i).toNat)) ++
  [(0x13000, leBytes 4 x.exact.actXmin.toNat ++ leBytes 4 x.exact.actInvw.toNat ++ leBytes 4 x.exact.derXmin.toNat ++
     leBytes 4 x.exact.derInvw.toNat)] ++
  (List.range 4096).map (fun i => (0x14000 + 8 * i, leBytes 8 (sget emptySlot x.history i).toNat)) ++
  (List.range 65536).map (fun i => (0x20000 + 4 * i, leBytes 4 (sget 0 x.scat.acc i).toNat))

/-- A window record of 64 bytes: the fields stand as in the body of WIN_GRANT (R481; log 23). -/
def Window.record (x : Window) (w : Nat) : List Byte :=
  leBytes 4 (w + x.owner * 2 ^ 12 + boolNat x.rd * 2 ^ 17 + boolNat x.wr * 2 ^ 18 + boolNat x.peerEn * 2 ^ 19 + x.peer * 2 ^ 20) ++
  leBytes 4 x.epoch ++ leBytes 8 x.ebase ++ leBytes 8 x.size ++ leBytes 8 x.lva ++ leBytes 8 x.key.toNat ++ leBytes 24 x.gapUs

/-- Windows that a partition owns. -/
def State.winsOf (s : State) (p : Nat) : List (Nat × Window) := s.fabric.wins.filter fun e => e.2.state != .free && e.2.owner == p

/-- Object blocks of a grant, ascending. -/
def Grant.blocks (g : Grant) : List Nat := (List.range 128).filter fun k => g.objs.toNat.testBit k

/-- Address and pages of a securing memory range. -/
def Sec.range (x : Sec) (k : Nat) : Nat × Nat := (sget 0 x.mem (2 * k) * 2097152, sget 0 x.mem (2 * k + 1))

def Sec.ranges (x : Sec) : List (Nat × Nat) := (List.range 4).map x.range

/-- Chunks of a record of the partition. -/
def PartBlock.nchunk (b : PartBlock) : Nat := 1 + 4 * b.cores.length + (b.sec.ranges.map fun r => 2 * r.2).sum

/-- The chunks of a record, in order (R536). -/
def State.recordChunks (s : State) (p : Nat) : List (List Byte) :=
  let b := s.part p
  let c0 := layBytes mib
    (b.grant.blocks.mapIdx (fun j k => (4096 * j, (List.range 1024).flatMap fun i => leBytes 4 (s.obj (1024 * k + i)).toNat)) ++
     (s.winsOf p).mapIdx (fun j e => (0x80000 + 64 * j, e.2.record e.1)))
  let cores := b.cores.flatMap fun k =>
    let x := s.core k
    [readBytes x.scratch 0 mib, readBytes x.scratch mib mib, readBytes x.scratch (2 * mib) mib, layBytes mib (x.pieces b.prog.nctx)]
  let mem := b.sec.ranges.flatMap fun r => (List.range (2 * r.2)).map fun i => readBytes b.mem.bytes (r.1 + mib * i) mib
  c0 :: cores ++ mem

/-- Bytes 0x00 to 0x7F of a header (R535). -/
def State.recordHead (s : State) (p cursor seq : Nat) : List Byte :=
  let b := s.part p
  layBytes 0x80
    ([(0x00, leBytes 4 1), (0x04, leBytes 4 (p + b.prog.nctx * 2 ^ 4 + b.cores.length * 2 ^ 7)), (0x08, leBytes 8 b.prog.step.toNat),
      (0x10, leBytes 8 cursor), (0x18, leBytes 8 seq), (0x20, leBytes 4 b.nchunk), (0x28, leBytes 8 s.time), (0x30, leBytes 4 s.fabric.id),
      (0x38, leBytes 8 b.grant.groups.toNat), (0x40, leBytes 16 b.grant.objs.toNat), (0x70, leBytes 4 (s.winsOf p).length)] ++
     b.sec.ranges.mapIdx fun k r => (0x50 + 8 * k, leBytes 4 (r.1 / 2097152) ++ leBytes 4 r.2))

/-- The whole record with COMPLETE = 1 (R535 to R538). -/
def State.recordBytes (s : State) (p cursor seq : Nat) : List Byte :=
  let chunks := s.recordChunks p
  let table := chunks.flatMap sha256
  let head := s.recordHead p cursor seq
  layBytes mib [(0, head), (0x80, sha256 (head ++ table)), (0xF8, [1#8]), (0x100, table)] ++ chunks.flatten

/-! ### Where records lie (R533) -/

/-- Memory of another module as this model keeps it (log 3). -/
def State.remote (s : State) (m : Nat) : Sparse Byte := sget [] s.remoteMem m
def State.setRemote (s : State) (m : Nat) (b : Sparse Byte) : State := { s with remoteMem := sput [] s.remoteMem m b }

/-- A record's bytes: a memory and where the slot begins in it. -/
structure RecSrc where
  mem : Sparse Byte
  base : Nat

def RecSrc.bytes (r : RecSrc) (off n : Nat) : List Byte := readBytes r.mem (r.base + off) n
def RecSrc.nat (r : RecSrc) (off n : Nat) : Nat := readNat r.mem (r.base + off) n

/-- The two slots of the partition's own record. -/
def State.ownSlots (s : State) (p : Nat) : List RecSrc :=
  let b := s.part p
  let at' (i : Nat) : RecSrc :=
    if b.sec.dest then
      let w := b.rwin b.sec.rwin
      { mem := s.remote w.module, base := w.ebase + i * b.sec.slotMib * mib }
    else { mem := b.sec.store, base := i * b.sec.slotMib * mib }
  (if b.sec.a.isSome then [at' 0] else []) ++ (if b.sec.b.isSome then [at' 1] else [])

/-- The latest complete record (17, "What a partition does with a failed core"): slot 0 A, 1 B. -/
def Sec.latest (x : Sec) : Option (Nat × SecRec) :=
  match x.a, x.b with
  | some a, some b => if a.seq < b.seq then some (1, b) else some (0, a)
  | some a, none => some (0, a)
  | none, some b => some (1, b)
  | none, none => none

/-- The partition has a record to return to. -/
def PartBlock.hasRecord (b : PartBlock) : Bool := b.sec.en && b.sec.latest.isSome

/-! ### Securing (R534, R538, R539, R542) -/

def Sec.setSlot (x : Sec) (i : Nat) (r : Option SecRec) : Sec := if i = 0 then { x with a := r } else { x with b := r }

/-- What the securing reads and cannot: a slot too small or a window too short, a page of its ranges or of the cursor that does not read
(log 24). -/
def State.secureBad (s : State) (p : Nat) : Option FaultCode :=
  let b := s.part p
  let w := b.rwin b.sec.rwin
  let cur := bits b.sec.cur.toNat 0 48
  if 32760 < b.nchunk ∨ b.sec.slotMib < b.nchunk + 1 then some fltArgRange
  else if b.sec.dest ∧ w.size = 0 then some fltArgRange
  else if b.sec.dest ∧ w.size < 2 * b.sec.slotMib * mib then some fltWindowRange
  else
    match (b.sec.ranges.findSome? fun r => (s.check p true r.1 (r.2 * 2097152)).map fun f => f.1.code) with
    | some f => some f
    | none => if cur < 0x400000 then none else (s.check p true cur 8).map fun f => f.1.code

/-- The data cursor at a securing (R542). -/
def PartBlock.cursor (b : PartBlock) : Nat :=
  let cur := bits b.sec.cur.toNat 0 48
  if cur < 0x400000 then 0 else readNat b.mem.bytes cur 8

/-- Bytes written at an offset of a partition's record slots. -/
def State.writeSlots (s : State) (p off : Nat) (bs : List Byte) : State :=
  let b := s.part p
  if b.sec.dest then
    let w := b.rwin b.sec.rwin
    s.setRemote w.module (writeBytes (s.remote w.module) (w.ebase + off) bs)
  else s.setPart p { b with sec := { b.sec with store := writeBytes b.sec.store off bs } }

/-- A securing at a step boundary: the slot without the latest record takes the new one; where a write fails it is left with COMPLETE = 0 and
EVT_SECURE_FAIL tells the owning host (R538, R539). The answer says whether it is whole. -/
def State.secure (s : State) (p : Nat) (fail : Option FaultCode) : State × Bool :=
  let b := s.part p
  let slot := match b.sec.latest with
    | some (0, _) => 1
    | _ => 0
  let base := slot * b.sec.slotMib * mib
  let s := s.setPart p { b with sec := b.sec.setSlot slot none }
  let s := if b.sec.dest && (b.rwin b.sec.rwin).size == 0 then s else s.writeSlots p (base + 0xF8) [0#8]
  match (match s.secureBad p with
    | some f => some f
    | none => fail) with
  | some f => (s.event 0x0006 f.toNat slot [p], false)
  | none =>
    let seq := b.sec.seq + 1
    let s := s.writeSlots p base (s.recordBytes p b.cursor seq)
    let b := s.part p
    let cur := bits b.sec.cur.toNat 0 48
    let m := b.sec.ranges.foldl (fun m r => m.note r.1 (r.2 * 2097152) false) b.mem
    let m := if cur < 0x400000 then m else m.note cur 8 false
    ((s.setPart p { b with mem := m, sec := { b.sec.setSlot slot (some { seq := seq, step := b.prog.step }) with seq := seq } }).startFarOwn p, true)

/-! ### Restore (R543 to R546) -/

/-- A slot holds COMPLETE = 1. -/
def RecSrc.complete (r : RecSrc) : Bool := bit (r.nat 0xF8 1) 0

def RecSrc.nchunk (r : RecSrc) : Nat := bits (r.nat 0x20 4) 0 15

/-- Every chunk's digest and ROOT are as recorded (R537, R543). -/
def RecSrc.verifies (r : RecSrc) : Bool :=
  let n := r.nchunk
  decide (1 ≤ n) && decide (n ≤ 32760) &&
    (List.range n).all (fun i => sha256 (r.bytes ((i + 1) * mib) mib) == r.bytes (0x100 + 32 * i) 32) &&
    sha256 (r.bytes 0 0x80 ++ r.bytes 0x100 (32 * n)) == r.bytes 0x80 32

/-- The record to use: of the complete slots the one with the higher SEQ that verifies, else the other (R543). -/
def chooseRecord (rs : List RecSrc) : Option RecSrc :=
  let cs := rs.filter (·.complete)
  let ordered := match cs with
    | [a, b] => if a.nat 0x18 8 < b.nat 0x18 8 then [b, a] else [a, b]
    | cs => cs
  ordered.find? (·.verifies)

/-- The host's data cursor of REPAIR or START (R523, R547). -/
structure CursorArg where
  en : Bool
  force : Bool
  value : Nat

/-- The record's PART, NCTX, CORES, GROUPS or OBJS differ from the partition's (R544). -/
def RecSrc.mismatch (r : RecSrc) (p nctx : Nat) (b : PartBlock) : Bool :=
  let w := r.nat 0x04 4
  bits w 0 4 != p || bits w 4 3 != nctx || bits w 7 10 != b.cores.length || r.nat 0x38 8 != b.grant.groups.toNat ||
    r.nat 0x40 16 != b.grant.objs.toNat

/-- STATE that a recorded context resumes in: one that waited or ran goes on. -/
def resumeMode (code : Nat) : CtxMode :=
  match code with
  | 3 => .halted | 4 => .fault | 5 => .stopped | 0 => .idle
  | _ => .run

def itemOfWord (w i : Nat) : ItemCtx := { valid := bit w 31, failed := bit w 30, req := bits w 0 14, item := i }

/-- A context from its part of a state block. -/
def ctxOf (g : Nat → Nat → Nat) (base : Nat) : Ctx :=
  { pc := BitVec.ofNat 64 (g base 8), mode := resumeMode (g (base + 8) 4), item := itemOfWord (g (base + 0xC) 4) (g (base + 0x10) 4)
    p := stable false 8 fun i => i != 0 && bit (g (base + 0x14) 4) i
    s := stable 0 32 fun i => if i = 0 then 0 else BitVec.ofNat 64 (g (base + 0x100 + 8 * i) 8)
    t := stable 0 16 fun i => BitVec.ofNat 512 (g (base + 0x200 + 64 * i) 64)
    v := stable 0 2048 fun i => BitVec.ofNat 32 (g (base + 0x600 + 4 * i) 4) }

def slotTagOf (w : Nat) : SlotTag := { valid := bit w 0, kind := bits w 1 1, fx := bits w 2 4, fy := bits w 6 4 }

def trackerOf (g : Nat → Nat → Nat) (a : Nat) : Tracker :=
  let r (i : Nat) : Nat := g (a + 4 * i) 4
  { tbase := bits (r 0) 0 12, cm1 := bits (r 0) 12 12, nm1 := bits (r 0) 24 4, tfmt := bits (r 0) 28 4, asym := bit (r 1) 0, psfmt := bits (r 1) 1 31
    margin := BitVec.ofNat 32 (r 2), filled := bits (r 3) 0 8, ptr := bits (r 3) 8 24, curMax := BitVec.ofNat 32 (r 4)
    curMin := BitVec.ofNat 32 (r 5), sse := BitVec.ofNat 64 (g (a + 24) 8), count := BitVec.ofNat 64 (g (a + 32) 8)
    clip := BitVec.ofNat 32 (r 10), nonfin := BitVec.ofNat 32 (r 11) }

/-- A random stream of a record; with a forced cursor its counter is recomputed (R545). -/
def rngFrom (g : Nat → Nat → Nat) (a : Nat) (force : Option Nat) : RngStream :=
  let r : RngStream := { key := BitVec.ofNat 64 (g a 8), ctr := BitVec.ofNat 64 (g (a + 8) 8), cpd := BitVec.ofNat 32 (g (a + 16) 4),
                         base := BitVec.ofNat 64 (g (a + 20) 8) }
  match force with
  | some cur => if r.cpd = 0 then r else { r with ctr := BitVec.ofNat 64 (r.base.toNat + r.cpd.toNat * cur) }
  | none => r

/-- A core with its scratchpad and state block from a record (R546): `i` is its partition index. Counters, latches and slot contents stay. -/
def Core.restore (x : Core) (r : RecSrc) (i nctx : Nat) (force : Option Nat) : Core :=
  let g (off n : Nat) : Nat := r.nat ((5 + 4 * i) * mib + off) n
  let scratch := stable (0 : Byte) 3145728 fun a => BitVec.ofNat 8 (r.nat ((2 + 4 * i) * mib + a) 1)
  { x with
    scratch := scratch, nctx := nctx, ops := [], wdExp := bits (g 0x11148 4) 0 5
    ctxs := stable {} nctx fun c => ctxOf g (0x4000 * c)
    trackers := ((List.range 64).map fun n => (n, trackerOf g (0x10000 + 0x40 * n))).filter fun e => !decide (e.2 = Tracker.reset e.1)
    sheaf := { x.sheaf with epi := stable 0 4 fun k => BitVec.ofNat 512 (g (0x11000 + 64 * k) 64)
                            tags := stable {} 16 fun n => slotTagOf (g (0x11100 + 4 * n) 4), split := g 0x11144 4, since := []
                            lastSplit := x.sheaf.showSplit (g 0x11144 4) }
    tab := { x.tab with tag := slotTagOf (g 0x11140 4) }
    mcast := stable 0 8 fun m => BitVec.ofNat 32 (g (0x11160 + 4 * m) 4)
    rng := stable {} 8 fun n => rngFrom g (0x11200 + 32 * n) force
    exact := { entries := stable 0 512 fun j => BitVec.ofNat 64 (g (0x12000 + 8 * j) 8)
               actXmin := BitVec.ofNat 32 (g 0x13000 4), actInvw := BitVec.ofNat 32 (g 0x13004 4), derXmin := BitVec.ofNat 32 (g 0x13008 4)
               derInvw := BitVec.ofNat 32 (g 0x1300C 4) }
    history := stable emptySlot 4096 fun j => BitVec.ofNat 64 (g (0x14000 + 8 * j) 8)
    scat := { x.scat with acc := stable 0 65536 fun j => BitVec.ofNat 32 (g (0x20000 + 4 * j) 4), queues := [], stalled := [] } }

/-- The objects of a grant take their recorded counters, with their waiter lists emptied. -/
def State.restoreObjs (s : State) (p : Nat) (r : RecSrc) : State :=
  ((s.part p).grant.blocks.mapIdx fun j k => (j, k)).foldl (fun s e =>
    (List.range 1024).foldl (fun s i =>
      let n := 1024 * e.2 + i
      { s with objs := sput 0 s.objs n (BitVec.ofNat 32 (r.nat (mib + 4096 * e.1 + 4 * i) 4)), waiters := sput [] s.waiters n [] }) s) s

/-- The pages of the recorded ranges; one that is no longer mapped is passed over (log 24). -/
def State.restoreMem (s : State) (p : Nat) (r : RecSrc) (cores : Nat) : State :=
  let ranges := (List.range 4).map fun k => (bits (r.nat (0x50 + 8 * k) 4) 0 27 * 2097152, bits (r.nat (0x54 + 8 * k) 4) 0 16)
  let pages := ranges.flatMap fun e => (List.range e.2).map fun i => e.1 + 2097152 * i
  (pages.mapIdx fun j va => (j, va)).foldl (fun s e =>
    if (s.mem p).mapped e.2 2097152 then 
      s.setMem p (((s.mem p).fill e.2 (r.bytes ((2 + 4 * cores + 2 * e.1) * mib) 2097152)).note e.2 2097152 true)
    else s) s

/-- The contexts that a record shows in FAULT: those known to have entered it before keep their order and their fault codes; of any other the record
holds no code, and a free value stands for it (R491; DESIGN CHOICE, log 63). -/
def State.restoreFaults (s : State) (p nctx : Nat) : State :=
  let b := s.part p
  let now := (b.cores.flatMap fun k => (List.range nctx).map fun c => (k, c)).filter fun e => (s.ctx e.1 e.2).mode == .fault
  let kept := b.prog.faults.filter fun e => now.contains (e.1, e.2.1)
  (now.filter fun e => !kept.any fun x => x.1 == e.1 && x.2.1 == e.2).foldl (fun s e =>
    let (v, s) := s.free
    let b := s.part p
    s.setPart p { b with prog := { b.prog with faults := b.prog.faults ++ [(e.1, e.2, BitVec.ofNat 16 v.toNat)] } })
    (s.setPart p { b with prog := { b.prog with faults := kept } })

def State.reqsOf (s : State) (p : Nat) : List Nat := (s.reqs.filter (·.2.part == p)).map (·.1)

/-- Items whose work a return to the record of a step discards end as FAILED with FLT_ROLLBACK (R517). -/
def State.rollbackTo (s : State) (p step : Nat) : State :=
  if (s.part p).prog.step.toNat ≤ step then s
  else (s.reqsOf p).foldl (fun s i =>
    let taken := match s.request i with
      | some q => q.assigned && decide (step ≤ q.takenAt)
      | none => false
    s.endItems i .failed fltRollback fun x => taken || x.bound.any fun b => decide (step ≤ b)) s

/-- The same, toward the partition's latest record. -/
def State.rollback (s : State) (p : Nat) : State :=
  match (s.part p).sec.latest with
  | none => s
  | some (_, r) => s.rollbackTo p r.step.toNat

/-- The item that a context of a record names is that of a request taken before the record's boundary, and has not ended (R358, R517). -/
def State.itemLives (s : State) (p step r i : Nat) : Bool :=
  match s.request r with
  | some q => q.part == p && q.assigned && decide (q.takenAt < step) && s.itemOpen r i
  | none => false

/-- Contexts restored with the name of an item that has ended since bind to it no more (R358). -/
def State.restorePast (s : State) (p step : Nat) : State :=
  (s.part p).cores.foldl (fun s k =>
    let x := s.core k
    s.setCore k { x with ctxs := x.ctxs.map fun (e : Nat × Ctx) =>
      (e.1, { e.2 with item := { e.2.item with past := e.2.item.valid && !s.itemLives p step e.2.item.req e.2.item.item } }) }) s

/-- A restore (R543 to R546), from a list of slots: nothing changes when it fails. Items that it discards beyond those of the latest record end first
(R517). It takes effect as a step boundary. -/
def State.restore (s : State) (p nctx : Nat) (rs : List RecSrc) (cur : CursorArg) : Except FaultCode (State × RecSrc) :=
  match chooseRecord rs with
  | none => .error fltRestoreDigest
  | some r =>
    let b := s.part p
    let recorded := r.nat 0x10 8
    if r.mismatch p nctx b then .error fltRestoreMismatch
    else if cur.en && cur.value != recorded && !cur.force then .error fltRestoreMismatch
    else
      let forced := if cur.en && cur.value != recorded then some cur.value else none
      let cores := b.cores
      let step := r.nat 0x08 8
      let s := s.rollbackTo p step
      let s := (cores.mapIdx fun i k => (i, k)).foldl (fun s e => s.setCore e.2 ((s.core e.2).restore r e.1 nctx forced)) s
      let s := (s.restoreObjs p r).restoreMem p r cores.length
      let a := bits b.sec.cur.toNat 0 48
      let s := if a < 0x400000 ∨ (s.check p false a 8).isSome = true then s
        else s.setMem p (((s.mem p).fill a (leBytes 8 (forced.getD recorded))).note a 8 true)
      let s := (s.restoreFaults p nctx).restorePast p step
      let b := s.part p
      .ok ((s.setPart p { b with prog := { b.prog with step := BitVec.ofNat 64 step, nctx := nctx } }).startFarOwn p, r)

/-- The window records of a record's chunk 0, with its MODULE (R547). -/
def RecSrc.windows (r : RecSrc) : Nat × List (Nat × Window) :=
  (bits (r.nat 0x30 4) 0 12, (List.range (bits (r.nat 0x70 4) 0 12)).map fun j =>
    let g (off n : Nat) : Nat := r.nat (mib + 0x80000 + 64 * j + off) n
    let w := g 0 4
    (bits w 0 12, { state := .closed, owner := bits w 12 5, rd := bit w 17, wr := bit w 18, peerEn := bit w 19, peer := bits w 20 12
                    epoch := g 4 4, ebase := g 8 8, size := g 16 8, lva := g 24 8, key := BitVec.ofNat 64 (g 32 8), gapUs := g 40 8 }))

end Sys2Proof.Machine
end

