-- ==== Sys2Proof/Machine/Program.lean ====
section
/-! DEFINITION. Programs of partitions: starting, step boundaries, ending, and what a core failure does to them (10, R302 to R305; 16, R473,
R488, R491 to R493; 17, R513 to R525, R530, R531, R533, R534). -/

namespace Sys2Proof.Machine

/-! ### Spares and cleared cores (R487, R515, R516) -/

/-- Physical positions in a die's pool, ascending; a die's 8 spares lie behind its 128 cores (log 25). -/
def State.pool (s : State) (die : Nat) : List Nat := sget (List.range' 128 8) s.spares die

/-- Physical position of a coordinate: the alias's own until a spare takes it (R516). -/
def State.position (s : State) (k : Nat) : Nat := let a := sget 0 s.aliasMap k; if a = 0 then k % 128 else a - 1

/-- The offset that a core group requests (R548). -/
def State.leanReqOf (s : State) (k : Nat) : Nat := sget 0 s.health.leanReq (groupOf k)

/-- Fused and recorded splices of an array of the core at a physical position: a fuse names the core by its logical number, which is its own
position. -/
def State.storedRows (s : State) (die pos array : Nat) : List Nat :=
  ((s.fuses.rows.filter fun r => r.1 == die * 128 + pos && r.2.1 == array && decide (pos < 128)).map (·.2.2)) ++
    ((s.flash.repair.rows.filter fun r => r.1 == die * 256 + pos && r.2.1 == array).map (·.2.2))

/-- The splices of the core at a physical position (R111, R512). -/
def State.splicesAt (s : State) (die pos : Nat) : Sparse (List Nat) :=
  (List.range 4).foldl (fun m a => sput [] m a ((s.storedRows die pos a).mergeSort fun x y => decide (x ≤ y))) []

/-- A core cleared before it joins a partition (R487), with the grant's CHAFF_LIMIT (R482); its splices, and rows that wait for one, are its own. -/
def Core.cleared (x : Core) (chaff : W32) : Core :=
  { sheaf := { splices := x.sheaf.splices, failing := x.sheaf.failing }, island := x.island, chaff := chaff, failed := x.failed }

/-- A spare takes a failed core's coordinate, cleared, with the splices recorded for it (R512, R515, R520). -/
def State.takeSpare (s : State) (k : Nat) (chaff : W32) : Option State :=
  match s.pool (k / 128) with
  | [] => none
  | q :: rest =>
    some ({ s with spares := sput (List.range' 128 8) s.spares (k / 128) rest, aliasMap := sput 0 s.aliasMap k (q + 1) }.setCore k
      { chaff := chaff, island := { offset := s.leanReqOf k }, sheaf := { splices := s.splicesAt (k / 128) q } })

/-- A physical core is retired: counted, and recorded in the repair store (R512, R514). -/
def State.retirePosition (s : State) (die pos : Nat) : State :=
  let r := s.flash.repair
  { s with flash := { s.flash with repair := { r with cores := r.cores ++ [die * 256 + pos] } } }.healthCount 0x214 1

/-- Every instruction of a core that has not completed is abandoned: it signals nothing and waits for nothing (R318, R514). -/
def State.abandon (s : State) (k : Nat) : State :=
  let trans := s.fabric.trans.filter fun (e : Nat × Trans) => e.2.own.isSome || e.2.core != k
  let others := s.waiters.map fun (e : Nat × List Waiter) => (e.1, e.2.filter (·.core != k))
  let x := s.core k
  { s with fabric := { s.fabric with trans := trans }, waiters := others.filter fun e => !e.2.isEmpty }.setCore k
    { x with ops := [], scat := { x.scat with queues := [], stalled := [] }
             ctxs := x.ctxs.map fun (e : Nat × Ctx) => (e.1, { e.2 with wait := none }) }

/-! ### Items of a partition -/

/-- Every item of a partition that has not ended ends. -/
def State.endAll (s : State) (p : Nat) (st : RecStatus) (f : FaultCode) : State :=
  (s.reqsOf p).foldl (fun s r => s.endItems r st f fun _ => true) s

/-! ### Ending a program (R298, R305, R491 to R493) -/

/-- A context's wait, if any, is one that ends only at a step boundary. -/
def Ctx.settled (x : Ctx) : Bool :=
  match x.wait with
  | none => true
  | some { kind := .step, .. } => true
  | some _ => false

/-- Every instruction already issued in the partition has completed; a context at SESS.STEP stays there while issue is held (log 26). -/
def State.quiet (s : State) (p : Nat) : Bool :=
  (s.part p).cores.all fun k => (s.core k).failed || ((s.core k).ops.isEmpty && (s.core k).ctxs.all (·.2.settled))

/-- The START record, when one is owed (R491). -/
def State.startRecord (s : State) (p : Nat) (st : RecStatus) (f : FaultCode) : State :=
  let b := s.part p
  match b.prog.start with
  | some o => (s.setPart p { b with prog := { b.prog with start := none } }).cmdDone p o st f 0
  | none => s

/-- The window goes to its close point because its owner goes (R455, R459). -/
def Window.orphan (x : Window) (p : Nat) : Window :=
  if x.owner = p ∧ x.state ≠ .free then
    let x := if x.state = .open then x.close none else x
    { x with closer := none, gone := true }
  else x

/-- Records that commands of the partition are still owed when it is destroyed (R480; log 63): the SESS_CLOSEs and WIN_CLOSEs whose ends the destruction
brings about, DONE, and the command that Husk has set aside, which finds no partition. None is owed twice. -/
def State.closersDone (s : State) (p : Nat) : State :=
  let sess := s.sess.filter fun e => e.2.part == p
  let wins := s.fabric.wins.filter fun e => e.2.owner == p
  let late := s.husk.delayed.filter fun d => d.ring == .cmd p
  let s := { s with
    sess := s.sess.map fun (e : Nat × Sess) => if e.2.part = p then (e.1, { e.2 with closers := [] }) else e
    fabric := { s.fabric with wins := s.fabric.wins.map fun (e : Nat × Window) => if e.2.owner = p then (e.1, { e.2 with closer := none }) else e }
    husk := { s.husk with delayed := s.husk.delayed.filter fun d => d.ring != .cmd p } }
  let s := sess.foldl (fun s e => e.2.closers.foldl (fun s o => s.cmdDone p o .done 0 0) s) s
  let s := wins.foldl (fun s e => match e.2.closer with
    | some w => s.owedDone w .done 0
    | none => s) s
  late.foldl (fun s d => (s.takeCmd p).cmdDone p (s.cmdOwed p d.entry) .failed fltPartState 0) s

/-- Step 2 of PART_DESTROY (R488): every item ends, and every command of the partition has its record. -/
def State.destroyItems (s : State) (p : Nat) : State := (s.endAll p .cancelled 0).closersDone p

/-- Steps 3 to 7 of PART_DESTROY (R488). -/
def State.destroyPart (s : State) (p : Nat) : State :=
  let s := (s.part p).cores.foldl (fun s k => s.abandon k) s
  { s with
    fabric := { s.fabric with wins := s.fabric.wins.map fun e => (e.1, e.2.orphan p) }
    sess := s.sess.filter fun e => e.2.part != p
    reqs := s.reqs.filter fun e => e.2.part != p
    ports := s.ports.map fun e => (e.1, if (e.2.cxl.map (·.1)) = some p then { e.2 with cxl := none } else e.2)
    husk := { s.husk with delayed := s.husk.delayed.filter fun d => d.ring != .cmd p }
    parts := s.parts.filter fun e => e.1 != p }

/-- PART_DESTROY goes on from step 3, and writes its record, once no record of the partition is held: R507 and R508 drop none (log 63). -/
def State.destroyOn (s : State) (p n : Nat) (o : Owed) : State :=
  if (s.part p).cpl.held = [] then (s.destroyPart p).admDone n o .done 0 0
  else s.setPart p { s.part p with destroyer := some (n, o) }

/-- A PART_DESTROY that only held records kept waiting goes on when they are written (R488, R507, R508). -/
def State.destroyHeld (s : State) (p : Nat) : State :=
  match (s.part p).destroyer with
  | some (n, o) => if (s.part p).state = .run then s else s.destroyOn p n o
  | none => s

/-- A failed core of a partition whose program is over gets a spare, when its die's pool has one (R524). -/
def State.fillFailed (s : State) (p : Nat) : State :=
  (s.part p).cores.foldl (fun s k => if (s.core k).failed then (s.takeSpare k (s.part p).grant.chaff).getD s else s) s

/-- After its records, a program is over: STOP records follow, the partition is READY, and a PART_DESTROY that waited for it goes on (R488,
R492). -/
def State.programOver (s : State) (p : Nat) : State :=
  let b := s.part p
  let s := s.setPart p { b with
    state := .ready, halting := false, failing := [], refill := [], repairing := false
    prog := { b.prog with start := none, stops := [], stopping := false, endFault := 0, faults := [] } }
  let s := b.prog.stops.foldl (fun s o => s.cmdDone p o .done 0 0) s
  let s := s.fillFailed p
  match b.destroyer with
  | some (n, o) => (s.destroyItems p).destroyOn p n o
  | none => s

/-- A program ends as STOP does: every context is STOPPED, and every item not ended and the START record end CANCELLED, or FAILED with a
fault (R492, R524, R531). -/
def State.stopEnd (s : State) (p : Nat) (items start : FaultCode) : State :=
  let s := (s.part p).cores.foldl (fun s k =>
    let x := s.core k
    s.setCore k { x with ctxs := x.ctxs.map fun e => (e.1, if e.2.mode = .idle then e.2 else { e.2 with mode := .stopped, wait := none }) }) s
  let s := if items = 0 then s.endAll p .cancelled 0 else s.endAll p .failed items
  let s := if start = 0 then s.startRecord p .cancelled 0 else s.startRecord p .failed start
  s.programOver p

/-- Items still named by a context at the end of a program fail with FLT_ITEM_OPEN (R298). -/
def State.failNamed (s : State) (p : Nat) : State :=
  (s.part p).cores.foldl (fun s k => (List.range 4).foldl (fun s c =>
    let i := (s.ctx k c).item
    if i.valid then s.endItem i.req i.item .failed fltItemOpen else s) s) s

/-- PROGRAM_END (R298, R305, R491 to R493): when every context has ended, or when a stopped program's issued instructions have completed. -/
def execProgramEnd (p : Nat) (s : State) : Host.Outcome State Fault Refusal :=
  let b := s.part p
  if b.state ≠ .run then .next s
  else if b.prog.stopping then (if s.quiet p then .next (s.stopEnd p b.prog.endFault b.prog.endFault) else .next s)
  else if !b.held && s.allOver p then
    let s := (s.failNamed p).endAll p .failed fltProgEnded
    let s := match b.prog.faults with
      | [] => s.startRecord p .done 0
      | e :: _ => s.startRecord p .failed e.2.2
    .next (s.programOver p)
  else .next s

/-- The program is to end as STOP ends it: issue is held, and what a failure or a halt had called for is over (R492). -/
def PartBlock.stop (b : PartBlock) : PartBlock :=
  { b with refill := [], failing := [], repairing := false, halting := false, prog := { b.prog with stopping := true } }

/-- STOP (R492). -/
def execStop (p : Nat) (e : Entry) (s : State) : Host.Outcome State Fault Refusal :=
  partCmd p 0x04 e [] s fun o t =>
    let b := t.part p
    if b.state ≠ .run then .done t 0
    else .owes (t.setPart p { b.stop with prog := { b.stop.prog with stops := b.prog.stops ++ [o] } })

/-! ### START (R302, R486, R491, R547) -/

/-- A context as START leaves it (R302). -/
def startCtx (b : PartBlock) (k entry args nctx c : Nat) : Ctx :=
  { mode := .run, pc := BitVec.ofNat 64 entry
    s := [(1, b.rank k), (2, b.cores.length), (3, c), (4, nctx), (5, args), (6, coordOf k)].foldl
      (fun m e => sput 0 m e.1 (BitVec.ofNat 64 e.2)) [] }

/-- A core as START leaves it. -/
def Core.start (x : Core) (nctx : Nat) (f : Nat → Ctx) : Core :=
  { x with nctx := nctx, icache := [], ctxs := (List.range nctx).map fun c => (c, f c) }

def startBody : List (Nat × Nat × Nat) :=
  [(0x08, 0, 48), (0x10, 0, 48), (0x18, 0, 3), (0x40, 0, 3), (0x40, 4, 28), (0x48, 0, 64)]

/-- The slots of a remote record that START names. -/
def State.startSlots (s : State) (p rwin slotMib : Nat) : Except FaultCode (List RecSrc) :=
  let w := (s.part p).rwin rwin
  if w.size = 0 then .error fltArgRange
  else if w.size < 2 * slotMib * mib then .error fltWindowRange
  else .ok [{ mem := s.remote w.module, base := w.ebase }, { mem := s.remote w.module, base := w.ebase + slotMib * mib }]

/-- The partition runs: its START is owed a record. -/
def State.running (s : State) (p entry args nctx : Nat) (o : Owed) (kept : Option (Nat × List (Nat × Window))) : State :=
  let b := s.part p
  s.setPart p { b with state := .run, kept := kept
                       prog := { entry := entry, args := args, nctx := nctx, step := b.prog.step, start := some o, faults := b.prog.faults } }

/-- START (R302, R486, R491, R524, R531, R547). -/
def execStart (p : Nat) (e : Entry) (fabric : Option FabFault) (s : State) : Host.Outcome State Fault Refusal :=
  partCmd p 0x03 e startBody s fun o t =>
    let entry := eBits e 0x08 0 48
    let args := eBits e 0x10 0 48
    let n := eBits e 0x18 0 3
    let b := t.part p
    if entry % 8 ≠ 0 ∨ entry < 0x400000 ∨ (n ≠ 1 ∧ n ≠ 2 ∧ n ≠ 4) then .fail t fltArgRange
    else if b.state ≠ .ready then .fail t fltPartState
    else if t.health.halted then .fail t fltHealthHalt
    else if b.cores.any fun k => (t.core k).failed then .fail t fltNoSpare
    else
      let started := b.cores.foldl (fun t k => t.setCore k ((t.core k).start n (startCtx b k entry args n))) t
      if eBits e 0x40 0 1 = 0 then .owes (started.running p entry args n o none)
      else match t.startSlots p (eBits e 0x40 4 12) (eBits e 0x40 16 16) with
        | .error f => .fail t f
        | .ok slots =>
          match fabric with
          | some f => .fail t (fabCode f)
          | none =>
            match started.restore p n slots { en := eBits e 0x40 1 1 = 1, force := eBits e 0x40 2 1 = 1, value := eBits e 0x48 0 64 } with
            | .error f => .fail t f
            | .ok (u, r) => .owes (u.running p entry args n o (some r.windows))

/-! ### WAIT_REPAIR (R522) -/

/-- The partition enters WAIT_REPAIR after R517, and the owning host is told (R522). -/
def State.enterWaitRepair (s : State) (p : Nat) : State :=
  let s := s.rollback p
  let b := s.part p
  let s := s.setPart p { b with state := .waitRepair, refill := [], failing := [], repairing := false, halting := false }
  let n := (b.cores.filter fun k => (s.core k).failed).length
  s.event 0x0005 n ((b.sec.latest.map fun r => r.2.step.toNat).getD 0) [p]

/-! ### Step boundaries (R304, R531, R534) -/

/-- Every context waiting at the boundary goes on. -/
def State.releaseSteps (s : State) (p : Nat) : State :=
  (s.part p).cores.foldl (fun s k =>
    let x := s.core k
    if x.failed then s
    else s.setCore k { x with ctxs := x.ctxs.map fun e => (e.1, if e.2.atStep then { e.2 with mode := .run, wait := none } else e.2) }) s

/-- What calls for a securing at a boundary besides a halt and a failed core: EVERY, or the health score (R534). -/
def PartBlock.securesAt (b : PartBlock) (step : Nat) : Bool :=
  b.sec.en && ((b.sec.every != 0 && step % b.sec.every == 0) || b.sec.pending)

/-- Issue is held and the program ends as STOP does, with a fault (R524, R531). -/
def State.stopWith (s : State) (p : Nat) (f : FaultCode) : State :=
  let b := (s.part p).stop
  s.setPart p { b with prog := { b.prog with endFault := f } }

/-- STEP_BOUNDARY (R304, R522, R531, R534, R538, R539). `fail` is the fault of a securing write. -/
def execStepBoundary (p : Nat) (fail : Option FabFault) (s : State) : Host.Outcome State Fault Refusal :=
  if !s.atBoundary p then .next s
  else
    let b := s.part p
    let step := b.prog.step + 1
    let fail := fail.map fabCode
    let t := s.setPart p { b with prog := { b.prog with step := step }, sec := { b.sec with pending := false } }
    if b.failing ≠ [] then
      if b.sec.en && b.failing.all (·.2) then .next ((t.secure p fail).1.enterWaitRepair p) else .next (t.enterWaitRepair p)
    else if b.halting then
      .next ((if b.sec.en then (t.secure p fail).1 else t).stopWith p fltHealthHalt)
    else if b.securesAt step.toNat then .next ((t.secure p fail).1.releaseSteps p)
    else .next (t.releaseSteps p)

/-- REPAIR_WAIT_TIMEOUT (R522): no boundary came within WAIT_MS of the failure. Issue is held as STOP holds it, and the partition enters WAIT_REPAIR
once the issued instructions have completed. -/
def execRepairWaitTimeout (p : Nat) (s : State) : Host.Outcome State Fault Refusal :=
  let b := s.part p
  if b.state = .run ∧ b.failing ≠ [] then
    (if s.quiet p then .next (s.enterWaitRepair p) else .next (s.setPart p { b with repairing := true }))
  else .next s

/-- HALT_WAIT_TIMEOUT (R531): no boundary came within WAIT_MS of the halt; the partition stops unsecured. -/
def execHaltWaitTimeout (p : Nat) (s : State) : Host.Outcome State Fault Refusal :=
  let b := s.part p
  if b.state = .run ∧ b.halting = true then .next (s.stopWith p fltHealthHalt) else .next s

/-! ### Core failure (R513, R514, R519 to R524) -/

/-- Items to which a core's instructions that have not completed are bound. -/
def Core.boundItems (x : Core) : List (Nat × Nat) :=
  x.ops.filterMap (·.bind) ++ x.ctxs.filterMap fun e => e.2.wait.bind (·.bind)

/-- Steps 1 to 4 of a core failure (R514). -/
def State.coreFails (s : State) (k cause : Nat) : State :=
  let items := (s.core k).boundItems
  let s := s.abandon k
  let s := items.foldl (fun s i => s.endItem i.1 i.2 .failed fltCoreFail) s
  let s := s.event 0x0002 (coordOf k) cause (s.partOf k).toList
  let s := s.retirePosition (k / 128) (s.position k)
  s.setCore k { s.core k with failed := true }

/-- Whether the model's state bears out a cause of R513: a row that failed its parity check in an array with two splices, 4 handshake timeouts within 2^20 ns, or more than 4 replays in
a window at nominal supply. A clock and a supply are seen by the module's monitors alone. -/
def State.causeHolds (s : State) (k cause : Nat) : Bool :=
  let x := s.core k
  match cause with
  | 1 => x.sheaf.failing.any fun r => decide (2 ≤ (sget [] x.sheaf.splices r.1).length)
  | 2 => true
  | 3 => true
  | 4 => decide (4 ≤ (x.island.xiTimes.filter fun t => decide (s.time < t + 2 ^ 20)).length)
  | 5 => x.island.offset == 0 && decide (4 < x.island.replays)
  | _ => false

/-- An instruction that only a release of its ring could let go on: held issue never brings one (R520). -/
def InFlight.blocked (o : InFlight) : Bool :=
  match o.job with
  | .tile j => [RingId.streamed, .output, .seed, .channel].any fun r => (j.ring r).any fun g => g.waiting.isSome
  | _ => false

/-- Every instruction already issued in the partition has completed, but for those that nothing lets go on (R520, step 1; log 54). -/
def State.drained (s : State) (p : Nat) : Bool := (s.part p).cores.all fun k => (s.core k).ops.all InFlight.blocked

/-- The path that a partition takes after a core failure (R519, R521, R522, R524). A spared partition without a spare enters WAIT_REPAIR once the issued
instructions have completed: here, or at its SUBSTITUTION. -/
def State.failurePath (s : State) (p k : Nat) (readable : Bool) : State :=
  let b := s.part p
  match b.state with
  | .free => s
  | .waitRepair => s
  | .ready => (s.takeSpare k b.grant.chaff).getD s
  | .run =>
    if b.prog.stopping then s
    else if !b.hasRecord then s.stopWith p fltCoreFail
    else if b.spared then
      if s.pool (k / 128) = [] ∧ s.drained p = true then s.enterWaitRepair p else s.setPart p { b with refill := b.refill ++ [k] }
    else s.setPart p { b with failing := b.failing ++ [(k, readable)] }

/-- CORE_FAIL (R513, R514, R519): causes 1 to 5, of a core that has not failed already. -/
def execCoreFail (k : Nat) (cause : BitVec 3) (s : State) : Host.Outcome State Fault Refusal :=
  let n := cause.toNat
  if (s.core k).failed || !s.causeHolds k n then .next s
  else
    match s.partOf k with
    | none => .next (s.coreFails k n)
    | some p => .next ((s.coreFails k n).failurePath p k (n == 1 || n == 5))

/-! ### Refills (R515, R520, R521, R523) -/

/-- The spare that is being filled fails and is retired; the refill starts again with the next one of its die's pool, if there is one (R521). -/
def State.spareFails (s : State) (p k cause : Nat) : State × Bool :=
  let s := (s.event 0x0002 (coordOf k) cause [p]).retirePosition (k / 128) (s.position k)
  match s.takeSpare k (s.part p).grant.chaff with
  | some t => (t, true)
  | none => (s.setCore k { s.core k with failed := true }, false)

/-- The cores that fail while the spares of `filling` are being filled (R521), and whether the refill goes on to its end: the failure of another core of
the partition, or of a spare that none follows, ends it, and a spare already mapped stays mapped. -/
def State.refillFails (s : State) (p : Nat) (filling : List Nat) : List (Nat × BitVec 3) → State × Bool
  | [] => (s, true)
  | (k, cause) :: rest =>
    if s.partOf k != some p || (s.core k).failed || !s.causeHolds k cause.toNat then s.refillFails p filling rest
    else if filling.contains k then
      match s.spareFails p k cause.toNat with
      | (t, true) => t.refillFails p filling rest
      | (t, false) => (t, false)
    else (s.coreFails k cause.toNat, false)

/-- The partition restored from its own slots after a refill: what its cores had not completed is abandoned, and a record in a remote window may not be
readable (R543, R547). -/
def State.restoreOwn (s : State) (p : Nat) (work : RefillWork) (cur : CursorArg) : Except FaultCode State :=
  let b := s.part p
  let s := b.cores.foldl (fun s j => s.abandon j) s
  match (if b.sec.dest then work.fabric else none) with
  | some f => .error (fabCode f)
  | none => (s.restore p b.prog.nctx (s.ownSlots p) cur).map (·.1)

/-- SUBSTITUTION (R515, R517, R520, R521, R543 to R546): once the issued instructions have completed, a spare takes the coordinate and the whole
partition returns to its latest record; where no slot verifies the program ends. -/
def execSubstitution (x : SubstOp) (s : State) : Host.Outcome State Fault Refusal :=
  match s.partOf x.core with
  | none => .next s
  | some p =>
    let b := s.part p
    if !b.refill.contains x.core || !s.drained p then .next s
    else
      let s := s.rollback p
      match s.takeSpare x.core b.grant.chaff with
      | none => .next (s.enterWaitRepair p)
      | some t =>
        match t.refillFails p [x.core] x.work.fails with
        | (t, false) => .next (t.enterWaitRepair p)
        | (t, true) =>
          match t.restoreOwn p x.work { en := false, force := false, value := 0 } with
          | .error f => .next ((b.cores.foldl (fun t j => t.abandon j) t).stopEnd p fltCoreFail f)
          | .ok t =>
            let c := t.part p
            .next ((t.setPart p { c with refill := c.refill.filter (· != x.core) }).event 0x0004 (coordOf x.core) (t.pool (x.core / 128)).length [p])

def repairBody : List (Nat × Nat × Nat) := [(0x08, 0, 2), (0x10, 0, 64)]

/-- REPAIR (R517, R521, R523): a spare for each failed core, then the restore. -/
def execRepair (p : Nat) (e : Entry) (work : RefillWork) (s : State) : Host.Outcome State Fault Refusal :=
  critCmd (.cmd p) 0x1D e repairBody s fun _ t =>
    let b := t.part p
    let bad := b.cores.filter fun k => (t.core k).failed
    if b.state ≠ .waitRepair then .fail t fltPartState
    else if t.health.halted then .fail t fltHealthHalt
    else if (List.range 4).any fun d => decide ((t.pool d).length < (bad.filter (· / 128 == d)).length) then .fail t fltNoSpare
    else
      match (bad.foldl (fun t k => (t.takeSpare k b.grant.chaff).getD t) t).refillFails p bad work.fails with
      | (t, false) => .fail t fltCoreFail
      | (t, true) =>
        match t.restoreOwn p work { en := eBits e 0x08 0 1 = 1, force := eBits e 0x08 1 1 = 1, value := eBits e 0x10 0 64 } with
        | .error f => .fail t f
        | .ok u =>
          let c := u.part p
          .done (u.setPart p { c with state := .run }) 0

/-! ### Port reset (R473) -/

/-- Records that a partition's reset port leaves undelivered are counted and given up; the requests they end are free (R473, R508). -/
def State.loseRecords (s : State) (p : Nat) : State :=
  let b := s.part p
  let lost := b.cpl.held.length + b.prog.start.toList.length + b.prog.stops.length
  let s := b.cpl.held.foldl (fun s r => match r.frees with
    | some q => s.freeRequest q
    | none => s) s
  let b := { b with cpl := { b.cpl with held := [] }, prog := { b.prog with start := none, stops := [] } }
  s.setPart p (b.count 0x78 lost)

/-- One partition under its port's reset: rings disabled, the program ended as STOP ends it, at once where it is held at a step boundary, and every item
CANCELLED. -/
def State.resetPort (s : State) (p : Nat) : State :=
  let b := s.part p
  let b' := if b.state = .run then b.stop else b
  let s := s.setPart p { b' with
    req := { b.req with en := false }, cmd := { b.cmd with en := false }, cpl := { b.cpl with ring := { b.cpl.ring with en := false } } }
  let s := s.endAll p .cancelled 0
  ((if b.state = .waitRepair then s.stopEnd p 0 0 else s).loseRecords p).destroyHeld p

/-- A port reset (R473, R585): the port's partitions stop, and its configuration space is as after reset; through PERST_Nn, the port is silent until that
is released again. -/
def State.portDown (s : State) (n : Nat) (perst : Bool) : State :=
  let mine := (s.parts.filter fun e => e.2.state != .free && e.2.port == n).map (·.1)
  let s := mine.foldl State.resetPort s
  let x := s.port n
  s.setPort n { x with released := x.released && !perst, masked := [], pendingVectors := [], timeoutValue := 0, d3hot := false }

/-- PORT_RESET (R473, R585). -/
def execPortReset (x : PortResetOp) (s : State) : Host.Outcome State Fault Refusal := .next (s.portDown x.port x.perst)

/-! ### Ring registers that let held records go (R475, R507, R508) -/

/-- CPL_HEAD_WRITE (R475, R507): records held resume in order, and a PART_DESTROY that waits for them. -/
def execCplHeadWrite (port : Nat) (ring : RingName) (v : W32) (s : State) : Host.Outcome State Fault Refusal :=
  match ring with
  | .adm n =>
    if n = port ∧ s.portUp n = true then
      let b := s.port n
      .next ((s.setPort n { b with acpl := { b.acpl with ring := b.acpl.ring.writeHead v } }).settlePort n)
    else .next s
  | .req p =>
    if s.owns port p then
      let b := s.part p
      .next (((s.setPart p { b with cpl := { b.cpl with ring := b.cpl.ring.writeHead v } }).settlePart p).destroyHeld p)
    else .next s
  | .cmd p =>
    if s.owns port p then
      let b := s.part p
      .next (((s.setPart p { b with cpl := { b.cpl with ring := b.cpl.ring.writeHead v } }).settlePart p).destroyHeld p)
    else .next s

/-- RING_CTL_WRITE (R474, R476, R508). -/
def execRingCtlWrite (port : Nat) (ring : RingName) (v : W32) (s : State) : Host.Outcome State Fault Refusal :=
  match ring with
  | .adm n =>
    if n = port ∧ s.portUp n = true then
      let b := s.port n
      .next ((s.setPort n { b with adm := b.adm.ctl (bit v.toNat 0) (bit v.toNat 8),
                                   acpl := { b.acpl with ring := { b.acpl.ring with en := bit v.toNat 2 } } }).settlePort n)
    else .next s
  | .req p => if s.owns port p then .next (((s.setPart p ((s.part p).ringCtl v.toNat)).settlePart p).destroyHeld p) else .next s
  | .cmd p => if s.owns port p then .next (((s.setPart p ((s.part p).ringCtl v.toNat)).settlePart p).destroyHeld p) else .next s

/-! ### SEC_CFG (R533) -/

/-- EN as SEC_CFG is written: the slots are discarded and the reservation freed or made; the new fields stand with it. EN written 1 again keeps the
slots as long as the reservation is that of the present SLOT_MIB (log 65). -/
def PartBlock.secCfg (b : PartBlock) (v : Nat) (room : Bool) : PartBlock :=
  let x := { b.sec with dest := bit v 1, every := bits v 2 16, waitMs := bits v 18 10 }
  let keep := b.sec.en && bit v 0 && b.sec.dest == bit v 1 && (b.sec.dest || b.secPages == b.sec.slotMib)
  if keep then { b with sec := x }
  else
    let fresh : Sec := { x with en := false, a := none, b := none, store := [] }
    let b := { b with secPages := 0 }
    if !bit v 0 then { b with sec := { fresh with noRoom := b.sec.noRoom } }
    else if bit v 1 then { b with sec := { fresh with en := true, noRoom := false } }
    else if room && decide (b.memUse + b.sec.slotMib ≤ b.grant.memQuota) then
      { b with secPages := b.sec.slotMib, sec := { fresh with en := true, noRoom := false } }
    else { b with sec := { fresh with noRoom := true } }

/-- SEC_CFG_WRITE (R533): ignored unless the partition is READY and the port owns it. `room` says whether Tier L has the reservation. -/
def execSecCfgWrite (n p : Nat) (v : W32) (room : Bool) (s : State) : Host.Outcome State Fault Refusal :=
  let b := s.part p
  if s.owns n p && b.state == .ready then .next (s.setPart p (b.secCfg v.toNat (room && decide (b.sec.slotMib ≤ s.freeL + b.secPages)))) else .next s

end Sys2Proof.Machine
end

