-- ==== Sys2Proof/Machine/Part.lean ====
section
/-! DEFINITION. Creating, destroying and reshaping partitions (16, R482 to R488; 17, R525; 18, R570). -/

namespace Sys2Proof.Machine

/-- The body of PART_CREATE and PART_RESHAPE (R482). -/
def partBody : List (Nat × Nat × Nat) :=
  [(0x08, 0, 4), (0x10, 0, 64), (0x18, 0, 128), (0x28, 0, 32), (0x2C, 0, 25), (0x30, 0, 48), (0x38, 0, 15), (0x3C, 0, 32),
   (0x40, 0, 11), (0x40, 16, 11)]

/-- The grant that an entry carries (R482). -/
def grantOf (e : Entry) : Grant :=
  { groups := BitVec.ofNat 64 (eBits e 0x10 0 64), objs := BitVec.ofNat 128 (eBits e 0x18 0 128), memQuota := eBits e 0x28 0 32
    pinQuota := eBits e 0x2C 0 25, reqTable := eBits e 0x30 0 48, reqMax := eBits e 0x38 0 15, chaff := BitVec.ofNat 32 (eBits e 0x3C 0 32)
    vecCpl := eBits e 0x40 0 11, vecEvt := eBits e 0x40 16 11 }

/-- A granted group or object block belongs to another partition (R483). -/
def State.grantTaken (s : State) (p : Nat) (g : Grant) : Bool :=
  s.parts.any fun e => e.1 != p && e.2.state != .free && (e.2.grant.groups &&& g.groups != 0 || e.2.grant.objs &&& g.objs != 0)

/-- PIN_QUOTA units of Tier H as shipped (R483). -/
def pinUnits : Nat := 23437500

/-- A field outside its range, or pins beyond Tier H (R483). -/
def State.grantRange (s : State) (p : Nat) (g : Grant) : Bool :=
  let others := (s.parts.filter fun e => e.1 != p && e.2.state != .free).map (·.2.grant.pinQuota)
  g.groups == 0 || g.objs == 0 || g.reqTable % 2097152 != 0 || g.reqMax == 0 || decide (16384 < g.reqMax) ||
    decide (pinUnits < others.foldl (· + ·) g.pinQuota)

/-- Failed coordinates among granted cores (R525). -/
def State.failedIn (s : State) (g : Grant) : List Nat := g.cores.filter fun k => (s.core k).failed

/-- A die's pool cannot fill the failed coordinates of a grant (R525). -/
def State.grantNoSpare (s : State) (g : Grant) : Bool :=
  (List.range 4).any fun d => decide ((s.pool d).length < ((s.failedIn g).filter (· / 128 == d)).length)

/-- Why PART_CREATE and PART_RESHAPE are refused (R483, R525). -/
def State.grantRefused (s : State) (p : Nat) (g : Grant) : Option FaultCode :=
  if s.grantTaken p g then some fltPartBusy
  else if s.grantRange p g then some fltArgRange
  else if s.grantNoSpare g then some fltNoSpare
  else none

/-- At most 8 groups on every die (R484). -/
def Grant.spared (g : Grant) : Bool :=
  (List.range 4).all fun d => decide (((List.range 16).filter fun i => g.groups.toNat.testBit (16 * d + i)).length ≤ 8)

/-- Object block `k` joins a partition: counters of 0 and no waiters (R487). -/
def State.clearBlock (s : State) (k : Nat) : State :=
  { s with objs := sclear s.objs (1024 * k) 1024, waiters := sclear s.waiters (1024 * k) 1024 }

/-- A granted core: filled from the pool when failed, cleared when it joins, and given CHAFF_LIMIT (R482, R487, R525). -/
def State.grantCore (s : State) (g : Grant) (joins : Nat → Bool) (k : Nat) : State :=
  if (s.core k).failed then (s.takeSpare k g.chaff).getD s
  else if joins k then s.setCore k ((s.core k).cleared g.chaff)
  else s.setCore k { s.core k with chaff := g.chaff }

/-- A grant takes effect against the one it replaces: what joins is cleared (R482, R487). -/
def State.grantAll (s : State) (old g : Grant) : State :=
  let s := g.cores.foldl (fun s k => s.grantCore g (fun k => !old.cores.contains k) k) s
  (List.range 128).foldl (fun s k => if g.objs.toNat.testBit k && !old.objs.toNat.testBit k then s.clearBlock k else s) s

/-- PART_CREATE (R482 to R484, R487, R525, R570). -/
def execPartCreate (n : Nat) (e : Entry) (s : State) : Host.Outcome State Fault Refusal :=
  critCmd (.adm n) 0x40 e partBody s fun _ t =>
    let p := eBits e 0x08 0 4
    let g := grantOf e
    if t.life = .fieldDiag ∧ t.husk.diagPort ≠ n then .fail t fltLifecycle
    else if (t.part p).state ≠ .free then .fail t fltPartBusy
    else match t.grantRefused p g with
      | some f => .fail t f
      | none => .done ((t.grantAll {} g).setPart p { state := .ready, port := n, grant := g, spared := g.spared }) 0

/-- PART_DESTROY (R488): of a running program, it waits until that has stopped, and one in WAIT_REPAIR has stopped; then it waits for records that
are held. One that is being destroyed already is refused like one that is FREE, and another port's like a field outside its range (log 27). -/
def execPartDestroy (n : Nat) (e : Entry) (s : State) : Host.Outcome State Fault Refusal :=
  critCmd (.adm n) 0x41 e [(0x08, 0, 4)] s fun o t =>
    let p := eBits e 0x08 0 4
    let b := t.part p
    if b.state = .free ∨ b.destroyer.isSome then .fail t fltPartState
    else if b.port ≠ n then .fail t fltArgRange
    else if b.state = .run then
      .owes (t.setPart p { b.stop with destroyer := some (n, o) })
    else .owes (((if b.state = .waitRepair then t.stopEnd p 0 0 else t).destroyItems p).destroyOn p n o)

/-- A queued request whose group left the grant is assigned again (R423, R486); requests still to be assigned again pin no session. -/
def State.reassign (s : State) (rest : List Nat) (r : Nat) : State :=
  match s.request r with
  | none => s
  | some q =>
    let without := { s with reqs := s.reqs.filter fun e => !rest.contains e.1 && e.1 != r }
    let g := without.chooseGroup q.part q.session
    let s := s.setRequest r { q with group := g }
    let s := { s with queues := sput [] (sput [] s.queues q.group ((sget [] s.queues q.group).filter (· != r))) g
                        (sget [] s.queues g ++ [r]) }
    match q.session with
    | some m => s.setSess m { s.sessOf m with die := g / 16, group := (s.part q.part).groups.idxOf g }
    | none => s

/-- Requests assigned again one after another. -/
def reassignAll (s : State) : List Nat → State
  | [] => s
  | r :: rest => reassignAll (s.reassign rest r) rest

/-- The requests of a partition that stand in the queue of a group outside it, the oldest first (R486). -/
def State.strayRequests (s : State) (p : Nat) : List Nat :=
  let gs := (s.part p).groups
  ((s.reqs.filter fun e => e.2.part == p && !gs.contains e.2.group && (sget [] s.queues e.2.group).contains e.1).mergeSort fun a b => decide (a.2.seq ≤ b.2.seq)).map (·.1)

/-- PART_RESHAPE (R483, R484, R486, R525). -/
def execPartReshape (n : Nat) (e : Entry) (s : State) : Host.Outcome State Fault Refusal :=
  critCmd (.adm n) 0x42 e partBody s fun _ t =>
    let p := eBits e 0x08 0 4
    let b := t.part p
    let g := grantOf e
    if b.state ≠ .ready ∨ b.destroyer.isSome then .fail t fltPartState
    else if b.port ≠ n then .fail t fltArgRange
    else match t.grantRefused p g with
      | some f => .fail t f
      | none =>
        let t := t.grantAll b.grant g
        let t := t.setPart p { t.part p with grant := g, spared := g.spared }
        .done (reassignAll t (t.strayRequests p)) 0

end Sys2Proof.Machine
end

