-- ==== Sys2Proof/Machine/Regs.lean ====
section
/-! DEFINITION. Registers outside the cores: the blocks of BAR0 and of the management interfaces, reads with their effects, and writes
(R7 to R11, R306 to R308, R314, R471, R472, R532, R541, R548, R574, R596, R603, R606). -/

namespace Sys2Proof.Machine

/-! ### Frequencies (R308, R606) -/

def State.thermCap (s : State) (die : Nat) : Nat := sget 2200 s.health.thermCap die

/-- The frequency in force of a group (R606). -/
def State.freqOf (s : State) (g : Nat) : Nat := min (s.groupAt g).hostMhz (min (s.thermCap (g / 16)) s.health.pwrCap) / 25 * 25

/-- The group runs at its frequency from now on; the cycles counted so far stand (R308). -/
def State.applyFreq (s : State) (g : Nat) : State :=
  let x := s.groupAt g
  let f := s.freqOf g
  if f = x.mhz then s
  else { s with groups := sput {} s.groups g { x with mhz := f, milliCycles := x.milliCycles + (s.time - x.since) * x.mhz, since := s.time } }

/-- All groups of the module. -/
def State.applyFreqs (s : State) : State := (List.range 64).foldl (fun s g => s.applyFreq g) s

/-- The partition that holds a core group. -/
def State.partOfGroup (s : State) (g : Nat) : Option Nat :=
  (s.parts.find? fun e => e.2.state != .free && e.2.grant.groups.toNat.testBit g).map (·.1)

/-- FREQ_SET (R308): the owning host's setting, from 800 to 2,200 MHz in steps of 25 MHz; any other leaves the group as it is. -/
def execFreqSet (n die group mhz : Nat) (s : State) : Host.Outcome State Fault Refusal :=
  let g := die * 16 + group
  match s.partOfGroup g with
  | none => .next s
  | some p =>
    if s.owns n p = false ∨ mhz < 800 ∨ 2200 < mhz ∨ mhz % 25 ≠ 0 then .next s
    else .next ({ s with groups := sput {} s.groups g { s.groupAt g with hostMhz := mhz } }.applyFreq g)

/-! ### Blocks -/

/-- A register block: a port's, a partition's, a partition's Winnow block, health, Husk and the fabric's (R472). -/
inductive RegBlock where
  | port (n : Nat) | part (p : Nat) | winnow (p : Nat) | health | husk | fab
deriving DecidableEq, Repr

def loWord (x : W64) : Nat := bits x.toNat 0 32
def hiWord (x : W64) : Nat := bits x.toNat 32 32

/-- A ring's registers in the order of its block: BASE_LO, BASE_HI, SIZE, then TAIL and HEAD. -/
def HostRing.reg (r : HostRing) (i : Nat) : Nat :=
  match i with
  | 0 => loWord r.base
  | 1 => hiWord r.base
  | 2 => r.log2
  | 3 => r.tail
  | _ => r.head

/-- A completion ring's registers: HEAD lies before TAIL. -/
def HostRing.creg (r : HostRing) (i : Nat) : Nat := if i = 3 then r.head else if i = 4 then r.tail else r.reg i

def Boot.status (b : Boot) : Nat :=
  b.stage + boolNat b.degraded * 2 ^ 4 + boolNat b.bank * 2 ^ 5 + boolNat b.fallback * 2 ^ 6 + boolNat b.fabricOff * 2 ^ 7 + b.code.toNat * 2 ^ 16

/-- The port block (16, "Registers"; 19, "Registers"). -/
def State.portReg (s : State) (n off : Nat) : Nat :=
  let x := s.port n
  match off with
  | 0x00 => s.boot.status
  | 0x04 => boolNat x.adm.en + boolNat x.acpl.ring.en * 4 + boolNat x.adm.halt * 2 ^ 8
  | 0x08 => s.boot.bootMs
  | _ =>
    if off % 4 ≠ 0 ∨ off < 0x10 ∨ 0x38 ≤ off then 0
    else if off < 0x24 then x.adm.reg ((off - 0x10) / 4) else x.acpl.ring.creg ((off - 0x24) / 4)

def PartState.code : PartState → Nat
  | .free => 0 | .ready => 1 | .run => 2 | .waitRepair => 3

/-- The SEC registers (17, "Registers"); a securing or restore is over when its step is, so BUSY reads 0. -/
def PartBlock.secReg (b : PartBlock) (off : Nat) : Nat :=
  let x := b.sec
  match off with
  | 0x100 => boolNat x.en + boolNat x.dest * 2 + x.every * 2 ^ 2 + x.waitMs * 2 ^ 18
  | 0x104 => x.slotMib
  | 0x108 => x.rwin
  | 0x10C => loWord x.cur
  | 0x110 => hiWord x.cur
  | 0x140 => boolNat x.a.isSome + boolNat x.b.isSome * 2 + boolNat x.noRoom * 8 + (match x.latest with
      | some (1, _) => 16
      | _ => 0)
  | 0x148 => (x.latest.map fun r => loWord r.2.step).getD 0
  | 0x14C => (x.latest.map fun r => hiWord r.2.step).getD 0
  | 0x150 => loWord b.prog.step
  | 0x154 => hiWord b.prog.step
  | _ => if 0x120 ≤ off ∧ off < 0x140 ∧ off % 4 = 0 then sget 0 x.mem ((off - 0x120) / 4) else 0

def partCounters : List Nat := [0x70, 0x74, 0x78, 0x7C]
def winnowCounters : List Nat := [0x1C, 0x20, 0x24, 0x28, 0x2C, 0x30, 0x34]
def healthCounters : List Nat := [0x200, 0x204, 0x208, 0x20C, 0x210, 0x214, 0x218, 0x21C, 0x220, 0x224, 0x228, 0x420, 0x424]
def fabCounters : List Nat := [0x100, 0x104, 0x108, 0x10C, 0x110, 0x114, 0x118]

/-- The partition block (16, 17, "Registers"). -/
def PartBlock.reg (b : PartBlock) (off : Nat) : Nat :=
  match off with
  | 0x00 => b.state.code + boolNat b.spared * 2 ^ 3 + b.port * 2 ^ 4 + b.cores.length * 2 ^ 6
  | 0x04 => boolNat b.req.en + boolNat b.cmd.en * 2 + boolNat b.cpl.ring.en * 4 + boolNat b.req.halt * 2 ^ 8 + boolNat b.cmd.halt * 2 ^ 9
  | 0x64 => boolNat b.cpl.full
  | 0x68 => b.cpl.irqCount + b.cpl.irqUs * 2 ^ 8
  | _ =>
    if off % 4 ≠ 0 then 0
    else if partCounters.contains off then (sget 0 b.cnt off).toNat
    else if 0x10 ≤ off ∧ off < 0x24 then b.req.reg ((off - 0x10) / 4)
    else if 0x30 ≤ off ∧ off < 0x44 then b.cmd.reg ((off - 0x30) / 4)
    else if 0x50 ≤ off ∧ off < 0x64 then b.cpl.ring.creg ((off - 0x50) / 4)
    else b.secReg off

/-- The Winnow block of a partition (13, "Registers"). -/
def State.winnowReg (s : State) (p off : Nat) : Nat :=
  let b := s.part p
  match off with
  | 0x00 => b.grant.pinQuota
  | 0x04 => b.mem.pinUsed
  | 0x08 => (s.sess.filter fun e => e.2.part == p && e.2.state != .free).length
  | 0x0C => s.inFlight p
  | 0x10 => sget 0 b.res 0
  | 0x14 => sget 0 b.res 1
  | 0x18 => sget 0 b.res 2
  | _ => if winnowCounters.contains off then (sget 0 b.cnt (0x1000 + off)).toNat else 0

def State.sensor (s : State) (i : Nat) : Sensor := sget {} s.health.sensors i

/-- SENSOR_BAD (19, "Registers"): sensors 0 to 63 are the dies' 16 each, 64 and 65 the inlet, 66 and 67 the outlet, 68 the flow, 69 and 70 the
humidity, 71 to 74 the leak loops, 75 and 76 the input voltage and current. -/
def State.sensorBad (s : State) : Nat :=
  let bad (i : Nat) : Bool := (s.sensor i).bad
  let dies := ((List.range 4).map fun d => boolNat ((List.range' (16 * d) 16).any bad) * 2 ^ d).sum
  dies + boolNat (bad 64 || bad 65) * 2 ^ 4 + boolNat (bad 66 || bad 67) * 2 ^ 5 + boolNat (bad 68) * 2 ^ 6 +
    boolNat (bad 69 || bad 70) * 2 ^ 7 + ((List.range 4).map fun i => boolNat (bad (71 + i)) * 2 ^ (8 + i)).sum +
    boolNat (bad 75) * 2 ^ 12 + boolNat (bad 76) * 2 ^ 13

/-- The health block (17, 19, 20, "Registers"). -/
def State.healthReg (s : State) (off : Nat) : Nat :=
  let h := s.health
  if off % 4 ≠ 0 then 0
  else if healthCounters.contains off then (sget 0 h.cnt off).toNat
  else if 0x40 ≤ off ∧ off < 0x68 then sget 0 h.pts ((off - 0x40) / 4)
  else if 0x80 ≤ off ∧ off < 0x90 then
    let d := (off - 0x80) / 4
    min 15 (s.pool d).length + min 255 (s.flash.repair.cores.filter fun c => c / 256 == d).length * 2 ^ 4
  else if 0x100 ≤ off ∧ off < 0x200 then sget 0 h.leanReq ((off - 0x100) / 4)
  else if 0x410 ≤ off ∧ off < 0x420 then s.thermCap ((off - 0x410) / 4)
  else match off with
  | 0x00 => h.score + boolNat h.halted * 2 ^ 10
  | 0x04 => h.secureAt
  | 0x08 => h.haltAt
  | 0x0C => h.flowNom
  | 0x10 => h.retireAt
  | 0x300 => s.sensorBad
  | 0x400 => h.pwrCap
  | 0x404 => h.pwrLimit
  | _ => 0

/-- FW_SVN_MIN: the fuses burned of its thermometer code (R573). -/
def Fuses.svnMin (f : Fuses) : Nat := ((List.range 64).filter fun i => f.svn.toNat.testBit i).length

/-- The security version of the running image. -/
def State.svn (s : State) : Nat := if s.boot.image = [] then 0 else Config.imageSvn s.boot.image

/-- KEY_SLOTn_STAT (18, "Registers"). -/
def State.slotStat (s : State) (n : Nat) : Nat :=
  let k := s.slot n
  (s.slotUse n).code + s.slotRoles n * 2 ^ 8 + boolNat k.portEn * 2 ^ 16 + k.port * 2 ^ 17 + boolNat (decide (16 ≤ k.streak)) * 2 ^ 19

/-- The Husk block (18, "Registers") as a reader sees it: ports 0 to 3, management interfaces 4 and 5. -/
def State.huskReg (s : State) (reader off : Nat) : Nat :=
  if off % 4 ≠ 0 then 0
  else if 0x40 ≤ off ∧ off < 0x140 then
    let n := (off - 0x40) / 16
    match off % 16 with
    | 0 => s.slotStat n
    | 4 => loWord (s.slot n).last
    | 8 => (sget 0 s.husk.latches (reader * 16 + n)).toNat
    | _ => (s.slot n).cntFail.toNat
  else match off with
  | 0x00 => s.life.code + s.husk.debug * 2 ^ 3 + boolNat s.husk.locked * 2 ^ 5 + boolNat s.fuses.zeroising * 2 ^ 6 + s.fuses.svnMin * 2 ^ 7 +
      bits s.svn 0 7 * 2 ^ 14 + s.fuses.refurb * 2 ^ 21 + boolNat s.fuses.diagDisable * 2 ^ 23 + s.husk.diagPort * 2 ^ 24
  | 0x10 => loWord s.fuses.deviceId
  | 0x14 => hiWord s.fuses.deviceId
  | 0x18 => s.husk.cntSlotFail.toNat
  | _ => 0

def WinState.code : WinState → Nat
  | .free => 0 | .open => 1 | .closing => 2 | .closed => 3

/-- The fabric block (15, "Registers"). -/
def State.fabReg (s : State) (off : Nat) : Nat :=
  let f := s.fabric
  if off % 4 ≠ 0 then 0
  else if fabCounters.contains off then (sget 0 f.cnt off).toNat
  else if 0x40 ≤ off ∧ off < 0x70 then s.vport ((off - 0x40) / 4)
  else if 0x10000 ≤ off ∧ off < 0x20000 then
    let w := (off - 0x10000) / 16
    let x := s.win w
    match off % 16 with
    | 0 => x.state.code + x.owner * 2 ^ 2 + boolNat x.rd * 2 ^ 7 + boolNat x.wr * 2 ^ 8 + x.epoch * 2 ^ 16
    | 4 => x.ebase / 65536
    | 8 => x.size / 65536
    | _ => bits (s.winInflight w) 0 16
  else match off with
  | 0x00 => f.id + boolNat f.standby * 2 ^ 12
  | 0x04 => f.kind + f.dxm1 * 2 ^ 2 + f.dym1 * 2 ^ 6 + f.dzm1 * 2 ^ 10
  | 0x08 => f.placeRate
  | 0x0C => f.rspUs
  | _ => 0

/-- The value of a block's register; 0 where an offset names none (R10, R472). -/
def RegBlock.value (b : RegBlock) (s : State) (reader off : Nat) : Nat :=
  match b with
  | .port n => s.portReg n off
  | .part p => (s.part p).reg off
  | .winnow p => s.winnowReg p off
  | .health => s.healthReg off
  | .husk => s.huskReg reader off
  | .fab => s.fabReg off

/-- What a read leaves: an RC field becomes 0 for every reader (R7, R472), and KEY_SLOTn_LAST_LO latches its high half for this one (R574). -/
def RegBlock.afterRead (b : RegBlock) (s : State) (reader off : Nat) : State :=
  match b with
  | .port _ => s
  | .part p => if partCounters.contains off then s.setPart p { s.part p with cnt := sput 0 (s.part p).cnt off 0 } else s
  | .winnow p => if winnowCounters.contains off then s.setPart p { s.part p with cnt := sput 0 (s.part p).cnt (0x1000 + off) 0 } else s
  | .health => if healthCounters.contains off then { s with health := { s.health with cnt := sput 0 s.health.cnt off 0 } } else s
  | .fab => if fabCounters.contains off then { s with fabric := { s.fabric with cnt := sput 0 s.fabric.cnt off 0 } } else s
  | .husk =>
    if off = 0x18 then { s with husk := { s.husk with cntSlotFail := 0 } }
    else if 0x40 ≤ off ∧ off < 0x140 ∧ off % 16 = 4 then
      let n := (off - 0x40) / 16
      { s with husk := { s.husk with latches := sput 0 s.husk.latches (reader * 16 + n) (BitVec.ofNat 32 (hiWord (s.slot n).last)) } }
    else if 0x40 ≤ off ∧ off < 0x140 ∧ off % 16 = 12 then
      let n := (off - 0x40) / 16
      s.setSlot n { s.slot n with cntFail := 0 }
    else s

/-- A read of a block's register: its value and the state after it. -/
def RegBlock.read (b : RegBlock) (s : State) (reader off : Nat) : Nat × State := (b.value s reader off, b.afterRead s reader off)

/-- The block and offset that a port's BAR0 offset reaches (R471, R472). -/
def State.locate (s : State) (n off : Nat) : Option (RegBlock × Nat) :=
  if off < 0x10000 then some (.port n, off)
  else if off < 0x20000 then
    let p := (off - 0x10000) / 0x1000
    if s.owns n p then some (.part p, off % 0x1000) else none
  else if 0x21000 ≤ off ∧ off < 0x21400 then
    let p := (off - 0x21000) / 0x40
    if s.owns n p then some (.winnow p, off % 0x40) else none
  else if 0x30000 ≤ off ∧ off < 0x31000 then some (.health, off - 0x30000)
  else if 0x40000 ≤ off ∧ off < 0x41000 then some (.husk, off - 0x40000)
  else if 0x80000 ≤ off ∧ off < 0xA0000 then some (.fab, off - 0x80000)
  else none

/-- The block that a management message names (R596). -/
def mgmtBlock (b : Nat) : RegBlock :=
  match b with
  | 0 => .health
  | 1 => .fab
  | 2 => .husk
  | _ => .port 0

/-! ### A port's configuration space (R470, R509; its bits are PCIe's, log 7) -/

/-- A field of the configuration space: the mask and the pending bit of a vector in bit 0, the Completion Timeout value in [3:0] with Completion Timeout
Disable in bit 4, which reads 0, and the device state, 0 for D0 and 3 for D3hot. -/
def Port.config (x : Port) (f : ConfigField) : Nat :=
  match f with
  | .msixMask v => boolNat (x.masked.contains v)
  | .msixPending v => boolNat (x.pendingVectors.contains v)
  | .completionTimeout => x.timeoutValue
  | .powerState => if x.d3hot then 3 else 0

/-- Pending vectors that nothing holds back any more are sent (R509). -/
def State.sendPending (s : State) (n : Nat) : State :=
  let x := s.port n
  if x.d3hot then s
  else
    let (held, ready) := x.pendingVectors.partition x.masked.contains
    ready.foldl (fun s i => s.emit (.msix n i)) (s.setPort n { x with pendingVectors := held })

/-- A host's write of a field: a vector that is pending is sent once it is neither masked nor held back by D3hot. -/
def State.writeConfig (s : State) (n : Nat) (f : ConfigField) (v : W32) : State :=
  let x := s.port n
  match f with
  | .msixMask i =>
    let others := x.masked.filter (· != i)
    (s.setPort n { x with masked := if bit v.toNat 0 then i :: others else others }).sendPending n
  | .msixPending _ => s
  | .completionTimeout => s.setPort n { x with timeoutValue := bits v.toNat 0 4 }
  | .powerState =>
    if bits v.toNat 0 2 = 0 then ((s.setPort n { x with d3hot := false }).sendPending n).portBack n
    else if bits v.toNat 0 2 = 3 then s.setPort n { x with d3hot := true }
    else s

/-- Whether the module answers an agent: a host port once it has been released, in D3hot in its configuration space alone (R470, R578; log 66). -/
def State.reaches (s : State) (who : RegAgent) : Bool :=
  match who with
  | .port n _ => s.portUp n
  | .config n _ => (s.port n).released
  | .mgmt _ _ _ => true
  | .core _ _ _ => true

/-- A read of a register by any agent; 0 where it reaches none. -/
def State.regRead (s : State) (who : RegAgent) : Nat × State :=
  match who with
  | .port n off => match s.locate n off with
    | some (b, o) => b.read s n o
    | none => (0, s)
  | .config n f => ((s.port n).config f, s)
  | .mgmt i b off => (mgmtBlock b).read s (4 + i) off
  | .core k c off => (s.coreRead k c off).getD (0, s)

/-- RC_COUNTER_READ (R7, R9, R10, R471): the value returned, and the field at 0 after the read. -/
def execRcCounterRead (who : RegAgent) (s : State) : Host.Outcome State Fault Refusal :=
  let (v, t) := s.regRead who
  .next (if s.reaches who then t.emit (.read (BitVec.ofNat 32 v)) else s)

/-- COUNTER_LO_READ (R314): the low half into s[dst]; the high half latched for the context. -/
def execCounterLoRead (k c : Nat) (timebase : Bool) (dst : Nat) (s : State) : Host.Outcome State Fault Refusal :=
  match s.coreRead k c (if timebase then 0x20 else 0x18) with
  | some (v, t) => .next (t.setCtx k c ((t.ctx k c).writeS dst (BitVec.ofNat 64 v)))
  | none => .next s

/-- KEY_LAST_LO_READ (R574), of slot `slot` by the agent that `who` names; its offset is the slot's. -/
def execKeyLastLoRead (who : RegAgent) (slot : Nat) (s : State) : Host.Outcome State Fault Refusal :=
  let off := 0x44 + 0x10 * slot
  match who with
  | .port n _ =>
    let (v, t) := RegBlock.husk.read s n off
    .next (if s.reaches who then t.emit (.read (BitVec.ofNat 32 v)) else s)
  | .mgmt i _ _ =>
    let (v, t) := RegBlock.husk.read s (4 + i) off
    .next (t.emit (.read (BitVec.ofNat 32 v)))
  | .core _ _ _ => .next s
  | .config _ _ => .next s

/-- RNG_OUT_READ (R540, R541): word `word` of the digest of the stream's KEY and CTR, into s[dst]. -/
def execRngOutRead (k c stream word dst : Nat) (s : State) : Host.Outcome State Fault Refusal :=
  .next (s.setCtx k c ((s.ctx k c).writeS dst (BitVec.ofNat 64 (((s.core k).rngOf stream).out word))))

/-! ### Writes -/

/-- BASE and SIZE of a ring (R474): ignored while the ring is enabled, a LOG2 outside 6 to 16 ignored, bits [11:0] of LO not kept. -/
def HostRing.write (r : HostRing) (i : Nat) (v : W32) : HostRing :=
  if r.en then r
  else match i with
  | 0 => { r with base := setHalf r.base false (v &&& 0xFFFFF000#32) }
  | 1 => { r with base := setHalf r.base true v }
  | 2 =>
    let n := bits v.toNat 0 5
    if 6 ≤ n ∧ n ≤ 16 then { r with log2 := n } else r
  | _ => r

/-- A write of a port block's RW fields that have no command of their own. -/
def Port.write (x : Port) (off : Nat) (v : W32) : Port :=
  if off % 4 ≠ 0 then x
  else if 0x10 ≤ off ∧ off < 0x1C then { x with adm := x.adm.write ((off - 0x10) / 4) v }
  else if 0x24 ≤ off ∧ off < 0x30 then { x with acpl := { x.acpl with ring := x.acpl.ring.write ((off - 0x24) / 4) v } }
  else x

/-- SEC_SIZE, SEC_RWIN, SEC_CUR and SEC_MEM (R533). -/
def Sec.write (x : Sec) (off : Nat) (v : W32) : Sec :=
  match off with
  | 0x104 => { x with slotMib := bits v.toNat 0 16 }
  | 0x108 => { x with rwin := bits v.toNat 0 12 }
  | 0x10C => { x with cur := setHalf x.cur false v }
  | 0x110 => { x with cur := setHalf x.cur true v }
  | _ =>
    if 0x120 ≤ off ∧ off < 0x140 ∧ off % 4 = 0 then
      let i := (off - 0x120) / 4
      { x with mem := sput 0 x.mem i (bits v.toNat 0 (if i % 2 = 0 then 27 else 16)) }
    else x

/-- A write of a partition block's RW fields that have no command of their own. -/
def PartBlock.write (b : PartBlock) (off : Nat) (v : W32) : PartBlock :=
  if off % 4 ≠ 0 then b
  else if 0x10 ≤ off ∧ off < 0x1C then { b with req := b.req.write ((off - 0x10) / 4) v }
  else if 0x30 ≤ off ∧ off < 0x3C then { b with cmd := b.cmd.write ((off - 0x30) / 4) v }
  else if 0x50 ≤ off ∧ off < 0x5C then { b with cpl := { b.cpl with ring := b.cpl.ring.write ((off - 0x50) / 4) v } }
  else if off = 0x68 then { b with cpl := { b.cpl with irqCount := bits v.toNat 0 8, irqUs := bits v.toNat 8 16 } }
  else if b.state = .ready then { b with sec := b.sec.write off v }
  else b

/-- LEAN_REQ of a group (R548): 7 is written as 6; an offset in force above the request falls to it at once, and where lean mode begins it starts
at the request (log 28). -/
def State.writeLean (s : State) (g : Nat) (v : W32) : State :=
  let n := min 6 (bits v.toNat 0 3)
  let old := sget 0 s.health.leanReq g
  let s := { s with health := { s.health with leanReq := sput 0 s.health.leanReq g n } }
  (List.range' (g / 16 * 128 + g % 16 * 8) 8).foldl (fun s k =>
    let x := s.core k
    s.setCore k { x with island := { x.island with offset := if old = 0 then n else min x.island.offset n } }) s

/-- SECURE_AT or HALT_AT, unless it would leave SECURE_AT above HALT_AT (R532). -/
def Health.writeLevel (h : Health) (halt : Bool) (v : W32) : Health :=
  let n := bits v.toNat 0 10
  if halt then (if h.secureAt ≤ n then { h with haltAt := n } else h)
  else if n ≤ h.haltAt then { h with secureAt := n } else h

/-- Offsets of RW fields of the health and the fabric block (R596). -/
def mgmtWritable (block off : Nat) : Bool :=
  if block = 0 then [0x04, 0x08, 0x0C, 0x10, 0x404].contains off || (decide (0x100 ≤ off) && decide (off < 0x200) && off % 4 == 0)
  else block == 1 && [0x08, 0x0C].contains off

/-- A management write to the RW fields of the health and the fabric block; a value outside a field's range leaves it (15, 20, "Registers"). A PLACE_RATE
outside its range, 0, leaves the field too: chapter 15 gives the range and not what such a write does (DESIGN CHOICE, log 68). -/
def State.mgmtWrite (s : State) (block off : Nat) (v : W32) : State :=
  let h := s.health
  let f := s.fabric
  if block = 0 then
    if 0x100 ≤ off ∧ off < 0x200 ∧ off % 4 = 0 then s.writeLean ((off - 0x100) / 4) v
    else match off with
    | 0x04 => { s with health := h.writeLevel false v }
    | 0x08 => { s with health := h.writeLevel true v }
    | 0x0C => { s with health := { h with flowNom := bits v.toNat 0 16 } }
    | 0x10 => { s with health := { h with retireAt := bits v.toNat 0 8 } }
    | 0x404 =>
      let w := bits v.toNat 0 12
      if 1000 ≤ w ∧ w ≤ 4000 then { s with health := { h with pwrLimit := w } } else s
    | _ => s
  else if block = 1 then
    match off with
    | 0x08 =>
      let r := bits v.toNat 0 10
      if r = 0 then s else { s with fabric := { f with placeRate := r } }
    | 0x0C =>
      let u := bits v.toNat 0 24
      if 100 ≤ u ∧ u ≤ 10000000 then { s with fabric := { f with rspUs := u } } else s
    | _ => s
  else s

/-- REGISTER_WRITE (R7, R10, R471, R472, R474, R533): fields that no other command writes. Writes of TAIL, CPL_HEAD, RING_CTL and SEC_CFG are
commands of their own (log 29). -/
def execRegisterWrite (who : RegAgent) (v : W32) (s : State) : Host.Outcome State Fault Refusal :=
  if !s.reaches who then .next s
  else match who with
  | .port n off =>
    match s.locate n off with
    | some (.port n, o) => .next (s.setPort n ((s.port n).write o v))
    | some (.part p, o) => .next (s.setPart p ((s.part p).write o v))
    | _ => .next s
  | .config n f => .next (s.writeConfig n f v)
  | .mgmt _ b off => .next (if s.boot.stage = 9 then s.mgmtWrite b off v else s)
  | .core k _ off => .next (s.setCore k ((s.core k).regWrite off v))

/-- WATCHDOG_WRITE (R311). -/
def execWatchdogWrite (k _c : Nat) (v : W32) (s : State) : Host.Outcome State Fault Refusal :=
  .next (s.setCore k ((s.core k).writeWatchdog v))

/-- HEALTH_LEVEL_WRITE (R532, R596). -/
def execHealthLevelWrite (_i : Nat) (halt : Bool) (v : W32) (s : State) : Host.Outcome State Fault Refusal :=
  .next (if s.boot.stage = 9 then { s with health := s.health.writeLevel halt v } else s)

/-- LEAN_REQ_WRITE (R548, R596). -/
def execLeanReqWrite (_i die group : Nat) (v : W32) (s : State) : Host.Outcome State Fault Refusal :=
  .next (if s.boot.stage = 9 then s.writeLean (die * 16 + group) v else s)

/-- REG_READ (R596): answered with the register's value, with the read's effects. -/
def execRegRead (i block off : Nat) (s : State) : Host.Outcome State Fault Refusal :=
  if !s.boot.en || s.boot.heldOff then .next s
  else
    let (v, t) := s.regRead (.mgmt i block off)
    .next (t.emit (.mgmt i (.value (BitVec.ofNat 32 v))))

/-- REG_WRITE (R596): outside STAGE 9, or to a field that is not RW, an error completion and no change. -/
def execRegWrite (i block off : Nat) (v : W32) (s : State) : Host.Outcome State Fault Refusal :=
  if !s.boot.en || s.boot.heldOff then .next s
  else if s.boot.stage = 9 ∧ mgmtWritable block off = true then .next ((s.mgmtWrite block off v).emit (.mgmt i .done))
  else .next (s.emit (.mgmt i .error))

end Sys2Proof.Machine
end

