-- ==== Sys2Proof/Machine/Husk.lean ====
section
/-! DEFINITION. Husk's commands: keys, firmware, debug level, lifecycle and fuses (18, R561 to R573). -/

namespace Sys2Proof.Machine

/-! ### Keys (R561 to R563) -/

/-- Roles bits of a slot that may load keys and change the lifecycle: KEY and LIFE. -/
def KeySlot.keeper (k : KeySlot) : Bool := k.active && k.roles.testBit 3 && k.roles.testBit 6

/-- The customer slots hold an ACTIVE one, and none with both KEY and LIFE (R563). -/
def State.noKeeper (s : State) : Bool :=
  (List.range 15).any (fun n => (s.slot n).active) && !(List.range 15).any fun n => (s.slot n).keeper

/-- KEY_LOAD and KEY_ROTATE bodies (R561). -/
def keyBody : List (Nat × Nat × Nat) := [(0x08, 0, 4), (0x08, 8, 11), (0x10, 0, 64), (0x18, 0, 256)]

/-- The key-encryption key of a shared coordinate (R562). -/
def State.kek (s : State) (shared : List Byte) (target counter : Nat) : List Byte :=
  hkdf256 (leBytes 8 s.fuses.deviceId.toNat) shared
    ([0x48, 0x55, 0x53, 0x4B, 0x2D, 0x4B, 0x57].map (BitVec.ofNat 8) ++ leBytes 1 target ++ leBytes 8 counter) 32

/-- The key that a key block carries for a slot and a counter; none when a check of R562 fails. -/
def State.unwrapKey (s : State) (block : List Byte) (digest target counter : Nat) : Option (List Byte) :=
  if leNat (sha256 block) ≠ digest then none
  else match ecdh384 Config.devicePrivateKey (block.take 97) with
    | none => none
    | some x => aesUnwrap (s.kek x target counter) ((block.drop 0x68).take 40)

/-- A slot loaded by an entry (R561, R563): what it has counted stands. -/
def KeySlot.load (k : KeySlot) (e : Entry) (key : List Byte) : KeySlot :=
  { k with active := true, key := BitVec.ofNat 256 (leNat key), roles := eBits e 0x08 8 8, portEn := eBits e 0x08 16 1 = 1
           port := eBits e 0x08 17 2, last := 0 }

/-- KEY_LOAD and KEY_ROTATE past the authentication (R563): `use` is the STATE that the target must have. -/
def keyCmd (n : Nat) (e : Entry) (hostOk : Bool) (use : SlotUse) (rotate : Bool) (t : State) : CmdRes :=
  let target := eBits e 0x08 0 4
  let addr := eBits e 0x10 0 64
  let barred := t.life = .makerTest ∨ t.life = .returned
  if target = 15 ∨ addr % 64 ≠ 0 then .fail t fltArgRange
  else if t.slotUse target ≠ use ∨ barred then .fail t fltKeySlot
  else if !hostOk then .fail t fltHostTimeout
  else match t.unwrapKey (readBytes (t.hostMemOf n) addr 256) (eBits e 0x18 0 256) target (eCounter e) with
    | none => .fail t fltKeyUnwrap
    | some key =>
      let u := t.setSlot target ((t.slot target).load e key)
      if rotate && u.noKeeper then .fail t fltArgRange else .done u.durable 0

/-- KEY_LOAD (R562, R563). -/
def execKeyLoad (n : Nat) (e : Entry) (hostOk : Bool) (s : State) : Host.Outcome State Fault Refusal :=
  critCmd (.adm n) 0x50 e keyBody s fun _ t => keyCmd n e hostOk .empty false t

/-- KEY_ROTATE (R562, R563). -/
def execKeyRotate (n : Nat) (e : Entry) (hostOk : Bool) (s : State) : Host.Outcome State Fault Refusal :=
  critCmd (.adm n) 0x51 e keyBody s fun _ t => keyCmd n e hostOk .active true t

/-- A slot emptied: its key, roles, binding and LAST go. -/
def KeySlot.erase (k : KeySlot) : KeySlot := { cntFail := k.cntFail, streak := k.streak }

/-- KEY_ERASE (R563). -/
def execKeyErase (n : Nat) (e : Entry) (s : State) : Host.Outcome State Fault Refusal :=
  critCmd (.adm n) 0x52 e [(0x08, 0, 4)] s fun _ t =>
    let target := eBits e 0x08 0 4
    if target = 15 then .fail t fltArgRange
    else if t.slotUse target = .empty then .done t 0
    else
      let u := t.setSlot target (t.slot target).erase
      if u.noKeeper then .fail t fltArgRange else .done u.durable 0

/-! ### Firmware (R564) -/

def Flash.bank (f : Flash) (b : Bool) : Option (List Byte) := if b then f.bankB else f.bankA
def Flash.setBank (f : Flash) (b : Bool) (x : Option (List Byte)) : Flash := if b then { f with bankB := x } else { f with bankA := x }

/-- A bank marked empty; it is no longer pending. -/
def Flash.emptyBank (f : Flash) (b : Bool) : Flash :=
  { f.setBank b none with pending := if f.pending = some b then none else f.pending }

/-- An image's signature verifies against the fused maker key; with that fuse blank no key verifies any (R564, R581). -/
def State.imageSigned (s : State) (image : List Byte) : Bool := s.fuses.makerKey && Config.imageSigned image

/-- What an image fails of the digest, the signature and the rollback check (R564). -/
def State.imageBad (s : State) (image : List Byte) (digest : Nat) : Option FaultCode :=
  if leNat (sha384 image) ≠ digest ∨ s.imageSigned image = false then some fltFwSig
  else if Config.imageSvn image < s.fuses.svnMin then some fltFwRollback
  else none

/-- FW_LOAD (R564): into the inactive bank, pending. -/
def execFwLoad (n : Nat) (e : Entry) (hostOk flashOk : Bool) (s : State) : Host.Outcome State Fault Refusal :=
  critCmd (.adm n) 0x53 e [(0x08, 0, 64), (0x10, 0, 32), (0x18, 0, 384)] s fun _ t =>
    let addr := eBits e 0x08 0 64
    let len := eBits e 0x10 0 32
    if addr % 64 ≠ 0 ∨ len % 4 ≠ 0 ∨ 16777216 < len then .fail t fltArgRange
    else if !hostOk then .fail t fltHostTimeout
    else
      let image := readBytes (t.hostMemOf n) addr len
      let b := !t.flash.active
      match t.imageBad image (eBits e 0x18 0 384) with
      | some f => .fail t f
      | none =>
        if flashOk then .done { t with flash := { t.flash.setBank b (some image) with pending := some b } } 0
        else .fail { t with flash := t.flash.emptyBank b } fltFwSig

/-! ### Debug (R567) -/

/-- DEBUG_SET (R567). -/
def execDebugSet (n : Nat) (e : Entry) (s : State) : Host.Outcome State Fault Refusal :=
  critCmd (.adm n) 0x54 e [(0x08, 0, 2)] s fun _ t =>
    let level := eBits e 0x08 0 2
    let slot := eSlot e
    let ok : Bool := match level with
      | 0 => true
      | 1 => t.life == .fieldDiag && slot != 15
      | 2 => (t.life == .makerTest || t.life == .returned) && slot == 15
      | _ => false
    if ok then .done { t with husk := { t.husk with debug := level } } 0 else .fail t fltLifecycle

/-! ### Lifecycle (R569 to R572) -/

/-- A partition destroyed at once, with every record it owes (R488, R571); those that its completion ring still holds go with it (log 63). -/
def State.forceDestroy (s : State) (p : Nat) : State :=
  let s := s.stopEnd p 0 0
  if (s.part p).state = .free then s
  else
    let s := s.destroyItems p
    let t := s.destroyPart p
    match (s.part p).destroyer with
    | some (n, o) => t.admDone n o .done 0 0
    | none => t

/-- Every window is closed and freed; the records owed for spill windows are written (R571). -/
def State.freeWindows (s : State) : State :=
  let owed := s.fabric.wins.filterMap fun e => e.2.closer
  let s := { s with fabric := { s.fabric with wins := [], bursts := [] } }
  owed.foldl (fun s o => s.owedDone o .done 0) s

/-- A tracker whose storage is zeros (R571). -/
def Tracker.zero : Tracker := { tbase := 0, nm1 := 0, tfmt := 0, psfmt := 0, margin := 0, curMax := 0, curMin := 0 }

/-- A core's memories of R571, step 4. -/
def Core.zeroised (x : Core) : Core :=
  (List.range 64).foldl (fun x n => x.setTracker n Tracker.zero)
    { x with scratch := [], scat := { x.scat with acc := [] }, exact := { x.exact with entries := [] } }

/-- Step 2 of R571: partitions destroyed, windows freed, rings gone with their partitions. -/
def State.evict (s : State) : State :=
  ((s.parts.filter fun e => e.2.state != .free).foldl (fun s e => s.forceDestroy e.1) s).freeWindows

/-- Step 3: keys, LAST and the rest of the sealed store of slots 0 to 14; what they have counted stands. -/
def State.eraseKeys (s : State) : State := (List.range 15).foldl (fun s n => s.setSlot n (s.slot n).erase) s

/-- Step 4: all of Tier H and Tier L went with the partitions and windows; the rest is written with zeros. -/
def State.zeroMemory (s : State) : State :=
  let s := (List.range 512).foldl (fun s k => s.setCore k (s.core k).zeroised) s
  { s with objs := [], sess := [], fabric := { s.fabric with parked := [], spill := [], spillPoison := [] } }

/-- Steps 2 to 4 of R571. -/
def State.zeroise (s : State) : State := s.evict.eraseKeys.durable.zeroMemory

/-- FIELD_DIAG leaves: every core and object is cleared (R487, R569). -/
def State.clearAll (s : State) : State :=
  let s := { s with cores := (s.cores.map fun (e : Nat × Core) => (e.1, e.2.cleared e.2.chaff)).filter fun (e : Nat × Core) => !decide (e.2 = ({} : Core)) }
  { s with objs := [], waiters := [] }

/-- The lifecycle state that a code names (R569). -/
def lifeOf (code : Nat) : Option LifeState :=
  match code with
  | 0 => some .makerTest | 1 => some .provision | 2 => some .field | 3 => some .fieldDiag | 4 => some .returned | 5 => some .scrap
  | _ => none

/-- The state and the debug level after a transition: a fused state, or FIELD_DIAG in its register (R567, R569). -/
def State.setLife (s : State) (x : LifeState) (port : Nat) : State :=
  match x with
  | .fieldDiag => { s with husk := { s.husk with diag := true, diagPort := port, debug := 0 } }
  | x => { s with fuses := { s.fuses with lc := x }, husk := { s.husk with diag := false, diagPort := 0, debug := 0 } }

/-- SCRAP (R572): after steps 2 to 4 of R571 the device key and the maker slot's derivation go. -/
def State.scrap (s : State) : State :=
  let s := s.zeroise
  { s with flash := { s.flash with keyPair := false }, husk := { s.husk with delayed := [] } }

/-- The transitions of R569: the state after one, or why it is refused. -/
def State.transition (s : State) (dest : LifeState) (slot : Nat) : Except FaultCode State :=
  let maker := slot == 15
  match s.life, dest with
  | .makerTest, .provision =>
    if maker && s.flash.keyPair && s.fuses.makerKey then .ok s else .error fltLifecycle
  | .provision, .field => if maker then .error fltLifecycle else .ok s
  | .field, .fieldDiag =>
    if maker || s.fuses.diagDisable then .error fltLifecycle
    else if s.parts.any (fun e => e.2.state != .free) then .error fltPartBusy
    else .ok s
  | .fieldDiag, .field => if maker then .error fltLifecycle else .ok s.clearAll
  | .provision, .returned => if maker then .error fltLifecycle else .ok s.zeroise
  | .field, .returned => if maker then .error fltLifecycle else .ok s.zeroise
  | .fieldDiag, .returned => if maker then .error fltLifecycle else .ok s.zeroise
  | .returned, .provision =>
    if maker && s.fuses.refurb < 3 then .ok { s with fuses := { s.fuses with refurb := s.fuses.refurb + 1 } } else .error fltLifecycle
  | .makerTest, .scrap => if maker then .ok s.scrap else .error fltLifecycle
  | .returned, .scrap => if maker then .ok s.scrap else .error fltLifecycle
  | .provision, .scrap => if maker then .error fltLifecycle else .ok s.scrap
  | .field, .scrap => if maker then .error fltLifecycle else .ok s.scrap
  | .fieldDiag, .scrap => if maker then .error fltLifecycle else .ok s.scrap
  | _, _ => .error fltLifecycle

/-- The critical commands that other admin rings fetch while ZEROISING is 1: each is refused (R571). -/
def State.refuseZeroising (s : State) (n : Nat) (xs : List (Nat × Entry)) : State :=
  xs.foldl (fun s x =>
    if x.1 != n && s.canFetchAdm x.1 && admRingCodes.contains (eCode x.2) then
      (s.takeAdm x.1).admDone x.1 (s.admOwed x.1 x.2) .failed fltLifecycle 0
    else s) s

def lifecycleBody : List (Nat × Nat × Nat) := [(0x08, 0, 3)]

/-- LIFECYCLE (R569 to R572). -/
def execLifecycle (n : Nat) (x : LifecycleOp) (s : State) : Host.Outcome State Fault Refusal :=
  let e := x.entry
  critCmd (.adm n) 0x55 e lifecycleBody s fun _ t =>
    match lifeOf (eBits e 0x08 0 3) with
    | none => .fail t fltLifecycle
    | some dest =>
      match t.transition dest (eSlot e) with
      | .error f => .fail t f
      | .ok u =>
        let u := if dest = .returned then u.refuseZeroising n x.meanwhile else u
        .done ((u.setLife dest n).event 0x0013 dest.code t.life.code []) 0

/-- The state after step 1 of R571, when the LIFECYCLE that stands at the head of an admin ring goes to RETURN: what is left of it is done at the
next reset (R572). -/
def State.zeroisingCut (s : State) (n : Nat) (e : Entry) : State :=
  let t := critCmd (.adm n) 0x55 e lifecycleBody s fun o t =>
    match lifeOf (eBits e 0x08 0 3), t.transition .returned (eSlot e) with
    | some .returned, .ok _ =>
      .owes { t with fuses := { t.fuses with lc := .returned, zeroising := true }, flash := { t.flash with zeroing := some (n, o, t.life.code) } }
    | _, _ => .hold
  match t with
  | .next t => if t.fuses.zeroising then t else s
  | _ => s

/-! ### Fuses (R573) -/

/-- CORE_REPAIR and ROW_REPAIR are one fuse for each core and row (log 31): programmed by the maker slot alone. -/
def burnRepair (t : State) (slot : Nat) (stuck : BitVec 64) (inRange : Bool) (burn : Fuses → Fuses) : CmdRes :=
  if !(t.life == .makerTest || t.life == .returned) || slot != 15 then .fail t fltLifecycle
  else if !inRange then .fail t fltArgRange
  else if stuck.toNat.testBit 0 then .fail t fltFuse
  else .done { t with fuses := burn t.fuses } 0

/-- FUSE_PROG (R573). `stuck` are the bits of the field that do not burn. -/
def execFuseProg (n : Nat) (e : Entry) (stuck : BitVec 64) (s : State) : Host.Outcome State Fault Refusal :=
  critCmd (.adm n) 0x56 e [(0x08, 0, 4), (0x10, 0, 64)] s fun _ t =>
    let v := eBits e 0x10 0 64
    let slot := eSlot e
    let customer := (t.life == .provision || t.life == .field) && slot != 15
    match eBits e 0x08 0 4 with
    | 0 =>
      if !customer then .fail t fltLifecycle
      else if 64 < v then .fail t fltArgRange
      else if v ≤ t.fuses.svnMin then .done t 0
      else if t.svn < v then .fail t fltArgRange
      else
        let want := BitVec.ofNat 64 (2 ^ v - 1)
        let u := { t with fuses := { t.fuses with svn := t.fuses.svn ||| (want &&& ~~~stuck) } }
        if u.fuses.svn &&& want = want then .done u 0 else .fail u fltFuse
    | 1 =>
      if !customer then .fail t fltLifecycle
      else if v ≠ 1 then .fail t fltArgRange
      else if t.fuses.diagDisable then .done t 0
      else if stuck.toNat.testBit 0 then .fail t fltFuse
      else .done { t with fuses := { t.fuses with diagDisable := true } } 0
    | 2 =>
      let pos := bits v 5 5 * 8 + bits v 2 3
      burnRepair t slot stuck (decide (v < 1024) && decide (pos < 136)) fun f =>
        { f with cores := if f.cores.contains (bits v 0 2 * 256 + pos) then f.cores else f.cores ++ [bits v 0 2 * 256 + pos] }
    | 3 =>
      let row := (bits v 7 2 * 128 + bits v 0 7, bits v 9 2, bits v 11 6)
      burnRepair t slot stuck (decide (v < 2 ^ 17) && decide (bits v 11 6 < 34)) fun f =>
        { f with rows := if f.rows.contains row then f.rows else f.rows ++ [row] }
    | _ => .fail t fltLifecycle

end Sys2Proof.Machine
end

