-- ==== Sys2Proof/Machine/Health.lean ====
section
/-! DEFINITION. The health block: splices, frames, the health period, lean mode, droops, sensors and the power and thermal ceilings (17, R511, R512,
R528 to R531, R548 to R550; 19, R589, R591, R592; 20, R603 to R607). -/

namespace Sys2Proof.Machine

/-! ### Splices (R105, R511, R512) -/

/-- Whether an instruction in flight uses the arrays. -/
def InFlight.onArrays (o : InFlight) : Bool :=
  match o.unit with
  | .stream _ => true
  | .guard => true
  | .tab => true
  | _ => false

/-- A physical row of an array taken out; the rows stay in ascending order. It waits for a splice no more. -/
def Core.splice (x : Core) (array row : Nat) : Core :=
  let rows := sget [] x.sheaf.splices array
  { x with sheaf := { x.sheaf with failing := x.sheaf.failing.filter (· != (array, row)), splices := sput [] x.sheaf.splices array ((rows.filter (· < row)) ++ row :: rows.filter (row < ·)) } }

/-- SPLICE_APPLY (R105, R511, R512): between array instructions, the physical row of a logical row that failed its parity check, while the array has a
splice left. -/
def execSpliceApply (k array row : Nat) (s : State) : Host.Outcome State Fault Refusal :=
  let x := s.core k
  let rows := sget [] x.sheaf.splices array
  if x.failed || x.ops.any (·.onArrays) || !x.sheaf.failing.contains (array, row) || rows.contains row || decide (2 ≤ rows.length) || decide (34 ≤ row) then .next s
  else
    let t := s.setCore k (x.splice array row)
    let r := t.flash.repair
    let t : State := { t with flash := { t.flash with repair := { r with rows := r.rows ++ [(k / 128 * 256 + s.position k, array, row)] } } }
    .next ((t.healthCount 0x200 1).event 0x0003 (coordOf k) (array * 2 ^ 8 + row) [])

/-! ### Frames (R528) -/

/-- Whether a frame holds a poisoned unit. -/
def State.framePoisoned (s : State) (t : Tier) (f : Nat) : Bool :=
  s.parts.any fun e => e.2.mem.units.any fun u => u.2.tier == t && u.2.frame == f &&
    e.2.mem.poison.any fun x => decide (u.1 ≤ 64 * x) && decide (64 * x < u.1 + u.2.size)

/-- The units of a frame moved to another of the tier. -/
def Mem.moveFrame (m : Mem) (t : Tier) (f fresh : Nat) : Mem :=
  { m with units := m.units.map fun e => if e.2.tier = t ∧ e.2.frame = f then (e.1, { e.2 with frame := fresh, die := frameDie t fresh }) else e }

/-- A frame's units can leave it: it holds none, or another frame of the tier takes them. -/
def State.canVacate (s : State) (t : Tier) (f fresh : Nat) : Bool := (s.unitsIn t f).isEmpty || (fresh != f && s.frameTakes t false fresh)

/-- PAGE_RETIRE (R512, R528): of a frame of Tier H or Tier L whose correctable count has reached RETIRE_AT, or that holds poison; its units move to a
frame that holds none. -/
def execPageRetire (t : Tier) (f fresh : Nat) (s : State) : Host.Outcome State Fault Refusal :=
  let key := frameKey t f
  let poison := s.framePoisoned t f
  let due := decide (s.health.retireAt ≤ sget 0 s.frames.ce key) || poison
  if t = .F ∨ due = false ∨ s.frames.retired.contains key = true ∨ s.canVacate t f fresh = false then .next s
  else
    let r := s.flash.repair
    let u : State := { s with
      parts := s.parts.map fun (e : Nat × PartBlock) => (e.1, { e.2 with mem := e.2.mem.moveFrame t f fresh })
      frames := { s.frames with retired := s.frames.retired ++ [key] }
      flash := { s.flash with repair := { r with frames := r.frames ++ [key] } } }
    .next ((u.healthCount 0x210 1).event 0x000B ((if t = .L then 2 ^ 31 else 0) + bits f 0 31) (boolNat poison) [])

/-! ### Sensors (R591, R592) -/

/-- Window of a sensor, its slope limit if it has one, and the pair it belongs to with the pair limit. Readings are in tenths of °C, %RH, V and
A; in tenths of a litre per minute for the flow; in ohms for the leak loops. Numbers as at `State.sensorBad`. -/
structure SensorKind where
  lo : Int
  hi : Int
  slope : Option Int
  pair : Option (Nat × Int)

def sensorKind (i : Nat) : SensorKind :=
  if i < 64 then { lo := -200, hi := 1400, slope := some 200, pair := none }
  else match i with
  | 64 => { lo := 0, hi := 950, slope := some 50, pair := some (65, 30) }
  | 65 => { lo := 0, hi := 950, slope := some 50, pair := some (64, 30) }
  | 66 => { lo := 0, hi := 950, slope := some 50, pair := some (67, 30) }
  | 67 => { lo := 0, hi := 950, slope := some 50, pair := some (66, 30) }
  | 68 => { lo := 0, hi := 600, slope := some 100, pair := none }
  | 69 => { lo := 0, hi := 1000, slope := some 200, pair := some (70, 100) }
  | 70 => { lo := 0, hi := 1000, slope := some 200, pair := some (69, 100) }
  | 75 => { lo := 0, hi := 700, slope := none, pair := none }
  | 76 => { lo := 0, hi := 900, slope := none, pair := none }
  | _ => { lo := 10, hi := 1000000, slope := none, pair := none }

def absDiff (a b : Int) : Int := if a < b then b - a else a - b

/-- The sensor's reading of a period. -/
def readingOf (r : Readings) (i : Nat) : Option Int := r.sensors.getD i none

/-- Whether a period marks a sensor implausible (R591). -/
def State.implausible (s : State) (r : Readings) (i : Nat) : Bool :=
  let k := sensorKind i
  match readingOf r i with
  | none => true
  | some v =>
    (s.sensor i).silent || decide (v < k.lo) || decide (k.hi < v) ||
    (match k.slope, (s.sensor i).last with
      | some d, some w => decide (d < absDiff v w)
      | _, _ => false) ||
    (match k.pair with
      | some (j, d) => (match readingOf r j with
        | some w => decide (d < absDiff v w)
        | none => false)
      | none => false)

/-- A sensor after a period: marked at once, plausible again after 16 plausible periods in a row. -/
def Sensor.period (x : Sensor) (reading : Option Int) (implausible : Bool) : Sensor :=
  if implausible then { last := reading, bad := true }
  else if x.bad then (if 16 ≤ x.good + 1 then { last := reading } else { last := reading, bad := true, good := x.good + 1 })
  else { last := reading }

/-- All 77 sensors sampled. -/
def State.sample (s : State) (r : Readings) : State :=
  let marks := (List.range 77).map fun i => (i, (s.sensor i).period (readingOf r i) (s.implausible r i))
  { s with health := { s.health with sensors := marks.foldl (fun (m : Sparse Sensor) (e : Nat × Sensor) => sput {} m e.1 e.2) s.health.sensors } }

/-- SENSOR_READ_TIMEOUT (R591): the sensor is marked, and stays so for the period. -/
def execSensorReadTimeout (i : Nat) (s : State) : Host.Outcome State Fault Refusal :=
  if 77 ≤ i then .next s
  else .next { s with health := { s.health with sensors := sput {} s.health.sensors i { s.sensor i with bad := true, good := 0, silent := true } } }

/-! ### The score (R529) -/

/-- Plausible readings among sensors. -/
def State.plausible (s : State) (is : List Nat) : List Int := is.filterMap fun i => if (s.sensor i).bad then none else (s.sensor i).last

/-- Points of the sensors marked implausible: 256 each. -/
def State.badPoints (s : State) (is : List Nat) : Nat := 256 * (is.filter fun i => (s.sensor i).bad).length

/-- The largest of a list of excesses, 0 for none. -/
def largest (xs : List Int) : Nat := xs.foldl (fun m x => max m x.toNat) 0

def dieSensors : List Nat := List.range 64
def inletSensors : List Nat := [64, 65]
def humiditySensors : List Nat := [69, 70]
def leakSensors : List Nat := [71, 72, 73, 74]

/-- Leak loops that read wet (R592, R611). -/
def State.wetLoops (s : State) : Nat := ((s.plausible leakSensors).filter fun x => decide (x < 100000)).length

/-- The indicators of the status window (20, "The module"). -/
structure Indicators where
  power : Bool
  ready : Bool
  health : Bool
  service : Bool
deriving DecidableEq, Repr

/-- POWER shows PG_OUT, READY STAGE 9, HEALTH a score at or above SECURE_AT, and SERVICE STAGE 15 or a wet leak loop (20, R611). -/
def State.indicators (s : State) : Indicators :=
  { power := s.boot.pgOut, ready := s.boot.stage == 9, health := decide (s.health.secureAt ≤ s.health.score)
    service := s.boot.stage == 15 || decide (0 < s.wetLoops) }

/-- Points of health input `i` (R529): readings in tenths give tenths of an excess, and a sensor marked implausible counts 256 (log 33). -/
def State.inputPoints (s : State) (i : Nat) : Nat :=
  let h := s.health
  let readings (is : List Nat) (excess : Int → Int) (rate : Nat) : Nat := rate * largest ((s.plausible is).map excess) / 10 + s.badPoints is
  match i with
  | 0 => min 256 (h.periodCe / 4)
  | 1 => min 128 (h.periodReplay / 64)
  | 2 => min 1023 (readings dieSensors (fun t => t - 950) 16)
  | 3 => min 1023 (readings inletSensors (fun t => max (t - 450) (170 - t)) 32)
  | 4 =>
    if h.flowNom = 0 then 0
    else min 1023 (8 * (90 * h.flowNom - 100 * largest (s.plausible [68])) / h.flowNom * boolNat (!(s.sensor 68).bad) + s.badPoints [68])
  | 5 => min 320 (readings humiditySensors (fun x => x - 600) 8)
  | 6 => min 1023 (700 * s.wetLoops + s.badPoints leakSensors)
  | 7 => min 256 (4 * h.periodDroop)
  | 8 => min 256 (32 * (h.retrains.take 64).sum)
  | _ => min 256 (64 * (h.timeouts.take 64).sum)

/-- The score and the inputs' points at a period's end; the counts of the next period start at 0. -/
def State.scorePeriod (s : State) : State :=
  let pts := (List.range 10).map s.inputPoints
  let h := s.health
  { s with health := { h with
    score := min 1023 pts.sum
    pts := (pts.mapIdx fun i v => (i, v)).foldl (fun (m : Sparse Nat) (e : Nat × Nat) => sput 0 m e.1 e.2) h.pts
    periodCe := 0, periodReplay := 0, periodDroop := 0
    retrains := 0 :: h.retrains.take 63, timeouts := 0 :: h.timeouts.take 63 } }

/-- Bit `i`: input `i` scored points (R619). -/
def Health.mask (h : Health) : Nat := ((List.range 10).map fun i => if sget 0 h.pts i = 0 then 0 else 2 ^ i).sum

/-- Partitions that are not FREE. -/
def State.liveParts (s : State) : List Nat := (s.parts.filter fun e => e.2.state != .free).map (·.1)

def State.runParts (s : State) : List Nat := (s.parts.filter fun e => e.2.state == .run).map (·.1)

/-- The score crosses SECURE_AT upward (R530). -/
def State.healthSecure (s : State) : State :=
  let s := s.event 0x0007 s.health.score s.health.mask s.liveParts
  if s.health.armed then
    let s := s.runParts.foldl (fun s p =>
      let b := s.part p
      if b.sec.en then s.setPart p { b with sec := { b.sec with pending := true } } else s) s
    { s with health := { s.health with armed := false } }
  else s

/-- The score crosses HALT_AT upward (R531): a partition that secures goes to its next boundary, any other stops. -/
def State.healthHalt (s : State) : State :=
  let s := s.event 0x0008 s.health.score s.health.mask s.liveParts
  let s := { s with health := { s.health with halted := true } }
  s.runParts.foldl (fun s p =>
    let b := s.part p
    if b.prog.stopping then s
    else if b.sec.en then s.setPart p { b with halting := true }
    else s.stopWith p fltHealthHalt) s

/-- What the score's levels call for (R530, R531). -/
def State.healthLevels (s : State) (old : Nat) : State :=
  let h := s.health
  let s := if h.score + 32 < h.secureAt then { s with health := { h with armed := true } } else s
  let s := if h.score < h.secureAt then { s with health := { s.health with halted := false } } else s
  let s := if old < h.secureAt ∧ h.secureAt ≤ h.score then s.healthSecure else s
  if old < h.haltAt ∧ h.haltAt ≤ h.score then s.healthHalt else s

/-! ### Ceilings (R603 to R607) -/

/-- PWR_CAP moves by the period's average power against P_LIM. -/
def Health.powerStep (h : Health) (powerMilliwatts vinMillivolts : Nat) : Health :=
  let lim := min (1000 * h.pwrLimit) (85 * vinMillivolts)
  if lim < powerMilliwatts then { h with pwrCap := max 800 (h.pwrCap - 100) }
  else if 100 * powerMilliwatts < 95 * lim then { h with pwrCap := min 2200 (h.pwrCap + 25) }
  else h

/-- THERM_CAP of a die moves by its hottest plausible reading; a step down is counted. -/
def State.thermStep (s : State) (d : Nat) : State :=
  let old := s.thermCap d
  let new := match s.plausible (List.range' (16 * d) 16) with
    | [] => 800
    | t :: ts =>
      let hot := ts.foldl max t
      if 1050 ≤ hot then max 800 (old - 100) else if 1000 < hot then old else min 2200 (old + 25)
  let s := { s with health := { s.health with thermCap := sput 2200 s.health.thermCap d new } }
  if new < old then s.healthCount 0x424 1 else s

/-- HEALTH_PERIOD (R529 to R531, R591, R603, R604, R606, R607). -/
def execHealthPeriod (r : Readings) (s : State) : Host.Outcome State Fault Refusal :=
  let old := s.health.score
  let s := (s.sample r).scorePeriod
  let s := { s with health := s.health.powerStep r.powerMilliwatts r.vinMillivolts }
  let s := ((List.range 4).foldl (fun s d => s.thermStep d) s).applyFreqs
  .next (s.healthLevels old)

/-- OVERCURRENT_FAST (R605): above 88 A. -/
def execOvercurrentFast (amps : Nat) (s : State) : Host.Outcome State Fault Refusal :=
  if amps ≤ 88 then .next s
  else .next (({ s with health := { s.health with pwrCap := min s.health.pwrCap 1400 } }.healthCount 0x420 1).applyFreqs)

/-! ### Droop (R589) and lean mode (R548 to R550) -/

/-- RAIL_DROOP (R589): one event for each crossing, once re-armed. -/
def execRailDroop (k : Nat) (s : State) : Host.Outcome State Fault Refusal :=
  let x := s.core k
  if x.island.droopArmed then
    let s := (s.setCore k { x with island := { x.island with droopArmed := false } }).healthCount 0x218 1
    .next { s with health := { s.health with periodDroop := s.health.periodDroop + 1 } }
  else .next s

/-- DROOP_REARM (R589). -/
def execDroopRearm (k : Nat) (s : State) : Host.Outcome State Fault Refusal :=
  let x := s.core k
  .next (s.setCore k { x with island := { x.island with droopArmed := true } })

/-- The second timing error of a window (R549): the stream, when the split has it in use (R112), stalls 8 cycles, and the offset in force falls by
10 mV. -/
def State.leanRaise (s : State) (k stream : Nat) : State :=
  let x := s.core k
  let x := (if stream < streamsOf x.sheaf.split then x.count (0x228 + 16 * stream) 8 else x).count 0x1608 8
  let i := x.island
  if i.offset = 0 then s.setCore k x
  else (s.setCore k { x with island := { i with offset := i.offset - 1, raises := i.raises + 1 } }).event 0x0009 (coordOf k) (i.offset - 1) []

/-- LEAN_TIMING_ERROR (R548, R549): a replay, counted; from the second error of a window on also a stall, and at a second one a raise. -/
def execLeanTimingError (k stream : Nat) (sameWindow : Bool) (s : State) : Host.Outcome State Fault Refusal :=
  let x := (s.core k).count 0x1604 1
  let n := if sameWindow then x.island.replays + 1 else 1
  let s := s.setCore k { x with island := { x.island with replays := n } }
  let s := { s with health := { s.health with periodReplay := s.health.periodReplay + 1 } }
  .next (if sameWindow then s.leanRaise k stream else s)

/-- LEAN_CALM (R550): the offset moves 10 mV toward the request. -/
def execLeanCalm (k : Nat) (s : State) : Host.Outcome State Fault Refusal :=
  let x := s.core k
  .next (s.setCore k { x with island := { x.island with offset := min (s.leanReqOf k) (x.island.offset + 1) } })

end Sys2Proof.Machine
end

