-- ==== Sys2Proof/Machine/Kv.lean ====
section
/-! DEFINITION. Key-value appends: DMA.KVAPP and Winnow's part in it (03, R68 to R71; 06, R174 to R176; 11, R348, R349; 13, R402, R410 to R419),
and the start of a unit's next instruction (R287). -/

namespace Sys2Proof.Machine

/-- An append descriptor (R348). -/
structure KvDesc where
  src : Nat
  bf16 : Bool
  headroom : Nat
  kv : Nat
  session : Nat
  layer : Nat
  head : Nat
  dm32 : Nat
  t0 : Nat
  nt : Nat
  trk : Option Nat
  done : Option Nat
  reserved : Bool
deriving DecidableEq, Repr

def readKv (v : Nat) : KvDesc :=
  { src := bits v 0 22, bf16 := bit v 22
    headroom := match bits v 23 2 with
      | 0 => 2 | 1 => 1 | 2 => 4 | _ => 8
    kv := bits v 25 1, session := bits v 32 18, layer := bits v 64 16, head := bits v 80 8, dm32 := bits v 88 4
    t0 := bits v 96 32, nt := bits v 128 16, trk := if bit v 166 then some (bits v 160 6) else none
    done := if bit v 223 then some (bits v 192 17) else none
    reserved := bits v 26 6 != 0 || bits v 50 14 != 0 || bits v 92 4 != 0 || bits v 144 16 != 0 || bits v 167 25 != 0
      || bits v 209 14 != 0 || bits v 224 32 != 0 }

/-! ### Winnow adds a subpage (R402, R412) -/

/-- The lowest free subpage address of a partition's arena. -/
def PartBlock.freeSubpage (b : PartBlock) : Option Nat :=
  match b.arena with
  | none => none
  | some (base, pages) => (firstFrom (fun i => (b.mem.unitAt (base + 65536 * i)).isNone) (32 * pages) 0).map fun i => base + 65536 * i

/-- MEM_QUOTA leaves room for one more subpage (R402, R489). -/
def PartBlock.roomForSubpage (b : PartBlock) : Bool :=
  decide ({ b with mem := { b.mem with units := (0, { sub := true }) :: b.mem.units } : PartBlock }.memUse ≤ b.grant.memQuota)

/-- Subpage `u` of a cache added: mapped zero-filled, its page-list entry written, and held for the session; none where Winnow refuses: no free
subpage, no quota, or no storage (R402). -/
def State.addSubpage (s : State) (p n cache u : Nat) : Option (State × Nat) :=
  let x := s.sessOf n
  match (s.part p).freeSubpage with
  | none => none
  | some va =>
    if (s.part p).roomForSubpage then
      (s.mapUnit p va true x.die).map fun t =>
        let a := x.entryAt cache u
        let tag := u * 256 % 65536
        let m := ((t.mem p).fill (a + 0x40) (List.replicate 128 0)).fill (a + 8) (leBytes 8 (u % 2 ^ 32) ++ leBytes 8 (tag + tag * 65536))
        let t := t.setMem p (m.fill a (leBytes 8 (va + 2 ^ 63)))
        let t := t.setPart p ((t.part p).count 0x102C 1)
        (t.setSess n { x with held := x.held ++ [{ cache := cache, u := u, va := va }] }, va)
    else none

/-- The subpage that an append's positions in `u` use (R414, R415). -/
def State.resolve (s : State) (p n cache u : Nat) : Except FaultCode (State × Nat) :=
  let x := s.sessOf n
  if x.state = .free ∨ x.part ≠ p then .error fltSessUnknown
  else
    let a := x.entryAt cache u
    match s.check p true a 16 with
    | some (f, _) => .error f.code
    | none =>
      let v := readNat (s.mem p).bytes a 16
      if bit v 63 then (if bits v 64 32 = u % 2 ^ 32 then .ok (s, bits v 0 48) else .error fltKvNospace)
      else match s.addSubpage p n cache u with
        | some r => .ok r
        | none => .error fltKvNospace

/-! ### Scales of a run (R174 to R176) -/

/-- The least BF16 value not below a positive one: an infinity above the largest finite value. -/
def bf16Least (n d : Nat) : Nat :=
  let c := bf16Up n d
  match elemValue 12 c with
  | .num _ a b => if a * d < n * b then c + 1 else c
  | _ => c

/-- The largest magnitude among the finite values, as a fraction. -/
def finiteMax (xs : List FV) : Nat × Nat :=
  xs.foldl (fun (a, b) x => match x with
    | .num _ n d => if a * d < n * b then (n, d) else (a, b)
    | _ => (a, b)) (0, 1)

/-! ### The append -/

/-- An append in progress. -/
structure KvRun where
  by' : DmaBy
  d : KvDesc
  fmt : Nat
  /-- Source rows: one list of D values for each token. -/
  rows : List (List FV)
deriving DecidableEq, Repr

/-- The tokens `lo` to `hi - 1`, rows of one run of 64 of their subpage, written into the subpage at `va` whose page-list entry is at `ea` (R71, R175,
R176). Where T is no multiple of 32 the last block row ends past the 64 KiB of the subpage, and the last run's entries may lie past entry byte 0xBF; they
are written there (DESIGN CHOICE, log 49). -/
def Run.kvRun (r : Run) (C : KvRun) (va ea tokens lo hi : Nat) : Run :=
  let d := C.d
  let b := fmtWidth C.fmt
  let row0 := lo % tokens
  let sa := ea + 0x40 + row0 / 64 * d.dm32 * 2
  let xs := (C.rows.drop (lo - d.t0)).take (hi - lo)
  let (r, bs) := r.get C.by' sa (2 * d.dm32)
  let raw := fun j => leNat ((bs.drop (2 * j)).take 2)
  let (a, q) := finiteMax xs.flatten
  let h := if (row0 + (hi - lo)) % 64 = 0 then 1 else d.headroom
  let fresh := raw 0 == 0
  let code := bf16Least (a * h) (q * qmaxOf C.fmt)
  let r := if fresh && a != 0 then r.put C.by' sa ((List.range d.dm32).flatMap fun _ => leBytes 2 code) else r
  let scale := fun c => if fresh then (if a = 0 then FV.ofInt 1 else elemValue 12 code) else elemValue 12 (raw (c / 32))
  ((List.range xs.length).zip xs).foldl (fun r (u, x) =>
    if r.stop.isSome then r
    else
      let cells := ((List.range x.length).zip x).map fun (c, v) =>
        (v, scale c, if fresh && a == 0 && v.isFinite then ({ code := 0 } : Conv) else convert C.fmt v (scale c) 0 false)
      let r := { r with s := r.s.convEffects C.by'.k C.by'.bind (cells.map (·.2.2)) }
      let row := row0 + u
      let r := (List.range d.dm32).foldl (fun r j => (List.range b).foldl (fun r p =>
        r.put C.by' (va + row / 32 * (d.dm32 * b * 128) + j * b * 128 + 128 * p + 4 * (row % 32))
          (leBytes 4 (rowWord b p (((cells.drop (32 * j)).take 32).map (·.2.2.code))))) r) r
      if r.stop.isSome then r
      else { r with s := r.s.observe C.by'.k d.trk (((List.range cells.length).zip cells).map fun (c, v, sc, cv) => obsOf C.fmt c v sc 0 cv) }) r

/-- The positions of one subpage: resolved, then each run of 64 of its rows in turn (R69). -/
def Run.kvSubpage (r : Run) (C : KvRun) (p cache tokens u : Nat) : Run :=
  let d := C.d
  if r.stop.isSome then r
  else match r.s.resolve p d.session cache u with
    | .error f => { r with stop := some f }
    | .ok (s, va) =>
      let ea := (s.sessOf d.session).entryAt cache u
      let lo := max d.t0 (u * tokens)
      let hi := min (d.t0 + d.nt) (u * tokens + tokens)
      let first := u * tokens
      (List.range' ((lo - first) / 64) ((hi - 1 - first) / 64 - (lo - first) / 64 + 1)).foldl (fun r g =>
        r.kvRun C va ea tokens (max lo (first + 64 * g)) (min hi (first + 64 * g + 64))) { r with s := s }

/-- Why DMA.KVAPP is refused at issue (R349, R416). -/
def kvRefusal (d : KvDesc) (p fmt : Nat) (x : Sess) : Option FaultCode :=
  let here := x.state != .free && x.part == p
  let side := if d.kv = 0 then x.fmtK else x.fmtV
  if (fmt != 3 && fmt != 8) || (here && kvBits side != fmtWidth fmt) then some fltFmtRole
  else if d.reserved || d.dm32 == 0 || decide (8 < d.dm32) || !here || decide (x.layers ≤ d.layer) || decide (x.heads ≤ d.head)
    || d.dm32 != x.dm32 || decide (0x300000 < d.src + d.nt * (32 * d.dm32) * (if d.bf16 then 2 else 4)) then some fltArgRange
  else none

/-- The source rows of an append (R348). -/
def kvRows (m : Sparse Byte) (d : KvDesc) : List (List FV) :=
  let eb := if d.bf16 then 2 else 4
  (List.range d.nt).map fun t => (List.range (32 * d.dm32)).map fun c =>
    elemValue (if d.bf16 then 12 else 14) (readNat m (d.src + (t * (32 * d.dm32) + c) * eb) eb)

/-- The append of NT tokens, subpage by subpage (R71, R349). -/
def State.kvAppend (s : State) (k ctx : Nat) (bind : Option (Nat × Nat)) (d : KvDesc) (fmt p : Nat) (x : Sess) : Run :=
  let C : KvRun := { by' := { k := k, ctx := ctx, bind := bind, targets := [k] }, d := d, fmt := fmt, rows := kvRows (s.core k).scratch d }
  let tokens := subTokens d.dm32 (if d.kv = 0 then x.fmtK else x.fmtV)
  (List.range' (d.t0 / tokens) ((d.t0 + d.nt - 1) / tokens - d.t0 / tokens + 1)).foldl
    (fun r u => r.kvSubpage C p (x.cache d.layer d.head d.kv) tokens u) ({ s := s } : Run)

/-- An append runs, when the engine starts it: the tokens are written, HIGH follows (R419), and the item fails where the append stops. A session that
has become FREE, or another partition's, stops it before its first token (R416; log 49). -/
def State.runKv (s : State) (k : Nat) (o : InFlight) (j : KvJob) : State :=
  let d := readKv j.desc.toNat
  let p := (s.partOf k).getD 0
  let r := if j.gone then { s := s, stop := some fltSessUnknown } else s.kvAppend k o.ctx o.bind d j.fmt p (s.sessOf d.session)
  let e := r.s.sessOf d.session
  let u := if j.gone = true ∨ e.state = .free ∨ e.part ≠ p then r.s else r.s.setSess d.session { e with high := max e.high (d.t0 + d.nt) }
  let u := u.modOp k o.id fun x => { x with job := .kv { j with done := true }, faulted := x.faulted || r.stop.isSome }
  (match r.stop with
  | some f => u.faultAt k o.ctx o.bind f
  | none => u).startFarOf k o

/-- DMA.KVAPP at issue. -/
def dmaKvappIssue (k c : Nat) (w : W64) (s : State) : Issued :=
  let y := s.ctx k c
  let va := addrOf y w
  if badAddr va 32 32 then .refuse fltArgRange
  else match s.readNatAt k va 32 with
    | .error f => .go (((s.launch k c .dma 0 [] [] .plain).faultAt k c y.bind f.code).faultLast k)
    | .ok v =>
      let d := readKv v
      let p := (s.partOf k).getD 0
      let x := s.sessOf d.session
      match kvRefusal d p (fFmt w) x with
      | some f => .refuse f
      | none =>
        let s := s.touchAt k va 32
        .go (s.launch k c .dma 0 d.done.toList [] (if d.nt = 0 then .empty else .kv { desc := BitVec.ofNat 256 v, fmt := fFmt w }))

/-- DMA_KVAPP (R348, R349). -/
def execDmaKvapp (k c : Nat) (w : W64) (s : State) : Host.Outcome State Fault Refusal :=
  issue k c w (spells w 0x13 0) (unitIssue s k .dma (dmaKvappIssue k c w s)) s

/-! ### Starting -/

/-- UNIT_START (R287): the head of a unit's queue starts; a key-value append runs. An instruction that completes at once leaves its stream's counts (R79). -/
def execUnitStart (k : Nat) (u : UnitId) (s : State) : Host.Outcome State Fault Refusal :=
  let x := s.core k
  match beforeFirst (fun o => o.unit == u && !o.started) x.ops with
  | none => .next s
  | some (earlier, o) =>
    if earlier.any (blocksStart o) then .next s
    else
      let x := x.modOp o.id fun o => { o with started := true }
      match o.job with
      | .tile j => .next (s.startTile k o j)
      | .fab j => .next ((s.startFab k o j).getD s)
      | .kv j => .next ((s.setCore k x).runKv k o j)
      | .scatter =>
        match o.unit with
        | .stream st => .next (s.setCore k { x with cnt := sput 0 (sput 0 x.cnt (0x220 + 0x10 * st) 0) (0x224 + 0x10 * st) 0 })
        | _ => .next (s.setCore k x)
      | _ => .next (s.setCore k x)

end Sys2Proof.Machine
end

