-- ==== Sys2Proof/Machine/Startup.lean ====
section
/-! DEFINITION. Start-up, resets and guarded inputs (19, R575 to R593, R597; 15, R439, R450; 18, R555, R572). -/

namespace Sys2Proof.Machine

/-! ### What a reset clears (R585 to R587) -/

/-- Only the flash, the fuses, the on-die monotonic counter, LOCKED (R555) and what lies outside the module keep their content; counters restart at 0. -/
def State.cleared (s : State) : State :=
  { pending := s.pending, fuses := s.fuses, husk := { mono := s.husk.mono, locked := s.husk.locked }, hostMem := s.hostMem, remoteMem := s.remoteMem, out := s.out
    freeCtr := s.freeCtr
    flash := { s.flash with slots := s.flash.slots.map fun (e : Nat × KeySlot) => (e.1, { e.2 with cntFail := 0, streak := 0 }) } }

/-- Steps 1 to 3 of R586: issue stops, instructions are abandoned, and every item that has not ended ends. -/
def State.endEverything (s : State) (st : RecStatus) (f : FaultCode) : State :=
  s.liveParts.foldl (fun s p => ((s.part p).cores.foldl (fun s k => s.abandon k) s).endAll p st f) s

/-- The module is powered: EN accepted, and not held off by its always-on rails. -/
def State.powered (s : State) : Bool := s.boot.en && !s.boot.heldOff

/-- Powered down, with what a power-down keeps. -/
def State.powerDown (s : State) (st : RecStatus) (f : FaultCode) (cut : Bool) : State :=
  let s := s.endEverything st f
  { s.cleared with boot := { en := false, cutOff := cut } }

/-- A module reset (R585, R587): stages 2 to 9, straps not resampled. -/
def State.moduleReset (s : State) : State :=
  let b := s.boot
  let s := s.endEverything .cancelled 0
  { s.cleared with boot := { stage := 2, straps := b.straps, sampled := true, pgOut := b.pgOut } }

/-- STAGE 15 (R577, R580), or, in a boot from a pending bank with any fault but FLT_BOOT_IMAGE, a start from stage 1 with the bank that was active
before (R582). -/
def State.stage15 (s : State) (f : FaultCode) : State :=
  let b := s.boot
  if b.fromPending ∧ f ≠ fltBootImage then
    { s.cleared with time := s.time, flash := s.cleared.flash.emptyBank b.bank
                     boot := { fallback := true, fallbackCode := f, pgOut := b.pgOut, straps := b.straps, sampled := true, partsOut := b.partsOut } }
  else { s with boot := { b with stage := 15, code := f } }

/-- A trip (R585, R586, R593): items end FAILED, and the module goes to STAGE 15. -/
def State.trip (s : State) (f : FaultCode) : State :=
  let b := s.boot
  let s := s.endEverything .failed f
  { s.cleared with time := s.time, boot := b }.stage15 f

/-- Rails other than the always-on and host-port rails are on: not in STAGE 15, and not while the module is off. -/
def State.railsOn (s : State) : Bool := s.powered && s.boot.stage != 15

/-! ### Control signals (R575, R585) -/

/-- EN_CHANGE (R575, R577, R585, R588): a cold start, or a power-down. -/
def execEnChange (level : Bool) (s : State) : Host.Outcome State Fault Refusal :=
  if level = s.boot.en then .next s
  else if level then .next s.cleared
  else .next (s.powerDown .cancelled 0 false)

/-- SYS_RESET (R585). -/
def execSysReset (s : State) : Host.Outcome State Fault Refusal := if s.powered then .next s.moduleReset else .next s

/-- MODULE_RESET (R585, R596): refused in SCRAP. -/
def execModuleReset (i : Nat) (s : State) : Host.Outcome State Fault Refusal :=
  if !s.powered then .next s
  else if s.fuses.lc = .scrap then .next (s.emit (.mgmt i .error))
  else .next (s.emit (.mgmt i .done)).moduleReset

/-- INPUT_GLITCH (R575). -/
def execInputGlitch (_i : GuardedInput) (s : State) : Host.Outcome State Fault Refusal := .next (s.healthCount 0x21C 1)

/-- PERST_RELEASE (R578): from the end of stage 5 on. -/
def execPerstRelease (n : Nat) (s : State) : Host.Outcome State Fault Refusal :=
  .next (if s.boot.pgOut then (s.setPort n { s.port n with released := true }).portBack n else s)

/-! ### Stage 1 (R576) -/

/-- Straps sampled, once in a cold start: one that changed before is taken as 0 and counted. -/
def State.strapStage (s : State) (w : StageWork) : State :=
  if s.boot.sampled then { s with boot := { s.boot with stage := 2 } }
  else
    let n := ((List.range 8).filter fun i => w.strapGlitch.toNat.testBit i).length
    let s := { s with boot := { s.boot with straps := w.straps &&& ~~~w.strapGlitch, sampled := true, stage := 2 } }
    if n = 0 then s else s.healthCount 0x220 n

/-! ### Stage 2 (R555, R572, R581, R597) -/

/-- A sealed store older than the on-die counter locks Husk; a current one unlocks it (R555). -/
def State.checkStore (s : State) : State :=
  if s.flash.gen < s.husk.mono then
    { s with husk := { s.husk with locked := true } }.event 0x0011 s.flash.gen s.husk.mono []
  else { s with husk := { s.husk with locked := false } }

/-- ZEROISING found at reset: steps 2 to 6 of R571 once more (R572), with the record and the event of the LIFECYCLE that the reset cut short (log 32). -/
def State.resumeZeroise (s : State) : State :=
  if s.fuses.zeroising then
    let s := s.zeroise
    let z := s.flash.zeroing
    let s := { s with fuses := { s.fuses with zeroising := false }, flash := { s.flash with zeroing := none } }
    match z with
    | some (n, o, old) => (s.admDone n o .done 0 0).event 0x0013 s.life.code old []
    | none =>
      let (v, s) := s.free
      s.event 0x0013 s.life.code (bits v.toNat 0 3) []
  else s

/-- The device key pair is generated in MAKER_TEST (18, "Loading, rotating and erasing keys"; log 30). -/
def State.makeKeyPair (s : State) : State :=
  if s.life = .makerTest then { s with flash := { s.flash with keyPair := true } } else s

/-- A bank that verifies (R581): its image's digest and signature, and its SVN. -/
def State.bankOk (s : State) (b : Bool) : Bool :=
  match s.flash.bank b with
  | some image => s.imageSigned image && decide (s.fuses.svnMin ≤ Config.imageSvn image)
  | none => false

/-- The bank booted. -/
def State.bootBank (s : State) (b : Bool) : State :=
  { s with boot := { s.boot with bank := b, image := (s.flash.bank b).getD [], fromPending := s.flash.pending == some b } }

/-- The bank choice of R581, and whether a bank passes. A pending bank that fails is marked empty whatever the others do. -/
def State.chooseBank (s : State) : State × Bool :=
  let safe := s.boot.straps.toNat.testBit 3
  let rest (s : State) : State × Bool :=
    if s.bankOk s.flash.active then (s.bootBank s.flash.active, true)
    else if s.bankOk (!s.flash.active) then (s.bootBank (!s.flash.active), true)
    else (s, false)
  match s.flash.pending with
  | some b =>
    if safe then rest s
    else if s.bankOk b then (s.bootBank b, true)
    else rest { s with flash := s.flash.emptyBank b, boot := { s.boot with fallback := true, fallbackCode := fltBootImage } }
  | none => rest s

/-- The fields of a fabric record, when it holds (R439, R442, R597). -/
def readFabrec (r : BitVec 128) : Option (Nat × Bool × Nat × Nat × Nat × Nat) :=
  let v := r.toNat
  let id := bits v 0 12
  let kind := bits v 16 2
  let dx := bits v 24 4
  let dy := bits v 28 4
  let dz := bits v 32 4
  let check := bits v 64 64 == leNat ((sha256 (leBytes 5 v)).take 8)
  if check = true ∧ kind < 3 ∧ id % 16 ≤ dx ∧ id / 16 % 16 ≤ dy ∧ id / 256 ≤ dz ∧
      (match kind with
        | 0 => decide (1 ≤ dx) && dy == 0 && dz == 0
        | 1 => decide (1 ≤ dx) && decide (1 ≤ dy) && dz == 0
        | _ => decide (1 ≤ dx) && decide (1 ≤ dy) && decide (1 ≤ dz)) = true
  then some (id, bit v 12, kind, dx, dy, dz) else none

/-- FAB_ID and FAB_TOPO loaded, or a ring with DX = 1 (R597). -/
def State.loadFabrec (s : State) : State :=
  match s.flash.fabrec.bind readFabrec with
  | some (id, standby, kind, dx, dy, dz) =>
    { s with fabric := { s.fabric with id := id, standby := standby, kind := kind, dxm1 := dx, dym1 := dy, dzm1 := dz } }
  | none =>
    { s with boot := { s.boot with fabricOff := true }
             fabric := { s.fabric with id := 0, standby := false, kind := 0, dxm1 := 0, dym1 := 0, dzm1 := 0 } }

/-- Stage 2 (R555, R572, R581, R512, R597). -/
def State.romStage (s : State) : State :=
  let s := s.checkStore.resumeZeroise.makeKeyPair
  match s.chooseBank with
  | (s, false) => s.stage15 fltBootImage
  | (s, true) =>
    let s := { s with frames := { s.frames with retired := s.flash.repair.frames } }.loadFabrec
    { s with boot := { s.boot with stage := 3 } }

/-! ### Stage 6 (R583) -/

/-- Memory parts that fail training are left out, and recorded; every HBM stack of a die failing is FLT_MEMTRAIN. -/
def State.memStage (s : State) (w : StageWork) : State :=
  let r := s.flash.repair
  let new := w.badParts.eraseDups.filter fun p => !r.parts.contains p
  let all := r.parts ++ new
  let s := { s with flash := { s.flash with repair := { r with parts := all } }
                    boot := { s.boot with partsOut := s.boot.partsOut ++ new, degraded := all != [] } }
  if (List.range 4).any fun d => (List.range 6).all fun i => all.contains (Tier.H, d, i) then s.stage15 fltMemtrain
  else { s with boot := { s.boot with stage := 7 } }

/-! ### Stage 7 (R111, R512, R515, R516, R584) -/

/-- Physical cores (die × 256 + position) fused out or retired. -/
def State.badCores (s : State) : List Nat := s.fuses.cores ++ s.flash.repair.cores

/-- A row that fails the self-test is spliced and recorded, or its core is retired when the array has two splices (R511, R584). -/
def State.testRow (s : State) (r : Nat × Nat × Nat) : State :=
  let rows := s.storedRows (r.1 / 256) (r.1 % 256) r.2.1
  if rows.contains r.2.2 || s.badCores.contains r.1 then s
  else if 2 ≤ rows.length then s.retirePosition (r.1 / 256) (r.1 % 256)
  else
    let p := s.flash.repair
    { s with flash := { s.flash with repair := { p with rows := p.rows ++ [r] } } }

/-- A core that fails the self-test is retired (R584). -/
def State.testCore (s : State) (c : Nat) : State :=
  if s.badCores.contains c then s else s.retirePosition (c / 256) (c % 256)

/-- The splices of an alias's core (R111, R512). -/
def State.loadSplices (s : State) (k : Nat) : State :=
  let rows := s.splicesAt (k / 128) (s.position k)
  if rows = [] then s
  else
    let x := s.core k
    s.setCore k { x with sheaf := { x.sheaf with splices := rows } }

/-- A coordinate whose own core is out takes the next spare of its die, or is left failed (R515, R524, R584). -/
def State.fillAlias (s : State) (k : Nat) : State :=
  if s.badCores.contains (k / 128 * 256 + k % 128) then
    (s.takeSpare k 0).getD (s.setCore k { s.core k with failed := true })
  else s

/-- The pools, the alias table and the splices, from fuses and the repair store (R512, R515, R516). -/
def State.loadCores (s : State) : State :=
  let bad := s.badCores
  let s := { s with aliasMap := [], spares := (List.range 4).foldl (fun m d =>
    sput (List.range' 128 8) m d ((List.range' 128 8).filter fun p => !bad.contains (d * 256 + p))) [] }
  let s := (List.range 512).foldl (fun s k => s.fillAlias k) s
  (List.range 512).foldl (fun s k => s.loadSplices k) s

/-- Stage 7 (R584). -/
def State.testStage (s : State) (w : StageWork) : State :=
  if w.linkFail then s.stage15 fltSelftest
  else
    let s := w.badRows.foldl (fun s r => s.testRow r) s
    let s := (w.badCores.foldl (fun s c => s.testCore c) s).loadCores
    { s with boot := { s.boot with stage := 8 } }

/-! ### Stage 8 and READY (R439, R450, R579, R582, R583, R621) -/

/-- One step of the dimension-order route in a dimension of `d` modules, from coordinate `a` toward `b`: the positive way when it is no longer. -/
def ringHop (d a b dir : Nat) : Nat :=
  if 2 * ((b + d - a) % d) ≤ d then dir + (if a + 1 = d then 8 else 0) else dir + 1 + (if a = 0 then 8 else 0)

/-- The entry of a module for a destination (R442, R449, R450); an ID outside the torus has none and is dropped (log 34). -/
def Fabric.routeOf (f : Fabric) (dst : Nat) : Nat :=
  let x := dst % 16
  let y := dst / 16 % 16
  let z := dst / 256
  let id := f.id
  if f.dxm1 < x ∨ f.dym1 < y ∨ f.dzm1 < z then 7
  else if x ≠ id % 16 then ringHop (f.dxm1 + 1) (id % 16) x 1
  else if y ≠ id / 16 % 16 then ringHop (f.dym1 + 1) (id / 16 % 16) y 3
  else if z ≠ id / 256 then ringHop (f.dzm1 + 1) (id / 256) z 5
  else 0

/-- Ports of the dimensions larger than 1 (R438, R439). -/
def Fabric.portsInUse (f : Fabric) : List Nat :=
  (List.range 12).filter fun n =>
    let d := portDir n
    if d ≤ 2 then f.dxm1 != 0 else if d ≤ 4 then f.dym1 != 0 else f.dzm1 != 0

/-- The route table and the ports after their training: one in use that is not up trains on. -/
def State.fabricStage (s : State) (up : List Nat) : State :=
  let f := s.fabric
  let f := { f with
    route := ((List.range 4096).map fun n => (n, f.routeOf n)).filter fun e => e.2 != 0
    ports := f.portsInUse.foldl (fun m n => sput 0 m n (if up.contains n then 1 else 2)) [] }
  { s with fabric := f }

/-- STAGE becomes 9 (R579, R582): BOOT_MS is written, a pending bank that was booted becomes active, and what start-up found is reported. -/
def State.becomeReady (s : State) : State :=
  let b := s.boot
  let flash := if b.fromPending then { s.flash with active := b.bank, pending := none } else s.flash
  let s := { s with flash := flash, boot := { b with stage := 9, bootMs := bits (s.time / 1000000) 0 32, fromPending := false, partsOut := [] } }
  let n := flash.repair.parts.length
  let s := b.partsOut.foldl (fun s p =>
    s.event 0x000C ((if p.1 = .L then 2 ^ 31 else 0) + bits p.2.1 0 2 * 2 ^ 8 + bits p.2.2 0 6) n []) s
  if b.fallback then s.event 0x0014 (boolNat b.bank) b.fallbackCode.toNat [] else s

/-- STAGE_COMPLETE (R576, R577, R578, R579, R581 to R584, R597). -/
def execStageComplete (w : StageWork) (s : State) : Host.Outcome State Fault Refusal :=
  let go (n : Nat) (s : State) : State := { s with boot := { s.boot with stage := n } }
  if !s.powered then .next s
  else match s.boot.stage with
  | 1 => .next (s.strapStage w)
  | 2 => .next s.romStage
  | 3 => .next (go 4 s)
  | 4 => .next (go 5 s)
  | 5 => .next (go 6 { s with boot := { s.boot with pgOut := true } })
  | 6 => .next (s.memStage w)
  | 7 => .next (s.testStage w)
  | 8 => .next (s.fabricStage w.portsUp).becomeReady
  | _ => .next s

/-- STAGE_TIMEOUT (R577, R580): the stage in progress fails or overruns its limit. After stage 1 nothing answers; in stage 8 the ports train on and
READY follows. -/
def execStageTimeout (s : State) : Host.Outcome State Fault Refusal :=
  if !s.powered then .next s
  else match s.boot.stage with
  | 1 => .next { s with boot := { s.boot with heldOff := true } }
  | 2 => .next (s.checkStore.stage15 fltBootImage)
  | 3 => .next (s.stage15 fltRailFail)
  | 4 => .next (s.stage15 fltPllLock)
  | 5 => .next (s.stage15 fltRailFail)
  | 6 => .next (s.stage15 fltMemtrain)
  | 7 => .next (s.stage15 fltSelftest)
  | 8 => .next (s.fabricStage []).becomeReady
  | _ => .next s

/-! ### Power, rails, clocks and temperature (R588, R590, R593, R605) -/

/-- POWER_FAILURE (R572, R585, R586, R588): the 54 V input below its window, or above it and then disconnected. It may cut short the zeroisation of
a LIFECYCLE, which the next reset repeats. -/
def execPowerFailure (x : PowerCut) (s : State) : Host.Outcome State Fault Refusal :=
  if s.powered then
    let s := match x.amid with
      | some (n, e) => s.zeroisingCut n e
      | none => s
    .next (s.powerDown .failed fltPowerLoss x.above)
  else .next s

/-- OVERCURRENT_TRIP (R605): above 95 A. -/
def execOvercurrentTrip (amps : Nat) (s : State) : Host.Outcome State Fault Refusal :=
  if s.powered ∧ 95 < amps then .next (s.powerDown .failed fltPowerLoss false) else .next s

/-- RAIL_FAULT (R588). -/
def execRailFault (s : State) : Host.Outcome State Fault Refusal := if s.railsOn then .next (s.trip fltRailFail) else .next s

/-- AON_RAIL_FAULT (R588): held off until EN is cycled; nothing is left to write records. -/
def execAonRailFault (s : State) : Host.Outcome State Fault Refusal :=
  if s.boot.en then .next { s.cleared with boot := { heldOff := true } } else .next s

/-- PLL_REFCLK_MISSING (R590): the PLLs hold their frequency. -/
def execPllRefclkMissing (s : State) : Host.Outcome State Fault Refusal := .next { s with boot := { s.boot with refHeld := true } }

/-- PLL_REFCLK_RETURN (R590). -/
def execPllRefclkReturn (s : State) : Host.Outcome State Fault Refusal := .next { s with boot := { s.boot with refHeld := false } }

/-- REFCLK_LOSS (R590): still missing after 1 ms. -/
def execRefclkLoss (s : State) : Host.Outcome State Fault Refusal :=
  if s.railsOn ∧ s.boot.refHeld = true then .next (s.trip fltRefclkLoss) else .next s

/-- HOST_REFCLK_LOSS (R473, R590). -/
def execHostRefclkLoss (n : Nat) (s : State) : Host.Outcome State Fault Refusal := .next (s.portDown n false)

/-- THERMAL_TRIP (R593): of a plausible die temperature sensor, at 115 °C or above. -/
def execThermalTrip (die sensor : Nat) (celsius : Int) (s : State) : Host.Outcome State Fault Refusal :=
  if s.railsOn ∧ sensor < 16 ∧ (s.sensor (16 * die + sensor)).bad = false ∧ 115 ≤ celsius then .next (s.trip fltThermalTrip) else .next s

end Sys2Proof.Machine
end

