-- ==== Sys2Proof/Machine/Mgmt.lean ====
section
/-! DEFINITION. Management: MCTP, PLDM, the vendor messages, SPDM and the test port (18, R565 to R568, R572; 19, R594 to R596). -/

namespace Sys2Proof.Machine

/-- The answer of an interface, from STAGE 1 onward (R596). -/
def State.answer (s : State) (i : Nat) (r : Reply) : State := if s.powered then s.emit (.mgmt i r) else s

/-! ### MCTP (R594) -/

/-- The endpoint ID that a Set Endpoint ID request sets (PRESUMED, log 36). -/
def requestedEid (request : List Byte) : Option Byte :=
  match request with
  | _ :: 1 :: op :: eid :: _ => if op.toNat % 4 < 2 ∧ eid ≠ 0 ∧ eid ≠ 255 then some eid else none
  | _ => none

/-- MCTP_CONTROL (R594): a packet with a bad PEC is discarded and counted, whatever message it carries. -/
def execMctpControl (i : Nat) (x : MctpRequest) (s : State) : Host.Outcome State Fault Refusal :=
  let request := x.bytes
  if !s.powered then .next s
  else if !x.pecOk then .next (s.healthCount 0x224 1)
  else
    let s := match requestedEid request with
      | some e => { s with mgmt := { s.mgmt with eid := sput 0 s.mgmt.eid i e } }
      | none => s
    .next (s.answer i (.standard request))

/-- MCTP_PACKET_TIMEOUT (R594): the message is discarded, and each packet of it that had come is counted. -/
def execMctpPacketTimeout (x : MctpCut) (s : State) : Host.Outcome State Fault Refusal := .next (s.healthCount 0x224 x.packets)

/-- I2C_BUS_RESET (R594). -/
def execI2cBusReset (_i : Nat) (s : State) : Host.Outcome State Fault Refusal := .next (s.healthCount 0x224 1)

/-! ### PLDM (R595, R622) -/

/-- SET_EVENT_RECEIVER (R595). -/
def execSetEventReceiver (i : Nat) (eid : Byte) (s : State) : Host.Outcome State Fault Refusal :=
  if s.powered then .next ({ s with mgmt := { s.mgmt with receiver := some (i, eid) } }.answer i .done) else .next s

/-- ALERT_N is low while an event waits (R595). -/
def State.alert (s : State) : Bool := !s.events.isEmpty

/-- The event class of the module's platform events (R622). -/
def eventClass : Byte := 0xF0#8

/-- PLATFORM_EVENT_MESSAGE (R595, R622): the oldest event goes to the receiver. -/
def execPlatformEventMessage (s : State) : Host.Outcome State Fault Refusal :=
  match s.events, s.mgmt.receiver with
  | e :: rest, some (i, eid) => .next ({ s with events := rest }.emit (.event i eid eventClass e))
  | _, _ => .next s

/-- A numeric sensor: 0 to 76 as `State.sensorBad` numbers them, 77 HEALTH_SCORE, 78 to 87 the points of inputs 0 to 9 (log 35). -/
def State.pldmReading (s : State) (n : Nat) : Reply :=
  if n < 77 then .reading (if (s.sensor n).bad then none else (s.sensor n).last)
  else if n = 77 then .reading (some (Int.ofNat s.health.score))
  else if n < 88 then .reading (some (Int.ofNat (sget 0 s.health.pts (n - 78))))
  else .error

/-- PLDM_SENSOR_READ (R595). -/
def execPldmSensorRead (i n : Nat) (s : State) : Host.Outcome State Fault Refusal := .next (s.answer i (s.pldmReading n))

/-- PLDM_BASE_REQUEST (R595). -/
def execPldmBaseRequest (i : Nat) (request : List Byte) (s : State) : Host.Outcome State Fault Refusal :=
  .next (s.answer i (.standard request))

/-! ### Vendor messages (R596) -/

/-- FABREC_WRITE (R596): in PROVISION and FIELD_DIAG; it takes effect at the next cold start or module reset. -/
def execFabrecWrite (i : Nat) (record : BitVec 128) (s : State) : Host.Outcome State Fault Refusal :=
  if !s.powered then .next s
  else if s.life = .provision ∨ s.life = .fieldDiag then
    .next ({ s with flash := { s.flash with fabrec := some record } }.answer i .done)
  else .next (s.answer i .error)

/-- The whole recovery image checked under R564 and written into bank A, which becomes active. -/
def State.recoverImage (s : State) (i : Nat) (image : List Byte) (flashOk : Bool) : State :=
  let s := { s with mgmt := { s.mgmt with recover := [] } }
  if s.imageSigned image = false ∨ Config.imageSvn image < s.fuses.svnMin then s.answer i .error
  else if !flashOk then { s with flash := s.flash.emptyBank false }.answer i .error
  else
    let f := s.flash.emptyBank false
    { s with flash := { f with bankA := some image, active := false } }.answer i .done

/-- FW_RECOVER (R564, R596): in STAGE 15 with FLT_BOOT_IMAGE. -/
def execFwRecover (i : Nat) (chunk : List Byte) (last flashOk : Bool) (s : State) : Host.Outcome State Fault Refusal :=
  if !s.powered then .next s
  else if s.boot.stage ≠ 15 ∨ s.boot.code ≠ fltBootImage then .next (s.answer i .error)
  else
    let image := s.mgmt.recover ++ chunk
    if last then .next (s.recoverImage i image flashOk)
    else .next ({ s with mgmt := { s.mgmt with recover := image } }.answer i .done)

/-! ### SPDM (R565, R566, R572) -/

/-- An answer of the SPDM responder, which in SCRAP answers only GET_VERSION (R572). -/
def State.spdm (s : State) (i : Nat) (r : Reply) : State := if s.fuses.lc = .scrap then s else s.answer i r

/-- A signature of the device key: each draws its own nonce. -/
def State.sign (s : State) (msg : List Byte) : List Byte × State :=
  (Config.deviceSign (leBytes 8 s.freeCtr ++ msg), { s with freeCtr := s.freeCtr + 1 })

/-- GET_VERSION (R565, R572). -/
def execGetVersion (i : Nat) (s : State) : Host.Outcome State Fault Refusal := .next (s.answer i (.versions [0x12, 0x13]))

/-- GET_CAPABILITIES (R565). -/
def execGetCapabilities (i : Nat) (s : State) : Host.Outcome State Fault Refusal := .next (s.spdm i .capabilities)

/-- NEGOTIATE_ALGORITHMS (R565): ECDSA P-384 and SHA-384, each selected when offered. -/
def execNegotiateAlgorithms (i : Nat) (p384 sha384 : Bool) (s : State) : Host.Outcome State Fault Refusal :=
  .next (s.spdm i (.algorithms p384 sha384))

/-- GET_DIGESTS (R565): of the one chain, in slot 0. -/
def execGetDigests (i : Nat) (s : State) : Host.Outcome State Fault Refusal := .next (s.spdm i (.digests 1 (sha384 Config.certificateChain)))

/-- GET_CERTIFICATE (R565). -/
def execGetCertificate (i slot offset len : Nat) (s : State) : Host.Outcome State Fault Refusal :=
  let chain := Config.certificateChain
  if slot ≠ 0 ∨ chain.length < offset then .next (s.spdm i .invalidRequest)
  else
    let part := (chain.drop offset).take len
    .next (s.spdm i (.certificate part (chain.length - offset - part.length)))

/-- CHALLENGE (R565). -/
def execChallenge (i slot : Nat) (nonce : BitVec 256) (s : State) : Host.Outcome State Fault Refusal :=
  if slot ≠ 0 then .next (s.spdm i .invalidRequest)
  else
    let (sig, t) := s.sign (leBytes 32 nonce.toNat)
    .next (t.spdm i (.challengeAuth sig))

/-- Measurement block `n` of R566. -/
def State.measure (s : State) (n : Nat) : List Byte :=
  match n with
  | 1 => sha384 Config.bootRom
  | 2 => sha384 s.boot.image
  | 3 => sha384 (Config.measureBytes 3 [s.svn, s.fuses.svnMin])
  | 4 => sha384 (Config.measureBytes 4 [s.life.code, s.husk.debug, boolNat s.fuses.diagDisable])
  | 5 => sha384 (Config.measureBytes 5 ((List.range 16).flatMap fun i =>
      [(s.slotUse i).code, s.slotRoles i, boolNat (s.slot i).portEn, (s.slot i).port]))
  | _ => match s.flash.pending.bind s.flash.bank with
    | some image => sha384 image
    | none => List.replicate 48 0

/-- GET_MEASUREMENTS (R566): index 0 asks how many there are, 0xFF for all of them. -/
def execGetMeasurements (i index : Nat) (sign : Bool) (nonce : BitVec 256) (s : State) : Host.Outcome State Fault Refusal :=
  if 6 < index ∧ index ≠ 0xFF then .next (s.spdm i .invalidRequest)
  else
    let is := if index = 0 then [] else if index = 0xFF then List.range' 1 6 else [index]
    let blocks := is.map fun n => (n, s.measure n)
    if sign then
      let (sig, t) := s.sign (leBytes 32 nonce.toNat ++ blocks.flatMap (·.2))
      .next (t.spdm i (.measurements blocks 6 (some sig)))
    else .next (s.spdm i (.measurements blocks 6 none))

/-- UNSUPPORTED_REQUEST (R565). -/
def execUnsupportedRequest (i : Nat) (_code : Byte) (s : State) : Host.Outcome State Fault Refusal := .next (s.spdm i .unsupportedRequest)

/-! ### The test port (R568) -/

/-- Whether the lifecycle state and the debug level allow a test instruction. -/
def State.testAllowed (s : State) (op : TestOp) : Bool :=
  let level1 := (s.life == .fieldDiag && s.husk.debug == 1) || ((s.life == .makerTest || s.life == .returned) && s.husk.debug == 2)
  let level2 := (s.life == .makerTest || s.life == .returned) && s.husk.debug == 2
  match op with
  | .bypass => true
  | .idcode => true
  | .mandatory => s.life != .scrap
  | .readCoreReg _ _ => level1
  | .writeCoreReg _ _ _ => level1
  | .readScratch _ _ => level1
  | .writeScratch _ _ _ => level1
  | .readMemory _ _ => level1
  | .writeMemory _ _ _ => level1
  | .readFrame _ _ _ => level1
  | .writeFrame _ _ _ _ => level1
  | .readSensors => level1
  | .writeSensor _ _ => level1
  | .scanChain _ => level2
  | .memoryRepair _ _ _ => level2
  | .fuseRead => level2

/-- The instruction in force: BYPASS where the one selected is allowed no longer. -/
def State.testOp (s : State) : TestOp := if s.testAllowed s.mgmt.testIr then s.mgmt.testIr else .bypass

/-- A byte of partition memory in Tier H or Tier L. -/
def State.testMemory (s : State) (p va : Nat) : Option Byte :=
  match (s.mem p).unitAt va with
  | some (_, u) => if u.tier = .F then none else some (sget 0 (s.mem p).bytes va)
  | none => none

/-- The byte at an offset of a frame of Tier H or Tier L: that of the page which lies there, by its partition and address. -/
def State.frameByte (s : State) (t : Tier) (frame off : Nat) : Option (Nat × Nat) :=
  if t = .F ∨ 2097152 ≤ off then none
  else s.parts.findSome? fun e => (e.2.mem.units.find? fun x => x.2.tier == t && x.2.frame == frame && !x.2.sub).map fun x => (e.1, x.1 + off)

/-- What an allowed test instruction does. The bytes of a frame that holds no page are free values, and nothing reads what is written there (log 59). -/
def State.runTest (s : State) (op : TestOp) : State :=
  match op with
  | .readCoreReg k off => match s.coreRead k 0 off with
    | some (v, t) => t.emit (.read (BitVec.ofNat 32 v))
    | none => s.emit (.read 0)
  | .writeCoreReg k off v => s.setCore k ((s.core k).regWrite off v)
  | .readScratch k a => s.emit (.data [if a < 0x300000 then some (sget 0 (s.core k).scratch a) else none])
  | .writeScratch k a v => if a < 0x300000 then s.setCore k { s.core k with scratch := sput 0 (s.core k).scratch a v } else s
  | .readMemory p va => s.emit (.data [s.testMemory p va])
  | .writeMemory p va v =>
    if (s.testMemory p va).isSome then s.setMem p { s.mem p with bytes := sput 0 (s.mem p).bytes va v } else s
  | .readFrame t n off => match s.frameByte t n off with
    | some (p, va) => s.emit (.data [some (sget 0 (s.mem p).bytes va)])
    | none =>
      let (v, s) := s.free
      s.emit (.data [some (BitVec.ofNat 8 v.toNat)])
  | .writeFrame t n off v => match s.frameByte t n off with
    | some (p, va) => s.setMem p { s.mem p with bytes := sput 0 (s.mem p).bytes va v }
    | none => s
  | .readSensors => s.emit (.sensors ((List.range 77).map fun i => (s.sensor i).last))
  | .writeSensor i v =>
    if i < 77 then { s with health := { s.health with sensors := sput {} s.health.sensors i { s.sensor i with last := some v } } } else s
  | .scanChain k => s.emit (.latches (s.core k).sheaf.active (s.core k).sheaf.shadow)
  | .memoryRepair t d i =>
    let r := s.flash.repair
    if t = .F ∨ 4 ≤ d ∨ tierParts t ≤ i ∨ r.parts.contains (t, d, i) = true then s
    else { s with flash := { s.flash with repair := { r with parts := r.parts ++ [(t, d, i)] } } }
  | .fuseRead => s.emit (.fuses s.fuses)
  | op => s.emit (.scan op)

/-- TEST_PORT_ACCESS (R568): an instruction outside the access in force selects BYPASS. -/
def execTestPortAccess (op : TestOp) (s : State) : Host.Outcome State Fault Refusal :=
  if s.testAllowed op then .next ({ s with mgmt := { s.mgmt with testIr := op } }.runTest op)
  else .next { s with mgmt := { s.mgmt with testIr := .bypass } }

/-- TRST_N (R568): the test port is reset. -/
def execTrstN (s : State) : Host.Outcome State Fault Refusal := .next { s with mgmt := { s.mgmt with testIr := .idcode } }

end Sys2Proof.Machine
end

