-- ==== Sys2Proof/Machine/Stream.lean ====
section
/-! DEFINITION. Host copies and inbound host streams (16, R490, R501 to R503). -/

namespace Sys2Proof.Machine

/-! ### Host copies -/

def hcopyBody : List (Nat × Nat × Nat) := [(0x08, 0, 1), (0x10, 0, 64), (0x18, 0, 48), (0x20, 0, 32)]

/-- How far a host copy gets and why it stops: at the first address of partition memory that fails, or at the byte where the host access
fails, whichever comes first (R490). -/
def State.hcopyStop (s : State) (p : Nat) (isRead : Bool) (va n : Nat) (host : Option Nat) : Nat × Option FaultCode :=
  let hostStop := match host with
    | some h => if h < n then some h else none
    | none => none
  match s.check p isRead va n, hostStop with
  | none, none => (n, none)
  | none, some h => (h, some fltHostTimeout)
  | some (f, a), none => (a - va, some f.code)
  | some (f, a), some h => if h < a - va ∨ (h = a - va ∧ isRead = false) then (h, some fltHostTimeout) else (a - va, some f.code)

/-- How a command ends inside which something may befall the memory of its partition. -/
def CmdRes.mended (p : Nat) (mem : MemErr) : CmdRes → CmdRes
  | .done t r => .done (t.mend p mem) r
  | .fail t f => .fail (t.mend p mem) f
  | x => x

/-- HCOPY (R490, R527). `host` is the byte at which a host access fails; `mem` a memory error that the copy meets. -/
def execHcopy (p : Nat) (e : Entry) (host : Option Nat) (mem : MemErr) (s : State) : Host.Outcome State Fault Refusal :=
  partCmd p 0x07 e hcopyBody s fun _ t =>
    let ha := eBits e 0x10 0 64
    let va := eBits e 0x18 0 48
    let n := eBits e 0x20 0 32
    if ha % 4 ≠ 0 ∨ va % 4 ≠ 0 ∨ n % 4 ≠ 0 ∨ n = 0 ∨ va < 0x400000 then .fail t fltArgRange
    else
      let t := t.strike p mem
      let port := (t.part p).port
      let toHost := eBits e 0x08 0 1 = 1
      let (k, f) := t.hcopyStop p (decide toHost) va n host
      let t := if toHost then
          (t.setHostMem port (writeBytes (t.hostMemOf port) ha (readBytes (t.mem p).bytes va k))).setMem p ((t.mem p).touch va k)
        else t.setMem p ((t.mem p).store va (readBytes (t.hostMemOf port) ha k))
      let t := t.startFarOwn p
      (match f with
      | none => CmdRes.done t 0
      | some c => .fail t c).mended p mem

/-! ### Inbound streams -/

def PartBlock.stream (b : PartBlock) (i : Nat) : InStream := sget {} b.streams i
def PartBlock.setStream (b : PartBlock) (i : Nat) (x : InStream) : PartBlock := { b with streams := sput {} b.streams i x }

/-- A burst in progress is discarded (R503): nothing is signalled, the offset goes back, its item fails, CNT_STREAM_GAP counts it. -/
def State.discardBurst (s : State) (p i : Nat) : State :=
  let x := (s.part p).stream i
  match x.burst with
  | none => s
  | some start =>
    let s := s.setPart p (((s.part p).setStream i { x with burst := none, item := none, offset := start }).count 0x74 1)
    match x.item with
    | some (r, j) => if s.itemOpen r j then s.failItem r j fltStreamGap else s
    | none => s

def streamCfgBody : List (Nat × Nat × Nat) := [(0x08, 0, 4), (0x10, 0, 48), (0x18, 0, 32), (0x1C, 0, 17), (0x20, 0, 24)]

/-- STREAM_CFG (R501). -/
def execStreamCfg (p : Nat) (e : Entry) (s : State) : Host.Outcome State Fault Refusal :=
  partCmd p 0x08 e streamCfgBody s fun _ t =>
    let i := eBits e 0x08 0 4
    let dst := eBits e 0x10 0 48
    let db := eBits e 0x18 0 32
    let obj := eBits e 0x1C 0 17
    let gap := eBits e 0x20 0 24
    if dst % 64 ≠ 0 ∨ db % 64 ≠ 0 ∨ db = 0 ∨ (gap ≠ 0 ∧ (gap < 10 ∨ 10000000 < gap)) ∨ (t.part p).hasObj obj = false then .fail t fltArgRange
    else
      let t := t.discardBurst p i
      .done (t.setPart p ((t.part p).setStream i
        { configured := true, dst := dst, dbytes := db, obj := obj, gapUs := if gap = 0 then 1000 else gap })) 0

/-- The item a FIRST chunk binds its burst to (R501): the oldest request in flight with the TAG whose item has not ended. -/
def State.burstItem (s : State) (p : Nat) (tag : W32) (item : Nat) : Option (Nat × Nat) :=
  (s.reqs.find? fun x => x.2.part == p && x.2.tag == tag && s.itemOpen x.1 item).map fun x => (x.1, item)

def chunkBody : List (Nat × Nat × Nat) :=
  [(0x08, 0, 6), (0x0C, 0, 32), (0x10, 0, 64), (0x18, 0, 32), (0x1C, 0, 32), (0x20, 0, 32)]

/-- A kept chunk's bytes reach their destination and the offset moves; a LAST chunk signals OBJ and ends the burst (R502). -/
def keepChunk (p i : Nat) (bs : List Byte) (seq : W32) (last : Bool) (t : State) : CmdRes :=
  let x := (t.part p).stream i
  let a := x.dst + x.offset
  match t.check p false a bs.length with
  | some (f, _) => .fail t f.code
  | none =>
    let t := (t.setMem p ((t.mem p).store a bs)).startFarOwn p
    let x := { x with offset := (x.offset + bs.length) % x.dbytes, expected := some (seq + 1),
                      burst := if last then none else x.burst, item := if last then none else x.item }
    let t := t.setPart p ((t.part p).setStream i x)
    .done (if last then t.signal x.obj 1 else t) 0

/-- CHUNK (R501 to R503). -/
def execChunk (p : Nat) (e : Entry) (hostOk : Bool) (s : State) : Host.Outcome State Fault Refusal :=
  partCmd p 0x09 e chunkBody s fun _ t =>
    let i := eBits e 0x08 0 4
    let first := eBits e 0x08 4 1 = 1
    let last := eBits e 0x08 5 1 = 1
    let seq := BitVec.ofNat 32 (eBits e 0x0C 0 32)
    let ha := eBits e 0x10 0 64
    let n := eBits e 0x18 0 32
    let b := t.part p
    let x := b.stream i
    if x.configured = false ∨ x.dbytes < n ∨ n = 0 ∨ n % 4 ≠ 0 ∨ ha % 4 ≠ 0 then .fail t fltArgRange
    else if !hostOk then .fail t fltHostTimeout
    else
      let bs := readBytes (t.hostMemOf b.port) ha n
      if first then
        let t := t.discardBurst p i
        let x := (t.part p).stream i
        let x := { x with burst := some x.offset, item := t.burstItem p (BitVec.ofNat 32 (eBits e 0x1C 0 32)) (eBits e 0x20 0 32) }
        keepChunk p i bs seq (decide last) (t.setPart p ((t.part p).setStream i x))
      else match x.burst, x.expected with
      | some _, some ex =>
        if seq = ex then keepChunk p i bs seq (decide last) t
        else
          let t := if ex.ult seq then t.discardBurst p i else t
          .done (t.setPart p ((t.part p).count 0x70 1)) 1
      | _, _ => .done (t.setPart p (b.count 0x70 1)) 1

/-- STREAM_GAP_EXPIRY (R503). -/
def execStreamGapExpiry (p i : Nat) (s : State) : Host.Outcome State Fault Refusal := .next (s.discardBurst p i)

end Sys2Proof.Machine
end

