-- ==== Sys2Proof/Machine/Dispatch.lean ====
section
/-! DEFINITION. One arm for each command. -/

namespace Sys2Proof.Machine

/-- The effect of a command on everything but the queue. -/
def exec (i : Instr) (s : State) : Host.Outcome State Fault Refusal :=
  match i with
  | .sclAdd core ctx w => Sys2Proof.Machine.execSclAdd core ctx w s
  | .sclSub core ctx w => Sys2Proof.Machine.execSclSub core ctx w s
  | .sclAnd core ctx w => Sys2Proof.Machine.execSclAnd core ctx w s
  | .sclOr core ctx w => Sys2Proof.Machine.execSclOr core ctx w s
  | .sclXor core ctx w => Sys2Proof.Machine.execSclXor core ctx w s
  | .sclShl core ctx w => Sys2Proof.Machine.execSclShl core ctx w s
  | .sclShr core ctx w => Sys2Proof.Machine.execSclShr core ctx w s
  | .sclSra core ctx w => Sys2Proof.Machine.execSclSra core ctx w s
  | .sclMin core ctx w => Sys2Proof.Machine.execSclMin core ctx w s
  | .sclMax core ctx w => Sys2Proof.Machine.execSclMax core ctx w s
  | .sclMinu core ctx w => Sys2Proof.Machine.execSclMinu core ctx w s
  | .sclMaxu core ctx w => Sys2Proof.Machine.execSclMaxu core ctx w s
  | .sclSubi core ctx w => Sys2Proof.Machine.execSclSubi core ctx w s
  | .sclAndi core ctx w => Sys2Proof.Machine.execSclAndi core ctx w s
  | .sclOri core ctx w => Sys2Proof.Machine.execSclOri core ctx w s
  | .sclXori core ctx w => Sys2Proof.Machine.execSclXori core ctx w s
  | .sclShli core ctx w => Sys2Proof.Machine.execSclShli core ctx w s
  | .sclShri core ctx w => Sys2Proof.Machine.execSclShri core ctx w s
  | .sclSrai core ctx w => Sys2Proof.Machine.execSclSrai core ctx w s
  | .sclMini core ctx w => Sys2Proof.Machine.execSclMini core ctx w s
  | .sclMaxi core ctx w => Sys2Proof.Machine.execSclMaxi core ctx w s
  | .sclMinui core ctx w => Sys2Proof.Machine.execSclMinui core ctx w s
  | .sclMaxui core ctx w => Sys2Proof.Machine.execSclMaxui core ctx w s
  | .sclMul core ctx w => Sys2Proof.Machine.execSclMul core ctx w s
  | .sclCmp core ctx w => Sys2Proof.Machine.execSclCmp core ctx w s
  | .sclLih core ctx w => Sys2Proof.Machine.execSclLih core ctx w s
  | .sclLd core ctx w => Sys2Proof.Machine.execSclLd core ctx w s
  | .sclLdw core ctx w => Sys2Proof.Machine.execSclLdw core ctx w s
  | .sclSt core ctx w => Sys2Proof.Machine.execSclSt core ctx w s
  | .sclStw core ctx w => Sys2Proof.Machine.execSclStw core ctx w s
  | .sclBr core ctx w => Sys2Proof.Machine.execSclBr core ctx w s
  | .sclJr core ctx w => Sys2Proof.Machine.execSclJr core ctx w s
  | .sclTld core ctx w => Sys2Proof.Machine.execSclTld core ctx w s
  | .sclCsrr core ctx w => Sys2Proof.Machine.execSclCsrr core ctx w s
  | .sclCsrw core ctx w => Sys2Proof.Machine.execSclCsrw core ctx w s
  | .sclFence core ctx w => Sys2Proof.Machine.execSclFence core ctx w s
  | .sclHalt core ctx w => Sys2Proof.Machine.execSclHalt core ctx w s
  | .sclIflush core ctx w => Sys2Proof.Machine.execSclIflush core ctx w s
  | .dmaCopy core ctx w mem => Sys2Proof.Machine.execDmaCopy core ctx w mem s
  | .dmaLin core ctx w mem => Sys2Proof.Machine.execDmaLin core ctx w mem s
  | .dmaList core ctx w => Sys2Proof.Machine.execDmaList core ctx w s
  | .dmaKvapp core ctx w => Sys2Proof.Machine.execDmaKvapp core ctx w s
  | .arrStream core ctx w parity => Sys2Proof.Machine.execArrStream core ctx w parity s
  | .arrCam core ctx w => Sys2Proof.Machine.execArrCam core ctx w s
  | .epiLoad core ctx w => Sys2Proof.Machine.execEpiLoad core ctx w s
  | .epiSzero core ctx w => Sys2Proof.Machine.execEpiSzero core ctx w s
  | .epiSdrain core ctx w => Sys2Proof.Machine.execEpiSdrain core ctx w s
  | .vecAdd core ctx w => Sys2Proof.Machine.execVecAdd core ctx w s
  | .vecSub core ctx w => Sys2Proof.Machine.execVecSub core ctx w s
  | .vecMul core ctx w => Sys2Proof.Machine.execVecMul core ctx w s
  | .vecMin core ctx w => Sys2Proof.Machine.execVecMin core ctx w s
  | .vecMax core ctx w => Sys2Proof.Machine.execVecMax core ctx w s
  | .vecFma core ctx w => Sys2Proof.Machine.execVecFma core ctx w s
  | .vecCmp core ctx w => Sys2Proof.Machine.execVecCmp core ctx w s
  | .vecExp2 core ctx w => Sys2Proof.Machine.execVecExp2 core ctx w s
  | .vecLog2 core ctx w => Sys2Proof.Machine.execVecLog2 core ctx w s
  | .vecRcp core ctx w => Sys2Proof.Machine.execVecRcp core ctx w s
  | .vecRsqrt core ctx w => Sys2Proof.Machine.execVecRsqrt core ctx w s
  | .vecAct core ctx w => Sys2Proof.Machine.execVecAct core ctx w s
  | .vecDact core ctx w => Sys2Proof.Machine.execVecDact core ctx w s
  | .vecRsum core ctx w => Sys2Proof.Machine.execVecRsum core ctx w s
  | .vecRmax core ctx w => Sys2Proof.Machine.execVecRmax core ctx w s
  | .vecLd core ctx w => Sys2Proof.Machine.execVecLd core ctx w s
  | .vecSt core ctx w => Sys2Proof.Machine.execVecSt core ctx w s
  | .vecBcast core ctx w => Sys2Proof.Machine.execVecBcast core ctx w s
  | .vecTload core ctx w => Sys2Proof.Machine.execVecTload core ctx w s
  | .vecSadd core ctx w => Sys2Proof.Machine.execVecSadd core ctx w s
  | .tabStream core ctx w => Sys2Proof.Machine.execTabStream core ctx w s
  | .tabLog core ctx w => Sys2Proof.Machine.execTabLog core ctx w s
  | .quantCfg core ctx w => Sys2Proof.Machine.execQuantCfg core ctx w s
  | .quantStep core ctx w => Sys2Proof.Machine.execQuantStep core ctx w s
  | .quantClr core ctx w => Sys2Proof.Machine.execQuantClr core ctx w s
  | .quantCheck core ctx w => Sys2Proof.Machine.execQuantCheck core ctx w s
  | .quantPropose core ctx w => Sys2Proof.Machine.execQuantPropose core ctx w s
  | .guardSel core ctx w => Sys2Proof.Machine.execGuardSel core ctx w s
  | .guardRun core ctx w => Sys2Proof.Machine.execGuardRun core ctx w s
  | .slotGet core ctx w => Sys2Proof.Machine.execSlotGet core ctx w s
  | .slotPut core ctx w => Sys2Proof.Machine.execSlotPut core ctx w s
  | .slotFill core ctx w => Sys2Proof.Machine.execSlotFill core ctx w s
  | .slotDrain core ctx w => Sys2Proof.Machine.execSlotDrain core ctx w s
  | .syncSignal core ctx w => Sys2Proof.Machine.execSyncSignal core ctx w s
  | .syncWait core ctx w => Sys2Proof.Machine.execSyncWait core ctx w s
  | .syncFadd core ctx w => Sys2Proof.Machine.execSyncFadd core ctx w s
  | .syncCmp core ctx w => Sys2Proof.Machine.execSyncCmp core ctx w s
  | .sessItem core ctx w => Sys2Proof.Machine.execSessItem core ctx w s
  | .sessEnd core ctx w => Sys2Proof.Machine.execSessEnd core ctx w s
  | .sessStep core ctx w => Sys2Proof.Machine.execSessStep core ctx w s
  | .sessNext core ctx w => Sys2Proof.Machine.execSessNext core ctx w s
  | .sessHint core ctx w => Sys2Proof.Machine.execSessHint core ctx w s
  | .fabGet core ctx w => Sys2Proof.Machine.execFabGet core ctx w s
  | .fabPut core ctx w => Sys2Proof.Machine.execFabPut core ctx w s
  | .unitStart core unit => Sys2Proof.Machine.execUnitStart core unit s
  | .accRepeat core id => Sys2Proof.Machine.execAccRepeat core id s
  | .outputWordWrite core id => Sys2Proof.Machine.execOutputWordWrite core id s
  | .tileDone core id => Sys2Proof.Machine.execTileDone core id s
  | .guardedRingUnit core id ring => Sys2Proof.Machine.execGuardedRingUnit core id ring s
  | .scatterAddIssue core bank waited => Sys2Proof.Machine.execScatterAddIssue core bank waited s
  | .narrowPromote core => Sys2Proof.Machine.execNarrowPromote core s
  | .instrComplete core id => Sys2Proof.Machine.execInstrComplete core id s
  | .waitSatisfied obj => Sys2Proof.Machine.execWaitSatisfied obj s
  | .watchdogExpiry core who => Sys2Proof.Machine.execWatchdogExpiry core who s
  | .xiTimeout core id => Sys2Proof.Machine.execXiTimeout core id s
  | .dmaListEntry core id mem => Sys2Proof.Machine.execDmaListEntry core id mem s
  | .stepBoundary part fail => Sys2Proof.Machine.execStepBoundary part fail s
  | .programEnd part => Sys2Proof.Machine.execProgramEnd part s
  | .req part e => Sys2Proof.Machine.execReq part e s
  | .cancel part e => Sys2Proof.Machine.execCancel part e s
  | .start part e fabric => Sys2Proof.Machine.execStart part e fabric s
  | .stop part e => Sys2Proof.Machine.execStop part e s
  | .memMap part e => Sys2Proof.Machine.execMemMap part e s
  | .memUnmap part e => Sys2Proof.Machine.execMemUnmap part e s
  | .hcopy part e host mem => Sys2Proof.Machine.execHcopy part e host mem s
  | .streamCfg part e => Sys2Proof.Machine.execStreamCfg part e s
  | .chunk part e hostOk => Sys2Proof.Machine.execChunk part e hostOk s
  | .cxlWin part e => Sys2Proof.Machine.execCxlWin part e s
  | .kvArena part e => Sys2Proof.Machine.execKvArena part e s
  | .sessOpen part e => Sys2Proof.Machine.execSessOpen part e s
  | .sessClose part e => Sys2Proof.Machine.execSessClose part e s
  | .sessTrim part e => Sys2Proof.Machine.execSessTrim part e s
  | .sessQuery part e hostOk => Sys2Proof.Machine.execSessQuery part e hostOk s
  | .sessionRelease session => Sys2Proof.Machine.execSessionRelease session s
  | .winGrant part e => Sys2Proof.Machine.execWinGrant part e s
  | .winClose part e => Sys2Proof.Machine.execWinClose part e s
  | .winFree part e => Sys2Proof.Machine.execWinFree part e s
  | .spillWinGrant port e backed => Sys2Proof.Machine.execSpillWinGrant port e backed s
  | .spillWinClose port e localRoom => Sys2Proof.Machine.execSpillWinClose port e localRoom s
  | .spillWinFree port e => Sys2Proof.Machine.execSpillWinFree port e s
  | .windowClosed win => Sys2Proof.Machine.execWindowClosed win s
  | .winImport part e => Sys2Proof.Machine.execWinImport part e s
  | .winForget part e => Sys2Proof.Machine.execWinForget part e s
  | .repair part e fabric => Sys2Proof.Machine.execRepair part e fabric s
  | .partCreate port e => Sys2Proof.Machine.execPartCreate port e s
  | .partDestroy port e => Sys2Proof.Machine.execPartDestroy port e s
  | .partReshape port e => Sys2Proof.Machine.execPartReshape port e s
  | .routeLoad port e hostOk => Sys2Proof.Machine.execRouteLoad port e hostOk s
  | .takeover port e => Sys2Proof.Machine.execTakeover port e s
  | .keyLoad port e hostOk => Sys2Proof.Machine.execKeyLoad port e hostOk s
  | .keyRotate port e hostOk => Sys2Proof.Machine.execKeyRotate port e hostOk s
  | .keyErase port e => Sys2Proof.Machine.execKeyErase port e s
  | .fwLoad port e hostOk flashOk => Sys2Proof.Machine.execFwLoad port e hostOk flashOk s
  | .debugSet port e => Sys2Proof.Machine.execDebugSet port e s
  | .lifecycle port e => Sys2Proof.Machine.execLifecycle port e s
  | .fuseProg port e stuck => Sys2Proof.Machine.execFuseProg port e stuck s
  | .authDelayEnd slot => Sys2Proof.Machine.execAuthDelayEnd slot s
  | .ringTailWrite port ring value => Sys2Proof.Machine.execRingTailWrite port ring value s
  | .cplHeadWrite port ring value => Sys2Proof.Machine.execCplHeadWrite port ring value s
  | .ringCtlWrite port ring value => Sys2Proof.Machine.execRingCtlWrite port ring value s
  | .secCfgWrite port part value room => Sys2Proof.Machine.execSecCfgWrite port part value room s
  | .healthLevelWrite iface halt value => Sys2Proof.Machine.execHealthLevelWrite iface halt value s
  | .watchdogWrite core ctx value => Sys2Proof.Machine.execWatchdogWrite core ctx value s
  | .leanReqWrite iface die group value => Sys2Proof.Machine.execLeanReqWrite iface die group value s
  | .freqSet port die group mhz => Sys2Proof.Machine.execFreqSet port die group mhz s
  | .registerWrite who value => Sys2Proof.Machine.execRegisterWrite who value s
  | .rcCounterRead who => Sys2Proof.Machine.execRcCounterRead who s
  | .counterLoRead core ctx timebase dst => Sys2Proof.Machine.execCounterLoRead core ctx timebase dst s
  | .keyLastLoRead who slot => Sys2Proof.Machine.execKeyLastLoRead who slot s
  | .rngOutRead core ctx stream word dst => Sys2Proof.Machine.execRngOutRead core ctx stream word dst s
  | .cxlMemAccess port write offset len data => Sys2Proof.Machine.execCxlMemAccess port write offset len data s
  | .irqModExpiry part => Sys2Proof.Machine.execIrqModExpiry part s
  | .streamGapExpiry part stream => Sys2Proof.Machine.execStreamGapExpiry part stream s
  | .portReset port => Sys2Proof.Machine.execPortReset port s
  | .rdReq pkt mem => Sys2Proof.Machine.execRdReq pkt mem s
  | .rdRsp pkt => Sys2Proof.Machine.execRdRsp pkt s
  | .wr pkt => Sys2Proof.Machine.execWr pkt s
  | .wrAck pkt => Sys2Proof.Machine.execWrAck pkt s
  | .nack pkt => Sys2Proof.Machine.execNack pkt s
  | .probe pkt => Sys2Proof.Machine.execProbe pkt s
  | .probeRsp pkt => Sys2Proof.Machine.execProbeRsp pkt s
  | .packetForward port pkt busy => Sys2Proof.Machine.execPacketForward port pkt busy s
  | .parkRelease dir vc => Sys2Proof.Machine.execParkRelease dir vc s
  | .linkCrcError port => Sys2Proof.Machine.execLinkCrcError port s
  | .linkRetrainEnd port ok => Sys2Proof.Machine.execLinkRetrainEnd port ok s
  | .fabBurstSend tag => Sys2Proof.Machine.execFabBurstSend tag s
  | .fabGapExpiry owner src tag burst => Sys2Proof.Machine.execFabGapExpiry owner src tag burst s
  | .fabRspTimeout tag burst => Sys2Proof.Machine.execFabRspTimeout tag burst s
  | .spillProbeTimeout owner => Sys2Proof.Machine.execSpillProbeTimeout owner s
  | .takeoverProbeTimeout => Sys2Proof.Machine.execTakeoverProbeTimeout s
  | .winnowEpoch => Sys2Proof.Machine.execWinnowEpoch s
  | .unitMoveDone part va tier die frame => Sys2Proof.Machine.execUnitMoveDone part va tier die frame s
  | .spillRecallDone win => Sys2Proof.Machine.execSpillRecallDone win s
  | .pageRetire tier frame fresh => Sys2Proof.Machine.execPageRetire tier frame fresh s
  | .coreFail core cause => Sys2Proof.Machine.execCoreFail core cause s
  | .spliceApply core array row => Sys2Proof.Machine.execSpliceApply core array row s
  | .substitution core => Sys2Proof.Machine.execSubstitution core s
  | .repairWaitTimeout part => Sys2Proof.Machine.execRepairWaitTimeout part s
  | .haltWaitTimeout part => Sys2Proof.Machine.execHaltWaitTimeout part s
  | .healthPeriod r => Sys2Proof.Machine.execHealthPeriod r s
  | .leanTimingError core stream sameWindow => Sys2Proof.Machine.execLeanTimingError core stream sameWindow s
  | .leanCalm core => Sys2Proof.Machine.execLeanCalm core s
  | .enChange level => Sys2Proof.Machine.execEnChange level s
  | .sysReset => Sys2Proof.Machine.execSysReset s
  | .moduleReset iface => Sys2Proof.Machine.execModuleReset iface s
  | .stageComplete work => Sys2Proof.Machine.execStageComplete work s
  | .stageTimeout => Sys2Proof.Machine.execStageTimeout s
  | .powerFailure above => Sys2Proof.Machine.execPowerFailure above s
  | .railFault => Sys2Proof.Machine.execRailFault s
  | .aonRailFault => Sys2Proof.Machine.execAonRailFault s
  | .railDroop core => Sys2Proof.Machine.execRailDroop core s
  | .refclkLoss => Sys2Proof.Machine.execRefclkLoss s
  | .hostRefclkLoss port => Sys2Proof.Machine.execHostRefclkLoss port s
  | .thermalTrip die sensor celsius => Sys2Proof.Machine.execThermalTrip die sensor celsius s
  | .overcurrentFast amps => Sys2Proof.Machine.execOvercurrentFast amps s
  | .overcurrentTrip amps => Sys2Proof.Machine.execOvercurrentTrip amps s
  | .sensorReadTimeout sensor => Sys2Proof.Machine.execSensorReadTimeout sensor s
  | .regRead iface block offset => Sys2Proof.Machine.execRegRead iface block offset s
  | .regWrite iface block offset value => Sys2Proof.Machine.execRegWrite iface block offset value s
  | .fabrecWrite iface record => Sys2Proof.Machine.execFabrecWrite iface record s
  | .fwRecover iface chunk last flashOk => Sys2Proof.Machine.execFwRecover iface chunk last flashOk s
  | .mctpControl iface request => Sys2Proof.Machine.execMctpControl iface request s
  | .mctpPacketTimeout iface => Sys2Proof.Machine.execMctpPacketTimeout iface s
  | .i2cBusReset iface => Sys2Proof.Machine.execI2cBusReset iface s
  | .setEventReceiver iface eid => Sys2Proof.Machine.execSetEventReceiver iface eid s
  | .pldmSensorRead iface sensor => Sys2Proof.Machine.execPldmSensorRead iface sensor s
  | .getVersion iface => Sys2Proof.Machine.execGetVersion iface s
  | .getCapabilities iface => Sys2Proof.Machine.execGetCapabilities iface s
  | .negotiateAlgorithms iface p384 sha384 => Sys2Proof.Machine.execNegotiateAlgorithms iface p384 sha384 s
  | .getDigests iface => Sys2Proof.Machine.execGetDigests iface s
  | .getCertificate iface slot offset len => Sys2Proof.Machine.execGetCertificate iface slot offset len s
  | .challenge iface slot nonce => Sys2Proof.Machine.execChallenge iface slot nonce s
  | .getMeasurements iface index sign nonce => Sys2Proof.Machine.execGetMeasurements iface index sign nonce s
  | .testPortAccess op => Sys2Proof.Machine.execTestPortAccess op s
  | .unlistedCodeEntry ring e => Sys2Proof.Machine.execUnlistedCodeEntry ring e s
  | .ringFetchFail ring => Sys2Proof.Machine.execRingFetchFail ring s
  | .icacheLineFill core ctx poisoned => Sys2Proof.Machine.execIcacheLineFill core ctx poisoned s
  | .perstRelease port => Sys2Proof.Machine.execPerstRelease port s
  | .pllRefclkMissing => Sys2Proof.Machine.execPllRefclkMissing s
  | .pllRefclkReturn => Sys2Proof.Machine.execPllRefclkReturn s
  | .droopRearm core => Sys2Proof.Machine.execDroopRearm core s
  | .inputGlitch input => Sys2Proof.Machine.execInputGlitch input s
  | .trstN => Sys2Proof.Machine.execTrstN s
  | .platformEventMessage => Sys2Proof.Machine.execPlatformEventMessage s
  | .unsupportedRequest iface code => Sys2Proof.Machine.execUnsupportedRequest iface code s
  | .pldmBaseRequest iface request => Sys2Proof.Machine.execPldmBaseRequest iface request s

end Sys2Proof.Machine
end

