-- ==== Sys2Proof/Safety.lean ====
section
/-! DEFINITION. The terms of the claims: what an instruction leaves alone, what the module's memories read as, which states are lawful. -/

namespace Sys2Proof.Machine

/-! ### Instructions of a context -/

/-- Context `c` of core `k` issues the word now, and the word spells the instruction of this OPC and selector (R278, R286). -/
abbrev State.Issues (s : State) (k c : Nat) (w : W64) (opc sel : Nat) : Prop :=
  s.ready k c w = true ∧ wellFormedWord w = true ∧ spells w opc sel = true

/-- Registers of a context that an instruction reads: s[A], s[B]. -/
def State.sA (s : State) (k c : Nat) (w : W64) : W64 := (s.ctx k c).readS (fA w)
def State.sB (s : State) (k c : Nat) (w : W64) : W64 := (s.ctx k c).readS (fB w)

/-- The request table after an instruction of the context has been bound to its item, by a state that has done nothing else (R293). -/
def State.boundReqs (s : State) (k c : Nat) : List (Nat × Request) := (s.bindItem (s.ctx k c).bind).reqs

/-- Core `k` of `t` is that of `s` but for its contexts and the results of instructions in flight, and its contexts are those of `s` but for
context `c`. -/
def SameButContext (s t : State) (k c : Nat) : Prop :=
  t.core k = { s.core k with ctxs := (t.core k).ctxs, ops := (t.core k).ops } ∧ ∀ i, i ≠ c → t.ctx k i = s.ctx k i

/-- Every core but `k` is as before. -/
def SameOtherCores (s t : State) (k : Nat) : Prop := ∀ j, j ≠ k → t.core j = s.core j

/-- An instruction changes nothing outside its context: no memory, no object, no register of another context or core. Its item is marked as
bound (R293). -/
def OnlyContext (s t : State) (k c : Nat) : Prop :=
  t = { s with cores := t.cores, reqs := s.boundReqs k c } ∧ SameOtherCores s t k ∧ SameButContext s t k c

/-- The context goes on at `pc` with its scalar registers as `t` has them, and nothing else of it changes. -/
def OnlyScalars (s t : State) (k c : Nat) (pc : W64) : Prop :=
  t.ctx k c = { s.ctx k c with s := (t.ctx k c).s, pc := pc }

/-- Scalar register `d` of the context holds `v` (s0 holds 0), and every other scalar register what it held (R275). -/
def WritesScalar (s t : State) (k c d : Nat) (v : W64) : Prop :=
  ∀ r, (t.ctx k c).readS r = if r = 0 then 0 else if r = d then v else (s.ctx k c).readS r

/-- The same, where the unit that the instruction goes to has room in its queue (R287). -/
abbrev State.Accepts (s : State) (k c : Nat) (w : W64) (opc sel : Nat) (u : UnitId) : Prop :=
  s.Issues k c w opc sel ∧ (s.core k).queueFull u = false

/-- What issue answers where the instruction's own effect is `X` and the context goes on at the next word: the item bound in `X` (R293), the
transfers of what the instruction has accessed in Tier F begun (R464), the program counter 8 on (R12). -/
def State.afterIssue (s : State) (k c : Nat) (w : W64) (X : State) : Host.Outcome State Fault Refusal :=
  .next ((s.issued k c w X).setPc k c ((s.ctx k c).pc + 8))

/-- What issue answers where the instruction is refused (R316): its item, or its core, takes the fault, and the context moves on. -/
def State.afterRefusal (s : State) (k c : Nat) (f : FaultCode) : Host.Outcome State Fault Refusal :=
  .next ((s.faultAt k c (s.ctx k c).bind f).setPc k c ((s.ctx k c).pc + 8))

/-- The vector registers of the context: lane `l` of `v[d]` holds the entry of `vs`, every other lane what it held (R274). -/
def WritesLanes (s t : State) (k c d : Nat) (vs : List W32) : Prop :=
  ∀ r l, l < 64 → (t.ctx k c).readLane r l = if r = d then vs.getD l 0 else (s.ctx k c).readLane r l

/-- The state in which an instruction of core `k` that meets a memory error of its partition takes effect (R526, R527). -/
def State.struck (s : State) (k : Nat) (m : MemErr) : State :=
  match s.partOf k with
  | some p => s.strike p m
  | none => s

/-! ### Commands of the rings -/

/-- The module fetches this entry from the partition's command ring, and its frame is sound: its CODE, AUTH = 0, no reserved bit set
(R475, R478). -/
abbrev State.Fetches (s : State) (p code : Nat) (e : Entry) (body : List (Nat × Nat × Nat)) : Prop :=
  eCode e = code ∧ s.canFetchCmd p = true ∧ eAuth e = false ∧ entryOk body e = true

/-- A ring command's own effect has led to `X`: its record follows, DONE with a RESULT (R480). -/
def State.cmdIsDone (s : State) (p : Nat) (e : Entry) (X : State) (result : Nat) : Host.Outcome State Fault Refusal :=
  .next (X.cmdDone p (s.cmdOwed p e) .done 0 result)

/-- A ring command fails with a code, in the state `X`. -/
def State.cmdFails (s : State) (p : Nat) (e : Entry) (X : State) (f : FaultCode) : Host.Outcome State Fault Refusal :=
  .next (X.cmdDone p (s.cmdOwed p e) .failed f 0)

/-- Of the whole state only the partitions may differ, and of those only `p`. -/
def OnlyPart (s t : State) (p : Nat) : Prop := t = { s with parts := t.parts } ∧ ∀ q, q ≠ p → t.part q = s.part q

/-- Nothing bars Husk from verifying this critical entry, and it passes the three checks (R557); its frame is sound. -/
abbrev State.Passes (s : State) (r : RingName) (code : Nat) (e : Entry) (body : List (Nat × Nat × Nat)) : Prop :=
  eCode e = code ∧ s.ringOpen r = true ∧ s.setAside r = none ∧ s.critBarred e = none ∧ (s.slot (eSlot e)).streak < 16 ∧ s.slotAllows r e = true ∧
    (s.slot (eSlot e)).last.toNat < eCounter e ∧ eBits e 0x70 0 128 = s.authTag r e ∧ entryOk body e = true

/-- The state in which a verified command takes effect: the slot's LAST is the entry's counter, that write is durable, and the ring's HEAD is past
the entry (R557, R555, R475). -/
def State.husked (s : State) (r : RingName) (e : Entry) : State :=
  ((s.setSlot (eSlot e) { s.slot (eSlot e) with last := BitVec.ofNat 64 (eCounter e), streak := 0 }).durable).takeRing r

/-- A verified command's own effect has led to `X`: its record follows. -/
def State.critIsDone (s : State) (r : RingName) (e : Entry) (X : State) (result : Nat) : Host.Outcome State Fault Refusal :=
  .next (X.ringDone r (s.owedOn r e) .done 0 result)

def State.critFails (s : State) (r : RingName) (e : Entry) (X : State) (f : FaultCode) : Host.Outcome State Fault Refusal :=
  .next (X.ringDone r (s.owedOn r e) .failed f 0)

/-! ### Memory as a core sees it -/

/-- One byte at a partition virtual address, as an instruction of core `k` reads it (R299): its scratchpad below 0x30_0000, the memory of its
partition above. -/
def State.byteAt (s : State) (k a : Nat) : Byte :=
  if a < 0x300000 then sget 0 (s.core k).scratch a
  else match s.partOf k with
    | some p => sget 0 (s.mem p).bytes a
    | none => 0

/-- Bytes outside `n` bytes at `va` read as before, for core `k`. -/
def SameBytesOutside (s t : State) (k va n : Nat) : Prop := ∀ a, (a < va ∨ va + n ≤ a) → t.byteAt k a = s.byteAt k a

/-- Every partition is as before but for the access counts of its placement units (R395) and what is noted of Tier F (R464). -/
def SameParts (s t : State) : Prop :=
  ∀ p, t.part p = { s.part p with mem := { (s.part p).mem with units := (t.part p).mem.units, far := (t.part p).mem.far } }

/-! ### Tier F (R393, R464) -/

/-- No part of an access of core `k` falls into a unit in Tier F. -/
def State.Near (s : State) (k va n : Nat) : Prop :=
  0x300000 ≤ va → ∀ p, s.partOf k = some p → ∀ e ∈ (s.mem p).units, farPart va n false e = none

/-- What the transfers of an access may change beside: the transactions, and of core `k` the list of what is in flight and the turn of its TAGs; and they
change nothing where the access falls into no unit in Tier F. -/
def FarChanges (s t : State) (k va n : Nat) : Prop :=
  t.fabric = { s.fabric with trans := t.fabric.trans } ∧
  (s.Near k va n → t.fabric = s.fabric ∧ (t.core k).nextId = (s.core k).nextId ∧ (t.core k).tagBit = (s.core k).tagBit)

/-! ### Lawful states -/

/-- The registers with a rule on their values hold allowed ones: SECURE_AT is not above HALT_AT (R532), PWR_LIMIT, PWR_CAP, THERM_CAP, FAB_RSP_TO and
PLACE_RATE lie in their ranges (20 and 15, "Registers"; that a PLACE_RATE of 0 is not taken is log 68), and the debug level is one that the lifecycle state
allows (R567). -/
def State.Lawful (s : State) : Prop :=
  s.health.secureAt ≤ s.health.haltAt ∧ (1000 ≤ s.health.pwrLimit ∧ s.health.pwrLimit ≤ 4000) ∧
  (800 ≤ s.health.pwrCap ∧ s.health.pwrCap ≤ 2200) ∧ (∀ d, 800 ≤ s.thermCap d ∧ s.thermCap d ≤ 2200) ∧ (100 ≤ s.fabric.rspUs ∧ s.fabric.rspUs ≤ 10000000) ∧
  (1 ≤ s.fabric.placeRate ∧ s.fabric.placeRate ≤ 1023) ∧
  (s.husk.debug = 0 ∨ (s.husk.debug = 1 ∧ s.life = .fieldDiag) ∨ (s.husk.debug = 2 ∧ (s.life = .makerTest ∨ s.life = .returned)))

/-- Every fuse burned in `a` is burned in `b`: no bit of FW_SVN_MIN, no DIAG_DISABLE, no repair fuse and no digest of the maker key is lost, REFURB
does not fall, DEVICE_ID stands, and SCRAP is the end (R569, R573). -/
def Fuses.Keeps (a b : Fuses) : Prop :=
  b.svn &&& a.svn = a.svn ∧ (a.diagDisable = true → b.diagDisable = true) ∧ a.refurb ≤ b.refurb ∧ (∀ c ∈ a.cores, c ∈ b.cores) ∧
  (∀ r ∈ a.rows, r ∈ b.rows) ∧ (a.makerKey = true → b.makerKey = true) ∧ b.deviceId = a.deviceId ∧ (a.lc = .scrap → b.lc = .scrap)

end Sys2Proof.Machine
end

