-- ==== Sys2Proof/Certificates/Slice0/Obligations.lean ====
section
/-! DEFINITION. The statements for the provers. -/

namespace Sys2Proof.Machine

/-- A row of the scalar arithmetic of R321 and R322: its OPC, its selector, its constructor, and its result from s[A], s[B] and the sign-extended
immediate. -/
structure AluRow where
  opc : Nat
  sel : Nat
  make : Nat → Nat → W64 → Instr
  result : W64 → W64 → W64 → W64

/-- SCL.ADD, SCL.MUL and SCL.LIH (R321); the functions of R322 on two registers (OPC 0x02) and on a register and the immediate (OPC 0x03). -/
def aluRows : List AluRow :=
  [⟨0x01, 0, .sclAdd, fun a b i => a + b + i⟩,
   ⟨0x04, 0, .sclMul, fun a b _ => a * b⟩,
   ⟨0x06, 0, .sclLih, fun a _ i => (i <<< 32) ||| (a &&& 0xFFFFFFFF#64)⟩] ++
  [⟨0x02, 0, .sclSub, fun a b _ => a - b⟩, ⟨0x03, 0, .sclSubi, fun a _ i => a - i⟩,
   ⟨0x02, 1, .sclAnd, fun a b _ => a &&& b⟩, ⟨0x03, 1, .sclAndi, fun a _ i => a &&& i⟩,
   ⟨0x02, 2, .sclOr, fun a b _ => a ||| b⟩, ⟨0x03, 2, .sclOri, fun a _ i => a ||| i⟩,
   ⟨0x02, 3, .sclXor, fun a b _ => a ^^^ b⟩, ⟨0x03, 3, .sclXori, fun a _ i => a ^^^ i⟩] ++
  [⟨0x02, 4, .sclShl, fun a b _ => a <<< (b.toNat % 64)⟩, ⟨0x03, 4, .sclShli, fun a _ i => a <<< (i.toNat % 64)⟩,
   ⟨0x02, 5, .sclShr, fun a b _ => a >>> (b.toNat % 64)⟩, ⟨0x03, 5, .sclShri, fun a _ i => a >>> (i.toNat % 64)⟩,
   ⟨0x02, 6, .sclSra, fun a b _ => a.sshiftRight (b.toNat % 64)⟩, ⟨0x03, 6, .sclSrai, fun a _ i => a.sshiftRight (i.toNat % 64)⟩] ++
  [⟨0x02, 7, .sclMin, fun a b _ => if a.toInt ≤ b.toInt then a else b⟩, ⟨0x03, 7, .sclMini, fun a _ i => if a.toInt ≤ i.toInt then a else i⟩,
   ⟨0x02, 8, .sclMax, fun a b _ => if b.toInt ≤ a.toInt then a else b⟩, ⟨0x03, 8, .sclMaxi, fun a _ i => if i.toInt ≤ a.toInt then a else i⟩,
   ⟨0x02, 9, .sclMinu, fun a b _ => if a.toNat ≤ b.toNat then a else b⟩, ⟨0x03, 9, .sclMinui, fun a _ i => if a.toNat ≤ i.toNat then a else i⟩,
   ⟨0x02, 10, .sclMaxu, fun a b _ => if b.toNat ≤ a.toNat then a else b⟩, ⟨0x03, 10, .sclMaxui, fun a _ i => if i.toNat ≤ a.toNat then a else i⟩]

/-- The conditions of SCL.CMP by code (R323): EQ, NE, LT, GE, LTU, GEU. -/
def cmpMeets (cond : Nat) (a b : W64) : Bool :=
  match cond with
  | 0 => decide (a = b)
  | 1 => decide (a ≠ b)
  | 2 => decide (a.toInt < b.toInt)
  | 3 => decide (b.toInt ≤ a.toInt)
  | 4 => decide (a.toNat < b.toNat)
  | _ => decide (b.toNat ≤ a.toNat)

/-- Word instructions: every constructor that a context issues by its 64-bit word, with any other operands of its command. -/
def wordInstrs (m : MemErr) (ps : List (Nat × Nat × Nat)) : List (Nat → Nat → W64 → Instr) :=
  aluRows.map AluRow.make ++
  [.sclCmp, .sclLd, .sclLdw, .sclSt, .sclStw, .sclBr, .sclJr, .sclTld, .sclCsrr, .sclCsrw, .sclFence, .sclHalt, .sclIflush] ++
  [fun k c w => .dmaCopy k c w m, fun k c w => .dmaLin k c w m, .dmaList, .dmaKvapp, fun k c w => .arrStream k c w ps, .arrCam,
   .epiLoad, .epiSzero, .epiSdrain] ++
  [.vecAdd, .vecSub, .vecMul, .vecMin, .vecMax, .vecFma, .vecCmp, .vecExp2, .vecLog2, .vecRcp, .vecRsqrt, .vecAct, .vecDact, .vecRsum,
   .vecRmax, .vecLd, .vecSt, .vecBcast, .vecTload, .vecSadd] ++
  [.tabStream, .tabLog, .quantCfg, .quantStep, .quantClr, .quantCheck, .quantPropose, .guardSel,
   fun k c w => .guardRun k c { word := w, parity := ps }, .slotGet, .slotPut, .slotFill, .slotDrain] ++
  [.syncSignal, .syncWait, .syncFadd, .syncCmp, .sessItem, .sessEnd, .sessStep, .sessNext, .sessHint, .fabGet, .fabPut]

end Sys2Proof.Machine

open Sys2Proof Sys2Proof.Machine

/-! ### The queue -/


/-- With a command at the front of the queue, a step is that command's effect on the state with the queue's rest. On an empty queue the block
idles: TIMEBASE counts one nanosecond (R307), the streams that are held back stall (R90) for the island cycles that pass, which count toward the latch
swaps they wait for (R81), and nothing else changes; a core of which no stream is held back stands as it was. That a step with nothing to do is the nanosecond is the model's choice (log 8). -/
def Obligations.StepRunsTheFrontCommand : Prop :=
  (∀ (s : State) (i : Instr) (rest : List Instr), step { s with pending := i :: rest } = exec i { s with pending := rest }) ∧
  (∀ s : State, s.pending = [] → ∃ t, step s = .next t ∧ t = { s with time := s.time + 1, cores := t.cores } ∧ ∀ k,
    t.core k = { s.core k with cnt := (t.core k).cnt, ops := (t.core k).ops, sheaf := { (s.core k).sheaf with since := (t.core k).sheaf.since } } ∧
    (t.core k).ops.map (fun o => (o.id, o.ctx, o.unit, o.started)) = (s.core k).ops.map (fun o => (o.id, o.ctx, o.unit, o.started)) ∧
    ((∀ o ∈ (s.core k).ops, (s.core k).stalled o = false) → t.core k = s.core k))

/-! ### Scalar instructions (R321 to R324) -/

/-- Every scalar arithmetic instruction writes its function of s[A], s[B] and the immediate into s[D], moves on to the next word, and changes
nothing else: s0 stays 0, and a result still on its way to s[D] is overtaken. -/
def Obligations.ScalarArithmeticWritesItsFunction : Prop :=
  ∀ row ∈ aluRows, ∀ (k c : Nat) (w : W64) (s : State), s.Issues k c w row.opc row.sel →
    ∃ t, exec (row.make k c w) s = .next t ∧
      WritesScalar s t k c (fD w) (row.result (s.sA k c w) (s.sB k c w) (sextImm w)) ∧
      OnlyScalars s t k c ((s.ctx k c).pc + 8) ∧ OnlyContext s t k c ∧ (t.core k).ops = ((s.core k).dropScalar c (fD w)).ops


/-- SCL.CMP writes whether s[A] and s[B] meet COND into p[D] (p0 stays 1). SCL.BR goes to pc + 8 × sext(IMM) and writes the link pc + 8 into s[D]
when p[A] differs from NEG, and goes to pc + 8 writing nothing when it does not; SCL.JR goes to s[A], as it was before the link, and writes the
link. -/
def Obligations.CompareAndBranches : Prop :=
  (∀ (k c : Nat) (w : W64) (s : State), s.Issues k c w 0x05 0 →
      ∃ t, exec (.sclCmp k c w) s = .next t ∧
        (∀ r, (t.ctx k c).readP r = if r = 0 then true else
          if r = fD w then cmpMeets (fImm w % 8) (s.sA k c w) (s.sB k c w) else (s.ctx k c).readP r) ∧
        t.ctx k c = { s.ctx k c with p := (t.ctx k c).p, pc := (s.ctx k c).pc + 8 } ∧ OnlyContext s t k c ∧
        (t.core k).ops = ((s.core k).dropPred c (fD w)).ops) ∧
  (∀ (k c : Nat) (w : W64) (s : State),
      (s.Issues k c w 0x0B 0 → (s.ctx k c).readP (fA w) ≠ decide (fB w % 2 = 1) →
        ∃ t, exec (.sclBr k c w) s = .next t ∧ WritesScalar s t k c (fD w) ((s.ctx k c).pc + 8) ∧
          OnlyScalars s t k c ((s.ctx k c).pc + 8 * sextImm w) ∧ OnlyContext s t k c ∧ (t.core k).ops = ((s.core k).dropScalar c (fD w)).ops) ∧
      (s.Issues k c w 0x0B 0 → (s.ctx k c).readP (fA w) = decide (fB w % 2 = 1) →
        ∃ t, exec (.sclBr k c w) s = .next t ∧ t.ctx k c = { s.ctx k c with pc := (s.ctx k c).pc + 8 } ∧ OnlyContext s t k c ∧
          (t.core k).ops = (s.core k).ops) ∧
      (s.Issues k c w 0x0C 0 →
        ∃ t, exec (.sclJr k c w) s = .next t ∧ WritesScalar s t k c (fD w) ((s.ctx k c).pc + 8) ∧
          OnlyScalars s t k c (s.sA k c w) ∧ OnlyContext s t k c ∧ (t.core k).ops = ((s.core k).dropScalar c (fD w)).ops))

/-! ### Scalar loads and stores (R299, R300, R320) -/

/-- SCL.LD and SCL.LDW load 8 and 4 bytes, little-endian and zero-extended, from s[A] + sext(IMM), when that address is aligned, names
something, and every byte can be read. They change nothing else but the access count of the page; for a page in Tier F a transfer of Winnow begins
(R464), which is in flight as an instruction of the context (log 67). -/
def Obligations.ScalarLoadsReadLittleEndian : Prop :=
  ∀ row ∈ [((0x07, 8), Instr.sclLd), ((0x08, 4), Instr.sclLdw)], ∀ (k c : Nat) (w : W64) (s : State) (bs : List Byte),
    let va := (s.sA k c w + sextImm w).toNat
    let n := row.1.2
    s.Issues k c w row.1.1 0 → va % n = 0 → reachesHole va n = false → s.readAt k va n = .ok bs →
    ∃ t, exec (row.2 k c w) s = .next t ∧
      WritesScalar s t k c (fD w) (BitVec.ofNat 64 (leNat ((List.range n).map fun i => s.byteAt k (va + i)))) ∧
      OnlyScalars s t k c ((s.ctx k c).pc + 8) ∧
      t = { s with cores := t.cores, reqs := s.boundReqs k c, parts := t.parts, fabric := t.fabric } ∧ FarChanges s t k va n ∧
      SameParts s t ∧ SameOtherCores s t k ∧ (∀ i, i ≠ c → t.ctx k i = s.ctx k i) ∧
      t.core k = { s.core k with ctxs := (t.core k).ctxs, ops := (t.core k).ops, nextId := (t.core k).nextId, tagBit := (t.core k).tagBit } ∧
      (s.Near k va n → (t.core k).ops = ((s.core k).dropScalar c (fD w)).ops)

/-- SCL.ST and SCL.STW store the low 8 and 4 bytes of s[B], little-endian, at s[A] + sext(IMM), when that address is aligned, names something,
and every byte can be written. Every other byte that the core sees reads as before, and no other core, partition or register changes; for a page in
Tier F a transfer of Winnow begins (R464), which is in flight as an instruction of the context (log 67). -/
def Obligations.ScalarStoresWriteLittleEndian : Prop :=
  ∀ row ∈ [((0x09, 8), Instr.sclSt), ((0x0A, 4), Instr.sclStw)], ∀ (k c : Nat) (w : W64) (s : State),
    let va := (s.sA k c w + sextImm w).toNat
    let n := row.1.2
    s.Issues k c w row.1.1 0 → va % n = 0 → reachesHole va n = false → s.writableAt k va n = none →
    ∃ t, exec (row.2 k c w) s = .next t ∧
      (∀ i, i < n → t.byteAt k (va + i) = BitVec.ofNat 8 ((s.sB k c w).toNat / 256 ^ i)) ∧ SameBytesOutside s t k va n ∧
      t.ctx k c = { s.ctx k c with pc := (s.ctx k c).pc + 8 } ∧ (∀ i, i ≠ c → t.ctx k i = s.ctx k i) ∧ SameOtherCores s t k ∧
      t.core k = { s.core k with ctxs := (t.core k).ctxs, scratch := (t.core k).scratch, ops := (t.core k).ops, nextId := (t.core k).nextId,
                                 tagBit := (t.core k).tagBit } ∧
      (s.Near k va n → (t.core k).ops = (s.core k).ops) ∧ (∀ p, some p ≠ s.partOf k → t.part p = s.part p) ∧
      t = { s with cores := t.cores, reqs := t.reqs, parts := t.parts, fabric := t.fabric } ∧ FarChanges s t k va n

/-- A scalar access or SCL.TLD whose address is misaligned or reaches the addresses that name nothing is refused: an open item of the context
takes FLT_ARG_RANGE as its fault unless it has one, its FAILED mark shows, the program counter moves on, and no register, memory byte, slot,
latch, tag, tracker or counter changes. -/
def Obligations.MisalignedScalarAccessIsRefused : Prop :=
  ∀ row ∈ [((0x07, 8), Instr.sclLd), ((0x08, 4), Instr.sclLdw), ((0x09, 8), Instr.sclSt), ((0x0A, 4), Instr.sclStw), ((0x0D, 64), Instr.sclTld)],
    ∀ (k c : Nat) (w : W64) (s : State) (q : Request),
    let va := (s.sA k c w + sextImm w).toNat
    let it := (s.ctx k c).item
    s.Issues k c w row.1.1 0 → (va % row.1.2 ≠ 0 ∨ reachesHole va row.1.2 = true) →
    it.valid = true → s.request it.req = some q → it.item < q.count → (q.item it.item).status = .open →
    ∃ t q', exec (row.2 k c w) s = .next t ∧ t = { s with cores := t.cores, reqs := t.reqs } ∧
      t.request it.req = some q' ∧ (q'.item it.item).fault = (if (q.item it.item).fault = 0 then fltArgRange else (q.item it.item).fault) ∧
      (t.ctx k c) = { s.ctx k c with item := { it with failed := true }, pc := (s.ctx k c).pc + 8 } ∧
      (∀ j i, (j, i) ≠ (k, c) → t.ctx j i = { s.ctx j i with item := { (s.ctx j i).item with failed := (t.ctx j i).item.failed } }) ∧
      (∀ j, t.core j = { s.core j with ctxs := (t.core j).ctxs })

/-! ### Control (R282, R289, R301, R303, R325) -/


/-- SCL.FENCE goes on at once when no instruction in flight of its context is in a class of its mask, and otherwise puts the context in state
WAIT until none is. SCL.HALT puts the context in state HALTED when none of its instructions is in flight, and otherwise in WAIT until none is. -/
def Obligations.FenceAndHaltWaitForEarlierWork : Prop :=
  ∀ (k c : Nat) (w : W64) (s : State),
    let mask := fImm w % 2048
    (s.Issues k c w 0x0F 0 → (∀ o ∈ (s.core k).ops, o.ctx = c → mask.testBit o.cls = false) →
      exec (.sclFence k c w) s = s.afterIssue k c w s) ∧
    (s.Issues k c w 0x0F 0 → (∃ o ∈ (s.core k).ops, o.ctx = c ∧ mask.testBit o.cls = true) →
      exec (.sclFence k c w) s = s.afterIssue k c w
        (s.setCtx k c { s.ctx k c with mode := .wait, wait := some { kind := .fence mask, wdExp := (s.core k).wdExp, bind := (s.ctx k c).bind } })) ∧
    (s.Issues k c w 0x0F 1 → (∀ o ∈ (s.core k).ops, o.ctx ≠ c) →
      exec (.sclHalt k c w) s = s.afterIssue k c w (s.setCtx k c { s.ctx k c with mode := .halted })) ∧
    (s.Issues k c w 0x0F 1 → (∃ o ∈ (s.core k).ops, o.ctx = c) →
      exec (.sclHalt k c w) s = s.afterIssue k c w
        (s.setCtx k c { s.ctx k c with mode := .wait, wait := some { kind := .halt, wdExp := (s.core k).wdExp, bind := (s.ctx k c).bind } }))

/-- SCL.CSRR writes the core register's 32 bits, zero-extended, into s[D]. A read of an RC counter clears it; a read of CNT_CYCLE_LO or
TIMEBASE_LO latches the high half for the reading context; any other read changes nothing but s[D]. SCL.CSRR and SCL.CSRW of an offset that
names no register are refused with FLT_ARG_RANGE. -/
def Obligations.ControlRegisterReads : Prop :=
  ∀ (k c : Nat) (w : W64) (s : State) (v : Nat),
    let off := fImm w % 65536
    (s.Issues k c w 0x0E 0 → off ∉ rcCoreOffsets → off ≠ 0x18 → off ≠ 0x20 → s.coreReg k c off = some v →
      ∃ t, exec (.sclCsrr k c w) s = .next t ∧ WritesScalar s t k c (fD w) (BitVec.ofNat 64 v) ∧
        OnlyScalars s t k c ((s.ctx k c).pc + 8) ∧ OnlyContext s t k c) ∧
    (s.Issues k c w 0x0E 0 → off ∈ rcCoreOffsets →
      ∃ t, exec (.sclCsrr k c w) s = .next t ∧ WritesScalar s t k c (fD w) (BitVec.ofNat 64 (sget 0 (s.core k).cnt off).toNat) ∧
        (∀ i, sget 0 (t.core k).cnt i = if i = off then 0 else sget 0 (s.core k).cnt i) ∧ OnlyScalars s t k c ((s.ctx k c).pc + 8) ∧
        SameOtherCores s t k ∧ (∀ i, i ≠ c → t.ctx k i = s.ctx k i) ∧
        t.core k = { s.core k with ctxs := (t.core k).ctxs, ops := (t.core k).ops, cnt := (t.core k).cnt } ∧
        t = { s with cores := t.cores, reqs := s.boundReqs k c }) ∧
    (s.Issues k c w 0x0E 0 → off = 0x20 →
      ∃ t, exec (.sclCsrr k c w) s = .next t ∧ WritesScalar s t k c (fD w) (BitVec.ofNat 64 (s.time % 2 ^ 32)) ∧
        t.ctx k c = { s.ctx k c with s := (t.ctx k c).s, timeHi := BitVec.ofNat 32 (s.time / 2 ^ 32 % 2 ^ 32), pc := (s.ctx k c).pc + 8 } ∧
        OnlyContext s t k c) ∧
    (s.Issues k c w 0x0E 0 → off = 0x18 →
      ∃ t, exec (.sclCsrr k c w) s = .next t ∧ WritesScalar s t k c (fD w) (BitVec.ofNat 64 ((s.cycles k).toNat % 2 ^ 32)) ∧
        t.ctx k c = { s.ctx k c with s := (t.ctx k c).s, cycleHi := BitVec.ofNat 32 ((s.cycles k).toNat / 2 ^ 32), pc := (s.ctx k c).pc + 8 } ∧
        OnlyContext s t k c) ∧
    (off ∉ rcCoreOffsets → s.coreReg k c off = none →
      (s.Issues k c w 0x0E 0 →
        exec (.sclCsrr k c w) s = s.afterRefusal k c fltArgRange) ∧
      (s.Issues k c w 0x0E 1 →
        exec (.sclCsrw k c w) s = s.afterRefusal k c fltArgRange))

/-- SCL.CSRW writes s[A][31:0] under the register's access code: WD_EXP takes a value of 12 to 30 and ignores any other (R311); ones written to
FMT_FLAGS clear its flags and a 1 written to CORE_FAULT bit 31 clears VALID (R7); MCAST_GRPm takes the value, group 0 without bit 0; a random
stream's KEY, CTR, CPD and BASE take it; a write of a register that only reads changes nothing (R10). -/
def Obligations.ControlRegisterWrites : Prop :=
  ∀ (k c : Nat) (w : W64) (s : State),
    let off := fImm w % 65536
    let v : W32 := (s.sA k c w).truncate 32
    let x := s.core k
    s.Issues k c w 0x0E 1 → (off ∈ rcCoreOffsets ∨ (s.coreReg k c off).isSome = true) →
    ∃ y, exec (.sclCsrw k c w) s = s.afterIssue k c w (s.setCore k y) ∧
      (off = 0x0C → y = { x with wdExp := if 12 ≤ v.toNat % 32 ∧ v.toNat % 32 ≤ 30 then v.toNat % 32 else x.wdExp }) ∧
      (off = 0x10 → y = { x with faultValid := x.faultValid && !v.getLsbD 31 }) ∧
      (off = 0x188 → y = { x with flgInf := x.flgInf && !v.getLsbD 0, flgNan := x.flgNan && !v.getLsbD 1 }) ∧
      (∀ m, m < 8 → off = 0x340 + 4 * m → y = { x with mcast := sput 0 x.mcast m (if m = 0 then v &&& 0xFFFFFFFE#32 else v) }) ∧
      (∀ n, n < 8 →
        (off = 0x1400 + 64 * n → y = x.setRng n { x.rngOf n with key := setHalf (x.rngOf n).key false v }) ∧
        (off = 0x1404 + 64 * n → y = x.setRng n { x.rngOf n with key := setHalf (x.rngOf n).key true v }) ∧
        (off = 0x1408 + 64 * n → y = x.setRng n { x.rngOf n with ctr := setHalf (x.rngOf n).ctr false v }) ∧
        (off = 0x140C + 64 * n → y = x.setRng n { x.rngOf n with ctr := setHalf (x.rngOf n).ctr true v }) ∧
        (off = 0x1410 + 64 * n → y = x.setRng n { x.rngOf n with cpd := v }) ∧
        (off = 0x1414 + 64 * n → y = x.setRng n { x.rngOf n with base := setHalf (x.rngOf n).base false v }) ∧
        (off = 0x1418 + 64 * n → y = x.setRng n { x.rngOf n with base := setHalf (x.rngOf n).base true v })) ∧
      (off ≠ 0x0C → off ≠ 0x10 → off ≠ 0x188 → (off < 0x340 ∨ 0x360 ≤ off) → (off < 0x1400 ∨ 0x1600 ≤ off) → y = x)

/-- An instruction whose context is held (another state than RUN, its word not fetched, its partition not running, a source register awaiting a
result) changes nothing, and its sender sends it again (log 9). Of a ready context, a word that fails R278 (an unassigned OPC, a register field
beyond its file, a field that must be zero, an unassigned selector) puts the context in state FAULT with FLT_ILLEGAL_OP, its program counter left;
but an ARR.STREAM that names LOG4 is refused with FLT_FMT_ROLE before that (R22). -/
def Obligations.HeldAndIllegalWords : Prop :=
  ∀ (m : MemErr) (ps : List (Nat × Nat × Nat)) (k c : Nat) (w : W64) (s : State),
    (∀ mk ∈ wordInstrs m ps,
      (s.ready k c w = false → exec (mk k c w) s = .next s) ∧
      (s.ready k c w = true → wellFormedWord w = false → s.namesLog4 k c w = false →
        ∃ t, exec (mk k c w) s = .next t ∧ t = s.ctxFault k c fltIllegalOp ∧ (t.ctx k c).mode = .fault ∧ (t.ctx k c).pc = (s.ctx k c).pc)) ∧
    (fOpc w ≠ 0x20 → s.namesLog4 k c w = false) ∧
    (s.ready k c w = true → spells w 0x20 0 = true → s.namesLog4 k c w = true → (s.core k).queueFull (.stream (tStream w)) = false →
      exec (.arrStream k c w ps) s = s.afterRefusal k c fltFmtRole)

/-! ### Vector instructions (R265 to R271, R332 to R339) -/

namespace Sys2Proof.Machine

/-- A lane instruction of R332 to R334: its OPC, its selector, its constructor, and lane `l` of its result. -/
structure LaneRow where
  opc : Nat
  sel : Nat
  make : Nat → Nat → W64 → Instr
  result : Core → Ctx → W64 → Nat → W32

/-- Lane `l` of v[A], of the second operand (v[B], or s[B][31:0] with BS = 1), and of v[D]. -/
def laneA (x : Ctx) (w : W64) (l : Nat) : W32 := x.readLane (fA w) l
def laneB (x : Ctx) (w : W64) (l : Nat) : W32 := if bit (fImm w) 3 then (x.readS (fB w)).truncate 32 else x.readLane (fB w) l
def laneD (x : Ctx) (w : W64) (l : Nat) : W32 := x.readLane (fD w) l

/-- The lane instructions: VEC.OP2, VEC.FMA, VEC.CMP (R332); VEC.FN, VEC.ACT, VEC.DACT (R333); VEC.BCAST (R334). -/
def laneRows : List LaneRow :=
  [⟨0x40, 0, .vecAdd, fun _ x w l => toF32 ((f32 (laneA x w l)).add (f32 (laneB x w l)))⟩,
   ⟨0x40, 1, .vecSub, fun _ x w l => toF32 ((f32 (laneA x w l)).add (f32 (laneB x w l)).negate)⟩,
   ⟨0x40, 2, .vecMul, fun _ x w l => toF32 ((f32 (laneA x w l)).mul (f32 (laneB x w l)))⟩,
   ⟨0x40, 3, .vecMin, fun _ x w l =>
      let a := laneA x w l; let b := laneB x w l
      if (f32 a).isNaN ∨ (f32 b).isNaN then nan32 else if belowF b a then b else a⟩,
   ⟨0x40, 4, .vecMax, fun _ x w l =>
      let a := laneA x w l; let b := laneB x w l
      if (f32 a).isNaN ∨ (f32 b).isNaN then nan32 else if belowF a b then b else a⟩] ++
  [⟨0x41, 0, .vecFma, fun _ x w l => toF32 (((f32 (laneA x w l)).mul (f32 (laneB x w l))).add (f32 (laneD x w l)))⟩,
   ⟨0x42, 0, .vecCmp, fun _ x w l =>
      let a := f32 (laneA x w l); let b := f32 (laneB x w l)
      let nan := a.isNaN || b.isNaN
      let truth := match fImm w % 4 with
        | 0 => !nan && !a.lt b && !b.lt a
        | 1 => a.lt b
        | 2 => !nan && !b.lt a
        | _ => nan
      if truth then 0x3F800000#32 else 0⟩] ++
  [⟨0x43, 0, .vecExp2, fun _ x w l => exp2F (laneA x w l)⟩, ⟨0x43, 1, .vecLog2, fun _ x w l => log2F (laneA x w l)⟩,
   ⟨0x43, 2, .vecRcp, fun _ x w l => rcpF (laneA x w l)⟩, ⟨0x43, 3, .vecRsqrt, fun _ x w l => rsqrtF (laneA x w l)⟩,
   ⟨0x44, 0, .vecAct, fun y x w l => y.exact.eval 0 (laneA x w l)⟩,
   ⟨0x45, 0, .vecDact, fun y x w l => mulF (laneA x w l) (y.exact.eval 256 (x.readLane (fB w) l))⟩,
   ⟨0x49, 0, .vecBcast, fun _ x w _ => (x.readS (fA w)).truncate 32⟩]

/-- Lanes combined pairwise, 2u with 2u + 1: one level of the tree of R268. -/
def halve (f : W32 → W32 → W32) (v : Nat → W32) (u : Nat) : W32 := f (v (2 * u)) (v (2 * u + 1))

/-- Six levels of the tree over 64 lanes. -/
def sixLevels (f : W32 → W32 → W32) (v : Nat → W32) : W32 := halve f (halve f (halve f (halve f (halve f (halve f v))))) 0

end Sys2Proof.Machine


/-- Every lane instruction writes its function of the operands' lanes into each of the 64 lanes of v[D], moves on to the next word, and changes
nothing else. It waits at issue behind a VEC.SADD that stalls. VEC.RSUM and VEC.RMAX write their reduction of v[A] in the fixed tree of six
levels into s[D][31:0] and zero into s[D][63:32], and change nothing else. -/
def Obligations.LaneInstructionsAndReductions : Prop :=
  (∀ row ∈ laneRows, ∀ (k c : Nat) (w : W64) (s : State), s.Issues k c w row.opc row.sel →
      ((s.core k).scat.stalled.any (·.src == 4) = true → exec (row.make k c w) s = .next s) ∧
      ((s.core k).scat.stalled.any (·.src == 4) = false →
        ∃ t, exec (row.make k c w) s = .next t ∧
          WritesLanes s t k c (fD w) ((List.range 64).map (row.result (s.core k) (s.ctx k c) w)) ∧
          t.ctx k c = { s.ctx k c with v := (t.ctx k c).v, pc := (s.ctx k c).pc + 8 } ∧ OnlyContext s t k c ∧
          (t.core k).ops = (s.core k).ops)) ∧
  (∀ row ∈ [((0, addF), Instr.vecRsum), ((1, maxF), Instr.vecRmax)], ∀ (k c : Nat) (w : W64) (s : State),
      s.Issues k c w 0x46 row.1.1 → (s.core k).vecStalled = false →
      ∃ t, exec (row.2 k c w) s = .next t ∧
        WritesScalar s t k c (fD w) (BitVec.ofNat 64 (sixLevels row.1.2 ((s.ctx k c).readLane (fA w))).toNat) ∧
        OnlyScalars s t k c ((s.ctx k c).pc + 8) ∧ OnlyContext s t k c)


namespace Sys2Proof.Machine

/-- The scale and the zero point of a VEC.ST (R336): s[D][31:0] and the integer s[D][47:32], or 1 and 0 where D is s0. -/
def State.storeScale (s : State) (k c : Nat) (w : W64) : FV := if fD w = 0 then FV.ofInt 1 else f32 (((s.ctx k c).readS (fD w)).truncate 32)
def State.storeZero (s : State) (k c : Nat) (w : W64) : Int := if fD w = 0 then 0 else (((s.ctx k c).readS (fD w)).extractLsb' 32 16).toInt

end Sys2Proof.Machine

/-- VEC.LD reads 64 consecutive elements of BF16, FP16 or FP32 into the lanes of v[D]. VEC.ST of FP32 writes the 64 lanes of v[B] as 256
little-endian bytes. Either refuses a format outside its list with FLT_FMT_ROLE. VEC.ST of INT8, INT16, E4M3, E5M2 or BF16 converts each lane
under the scale and the zero point of s[D] (scale 1 and zero point 0 where D is s0), writes the 64 codes in element layout, charges the
conversions to the item, and lets the tracker that it names observe each lane. An access of a page in Tier F begins a transfer of Winnow (R464,
log 67). It refuses a scale that is not positive and finite, and a zero
point of a format that has none, with FLT_ARG_RANGE. -/
def Obligations.VectorLoadAndStore : Prop :=
  (∀ (k c : Nat) (w : W64) (s : State), (s.core k).vecStalled = false →
      let va := (s.sA k c w).toNat
      (∀ n bs, (fFmt w, n) ∈ [(12, 2), (13, 2), (14, 4)] → s.Issues k c w 0x47 0 → va % n = 0 → reachesHole va (64 * n) = false →
        s.readAt k va (64 * n) = .ok bs →
        ∃ t, exec (.vecLd k c w) s = .next t ∧
          WritesLanes s t k c (fD w) ((List.range 64).map fun l =>
            extendF (fFmt w) (leNat ((List.range n).map fun i => s.byteAt k (va + n * l + i)))) ∧
          t.ctx k c = { s.ctx k c with v := (t.ctx k c).v, pc := (s.ctx k c).pc + 8 } ∧
          t = { s with cores := t.cores, reqs := s.boundReqs k c, parts := t.parts, fabric := t.fabric } ∧ FarChanges s t k va (64 * n) ∧
          SameParts s t ∧ SameOtherCores s t k ∧ (∀ i, i ≠ c → t.ctx k i = s.ctx k i) ∧
          t.core k = { s.core k with ctxs := (t.core k).ctxs, ops := (t.core k).ops, nextId := (t.core k).nextId, tagBit := (t.core k).tagBit } ∧
          (s.Near k va (64 * n) → (t.core k).ops = (s.core k).ops)) ∧
      (fFmt w = 14 → s.Issues k c w 0x48 0 → (FV.zero.lt (s.storeScale k c w) && (s.storeScale k c w).isFinite) = true →
        s.storeZero k c w = 0 → va % 4 = 0 → reachesHole va 256 = false → s.writableAt k va 256 = none →
        ∃ t, exec (.vecSt k c w) s = .next t ∧
          (∀ l i, l < 64 → i < 4 → t.byteAt k (va + 4 * l + i) = BitVec.ofNat 8 (((s.ctx k c).readLane (fB w) l).toNat / 256 ^ i)) ∧
          SameBytesOutside s t k va 256 ∧ t.ctx k c = { s.ctx k c with pc := (s.ctx k c).pc + 8 } ∧ (∀ i, i ≠ c → t.ctx k i = s.ctx k i) ∧
          SameOtherCores s t k ∧ t.core k = { s.core k with ctxs := (t.core k).ctxs, scratch := (t.core k).scratch, ops := (t.core k).ops,
                                                            nextId := (t.core k).nextId, tagBit := (t.core k).tagBit } ∧
          (s.Near k va 256 → (t.core k).ops = (s.core k).ops) ∧ (∀ p, some p ≠ s.partOf k → t.part p = s.part p) ∧
          t = { s with cores := t.cores, reqs := t.reqs, parts := t.parts, fabric := t.fabric } ∧ FarChanges s t k va 256) ∧
      (s.Issues k c w 0x47 0 → fFmt w ∉ [12, 13, 14] →
        exec (.vecLd k c w) s = s.afterRefusal k c fltFmtRole) ∧
      (s.Issues k c w 0x48 0 → fFmt w ∉ [5, 7, 8, 9, 12, 14] →
        exec (.vecSt k c w) s = s.afterRefusal k c fltFmtRole)) ∧
  (∀ (k c : Nat) (w : W64) (s : State), (s.core k).vecStalled = false → s.Issues k c w 0x48 0 →
      let va := (s.sA k c w).toNat
      let f := fFmt w
      let scale := s.storeScale k c w
      let zero := s.storeZero k c w
      let cell := fun l => convert f (f32 ((s.ctx k c).readLane (fB w) l)) scale zero (bit (fImm w) 7)
      let goodScale := (FV.zero.lt scale && scale.isFinite) = true ∧ (zero = 0 ∨ f = 5 ∨ f = 7)
      (∀ n, (f, n) ∈ [(5, 1), (7, 2), (8, 1), (9, 1), (12, 2)] → goodScale → va % n = 0 → reachesHole va (64 * n) = false →
        s.writableAt k va (64 * n) = none →
        exec (.vecSt k c w) s = s.afterIssue k c w
          (((s.writeAt k va (((List.range 64).map cell).flatMap fun cv => leBytes n cv.code)).convEffects k (s.ctx k c).bind
              ((List.range 64).map cell)).observe k
            (if bit (fImm w) 6 then some (fImm w % 64) else none)
            ((List.range 64).map fun l => obsOf f l (f32 ((s.ctx k c).readLane (fB w) l)) scale zero (cell l)))) ∧
      (f ∈ [5, 7, 8, 9, 12, 14] → ¬goodScale →
        exec (.vecSt k c w) s = s.afterRefusal k c fltArgRange))

/-- VEC.TLOAD loads 256 pairs (Y, D) from the scratchpad into the table that it names, with XMIN and INV_W from s[B], and leaves the other table.
VEC.SADD presents one add for each lane, in lane order, to the banks' queues of the scatter array, and is in flight until they have left them; that it is
in flight so long is the model's choice (log 63). -/
def Obligations.TableLoadAndScatterAdds : Prop :=
  ∀ (k c : Nat) (w : W64) (s : State), (s.core k).vecStalled = false →
    (let a := (s.sA k c w).toNat
     let xmin : W32 := (s.sB k c w).extractLsb' 0 32
     let invw : W32 := (s.sB k c w).extractLsb' 32 32
     let der := decide (fImm w % 2 = 1)
     s.Issues k c w 0x4A 0 → a % 8 = 0 → a + 2048 ≤ 0x300000 → (f32 xmin).isFinite = true →
      ((f32 invw).isFinite && FV.zero.lt (f32 invw)) = true →
      ∃ e, exec (.vecTload k c w) s = s.afterIssue k c w (s.setCore k { s.core k with exact := e }) ∧
        (∀ i, i < 256 → e.entry (if der then 256 else 0) i =
          (BitVec.ofNat 32 (readNat (s.core k).scratch (a + 8 * i) 4), BitVec.ofNat 32 (readNat (s.core k).scratch (a + 8 * i + 4) 4))) ∧
        (∀ i, i < 256 → e.entry (if der then 0 else 256) i = (s.core k).exact.entry (if der then 0 else 256) i) ∧
        (if der then e.derXmin = xmin ∧ e.derInvw = invw ∧ e.actXmin = (s.core k).exact.actXmin ∧ e.actInvw = (s.core k).exact.actInvw
         else e.actXmin = xmin ∧ e.actInvw = invw ∧ e.derXmin = (s.core k).exact.derXmin ∧ e.derInvw = (s.core k).exact.derInvw)) ∧
    (s.Issues k c w 0x4B 0 →
      exec (.vecSadd k c w) s = s.afterIssue k c w ((s.setCore k { s.core k with
        scat := (s.core k).scat.present ((List.range 64).map fun l =>
          { entry := ((s.ctx k c).readLane (fB w) l).toNat % 65536, value := (s.ctx k c).readLane (fA w) l, src := 4, id := (s.core k).nextId })
        }).launch k c .vec 3 [] [] .scatter))

/-! ### Quantisation and guard selection (R152 to R169, R237, R238) -/

namespace Sys2Proof.Machine

/-- No instruction in flight in core `k` has still to convert into a tracker that meets the test (R157), and the quantisation queue has room. -/
abbrev State.QuantFree (s : State) (k : Nat) (names : Nat → Bool) : Prop :=
  (∀ o ∈ (s.core k).ops, ∀ n, n < 64 → names n = true → o.observes n = false) ∧ (s.core k).queueFull .quant = false

/-- The instruction joins the quantisation queue with its completion objects and its results on their way, over what it has done to its core; one
whose mask names no tracker completes in the cycle after (R158, R319). -/
def State.quantDone (s : State) (k c : Nat) (w : W64) (x : Core) (objs : List Nat) (results : List Result) (job : Job := .plain) :
    Host.Outcome State Fault Refusal :=
  s.afterIssue k c w ((s.setCore k x).launch k c .quant 5 objs results job)

end Sys2Proof.Machine


/-- QUANT.CFG gives a tracker its fields from its descriptor, with FILLED and PTR 0 and its counts at reset, and empties its history. QUANT.STEP
closes the step of every tracker in its mask: PTR moves on, FILLED grows up to N, the present slot is emptied, the extremes and the counts return
to reset. QUANT.CLR clears the four counts of every tracker in its mask and nothing else. No other tracker changes. QUANT.CHECK puts on its way
to p[D] whether SSE × 2^-24 is at most MSE_BOUND × COUNT and CLIP at most CLIP_LIMIT, and refuses a bound that is negative, infinite or NaN.
QUANT.PROPOSE writes one proposed entry for each channel at consecutive scratchpad positions. -/
def Obligations.QuantInstructions : Prop :=
  (∀ (k c : Nat) (w : W64) (s : State),
      let x := s.core k
      let mask := (s.sA k c w).toNat
      (∀ d, s.Issues k c w 0x60 0 → s.QuantFree k (· == fImm w % 64) → mask % 16 = 0 → mask + 16 ≤ 0x300000 →
        readTracker (readNat x.scratch mask 16) = some d →
        ∃ h, exec (.quantCfg k c w) s = s.quantDone k c w ({ x with history := h }.setTracker (fImm w % 64) d) [] [] ∧
          d.filled = 0 ∧ d.ptr = 0 ∧ d.curMax = 0xFF800000#32 ∧ d.curMin = 0x7F800000#32 ∧ d.sse = 0 ∧ d.count = 0 ∧ d.clip = 0 ∧ d.nonfin = 0 ∧
          (∀ i, sget emptySlot h i = if d.tbase ≤ i ∧ i < d.tbase + (d.cm1 + 1) * (d.nm1 + 2) then emptySlot else sget emptySlot x.history i)) ∧
      (s.Issues k c w 0x61 0 → s.QuantFree k (bit mask) →
        ∃ y, exec (.quantStep k c w) s = s.quantDone k c w y [] [] (if mask = 0 then .empty else .plain) ∧ y = { x with trackers := y.trackers, history := y.history } ∧
          (∀ n, n < 64 → y.tracker n = if bit mask n then
              { x.tracker n with ptr := ((x.tracker n).ptr + 1) % ((x.tracker n).nm1 + 2)
                                 filled := min ((x.tracker n).filled + 1) ((x.tracker n).nm1 + 1)
                                 curMax := 0xFF800000#32, curMin := 0x7F800000#32, sse := 0, count := 0, clip := 0, nonfin := 0 }
            else x.tracker n) ∧
          (∀ i, sget emptySlot y.history i = sget emptySlot x.history i ∨ sget emptySlot y.history i = emptySlot) ∧
          (∀ n ch, n < 64 → bit mask n = true → ch ≤ (x.tracker n).cm1 →
            sget emptySlot y.history ((x.tracker n).tbase + ch * ((x.tracker n).nm1 + 2) + ((x.tracker n).ptr + 1) % ((x.tracker n).nm1 + 2)) =
              emptySlot)) ∧
      (s.Issues k c w 0x62 0 → s.QuantFree k (bit mask) →
        ∃ y, exec (.quantClr k c w) s = s.quantDone k c w y [] [] (if mask = 0 then .empty else .plain) ∧ y = { x with trackers := y.trackers } ∧
          ∀ n, n < 64 → y.tracker n = if bit mask n then { x.tracker n with sse := 0, count := 0, clip := 0, nonfin := 0 } else x.tracker n)) ∧
  (∀ (k c : Nat) (w : W64) (s : State),
      let x := s.core k
      let n := fImm w % 64
      let a := (s.sA k c w).toNat
      let bound := f32 ((s.sA k c w).truncate 32)
      s.QuantFree k (· == n) →
      (s.Issues k c w 0x63 0 → bound.isFinite = true → bound.lt FV.zero = false →
        exec (.quantCheck k c w) s = s.quantDone k c w (x.dropPred c (fD w)) []
          [.pred (fD w) (!(bound.mul (FV.ofInt (x.tracker n).count.toNat)).lt (.num false (x.tracker n).sse.toNat (2 ^ 24)) &&
            decide ((x.tracker n).clip.toNat ≤ a / 2 ^ 32))]) ∧
      (s.Issues k c w 0x63 0 → (bound.isFinite = false ∨ bound.lt FV.zero = true) →
        exec (.quantCheck k c w) s = s.afterRefusal k c fltArgRange) ∧
      (let t := x.tracker n
       let eb := entryBytes t.psfmt
       s.Issues k c w 0x64 0 → t.tfmt ∉ [10, 12, 13] → a % eb = 0 → a + (t.cm1 + 1) * eb ≤ 0x300000 →
        ∃ m, exec (.quantPropose k c w) s = s.quantDone k c w { x with scratch := m } (complObj (s.sB k c w)) [] ∧
          (∀ ch i, ch ≤ t.cm1 → i < eb → sget 0 m (a + ch * eb + i) = BitVec.ofNat 8 (x.proposal t ch / 256 ^ i)) ∧
          ∀ b, (b < a ∨ a + (t.cm1 + 1) * eb ≤ b) → sget 0 m b = sget 0 x.scratch b))

/-- GUARD.SEL in THRESH mode selects every neuron whose score is above T, in TOPK mode the K highest scores, the lower index first among equal ones; it writes the bitmap with bit i set
when any row of i's granule is selected, and changes no other scratchpad byte. With no scores it writes nothing. -/
def Obligations.GuardSelectWritesItsBitmap : Prop :=
  ∀ (k c : Nat) (w : W64) (s : State),
    let x := s.core k
    let sa := (s.sA k c w).toNat % 2 ^ 22
    let ba := (s.sA k c w).toNat / 2 ^ 32 % 2 ^ 22
    let nn := fImm w % 2 ^ 17
    let top := bit (fImm w) 17
    let kk := (s.sB k c w).toNat / 2 ^ 32 % 2 ^ 17
    let f := fFmt w
    let score := fun i => readNat x.scratch (sa + 2 * i) 2
    let threshold : W32 := (s.sB k c w).truncate 32
    let key := fun i => scoreKey f (score i)
    let chosen := fun i => if top then
        decide (((List.range nn).filter fun j => decide (key i < key j) || (key j == key i && decide (j < i))).length < kk)
      else if f = 7 then decide (threshold.toInt < (BitVec.ofNat 16 (score i)).toInt) else (f32 threshold).lt (elemValue 12 (score i))
    s.Issues k c w 0x70 0 → x.queueFull .guard = false → (f = 7 ∨ f = 12) → nn % 8 = 0 → nn ≤ 65536 → (top = true → nn ≠ 0 → 0 < kk ∧ kk ≤ nn) →
    (f = 12 → (f32 threshold).isNaN = false) → sa % 2 = 0 → ba % 4 = 0 → sa + 2 * nn ≤ 0x300000 → ba + (nn + 31) / 32 * 4 ≤ 0x300000 →
    (nn = 0 → exec (.guardSel k c w) s = s.afterIssue k c w (s.launch k c .guard 6 [] [] .empty)) ∧
    (nn ≠ 0 → x.arraysBusy = false → x.vecStalled = false →
      ∃ m, exec (.guardSel k c w) s = s.afterIssue k c w ((s.setCore k { x with scratch := m }).launch k c .guard 6 [] [] .plain) ∧
        (∀ i, i < (nn + 31) / 32 * 32 → (sget 0 m (ba + i / 8)).getLsbD (i % 8) =
          (decide (i < nn) && (List.range 8).any fun u => chosen (i / 8 * 8 + u))) ∧
        ∀ b, (b < ba ∨ ba + (nn + 31) / 32 * 4 ≤ b) → sget 0 m b = sget 0 x.scratch b)

/-! ### The DMA engine (R340 to R349) -/

namespace Sys2Proof.Machine

/-- The state after an instruction that met the fabric's failure of a transfer: the failure is over with its step (R393). -/
def State.healed (t : State) (p : Option Nat) (m : MemErr) : State :=
  match p with
  | some p => t.mend p m
  | none => t

end Sys2Proof.Machine

namespace Sys2Proof.Machine

/-- Instruction `o` and nothing else has joined what is in flight in core `k`, but for the transfers of Winnow for what it has accessed in Tier F
(R464). -/
def JoinsFlight (s t : State) (k : Nat) (o : InFlight) (more : List InFlight) : Prop :=
  (t.core k).ops = (s.core k).ops ++ o :: more ∧ ∀ e ∈ more, e.unit = .mem

/-- The members of multicast group `g` of core `k` (R381): the core itself, and the other cores of its partition whose MCAST_GRP bit is set. -/
def State.McastMember (s : State) (k g j : Nat) : Prop :=
  j = k ∨ ∃ p, s.partOf k = some p ∧ j ∈ (s.part p).cores ∧ j ≠ k ∧ bit (sget 0 (s.core j).mcast (g / 32)).toNat (g % 32) = true

end Sys2Proof.Machine

/-- DMA.LIN copies N bytes from s[A] to s[B] when the addresses and N are multiples of 4, the ranges do not overlap, and every byte can be read and
written once a memory error that it meets has struck: each destination byte is the source byte, every other byte reads as before, and the copy is
in flight with its completion object; one of no bytes has nothing to start (R319). With a multicast group, whose destination lies in the scratchpad,
the bytes reach the scratchpad of every member, and of no other core. A page in Tier F begins a transfer of Winnow (R464, log 67). -/
def Obligations.LinearCopyMovesEveryByte : Prop :=
  (∀ (k c : Nat) (w : W64) (m : MemErr) (s : State),
    let n := ((s.ctx k c).readS (fD w)).toNat
    let a := (s.sA k c w).toNat
    let b := (s.sB k c w).toNat
    let u := s.struck k m
    s.Accepts k c w 0x11 0 .dma → a % 4 = 0 → b % 4 = 0 → n % 4 = 0 → bits (fImm w) 18 8 = 0 →
    (n ≠ 0 → reachesHole a n = false ∧ reachesHole b n = false ∧ (a + n ≤ b ∨ b + n ≤ a)) →
    u.stopAt k true a n = none → u.stopAt k false b n = none →
    ∃ t, exec (.dmaLin k c w m) s = .next t ∧ (∀ i, i < n → t.byteAt k (b + i) = s.byteAt k (a + i)) ∧ SameBytesOutside s t k b n ∧
      t.ctx k c = { s.ctx k c with pc := (s.ctx k c).pc + 8 } ∧ (∀ i, i ≠ c → t.ctx k i = s.ctx k i) ∧ SameOtherCores s t k ∧
      (∃ more, JoinsFlight s t k { id := (s.core k).nextId, ctx := c, unit := .dma, cls := 0, bind := (s.ctx k c).bind
                                   started := decide (n = 0), objs := if bit (fImm w) 17 then [fImm w % 2 ^ 17] else []
                                   job := if n = 0 then .empty else .plain } more ∧
        (u.Near k a n → u.Near k b n → more = [] ∧ t.fabric = u.fabric)) ∧
      t = { u with cores := t.cores, reqs := t.reqs, parts := t.parts, fabric := { u.fabric with trans := t.fabric.trans } }) ∧
  (∀ (k c : Nat) (w : W64) (m : MemErr) (s : State),
    let n := ((s.ctx k c).readS (fD w)).toNat
    let a := (s.sA k c w).toNat
    let b := (s.sB k c w).toNat
    let g := bits (fImm w) 18 8
    let u := s.struck k m
    s.Accepts k c w 0x11 0 .dma → a % 4 = 0 → b % 4 = 0 → n % 4 = 0 → n ≠ 0 → g ≠ 0 → b + n ≤ 0x300000 → reachesHole a n = false →
    (a + n ≤ b ∨ b + n ≤ a) → u.stopAt k true a n = none →
    ∃ t, exec (.dmaLin k c w m) s = .next t ∧
      (∀ j, s.McastMember k g j → ∀ i, sget 0 (t.core j).scratch i =
        if b ≤ i ∧ i < b + n then s.byteAt k (a + (i - b)) else sget 0 (s.core j).scratch i) ∧
      (∀ j, ¬s.McastMember k g j → t.core j = s.core j) ∧
      (∀ j, s.McastMember k g j → j ≠ k → t.core j = { s.core j with scratch := (t.core j).scratch }) ∧
      (∀ p, (t.mem p).bytes = (s.mem p).bytes) ∧ t.ctx k c = { s.ctx k c with pc := (s.ctx k c).pc + 8 })

namespace Sys2Proof.Machine

/-- A copy of one whole block of 32 rows and 32 columns between tensors of one format in plane layout, neither with a scale, a map, sums or a sparse
form (R341 to R345): its descriptor and the two that it names. -/
def OneBlockCopy (d : DmaDesc) (x y : Tensor) : Prop :=
  d.reserved = false ∧ d.row0 = 0 ∧ d.drow0 = 0 ∧ d.nrows = 32 ∧ d.comp = 0 ∧ d.sums = false ∧ d.csums = false ∧ d.mcg = 0 ∧
  x.bad none = false ∧ y.bad none = false ∧ x.fmt = y.fmt ∧ x.fmt ∉ [10, 14, 15] ∧ x.rows = 32 ∧ x.cols = 32 ∧ y.rows = 32 ∧ y.cols = 32 ∧
  x.elem = false ∧ y.elem = false ∧ x.sfmt = 0 ∧ y.sfmt = 0 ∧ x.mapEn = false ∧ y.mapEn = false

/-- The instruction has joined its unit's queue, with its completion object; behind it come the transfers for what it has accessed in Tier F alone. -/
def JoinsQueue (s t : State) (k c : Nat) (u : UnitId) (cls : Nat) (objs : List Nat) : Prop :=
  ∃ (o : InFlight) (more : List InFlight), JoinsFlight s t k o more ∧ o.id = (s.core k).nextId ∧ o.ctx = c ∧ o.unit = u ∧ o.cls = cls ∧
    o.bind = (s.ctx k c).bind ∧ o.objs = objs ∧ (s.core k).nextId < (t.core k).nextId

/-- The scratchpads of the cores of a set hold what they held. -/
def SameScratch (s t : State) (among : Nat → Prop) : Prop := ∀ j, among j → (t.core j).scratch = (s.core j).scratch

/-- What the spec asks of a DMA.KVAPP that executes (R348, R349, R416): its FMT is INT4 or FP8 E4M3 and as wide as the cache's; no reserved bit; DM32 is
that of its session, which is the partition's and not FREE; the layer and the head are the session's; its source ends in the scratchpad. -/
def KvFits (d : KvDesc) (p fmt : Nat) (x : Sess) : Prop :=
  (fmt = 3 ∨ fmt = 8) ∧ kvBits (if d.kv = 0 then x.fmtK else x.fmtV) = fmtWidth fmt ∧ d.reserved = false ∧ 1 ≤ d.dm32 ∧ d.dm32 ≤ 8 ∧ d.dm32 = x.dm32 ∧
  x.state ≠ .free ∧ x.part = p ∧ d.layer < x.layers ∧ d.head < x.heads ∧ d.src + d.nt * (32 * d.dm32) * (if d.bf16 then 2 else 4) ≤ 0x300000

end Sys2Proof.Machine

/-- DMA.COPY of one whole block between tensors of one format moves every byte of its planes and no other byte. In every form it runs its descriptor's
copy as far as it goes and joins the engine's queue with its completion object, at once complete where there is nothing to copy, its item failing
where the copy stops; where its copy is refused (R345), so is it. -/
def Sys2Proof.Machine.CopyRunsItsDescriptor : Prop :=
  ∀ (k c : Nat) (w : W64) (m : MemErr) (s : State) (bs : List Byte),
    let y := s.ctx k c
    let va := (s.sA k c w + sextImm w).toNat
    let z := s.struck k m
    let d := readDma (leNat bs) (s.sB k c w).toNat
    let ran := z.dmaCopy { k := k, ctx := c, bind := y.bind, targets := s.dmaTargets k d.mcg } (BitVec.ofNat 512 (leNat bs)) d
    s.Accepts k c w 0x10 0 .dma → va % 64 = 0 → reachesHole va 64 = false → z.readAt k va 64 = .ok bs →
    (∀ xs ys zs, d.src % 64 = 0 → d.dst % 64 = 0 → reachesHole d.src 64 = false → reachesHole d.dst 64 = false →
      z.readAt k d.src 64 = .ok xs → z.readAt k d.dst 64 = .ok ys →
      let x := readTensor (leNat xs)
      let t := readTensor (leNat ys)
      let n := 128 * x.width
      OneBlockCopy d x t → reachesHole x.base n = false → reachesHole t.base n = false → z.readAt k x.base n = .ok zs →
      z.writableAt k t.base n = none →
      ∃ u, exec (.dmaCopy k c w m) s = .next u ∧ (∀ i, i < n → u.byteAt k (t.base + i) = s.byteAt k (x.base + i)) ∧
        SameBytesOutside s u k t.base n ∧ SameOtherCores s u k ∧ JoinsQueue s u k c .dma 0 d.done.toList ∧
        u.ctx k c = { s.ctx k c with pc := (s.ctx k c).pc + 8 }) ∧
    ((∀ f, ran ≠ .refuse f) → ∃ u, exec (.dmaCopy k c w m) s = .next u ∧ JoinsQueue s u k c .dma 0 d.done.toList ∧
      (u.ctx k c).pc = (s.ctx k c).pc + 8 ∧ SameScratch s u (fun j => j ∉ s.dmaTargets k d.mcg)) ∧
    (∀ f, ran = .refuse f → exec (.dmaCopy k c w m) s = s.afterRefusal k c f) ∧
    (∀ u, ran = .empty u → exec (.dmaCopy k c w m) s =
      s.afterIssue k c w ((u.launch k c .dma 0 d.done.toList [] .empty).healed (s.partOf k) m)) ∧
    (∀ u skew, ran = .ran u none skew → exec (.dmaCopy k c w m) s =
      let v := (u.touchAt k va 64).launch k c .dma 0 d.done.toList [] .plain
      s.afterIssue k c w ((if skew then v.faultLast k else v).healed (s.partOf k) m)) ∧
    (∀ u f skew, ran = .ran u (some f) skew → exec (.dmaCopy k c w m) s =
      let v := (u.touchAt k va 64).launch k c .dma 0 d.done.toList [] .plain
      s.afterIssue k c w ((((if skew then v.faultLast k else v).faultAt k c y.bind f).faultLast k).healed (s.partOf k) m))

/-- DMA.COPY moves the planes of a block and no other byte, and in every form runs its descriptor's copy and joins the engine's queue, or is refused.
DMA.LIST joins the queue with its entries still to start, at once complete where it has none; it is refused for a misaligned descriptor or list and for
more than 65,536 entries. DMA.KVAPP joins the queue, at once complete where it has no token, and is refused where R349 or R416 says so; when the engine
starts it, it appends its tokens and raises the session's HIGH to T0 + NT where nothing stops it, and it fails with FLT_SESS_UNKNOWN where its session
has become FREE since, whether or not another has its number (R416). What is accessed in Tier F begins transfers of Winnow (R464). DMA_LIST_ENTRY runs the copy of a list's next entry
and moves on by one, past FLT_CHAFF_LIMIT to the list's end; with none left it does nothing. -/
def Obligations.CopyListAndAppendEnterTheEngine : Prop :=
  CopyRunsItsDescriptor ∧
  (∀ (k c : Nat) (w : W64) (s : State), s.Accepts k c w 0x12 0 .dma →
    let va := (s.sA k c w).toNat
    let list := (s.sB k c w).toNat
    let n := fImm w % 2 ^ 17
    (∀ bs, va % 64 = 0 → reachesHole va 64 = false → list % 16 = 0 → reachesHole list (16 * n) = false → n ≤ 65536 → s.readAt k va 64 = .ok bs →
      let d := readDma (leNat bs) 0
      exec (.dmaList k c w) s = s.afterIssue k c w ((s.touchAt k va 64).launch k c .dma 0 d.done.toList [] (if n = 0 then .empty else
        .list { desc := BitVec.ofNat 512 (leNat bs), list := list, n := n, trk := d.trk, targets := s.dmaTargets k d.mcg }))) ∧
    ((va % 64 ≠ 0 ∨ reachesHole va 64 = true ∨ list % 16 ≠ 0 ∨ reachesHole list (16 * n) = true ∨ 65536 < n) →
      exec (.dmaList k c w) s = s.afterRefusal k c fltArgRange)) ∧
  (∀ (k c : Nat) (w : W64) (s : State) (bs : List Byte) (p : Nat), s.Accepts k c w 0x13 0 .dma →
    let va := (s.sA k c w + sextImm w).toNat
    va % 32 = 0 → reachesHole va 32 = false → s.readAt k va 32 = .ok bs → s.partOf k = some p →
    let d := readKv (leNat bs)
    let x := s.sessOf d.session
    let role := fFmt w ≠ 3 ∧ fFmt w ≠ 8 ∨ x.state ≠ .free ∧ x.part = p ∧ kvBits (if d.kv = 0 then x.fmtK else x.fmtV) ≠ fmtWidth (fFmt w)
    (KvFits d p (fFmt w) x → exec (.dmaKvapp k c w) s = s.afterIssue k c w ((s.touchAt k va 32).launch k c .dma 0 d.done.toList []
      (if d.nt = 0 then .empty else .kv { desc := BitVec.ofNat 256 (leNat bs), fmt := fFmt w }))) ∧
    (role → exec (.dmaKvapp k c w) s = s.afterRefusal k c fltFmtRole) ∧
    (¬role → ¬KvFits d p (fFmt w) x → exec (.dmaKvapp k c w) s = s.afterRefusal k c fltArgRange)) ∧
  (∀ (k p : Nat) (s : State) (es rest : List InFlight) (o : InFlight) (j : KvJob), (s.core k).ops = es ++ o :: rest → o.unit = .dma → o.started = false →
    (∀ e ∈ es, e.unit = .dma → e.started = true) → es.any (blocksStart o) = false → o.job = .kv j → j.gone = false → s.partOf k = some p →
    let d := readKv j.desc.toNat
    let r := (s.setCore k ((s.core k).modOp o.id fun o => { o with started := true })).kvAppend k o.ctx o.bind d j.fmt p (s.sessOf d.session)
    let e := r.s.sessOf d.session
    let done := fun (u : State) (f : Bool) => u.modOp k o.id fun x => { x with job := .kv { j with done := true }, faulted := x.faulted || f }
    (r.stop = none → e.state ≠ .free → e.part = p →
      exec (.unitStart k .dma) s = .next ((done (r.s.setSess d.session { e with high := max e.high (d.t0 + d.nt) }) false).startFarOf k o)) ∧
    (∀ f, r.stop = some f → e.state ≠ .free → e.part = p →
      exec (.unitStart k .dma) s =
        .next (((done (r.s.setSess d.session { e with high := max e.high (d.t0 + d.nt) }) true).faultAt k o.ctx o.bind f).startFarOf k o)) ∧
    (d.nt ≠ 0 → 1 ≤ d.dm32 → (s.sessOf d.session).state = .free →
      r.stop = some fltSessUnknown ∧ exec (.unitStart k .dma) s = .next (((done r.s true).faultAt k o.ctx o.bind fltSessUnknown).startFarOf k o))) ∧
  (∀ (k : Nat) (s : State) (es rest : List InFlight) (o : InFlight) (j : KvJob), (s.core k).ops = es ++ o :: rest → o.unit = .dma → o.started = false →
    (∀ e ∈ es, e.unit = .dma → e.started = true) → es.any (blocksStart o) = false → o.job = .kv j → j.gone = true →
    let u := s.setCore k ((s.core k).modOp o.id fun o => { o with started := true })
    exec (.unitStart k .dma) s =
      .next (((u.modOp k o.id fun x => { x with job := .kv { j with done := true }, faulted := true }).faultAt k o.ctx o.bind fltSessUnknown).startFarOf k o)) ∧
  (∀ (k id : Nat) (m : MemErr) (s : State) (o : InFlight) (j : ListJob), s.opOf k id = some o → o.job = .list j → o.started = true →
    (j.n ≤ j.next → exec (.dmaListEntry k id m) s = .next s) ∧
    (j.next < j.n → ∀ u stop skew, (s.struck k m).listCopy k o j = (u, stop, skew) →
      let v := u.modOp k o.id fun x =>
        { x with job := .list { j with next := if stop = some fltChaffLimit then j.n else j.next + 1 }, faulted := x.faulted || stop.isSome || skew }
      (stop = none → exec (.dmaListEntry k id m) s = .next ((v.startFarOf k o).healed (s.partOf k) m)) ∧
      (∀ f, stop = some f → exec (.dmaListEntry k id m) s = .next (((v.faultAt k o.ctx o.bind f).startFarOf k o).healed (s.partOf k) m))))

/-! ### Tile instructions (R77 to R88, R114, R239, R247 to R259) -/

namespace Sys2Proof.Machine

/-- Both operands, in their orientation, have scales that a matrix product can take (R64): none of the 32-entry kind across a transposed block. -/
def AxisFits (d : TileDesc) (xt yt : Tensor) : Prop :=
  (d.transX = true → xt.sgran = 0 → xt.sfmt = 0) ∧ (d.transY = true → yt.sgran = 0 → yt.sfmt = 0)

/-- What the spec asks of an ARR.STREAM that executes, once its descriptors have been read: formats with an array role, the word's equal to Y's (R21,
R22, R328); a stream of the split, which is 0 in weight-streaming mode (R84); tensors in plane layout that R57 accepts; planes that PTOP may name
(R51); what CONV, PACK and ORDER need (R77, R106, R191); sparse descriptors that R180 accepts; an epilogue descriptor that R142 accepts; a
termination descriptor that R221 accepts, with what ET, SEL and a raw drain need; a guarded streamed ring that R375 accepts; scales that the
orientation can take (R64); and with START clear the present split and the slots' tag (R114). -/
def StreamFits (sh : Sheaf) (w : W64) (t : TileIssue) (xt yt : Tensor) (spx spy : SpDesc) (e : EpiDesc) (tm : TermDesc) : Prop :=
  let d := t.d
  let st := tStream w
  let act := d.mode = 1
  let int := intSlot xt.fmt yt.fmt = true
  let raw := rawBytes (intSlot xt.fmt yt.fmt) (subRows d.split st).length
  let rings := (d.arrays.getLast?.map (· + 1)).getD 0
  (arrayRole (fFmt w) = true ∧ arrayRole xt.fmt = true ∧ arrayRole yt.fmt = true ∧ fFmt w = yt.fmt) ∧
  (st < streamsOf d.split ∧ (¬act → d.split = 0)) ∧
  (xt.elem = false ∧ yt.elem = false ∧ xt.bad none = false ∧ yt.bad (t.use.yRing.map fun r => r.1.n) = false ∧
    (topPlanes yt.fmt d.ptop).isSome = true) ∧
  (act → d.conv = true → d.split = 0 ∧ d.kstep = 1 ∧ d.transY = false ∧ yt.sfmt = 0 ∧ yt.fmt ≠ 10) ∧
  (act → d.pack = true → d.split = 0 ∧ d.conv = false) ∧ (¬int → ¬act → d.order = false) ∧
  spx.bad xt d.transX false (decide act && d.conv) = false ∧ spy.bad yt d.transY true (decide act && d.conv) = false ∧
  e.refusal rings (tStart w) raw = none ∧
  (tm.bad false = false ∧ (tm.et = true → int) ∧ ((tm.et = true ∨ tm.sel = true) → e.drain = false) ∧
    (tm.sel = true → ¬act ∧ d.pack = false ∧ inScratch tm.selBase (4 * (if d.transY then d.k0 + d.kb else d.y0 + d.nb)) = true)) ∧
  yRingBad d yt spy t.use.yRing (decide act) = false ∧ AxisFits d xt yt ∧
  (tStart w = false → sh.split = d.split ∧
    ∀ a ∈ d.arrays, sget {} sh.tags (4 * a + st) = { valid := true, kind := if intSlot xt.fmt yt.fmt then 0 else 1, fx := xt.fmt, fy := yt.fmt })

end Sys2Proof.Machine

/-- An ARR.STREAM that R22, R57, R64, R84, R142, R180, R221, R284, R328 and R375 let execute issues. Where it has nothing to compute it completes in the
cycle after and has no other effect (R58, R79). Else it takes its split, clearing every slot tag when that changes it (R86); with START it writes the tag
of its formats in the slots of its unmasked arrays and leaves every other tag (R114); and it joins its stream's queue with its tiles to run (R287). At
the swaps of a tile, the rows whose parity check fails are kept for a splice, the item fails with FLT_ARR_PARITY and the instruction is marked as
faulted (R87, R88, R511). -/
def Obligations.ArrayProductTakesSplitTagAndQueue : Prop :=
  (∀ (k c : Nat) (w : W64) (ps : List (Nat × Nat × Nat)) (s : State) (t : TileIssue),
    let x := s.core k
    let st := tStream w
    let xt := readTensor t.xt.toNat
    let yt := readTensor t.yt.toNat
    let tm := termOf w t.aux.toNat
    let spx := if tSpx w then readSparse (bits t.aux.toNat 256 128) else {}
    let spy := if tSpy w then readSparse (bits t.aux.toNat 384 128) else {}
    let epi := sget 0 x.sheaf.epi st
    let tag : SlotTag := { valid := true, kind := if intSlot xt.fmt yt.fmt then 0 else 1, fx := xt.fmt, fy := yt.fmt }
    let units := if t.d.mode = 1 then t.d.tiles else ceilDiv t.d.nb 32
    let job := { mkJob .stream w t epi t.d.tiles units with
      parity := ps.filter fun p => t.d.arrays.contains p.1 && (subRows t.d.split st).contains p.2.1 }
    let empty := arrEmpty x.scratch t.d tm xt yt
    let s1 := (s.touchAt k t.d.xdesc 64).touchAt k t.d.ydesc 64
    s.Accepts k c w 0x20 0 (.stream st) → s.namesLog4 k c w = false → s.tileIssue k c w .stream = .ok t →
    StreamFits x.sheaf w t xt yt spx spy (readEpi epi.toNat) tm → x.epiLoading st = false → (tm.sel = true → x.guarding = false) →
    (empty = true → exec (.arrStream k c w ps) s = s.afterIssue k c w (s1.launch k c (.stream st) 1 t.use.objDone.toList [] .empty)) ∧
    (empty = false → s.tileHole (job.ctx k 0) t.d.tiles = false → (t.d.split = x.sheaf.split ∨ x.tilesInFlight = false) →
      ∃ y, exec (.arrStream k c w ps) s = s.afterIssue k c w ((s1.setCore k y).launch k c (.stream st) 1 t.use.objDone.toList [] (.tile job)) ∧
        y = { x with sheaf := { x.sheaf with split := t.d.split, tags := y.sheaf.tags, lastSplit := y.sheaf.lastSplit }
                     tab := { x.tab with tag := { x.tab.tag with valid := x.tab.tag.valid && decide (t.d.split = x.sheaf.split) } } } ∧
        (∀ a i, i < 4 → sget {} y.sheaf.tags (4 * a + i) =
          if tStart w ∧ a ∈ t.d.arrays ∧ i = st then tag else if t.d.split = x.sheaf.split then sget {} x.sheaf.tags (4 * a + i) else {}) ∧
        (∀ i, sget 0 y.sheaf.lastSplit i =
          if t.d.split ≠ x.sheaf.split ∧ i < streamsOf t.d.split then t.d.split else sget 0 x.sheaf.lastSplit i))) ∧
  (∀ (k : Nat) (s : State) (o : InFlight) (rows : List (Nat × Nat)),
    let x := s.core k
    s.parityFails k o [] = s ∧
    (rows ≠ [] → ∃ y, s.parityFails k o rows = (s.setCore k y).opFault k o fltArrParity ∧
      y = { x with sheaf := { x.sheaf with failing := y.sheaf.failing } } ∧
      ∀ a r, (a, r) ∈ y.sheaf.failing ↔ (a, r) ∈ x.sheaf.failing ∨
        ∃ p ∈ rows, a = p.1 ∧ r = physRow (sget [] x.sheaf.splices p.1) p.2))

namespace Sys2Proof.Machine

/-- What the spec asks of a GUARD.RUN that executes (R22, R57, R240, R281, R375): no format FP32 or reserved; exact operands; g from 1 to one less than
Y's planes; no transposed Y; TD set; the word's format Y's; stream 0 and split 0; tensors in plane layout that R57 accepts; a termination descriptor
that R221 accepts, with its bitmaps in the scratchpad; and no ring of Y or of the output. -/
def GuardFits (w : W64) (t : TileIssue) (tm : TermDesc) (xt yt : Tensor) : Prop :=
  let g := bits (fImm w) 22 4
  (∀ f ∈ [fFmt w, xt.fmt, yt.fmt], f ≠ 14 ∧ f ≠ 15) ∧ fmtExact xt.fmt = true ∧ fmtExact yt.fmt = true ∧ 1 ≤ g ∧ g < yt.width ∧
  t.d.transY = false ∧ tTd w = true ∧ fFmt w = yt.fmt ∧ tStream w = 0 ∧ t.d.split = 0 ∧
  xt.elem = false ∧ yt.elem = false ∧ xt.bad none = false ∧ yt.bad none = false ∧
  tm.bad true = false ∧ inScratch tm.selBase (4 * (t.d.y0 + t.d.nb)) = true ∧ inScratch tm.missBase (4 * (t.d.y0 + t.d.nb)) = true ∧
  t.use.yRing = none ∧ t.use.oRing = none

/-- What the spec asks of a TAB.STREAM, or of a TAB.LOG, that executes (R22, R57, R142, R247, R248, R281): Y in BIN1, INT2 or INT3, or in LOG4, with
the scales of R247; X in BF16, FP16 or FP32, without scales, an FP32 one in element layout; stream 0, the split 0 of sheaf and descriptor; no PACK,
CONV, ORDER or correction; tensors that R57 accepts; an epilogue descriptor that R142 accepts; no ring of Y; and with START clear the unit's tag. -/
def TabFits (x : Core) (log : Bool) (w : W64) (t : TileIssue) (e : EpiDesc) (xt yt : Tensor) : Prop :=
  (if log = true then yt.fmt = 11 ∧ (yt.sfmt = 0 ∨ yt.sfmt = 2) else yt.fmt ≤ 2 ∧ (yt.sfmt = 3 → yt.fmt ≠ 0)) ∧ fFmt w = yt.fmt ∧
  (xt.fmt = 12 ∨ xt.fmt = 13 ∨ (xt.fmt = 14 ∧ xt.elem = true)) ∧ xt.sfmt = 0 ∧ e.refusal 1 (tStart w) 128 = none ∧
  tStream w = 0 ∧ x.sheaf.split = 0 ∧ t.d.split = 0 ∧ t.d.pack = false ∧ t.d.conv = false ∧ t.d.order = false ∧ e.corr = false ∧
  xt.bad none = false ∧ yt.bad none = false ∧ yt.elem = false ∧ t.use.yRing = none ∧
  (tStart w = false → x.tab.tag = { valid := true, kind := 1, fx := xt.fmt, fy := yt.fmt })

/-- What the spec asks of an ARR.CAM that executes (R199, R202, R281, R375): compressed rows that R199 accepts, with one number of columns; 1 to 32 key
rows; split 0 of sheaf and descriptor; the word's format Y's; stream 0 and D 0; no ring of Y or of the output. -/
def CamFits (x : Core) (w : W64) (t : TileIssue) (xr yr : CRow) : Prop :=
  xr.bad = false ∧ yr.bad = false ∧ 1 ≤ t.d.krows ∧ t.d.krows ≤ 32 ∧ x.sheaf.split = 0 ∧ t.d.split = 0 ∧ xr.cols = yr.cols ∧ fFmt w = yr.fmt ∧
  tStream w = 0 ∧ fD w = 0 ∧ t.use.yRing = none ∧ t.use.oRing = none

end Sys2Proof.Machine

/-- A GUARD.RUN that the spec lets execute takes split 0 and joins the guard unit's queue, with the latch rows of its arrays that fail their parity check
(R88); a TAB.STREAM or TAB.LOG writes the table unit's tag with START, shows its path, and joins the
table unit's queue. One with nothing to compute completes in the cycle after and has no other effect (R58, R319). -/
def Obligations.GuardPassAndTableProductsEnterTheirUnits : Prop :=
  ∀ (k c : Nat) (w : W64) (ps : List (Nat × Nat × Nat)) (s : State) (t : TileIssue),
    let x := s.core k
    let xt := readTensor t.xt.toNat
    let yt := readTensor t.yt.toNat
    let tm := termOf w t.aux.toNat
    let epi := sget 0 x.sheaf.epi 0
    let empty := xt.isEmpty || yt.isEmpty || t.d.nb == 0 || t.d.kb == 0
    (let job := { mkJob .guard w t 0 t.d.nb 0 with parity := ps.filter fun p => t.d.arrays.contains p.1 }
     let s1 := (s.touchAt k t.d.xdesc 64).touchAt k t.d.ydesc 64
     s.Accepts k c w 0x71 0 .guard → s.tileIssue k c w .guard = .ok t → GuardFits w t tm xt yt → x.guarding = false →
      (empty = true → exec (.guardRun k c { word := w, parity := ps }) s = s.afterIssue k c w (s1.launch k c .guard 6 t.use.objDone.toList [] .empty)) ∧
      (empty = false → s.tileHole (job.ctx k 0) t.d.nb = false → (x.sheaf.split = 0 ∨ x.tilesInFlight = false) →
        exec (.guardRun k c { word := w, parity := ps }) s = s.afterIssue k c w ((s1.setCore k (x.setSplit 0)).launch k c .guard 6 t.use.objDone.toList [] (.tile job)))) ∧
    (∀ row ∈ [((0x50, false), Instr.tabStream), ((0x51, true), Instr.tabLog)],
      let job := mkJob (if row.1.2 then .log else .table) w t epi t.d.nb (ceilDiv t.d.nb 32)
      s.Accepts k c w row.1.1 0 .tab → s.tileIssue k c w .table = .ok t → TabFits x row.1.2 w t (readEpi epi.toNat) xt yt →
      (∀ o ∈ x.ops, o.unit ≠ .tab) → x.epiLoading 0 = false →
      (empty = true → exec (row.2 k c w) s = s.afterIssue k c w (s.launch k c .tab 4 t.use.objDone.toList [] .empty)) ∧
      (empty = false → s.tileHole (job.ctx k 0) t.d.nb = false → ∃ y, y = { x with tab := { x.tab with tag := y.tab.tag, path := if row.1.2 then 1 else 0 } } ∧
        y.tab.tag = (if tStart w then { valid := true, kind := 1, fx := xt.fmt, fy := yt.fmt } else x.tab.tag) ∧
        exec (row.2 k c w) s = s.afterIssue k c w
          ((((s.setCore k y).touchAt k t.d.xdesc 64).touchAt k t.d.ydesc 64).launch k c .tab 4 t.use.objDone.toList [] (.tile job))))

/-- An ARR.CAM that the spec lets execute presents its products to the scatter banks in the order in which it makes them: in each bank's queue, with what
waits before it, they follow what stream 0 presented before (R209, R210). It charges what it drops, counts the rows whose tags differ and the cycles that
a started row group waits for packets (R207), and is in flight until its adds have issued; one with no probe row completes in the cycle after (R202). Its item fails with
FLT_SCALE_SKEW where a row was left out and with the fault where the product stops. -/
def Obligations.SparseProductPresentsItsAdds : Prop :=
  ∀ (k c : Nat) (w : W64) (s : State) (t : TileIssue),
    let xr := readCRow t.xt.toNat
    let yr := readCRow t.yt.toNat
    let b := (s.ctx k c).bind
    let o := s.camRun k xr yr t.d (s.chaffRoom k b)
    s.Accepts k c w 0x21 0 (.stream 0) → s.tileIssue k c w .cam = .ok t → CamFits (s.core k) w t xr yr → s.camHole k xr yr t.d = false →
    let s1 := (((((s.touchAt k t.d.xdesc 64).touchAt k t.d.ydesc 64).touchAll k o.reads).chaff k b 0 o.range o.order).1).coreCount k 0x2A4 o.skews
    let s1 := s1.coreCount k 0x228 o.stall
    let s2 := s1.launch k c (.stream 0) 1 t.use.objDone.toList [] (if t.d.rowsN = 0 then .empty else .scatter)
    let y := s2.core k
    let s3 := s2.setCore k
      { y with scat := y.scat.present (o.adds.map fun a => { entry := a.1, value := a.2.v, src := 0, id := (s1.core k).nextId })
               flgInf := y.flgInf || o.adds.any (·.2.inf), flgNan := y.flgNan || o.adds.any (·.2.nan) }
    let s4 := if o.skews = 0 then s3 else (s3.faultAt k c b fltScaleSkew).faultLast k
    (o.stop = none → exec (.arrCam k c w) s = s.afterIssue k c w s4) ∧
    (∀ f, o.stop = some f → exec (.arrCam k c w) s = s.afterIssue k c w ((s4.faultAt k c b f).faultLast k)) ∧
    (t.d.rowsN = 0 → o = {}) ∧ (∀ a ∈ o.adds, a.1 < 65536) ∧
    (∀ bank,
      let of0 := fun (z : Scatter) => (sget [] z.queues bank ++ z.stalled.filter fun a => a.entry % 16 == bank).filter fun a => a.src == 0
      of0 (s3.core k).scat = of0 (s.core k).scat ++
        (o.adds.filter fun a => a.1 % 16 == bank).map fun a => { entry := a.1, value := a.2.v, src := 0, id := (s1.core k).nextId })

/-! ### The epilogue and the scatter accumulator (R208 to R213, R330, R331) -/

/-- EPI.LOAD puts the 64 bytes at its address into the epilogue descriptor of its stream. EPI.SZERO sets to +0.0 the NE entries from E0, modulo
65,536, once no add waits, and leaves every other entry. SCATTER_ADD_ISSUE adds the head of a bank's queue into its entry. EPI.SDRAIN passes 32-entry
words from E0 on through the epilogue of its stream and, with its clear bit, sets the drained entries to +0.0. With NE = 0 either completes in the
cycle after (R319). -/
def Obligations.EpilogueLoadAndScatterAccumulator : Prop :=
  (∀ (k c : Nat) (w : W64) (s : State),
    let x := s.core k
    let va := (s.sA k c w).toNat
    (∀ bs, s.Accepts k c w 0x30 0 .epi → va % 64 = 0 → reachesHole va 64 = false → s.readAt k va 64 = .ok bs →
      let u := s.touchAt k va 64
      exec (.epiLoad k c w) s = s.afterIssue k c w
        ((u.setCore k { x with sheaf := { x.sheaf with epi := sput 0 x.sheaf.epi (fImm w % 4) (BitVec.ofNat 512 (leNat bs)) } }).launch k c .epi 2
          [] [] (.epiLoad (fImm w % 4)))) ∧
    (let e0 := va % 65536
     let ne := fImm w % 2 ^ 17
     (s.Accepts k c w 0x31 0 .epi → ne = 0 →
      exec (.epiSzero k c w) s = s.afterIssue k c w (s.launch k c .epi 2 (complObj (s.sB k c w)) [] .empty)) ∧
     (s.Accepts k c w 0x31 0 .epi → ne ≠ 0 → ne % 32 = 0 → ne ≤ 65536 → x.scat.idle = true →
      ∃ acc, exec (.epiSzero k c w) s = s.afterIssue k c w
          ((s.setCore k { x with scat := { x.scat with acc := acc } }).launch k c .epi 2 (complObj (s.sB k c w)) [] .plain) ∧
        ∀ e, e < 65536 → sget 0 acc e = if (e + 65536 - e0) % 65536 < ne then 0 else sget 0 x.scat.acc e)) ∧
    (∀ bank waited a rest, sget [] x.scat.queues bank = a :: rest →
      ∃ t, exec (.scatterAddIssue k bank waited) s = .next t ∧
        (∀ e, sget 0 (t.core k).scat.acc e =
          if e = a.entry then toF32 ((f32 (sget 0 x.scat.acc e)).add (f32 a.value)) else sget 0 x.scat.acc e) ∧
        SameOtherCores s t k ∧ t = { s with cores := t.cores } ∧
        (t.core k).cnt = (if waited then (x.count 0x2CC 1).cnt else x.cnt)) ∧
    (∀ bank waited, sget [] x.scat.queues bank = [] → exec (.scatterAddIssue k bank waited) s = .next s)) ∧
  (∀ (k c : Nat) (w : W64) (s : State),
    let x := s.core k
    let e0 := (s.sA k c w).toNat % 65536
    let ne := fImm w % 2 ^ 17
    let epi := sget 0 x.sheaf.epi (fImm w / 2 ^ 18 % 4)
    let e := readEpi epi.toNat
    let job : TileJob := { kind := .stream, word := 0, desc := 0, y0 := 0, xt := 0, yt := 0, aux := 0, epi := epi }
    let s1 := (drainWords x e e0 ne).foldl (fun s o => s.writeWord k { id := 0, ctx := c, unit := .epi, cls := 2, bind := (s.ctx k c).bind } job o) s
    s.Accepts k c w 0x32 0 .epi → e.refusal 1 true 128 = none → e.corr = false → ne % 32 = 0 → ne ≤ 65536 →
    (ne = 0 → exec (.epiSdrain k c w) s = s.afterIssue k c w (s.launch k c .epi 2 (complObj (s.sB k c w)) [] .empty)) ∧
    (ne ≠ 0 → x.scat.idle = true → ∃ acc, exec (.epiSdrain k c w) s = s.afterIssue k c w
        ((s1.setCore k { s1.core k with scat := { (s1.core k).scat with acc := acc } }).launch k c .epi 2 (complObj (s.sB k c w)) [] .plain) ∧
      ∀ i, i < 65536 → sget 0 acc i = if bit (fImm w) 17 ∧ (i + 65536 - e0) % 65536 < ne then 0 else sget 0 (s1.core k).scat.acc i))

/-! ### Slots and synchronisation objects (R351 to R355, R377 to R379) -/

namespace Sys2Proof.Machine

/-- Object `n` holds `v`, every other object what it held. -/
def WritesObj (s t : State) (n : Nat) (v : W32) : Prop := ∀ m, t.obj m = if m = n then v else s.obj m

/-- Each waiter of object `n` is tested once against the new value `v` and keeps its place; no other waiter is touched (R378). -/
def TestsWaiters (s t : State) (n : Nat) (v : W32) : Prop :=
  ∀ m, sget [] t.waiters m = if m = n then (sget [] s.waiters n).map (fun x => match s.waitOf x with
      | some y => { x with satisfied := x.satisfied || y.kind.holds v }
      | none => x)
    else sget [] s.waiters m

/-- The instruction joins its unit's queue behind those in flight. -/
def Queues (s t : State) (k c : Nat) (u : UnitId) (cls : Nat) (before : List InFlight) (results : List Result) : Prop :=
  (t.core k).ops = before ++ [{ id := (s.core k).nextId, ctx := c, unit := u, cls := cls, bind := (s.ctx k c).bind, results := results }] ∧
    (t.core k).nextId = (s.core k).nextId + 1

/-- Everything but core `k`, its items, the objects and their waiters is as before; of core `k` its contexts and its instructions in flight may
differ, of its contexts the program counter of context `c`. -/
def OnlyObjects (s t : State) (k c : Nat) : Prop :=
  t = { s with cores := t.cores, reqs := t.reqs, objs := t.objs, waiters := t.waiters } ∧ SameOtherCores s t k ∧
    t.core k = { s.core k with ctxs := (t.core k).ctxs, ops := (t.core k).ops, nextId := (t.core k).nextId } ∧
    t.ctx k c = { s.ctx k c with pc := (s.ctx k c).pc + 8 } ∧ ∀ i, i ≠ c → t.ctx k i = s.ctx k i

end Sys2Proof.Machine


/-- SLOT.GET and SLOT.PUT test F - (k + 1) and D + N - (k + 1); when not negative they return BASE + (k mod N) × ESIZE in s[D], and otherwise they
wait on the object for that address. SLOT.FILL and SLOT.DRAIN add 1 to F and D as SYNC.SIGNAL does. A descriptor out of its form, or an object not
granted, is refused with FLT_ARG_RANGE; that a BASE or an ESIZE out of its form is such a descriptor is the model's choice (log 11). -/
def Obligations.SlotInstructionsGuardTheirRing : Prop :=
  ∀ (k c : Nat) (w : W64) (s : State),
    let desc := readSlotDesc (s.core k).scratch (s.sA k c w).toNat
    let pos : W32 := (s.sB k c w).truncate 32
    (∀ d, desc = some d → s.objGranted k d.objF = true → s.objGranted k d.objD = true →
      let va : W64 := BitVec.ofNat 64 (d.base + pos.toNat % d.n * d.esize)
      (∀ row ∈ [((0x80, d.objF, (0 : W32)), Instr.slotGet), ((0x81, d.objD, BitVec.ofNat 32 d.n), Instr.slotPut)],
        let room : W32 := s.obj row.1.2.1 + row.1.2.2 - (pos + 1)
        s.Issues k c w row.1.1 0 →
        (0 ≤ room.toInt → ∃ t, exec (row.2 k c w) s = .next t ∧ WritesScalar s t k c (fD w) va ∧
          OnlyScalars s t k c ((s.ctx k c).pc + 8) ∧ OnlyContext s t k c) ∧
        (room.toInt < 0 → exec (row.2 k c w) s = s.afterIssue k c w
          ((s.setCtx k c { s.ctx k c with mode := .wait
                                          wait := some { kind := .slot row.1.2.1 row.1.2.2 pos (fD w) va, wdExp := (s.core k).wdExp, bind := (s.ctx k c).bind } }).addWaiter
            row.1.2.1 { core := k, who := .ctx c }))) ∧
      (∀ row ∈ [((0x82, d.objF), Instr.slotFill), ((0x83, d.objD), Instr.slotDrain)],
        s.Accepts k c w row.1.1 0 .slot →
        ∃ t, exec (row.2 k c w) s = .next t ∧ WritesObj s t row.1.2 (s.obj row.1.2 + 1) ∧ TestsWaiters s t row.1.2 (s.obj row.1.2 + 1) ∧
          Queues s t k c .slot 7 (s.core k).ops [] ∧ OnlyObjects s t k c)) ∧
    ((desc = none ∨ ∃ d, desc = some d ∧ (s.objGranted k d.objF = false ∨ s.objGranted k d.objD = false)) →
      (s.Issues k c w 0x80 0 → exec (.slotGet k c w) s = s.afterRefusal k c fltArgRange) ∧
      (s.Issues k c w 0x81 0 → exec (.slotPut k c w) s = s.afterRefusal k c fltArgRange) ∧
      (s.Accepts k c w 0x82 0 .slot → exec (.slotFill k c w) s = s.afterRefusal k c fltArgRange) ∧
      (s.Accepts k c w 0x83 0 .slot → exec (.slotDrain k c w) s = s.afterRefusal k c fltArgRange))

/-- SYNC.SIGNAL adds its amount to a granted object modulo 2^32 and tests each of its waiters. SYNC.FADD does the same, SYNC.CMP writes the new
value when the object equals the old one; both put the value before on its way to s[D]. SYNC.WAIT goes on at once when the signed distance from
its amount to the object is not negative, and otherwise waits at the end of the object's list with the watchdog limit of that moment. An object
that is not granted is refused. WAIT_SATISFIED takes every waiter whose condition has held off its object's list and leaves the others in their
order. Where those it takes are contexts, of cores whose waits are all on objects or for a step boundary, each goes back to RUN, one on a SLOT wait with
its entry's address in its register, and no other context and no object changes. -/
def Obligations.ObjectsAndTheirWaiters : Prop :=
  ((∀ (k c : Nat) (w : W64) (s : State),
      let n := syncObj (s.ctx k c) w
      let amount : W32 := BitVec.ofNat 32 ((s.sB k c w).toNat + fImm w / 2 ^ 17 % 2 ^ 17)
      let old := s.obj n
      let before := ((s.core k).dropScalar c (fD w)).ops
      n = ((s.sA k c w).toNat + fImm w % 2 ^ 17) % 131072 ∧
      (s.Accepts k c w 0x90 0 .sync → s.objGranted k n = true →
        ∃ t, exec (.syncSignal k c w) s = .next t ∧ WritesObj s t n (old + amount) ∧ TestsWaiters s t n (old + amount) ∧
          Queues s t k c .sync 8 (s.core k).ops [] ∧ OnlyObjects s t k c) ∧
      (s.Accepts k c w 0x92 0 .sync → s.objGranted k n = true →
        ∃ t, exec (.syncFadd k c w) s = .next t ∧ WritesObj s t n (old + amount) ∧ TestsWaiters s t n (old + amount) ∧
          Queues s t k c .sync 8 before [.scalar (fD w) (old.zeroExtend 64)] ∧ OnlyObjects s t k c) ∧
      (s.Accepts k c w 0x93 0 .sync → s.objGranted k n = true → old = (s.sB k c w).truncate 32 →
        ∃ t, exec (.syncCmp k c w) s = .next t ∧ WritesObj s t n ((s.sB k c w).extractLsb' 32 32) ∧
          TestsWaiters s t n ((s.sB k c w).extractLsb' 32 32) ∧
          Queues s t k c .sync 8 before [.scalar (fD w) (old.zeroExtend 64)] ∧ OnlyObjects s t k c) ∧
      (s.Accepts k c w 0x93 0 .sync → s.objGranted k n = true → old ≠ (s.sB k c w).truncate 32 →
        ∃ t, exec (.syncCmp k c w) s = .next t ∧ t.objs = s.objs ∧ t.waiters = s.waiters ∧
          Queues s t k c .sync 8 before [.scalar (fD w) (old.zeroExtend 64)] ∧ OnlyObjects s t k c) ∧
      (s.objGranted k n = false →
        (s.Accepts k c w 0x90 0 .sync → exec (.syncSignal k c w) s = s.afterRefusal k c fltArgRange) ∧
        (s.Accepts k c w 0x92 0 .sync → exec (.syncFadd k c w) s = s.afterRefusal k c fltArgRange) ∧
        (s.Accepts k c w 0x93 0 .sync → exec (.syncCmp k c w) s = s.afterRefusal k c fltArgRange) ∧
        (s.Issues k c w 0x91 0 → exec (.syncWait k c w) s = s.afterRefusal k c fltArgRange))) ∧
    (∀ (k c : Nat) (w : W64) (s : State),
      let n := syncObj (s.ctx k c) w
      let amount : W32 := BitVec.ofNat 32 ((s.sB k c w).toNat + fImm w / 2 ^ 17 % 2 ^ 17)
      s.Issues k c w 0x91 0 → s.objGranted k n = true →
      (0 ≤ (s.obj n - amount).toInt → exec (.syncWait k c w) s = s.afterIssue k c w s) ∧
      ((s.obj n - amount).toInt < 0 →
        exec (.syncWait k c w) s = s.afterIssue k c w
          ((s.setCtx k c { s.ctx k c with mode := .wait, wait := some { kind := .sync n amount, wdExp := (s.core k).wdExp, bind := (s.ctx k c).bind } }).addWaiter n
            { core := k, who := .ctx c })))) ∧
  (∀ (n : Nat) (s : State),
      let go := (sget [] s.waiters n).filter (·.satisfied)
      let s1 := { s with waiters := sput [] s.waiters n ((sget [] s.waiters n).filter fun w => !w.satisfied) }
      exec (.waitSatisfied n) s = .next (go.foldl State.releaseWaiter s1) ∧
      ((∀ w ∈ go, ∃ i, w.who = .ctx i) → (∀ w ∈ go, ∀ i y, (s.ctx w.core i).wait = some y → y.kind = .step ∨ y.kind.obj?.isSome = true) →
        ∃ t, exec (.waitSatisfied n) s = .next t ∧ t = { s with cores := t.cores, waiters := t.waiters } ∧
          (∀ m, sget [] t.waiters m = if m = n then (sget [] s.waiters n).filter fun w => !w.satisfied else sget [] s.waiters m) ∧
          (∀ w ∈ go, ∀ c, w.who = .ctx c →
            (t.ctx w.core c).mode = .run ∧ (t.ctx w.core c).wait = none ∧
            ∀ o plus pos d a e b r, (s.ctx w.core c).wait = some { kind := .slot o plus pos d a, wdExp := e, bind := b } →
              (t.ctx w.core c).readS r = if r = 0 then 0 else if r = d then a else (s.ctx w.core c).readS r) ∧
          (∀ k c, (∀ w ∈ go, w.core = k → w.who ≠ .ctx c) → t.ctx k c = s.ctx k c)))

/-! ### Items and sessions of a context (R293, R298, R304, R356 to R359, R396 to R400) -/

/-- SESS.ITEM names an item of a request of the partition, FAILED as the item stands, or names none. SESS.END without its final bit drops the name;
with it, the item ends DONE, or FAILED with its first fault, once no earlier-issued instruction of the core that is bound to it is in flight or waits;
an item that has ended meanwhile is not ended again, and no later item that takes its number is touched. SESS.STEP waits for the step boundary. -/
def Obligations.ContextsNameAndEndItems : Prop :=
  ∀ (k c : Nat) (w : W64) (s : State),
    let x := s.ctx k c
    let r := (s.sA k c w).toNat % 2 ^ 14
    let i := (s.sA k c w).toNat / 2 ^ 32 % 2 ^ 32
    let name := some (x.item.req, x.item.item)
    let bound := (∃ o ∈ (s.core k).ops, o.bind = name) ∨ ∃ n, n < 4 ∧ ∃ y, (s.ctx k n).wait = some y ∧ y.bind = name
    (s.Issues k c w 0xA0 0 → bit (fImm w) 0 = true →
      (∀ q, s.request r = some q → some q.part = s.partOf k → i < q.count →
        exec (.sessItem k c w) s = s.afterIssue k c w (s.setCtx k c { x with item := { valid := true, req := r, item := i, failed :=
          (q.item i).fault != 0 || (q.item i).status == .failed || (q.item i).status == .cancelled, past := (q.item i).status != .open } })) ∧
      (∀ q, s.request r = some q → (some q.part ≠ s.partOf k ∨ q.count ≤ i) → exec (.sessItem k c w) s = s.afterRefusal k c fltArgRange) ∧
      (s.request r = none → exec (.sessItem k c w) s = s.afterRefusal k c fltArgRange)) ∧
    (s.Issues k c w 0xA0 0 → bit (fImm w) 0 = false →
      exec (.sessItem k c w) s = s.afterIssue k c w (s.setCtx k c { x with item := { x.item with valid := false } })) ∧
    (s.Issues k c w 0xA1 0 → bit (fImm w) 0 = false → x.item.valid = true →
      exec (.sessEnd k c w) s = s.afterIssue k c w (s.setCtx k c { x with item := { x.item with valid := false } })) ∧
    (∀ p, s.Issues k c w 0xA1 0 → bit (fImm w) 0 = true → s.partOf k = some p →
      ((s.part p).cplHeld = true → exec (.sessEnd k c w) s = .next s) ∧
      ((s.part p).cplHeld = false → x.item.valid = false → exec (.sessEnd k c w) s = s.afterIssue k c w s) ∧
      ((s.part p).cplHeld = false → x.item.valid = true → x.item.past = true → exec (.sessEnd k c w) s = s.afterIssue k c w s) ∧
      ((s.part p).cplHeld = false → x.item.valid = true → x.item.past = false → bound →
        ∃ ids cs, exec (.sessEnd k c w) s = s.afterIssue k c w
          (s.setCtx k c { x with mode := .wait, wait := some { kind := .sessEnd ids cs, wdExp := (s.core k).wdExp, bind := name } }) ∧
          (∀ n, n ∈ ids ↔ ∃ o ∈ (s.core k).ops, o.id = n ∧ o.bind = name) ∧
          (∀ n, n ∈ cs ↔ n < 4 ∧ ∃ y, (s.ctx k n).wait = some y ∧ y.bind = name)) ∧
      ((s.part p).cplHeld = false → x.item.valid = true → x.item.past = false → ¬bound →
        s.itemOpen x.item.req x.item.item = false → exec (.sessEnd k c w) s = s.afterIssue k c w s) ∧
      (∀ q, (s.part p).cplHeld = false → x.item.valid = true → x.item.past = false → ¬bound →
        s.request x.item.req = some q → x.item.item < q.count → (q.item x.item.item).status = .open →
        let f := (q.item x.item.item).fault
        let t := s.setCore k ((s.core k).clearItem x.item.req x.item.item)
        exec (.sessEnd k c w) s = s.afterIssue k c w (t.endItem x.item.req x.item.item (if f = 0 then .done else .failed) f))) ∧
    (s.Issues k c w 0xA2 0 →
      exec (.sessStep k c w) s = s.afterIssue k c w
        (s.setCtx k c { x with mode := .wait, wait := some { kind := .step, wdExp := (s.core k).wdExp, bind := x.bind } })) ∧
    (∀ m n, ((s.endWait k c m).ctx k n).wait = if n = c then none else (s.ctx k n).wait.map fun y => match y.kind with
      | .sessEnd ids cs => { y with kind := .sessEnd ids (cs.filter (· != c)) }
      | _ => y) ∧
    (∀ ids cs e b, x.wait = some { kind := .sessEnd ids cs, wdExp := e, bind := b } →
      ((cs ≠ [] ∨ ∃ o ∈ (s.core k).ops, o.id ∈ ids) → s.recheck k c = s) ∧
      (cs = [] → (∀ o ∈ (s.core k).ops, o.id ∉ ids) →
        (∀ r i, b = some (r, i) → s.recheck k c = (s.finishItem k r i).endWait k c .run) ∧ (b = none → s.recheck k c = s.endWait k c .run)))

/-- SESS.NEXT takes the oldest request of its core group's queue, marks it assigned, moves it in its session's counts, and puts on its way to s[D]
the request, the session and bit 63; from an empty queue it takes nothing and answers 0. SESS.HINT applies its kind to each placement unit that its range
touches (PIN pins it, UNPIN unpins it, HOT makes its heat 255, COLD makes it 0 and the unit the first to be demoted), counts the units not mapped, and
stops at a PIN that would pass the pin quota, which fails the item with FLT_PIN_QUOTA. A range beyond 2^48 is refused. -/
def Obligations.NextRequestAndHints : Prop :=
  (∀ (k c : Nat) (w : W64) (s : State), s.Accepts k c w 0xA3 0 .sess →
    let g := groupOf k
    let done := fun (t : State) (v : W64) =>
      s.afterIssue k c w ((t.setCore k ((t.core k).dropScalar c (fD w))).launch k c .sess 9 [] [.scalar (fD w) v] .plain)
    (sget [] s.queues g = [] → exec (.sessNext k c w) s = done s 0) ∧
    (∀ r rest q, sget [] s.queues g = r :: rest → s.request r = some q →
      let t : State := ({ s with queues := sput [] s.queues g rest }).setRequest r
        { q with assigned := true, takenAt := (s.part q.part).prog.step.toNat }
      (q.session = none → exec (.sessNext k c w) s = done t (BitVec.ofNat 64 (r % 2 ^ 14 + 2 ^ 63))) ∧
      (∀ n, q.session = some n →
        exec (.sessNext k c w) s = done
          (t.setSess n { s.sessOf n with queued := (s.sessOf n).queued - 1, assigned := (s.sessOf n).assigned + 1 })
          (BitVec.ofNat 64 (r % 2 ^ 14 + n % 2 ^ 18 * 2 ^ 14 + 2 ^ 63))))) ∧
  (∀ (k c : Nat) (w : W64) (s : State), s.Accepts k c w 0xA4 0 .sess →
    let lo := (s.sA k c w).toNat
    let n := (s.sB k c w).toNat
    (2 ^ 48 < lo + n → exec (.sessHint k c w) s = s.afterRefusal k c fltArgRange) ∧
    (∀ p m skips overs, lo + n ≤ 2 ^ 48 → s.partOf k = some p →
      hintUnits (fImm w % 8) (s.part p).grant.pinQuota (unitBases (s.part p).arena lo n) (s.part p).mem 0 = (m, skips, overs) →
      let t := (s.setPart p { (s.part p).count 0x1034 skips with mem := m }).launch k c .sess 9 [] [] (if n = 0 then .empty else .plain)
      exec (.sessHint k c w) s = s.afterIssue k c w (if overs then (t.faultAt k c (s.ctx k c).bind fltPinQuota).faultLast k else t))) ∧
  (∀ (quota a : Nat) (m : Sys2Proof.Machine.Mem) (u : Sys2Proof.Machine.PUnit),
    (u.pinned = false → m.pinUsed + u.pinCount ≤ quota → hintUnit 0 quota m a u = some (m.setUnit a { u with pinned := true })) ∧
    (u.pinned = false → quota < m.pinUsed + u.pinCount → hintUnit 0 quota m a u = none) ∧
    hintUnit 1 quota m a u = some (m.setUnit a { u with pinned := false }) ∧
    hintUnit 2 quota m a u = some (m.setUnit a { u with heat := 255, cold := false }) ∧
    hintUnit 3 quota m a u = some (m.setUnit a { u with heat := 0, cold := true }))

/-! ### FAB instructions (R360, R361) -/

/-- FAB.GET and FAB.PUT of a range inside the window that their import-table entry names, on another module, take the entry's key, epoch and gap
timer and join the unit's queue; one of no bytes completes in the cycle after. A misaligned descriptor, address or length, an empty entry, a range
outside the window, a wrong module or this module itself is refused. -/
def Obligations.FabricTransfersTakeTheirWindow : Prop :=
  ∀ row ∈ [((0xB0, false), Instr.fabGet), ((0xB1, true), Instr.fabPut)], ∀ (k c : Nat) (w : W64) (s : State) (bs : List Byte) (p : Nat),
    let va := (s.sA k c w + sextImm w).toNat
    let v := leNat bs
    let off := bits v 0 45
    let la := bits v 64 48
    let n := bits v 128 40
    let e := (s.part p).rwin (bits v 192 12)
    s.Accepts k c w row.1.1 0 .fab → s.partOf k = some p →
    let reserved := bits v 57 7 + bits v 112 16 + bits v 168 24 + bits v 222 34
    let readable := va % 32 = 0 ∧ reachesHole va 32 = false ∧ s.readAt k va 32 = .ok bs
    (readable → reserved = 0 → e.size ≠ 0 → bits v 45 12 ≠ s.fabric.id → off % 4 = 0 → la % 4 = 0 → n % 4 = 0 → reachesHole la n = false →
      (n ≠ 0 → e.module = bits v 45 12 ∧ e.ebase ≤ off ∧ off + n ≤ e.ebase + e.size) →
      exec (row.2 k c w) s = s.afterIssue k c w ((s.touchAt k va 32).launch k c .fab 10 (if bit v 221 then [bits v 204 17] else []) []
        (if n = 0 then .empty else
          .fab { put := row.1.2, module := bits v 45 12, goff := off, laddr := la, len := n, key := e.key, epoch := e.epoch, gapUs := e.gapUs }))) ∧
    ((va % 32 ≠ 0 ∨ reachesHole va 32 = true) → exec (row.2 k c w) s = s.afterRefusal k c fltArgRange) ∧
    (readable → (reserved ≠ 0 ∨ e.size = 0 ∨ bits v 45 12 = s.fabric.id ∨ off % 4 ≠ 0 ∨ la % 4 ≠ 0 ∨ n % 4 ≠ 0 ∨ reachesHole la n = true ∨
        (n ≠ 0 ∧ (e.module ≠ bits v 45 12 ∨ off < e.ebase ∨ e.ebase + e.size < off + n))) →
      exec (row.2 k c w) s = s.afterRefusal k c fltArgRange)

/-! ### Command rings and their records (R474 to R480, R505 to R509) -/

namespace Sys2Proof.Machine

/-- The non-critical commands of a command ring, with their CODEs (R478) and their bodies (R481). -/
def cmdRows (host : Option Nat) (m : MemErr) (fab : Option FabFault) (ok : Bool) :
    List ((Nat → Entry → Instr) × Nat × List (Nat × Nat × Nat)) :=
  [(.cancel, 0x02, [(0x08, 0, 32)]), (fun p e => .start p e fab, 0x03, startBody), (.stop, 0x04, []), (.memMap, 0x05, memBody),
   (.memUnmap, 0x06, memBody), (fun p e => .hcopy p e host m, 0x07, hcopyBody), (.streamCfg, 0x08, streamCfgBody),
   (fun p e => .chunk p e ok, 0x09, chunkBody), (.cxlWin, 0x0A, winBody), (.kvArena, 0x10, memBody)] ++
  [(.sessOpen, 0x11, sessOpenBody), (.sessClose, 0x12, sessBody), (.sessTrim, 0x13, sessBody ++ [(0x10, 0, 64)]),
   (fun p e => .sessQuery p e ok, 0x14, sessBody ++ [(0x10, 0, 64)]), (.winImport, 0x1B, winImportBody), (.winForget, 0x1C, winBody)]

/-- Vector `v` of port `n` has been raised between two states: sent, or, where the host masks it or the port is in D3hot, pending (R509; log 66); a port
before the release of its PERST_Nn raises none (R578). -/
def Raised (s t : State) (n v : Nat) : Prop :=
  if (s.port n).released = false then t.out = s.out ∧ (t.port n).pendingVectors = (s.port n).pendingVectors
  else if (s.port n).d3hot = true ∨ (s.port n).masked.contains v = true then t.out = s.out ∧ v ∈ (t.port n).pendingVectors
  else t.out = .msix n v :: s.out ∧ (t.port n).pendingVectors = (s.port n).pendingVectors

/-- Words 0 to 7 of a record, without its phase bit (R505). -/
def recWord (b : BitVec 256) (i : Nat) : Nat := b.toNat / 2 ^ (32 * i) % 2 ^ 32

end Sys2Proof.Machine


/-- The record of a command holds STATUS, KIND 1, the entry's index, the fault code, the RESULT, the entry's TAG and TIMEBASE. With room in the
ring and nothing held, it is written at the ring's TAIL with the ring's PHASE, TAIL moves on, PHASE turns over at the wrap, and no other byte of the
host's memory changes. While the ring is full or disabled, or its port takes part in no traffic (log 66), the record is held behind those held. -/
def Obligations.RecordsAreWrittenAtTheTail : Prop :=
  ∀ (p : Nat) (o : Owed) (st : RecStatus) (f : FaultCode) (result : Nat) (s : State),
    let b := s.part p
    let r := b.cpl.ring
    let rec' := (cmdRecord s o st f result).bits
    (recWord rec' 0 = st.code * 2 ^ 14 + 2 ^ 17 ∧ recWord rec' 1 = o.index % 2 ^ 32 ∧ recWord rec' 2 = f.toNat ∧
      recWord rec' 3 = result % 2 ^ 32 ∧ recWord rec' 4 = 0 ∧ recWord rec' 5 = 0 ∧ recWord rec' 6 = o.tag.toNat ∧
      recWord rec' 7 = s.time % 2 ^ 32) ∧
    (r.en = false ∨ r.isFull = true ∨ s.portUp b.port = false →
      let t := s.cmdDone p o st f result
      t.hostMem = s.hostMem ∧ (t.part p).cpl.held = b.cpl.held ++ [cmdRecord s o st f result]) ∧
    (r.en = true → r.isFull = false → b.cpl.held = [] → s.portUp b.port = true →
      let t := s.cmdDone p o st f result
      let at' := r.base.toNat + 32 * r.tail
      (∀ i, i < 32 → sget 0 (t.hostMemOf b.port) (at' + i) =
        BitVec.ofNat 8 ((if b.cpl.phase then rec' ||| 0x10000#256 else rec').toNat / 256 ^ i)) ∧
      (∀ a, (a < at' ∨ at' + 32 ≤ a) → sget 0 (t.hostMemOf b.port) a = sget 0 (s.hostMemOf b.port) a) ∧
      (t.part p).cpl.ring.tail = (if 2 ^ r.log2 ≤ r.tail + 1 then 0 else r.tail + 1) ∧
      (t.part p).cpl.phase = (if 2 ^ r.log2 ≤ r.tail + 1 then !b.cpl.phase else b.cpl.phase) ∧ (t.part p).cpl.held = [] ∧
      t = { s with parts := t.parts, hostMem := t.hostMem, out := t.out, ports := t.ports } ∧ (∀ q, q ≠ p → t.part q = s.part q) ∧
      (∀ n, t.port n = { s.port n with pendingVectors := (t.port n).pendingVectors }) ∧
      t.part p = { b with cpl := (t.part p).cpl })

/-- A command of a partition's command ring that the module does not fetch (the ring disabled, halted or empty, the completion ring full or
disabled, another stage than 9) changes nothing. A fetched one with AUTH = 1 or a reserved bit set has no effect: HEAD moves on and its record is
FAILED with FLT_ARG_RANGE; an entry is run by its CODE alone. RING_TAIL_WRITE sets TAIL within the ring's size, and beyond it halts the ring and
raises the event vector, which stays pending while the host masks it (R509). A register write that lets held records go lets a PART_DESTROY go on
(log 63). RING_CTL_WRITE enables rings and clears HALT by a 1. CPL_HEAD_WRITE ignores a value beyond the size. RING_FETCH_FAIL halts the ring and leaves
HEAD, and every other field of the block. IRQ_MOD_EXPIRY raises VEC_CPL for records written since. UNLISTED_CODE_ENTRY fails with FLT_CMD_UNKNOWN.
Another port's write changes nothing (R471), nor one through a port that takes part in no traffic (log 66). -/
def Obligations.RingEntriesAndRegisters : Prop :=
  (∀ (host : Option Nat) (m : MemErr) (fab : Option FabFault) (ok : Bool), ∀ row ∈ cmdRows host m fab ok, ∀ (p : Nat) (e : Entry) (s : State),
      (s.canFetchCmd p = false → exec (row.1 p e) s = .next s) ∧
      (eCode e ≠ row.2.1 → exec (row.1 p e) s = exec (.unlistedCodeEntry (.cmd p) e) s) ∧
      (eCode e = row.2.1 → s.canFetchCmd p = true → (eAuth e = true ∨ entryOk row.2.2 e = false) →
        exec (row.1 p e) s = s.cmdFails p e (s.setPart p { s.part p with cmd := { (s.part p).cmd with
          head := ((s.part p).cmd.head + 1) % 2 ^ (s.part p).cmd.log2 } }) fltArgRange)) ∧
  (∀ (n p : Nat) (v : W32) (s : State),
      let b := s.part p
      let value := v.toNat % 2 ^ 16
      (s.owns n p = false → exec (.ringTailWrite n (.cmd p) v) s = .next s ∧ exec (.ringTailWrite n (.req p) v) s = .next s ∧
        exec (.cplHeadWrite n (.cmd p) v) s = .next s ∧ exec (.ringCtlWrite n (.cmd p) v) s = .next s) ∧
      (s.owns n p = true →
        (value < 2 ^ b.cmd.log2 → exec (.ringTailWrite n (.cmd p) v) s = .next (s.setPart p { b with cmd := { b.cmd with tail := value } })) ∧
        (2 ^ b.cmd.log2 ≤ value → ∃ t, exec (.ringTailWrite n (.cmd p) v) s = .next t ∧
          OnlyPart { s with out := t.out, ports := t.ports } t p ∧
          t.part p = { b with cmd := { b.cmd with halt := true, en := false } } ∧ Raised s t b.port b.grant.vecEvt) ∧
        (value < 2 ^ b.req.log2 → exec (.ringTailWrite n (.req p) v) s = .next (s.setPart p { b with req := { b.req with tail := value } })) ∧
        (2 ^ b.req.log2 ≤ value → ∃ t, exec (.ringTailWrite n (.req p) v) s = .next t ∧
          OnlyPart { s with out := t.out, ports := t.ports } t p ∧
          t.part p = { b with req := { b.req with halt := true, en := false } } ∧ Raised s t b.port b.grant.vecEvt) ∧
        exec (.ringCtlWrite n (.cmd p) v) s = .next ((s.setPart p { b with
          req := { b.req with en := v.getLsbD 0, halt := b.req.halt && !v.getLsbD 8 }
          cmd := { b.cmd with en := v.getLsbD 1, halt := b.cmd.halt && !v.getLsbD 9 }
          cpl := { b.cpl with ring := { b.cpl.ring with en := v.getLsbD 2 } } }).settlePart p |>.destroyHeld p) ∧
        exec (.cplHeadWrite n (.cmd p) v) s = .next ((s.setPart p { b with cpl := { b.cpl with ring := { b.cpl.ring with
          head := if 2 ^ b.cpl.ring.log2 ≤ value then b.cpl.ring.head else value } } }).settlePart p |>.destroyHeld p)) ∧
      (s.canFetchCmd p = true → ∃ t, exec (.ringFetchFail (.cmd p)) s = .next t ∧
        t.part p = { b with cmd := { b.cmd with halt := true, en := false } } ∧ Raised s t b.port b.grant.vecEvt) ∧
      (s.canFetchReq p = true → ∃ t, exec (.ringFetchFail (.req p)) s = .next t ∧
        t.part p = { b with req := { b.req with halt := true, en := false } } ∧ Raised s t b.port b.grant.vecEvt) ∧
      (b.state ≠ .free → b.cpl.since ≠ 0 → b.cpl.irqUs ≠ 0 → ∃ t, exec (.irqModExpiry p) s = .next t ∧
        t.part p = { b with cpl := { b.cpl with since := 0 } } ∧ Raised s t b.port b.grant.vecCpl) ∧
      (∀ e, s.canFetchCmd p = true → eCode e ∉ cmdRingCodes →
        exec (.unlistedCodeEntry (.cmd p) e) s = s.cmdFails p e (s.takeCmd p) fltCmdUnknown) ∧
      (let a := s.port n
       (s.portUp n = false → exec (.ringTailWrite n (.adm n) v) s = .next s ∧ exec (.ringCtlWrite n (.adm n) v) s = .next s ∧
        exec (.cplHeadWrite n (.adm n) v) s = .next s) ∧
       (s.portUp n = true → value < 2 ^ a.adm.log2 →
        exec (.ringTailWrite n (.adm n) v) s = .next (s.setPort n { a with adm := { a.adm with tail := value } })) ∧
       (s.portUp n = true → 2 ^ a.adm.log2 ≤ value → ∃ t, exec (.ringTailWrite n (.adm n) v) s = .next t ∧
        t.port n = { a with adm := { a.adm with halt := true, en := false }, pendingVectors := (t.port n).pendingVectors } ∧
        (∀ m, m ≠ n → t.port m = s.port m) ∧ t = { s with out := t.out, ports := t.ports } ∧ Raised s t n (Config.adminVector n)) ∧
       (s.portUp n = true → exec (.ringCtlWrite n (.adm n) v) s = .next ((s.setPort n { a with
          adm := { a.adm with en := v.getLsbD 0, halt := a.adm.halt && !v.getLsbD 8 }
          acpl := { a.acpl with ring := { a.acpl.ring with en := v.getLsbD 2 } } }).settlePort n)) ∧
       (s.portUp n = true → exec (.cplHeadWrite n (.adm n) v) s = .next ((s.setPort n { a with acpl := { a.acpl with ring := { a.acpl.ring with
          head := if 2 ^ a.acpl.ring.log2 ≤ value then a.acpl.ring.head else value } } }).settlePort n)) ∧
       (s.canFetchAdm n = true → ∃ t, exec (.ringFetchFail (.adm n)) s = .next t ∧
        t.port n = { a with adm := { a.adm with halt := true, en := false }, pendingVectors := (t.port n).pendingVectors } ∧
        Raised s t n (Config.adminVector n)) ∧
       (∀ e, s.canFetchAdm n = true → eCode e ∉ admRingCodes → s.fuses.lc ≠ .scrap →
        exec (.unlistedCodeEntry (.adm n) e) s = .next ((s.takeAdm n).admDone n (s.admOwed n e) .failed fltCmdUnknown 0))))

/-! ### Memory, copies and streams (R400, R401, R481, R489, R490, R501 to R504) -/

/-- MEM_MAP maps each page of a sound range that is not mapped, zero-filled, and leaves every other byte and every unit that is mapped; where new pages
would pass the quota, or, by the model's choice (log 13), the module's storage cannot back them, it maps none (FLT_MEM_QUOTA). A page placed in Tier F is
counted, and its zeros go to the owner in a transfer (R425, R464; log 67). MEM_UNMAP frees the range's pages and their bytes, and leaves every other unit as
it was, the arena's subpages among them (the model's choice, log 52). KV_ARENA sets the arena. A range that is misaligned, empty, below 0x40_0000 or
beyond 2^48 is refused with FLT_ARG_RANGE. -/
def Obligations.PagesAreMappedZeroFilled : Prop :=
  ∀ (p : Nat) (e : Entry) (s : State), 
    let va := eBits e 0x08 0 48
    let pages := eBits e 0x10 0 32
    let page := 2097152
    let b := s.part p
    let fresh := fun i => (b.mem.unitAt (va + page * i)).isNone
    let sound := va % page = 0 ∧ pages ≠ 0 ∧ 0x400000 ≤ va ∧ va + pages * page ≤ 2 ^ 48
    let new := (List.range pages).filter fresh
    let within := new = [] ∨ b.memUse + new.length ≤ b.grant.memQuota
    let backed := new.foldl (fun (u : Option State) i => u.bind fun u => u.mapUnit p (va + page * i) false 0) (some (s.takeCmd p))
    (s.Fetches p 0x05 e memBody →
     (sound → meetsArena b.arena va (pages * page) = false → within → backed.isSome = true →
      ∃ X, exec (.memMap p e) s = s.cmdIsDone p e X 0 ∧
        OnlyPart { s with fabric := { s.fabric with trans := X.fabric.trans, waiting := X.fabric.waiting } } X p ∧
        X.part p = { b with cmd := b.cmd.advance, mem := (X.part p).mem, cnt := (X.part p).cnt } ∧
        (∀ off, off ≠ 0x1024 → sget 0 (X.part p).cnt off = sget 0 b.cnt off) ∧ (∀ x ∈ b.mem.units, x ∈ (X.mem p).units) ∧
        ((∀ x ∈ (X.mem p).units, x ∈ b.mem.units ∨ x.2.tier ≠ .F) → X.fabric = s.fabric ∧ (X.part p).cnt = b.cnt) ∧
        (∀ i, i < pages → ((X.mem p).unitAt (va + page * i)).isSome = true) ∧
        (∀ a, (∃ i, i < pages ∧ fresh i = true ∧ va + page * i ≤ a ∧ a < va + page * (i + 1)) → sget 0 (X.mem p).bytes a = 0) ∧
        (∀ a, (∀ i, i < pages → fresh i = true → a < va + page * i ∨ va + page * (i + 1) ≤ a) →
          sget 0 (X.mem p).bytes a = sget 0 b.mem.bytes a)) ∧
     (sound → meetsArena b.arena va (pages * page) = false → (¬within ∨ backed = none) →
      exec (.memMap p e) s = s.cmdFails p e (s.takeCmd p) fltMemQuota) ∧
     ((¬sound ∨ meetsArena b.arena va (pages * page) = true) → exec (.memMap p e) s = s.cmdFails p e (s.takeCmd p) fltArgRange)) ∧
    (s.Fetches p 0x06 e memBody →
     (va % page ≠ 0 ∨ pages = 0 → exec (.memUnmap p e) s = s.cmdFails p e (s.takeCmd p) fltArgRange) ∧
    (va % page = 0 → pages ≠ 0 →
      ∃ X, exec (.memUnmap p e) s = s.cmdIsDone p e X 0 ∧ OnlyPart s X p ∧ X.part p = { b with cmd := b.cmd.advance, mem := (X.part p).mem } ∧
        (∀ x ∈ (X.mem p).units, x ∈ b.mem.units ∧ (x.2.sub = true ∨ x.1 < va ∨ va + pages * page ≤ x.1)) ∧
        ((b.mem.units.map (·.1)).Nodup → ∀ x ∈ b.mem.units, x.2.sub = true ∨ x.1 < va ∨ va + pages * page ≤ x.1 → x ∈ (X.mem p).units) ∧
        (∀ x ∈ b.mem.units, x.2.sub = false → va ≤ x.1 → x.1 < va + pages * page → ∀ i, i < page → sget 0 (X.mem p).bytes (x.1 + i) = 0) ∧
        (∀ a, (∀ x ∈ b.mem.units, x.2.sub = false → va ≤ x.1 → x.1 < va + pages * page → a < x.1 ∨ x.1 + page ≤ a) →
          sget 0 (X.mem p).bytes a = sget 0 b.mem.bytes a))) ∧
    (s.Fetches p 0x10 e memBody →
     (sound → (∀ x ∈ s.sess, x.2.part = p → x.2.state = .free) → (∀ x ∈ b.mem.units, va + pages * page ≤ x.1 ∨ x.1 + x.2.size ≤ va) →
      exec (.kvArena p e) s = s.cmdIsDone p e (s.setPart p { b with cmd := b.cmd.advance, arena := some (va, pages) }) 0) ∧
     (¬sound → exec (.kvArena p e) s = s.cmdFails p e (s.takeCmd p) fltArgRange) ∧
     ((∃ x ∈ s.sess, x.2.part = p ∧ x.2.state ≠ .free) → exec (.kvArena p e) s = s.cmdFails p e (s.takeCmd p) fltArgRange) ∧
     ((∃ x ∈ b.mem.units, x.1 < va + pages * page ∧ va < x.1 + x.2.size) → exec (.kvArena p e) s = s.cmdFails p e (s.takeCmd p) fltArgRange))

/-- HCOPY copies LEN bytes between the host's memory and the partition's, byte by byte in ascending address, and leaves every other byte. A host
access that fails stops it there with FLT_HOST_TIMEOUT, an address that cannot be read or written with its fault, whichever comes first (at one byte, by
the model's choice, the side that the direction reads first: log 53); what was copied before stays. Of the fabric only the transactions may change: those
of the Tier F units that the copy touches (R464; log 67). -/
def Obligations.HostCopyMovesBytesUpToAFailure : Prop :=
  ∀ (p : Nat) (e : Entry) (host : Option Nat) (m : MemErr) (s : State), s.Fetches p 0x07 e hcopyBody →
    let ha := eBits e 0x10 0 64
    let va := eBits e 0x18 0 48
    let n := eBits e 0x20 0 32
    let toHost := eBits e 0x08 0 1 = 1
    let u := (s.takeCmd p).strike p m
    let port := (s.part p).port
    let stop := u.hcopyStop p (decide toHost) va n host
    ha % 4 = 0 → va % 4 = 0 → n % 4 = 0 → n ≠ 0 → 0x400000 ≤ va →
    (u.check p (decide toHost) va n = none → (∀ h, host = some h → n ≤ h) → stop = (n, none)) ∧
    (∀ h, u.check p (decide toHost) va n = none → host = some h → h < n → stop = (h, some fltHostTimeout)) ∧
    (∀ f a, u.check p (decide toHost) va n = some (f, a) → (∀ h, host = some h → n ≤ h) → stop = (a - va, some f.code)) ∧
    (∀ f a h, u.check p (decide toHost) va n = some (f, a) → host = some h → h < n →
      stop = if h < a - va ∨ (h = a - va ∧ ¬toHost) then (h, some fltHostTimeout) else (a - va, some f.code)) ∧
    ∃ X, exec (.hcopy p e host m) s = (match stop.2 with
        | none => s.cmdIsDone p e X 0
        | some f => s.cmdFails p e X f) ∧
      X = { u with parts := X.parts, hostMem := X.hostMem, fabric := { u.fabric with trans := X.fabric.trans, waiting := X.fabric.waiting } } ∧
      ((u.mem p).far = [] → (∀ x ∈ (u.mem p).units, x.2.tier ≠ .F) → X.fabric = u.fabric) ∧ (∀ q, q ≠ p → X.part q = u.part q) ∧ (∀ q, q ≠ port → X.hostMemOf q = u.hostMemOf q) ∧
      (toHost → (X.mem p).bytes = (s.mem p).bytes ∧ ∀ a, sget 0 (X.hostMemOf port) a =
        if ha ≤ a ∧ a < ha + stop.1 then sget 0 (s.mem p).bytes (va + (a - ha)) else sget 0 (u.hostMemOf port) a) ∧
      (¬toHost → X.hostMem = u.hostMem ∧ ∀ a, sget 0 (X.mem p).bytes a =
        if va ≤ a ∧ a < va + stop.1 then sget 0 (u.hostMemOf port) (ha + (a - va)) else sget 0 (s.mem p).bytes a)

/-- STREAM_CFG configures a stream, discarding a burst in progress. A CHUNK that begins a burst, or carries the SEQ expected in one, stores its
bytes at DST + offset and moves the offset on modulo DBYTES; LAST signals the object and ends the burst. An earlier SEQ, or one without a burst, is
dropped and counted with RESULT 1; a later one also discards the burst. STREAM_GAP_EXPIRY sets a discarded burst's offset back to its start. -/
def Obligations.StreamsKeepChunksInSequence : Prop :=
  ∀ (p : Nat) (e : Entry) (s : State),
    let b := s.part p
    (let i := eBits e 0x08 0 4
     let gap := eBits e 0x20 0 24
     let u := (s.takeCmd p).discardBurst p i
     s.Fetches p 0x08 e streamCfgBody → eBits e 0x10 0 48 % 64 = 0 → eBits e 0x18 0 32 % 64 = 0 → eBits e 0x18 0 32 ≠ 0 →
      (gap = 0 ∨ (10 ≤ gap ∧ gap ≤ 10000000)) → b.hasObj (eBits e 0x1C 0 17) = true →
      exec (.streamCfg p e) s = s.cmdIsDone p e (u.setPart p ((u.part p).setStream i
        { configured := true, dst := eBits e 0x10 0 48, dbytes := eBits e 0x18 0 32, obj := eBits e 0x1C 0 17,
          gapUs := if gap = 0 then 1000 else gap })) 0) ∧
    (let i := eBits e 0x08 0 4
     let first := bit (eBits e 0x08 0 32) 4
     let last := bit (eBits e 0x08 0 32) 5
     let seq : W32 := BitVec.ofNat 32 (eBits e 0x0C 0 32)
     let ha := eBits e 0x10 0 64
     let n := eBits e 0x18 0 32
     let u := if first then (s.takeCmd p).discardBurst p i else s.takeCmd p
     let x := (u.part p).stream i
     s.Fetches p 0x09 e chunkBody → (b.stream i).configured = true → n ≤ (b.stream i).dbytes → n ≠ 0 → n % 4 = 0 → ha % 4 = 0 →
      ((first = true ∨ ((b.stream i).burst.isSome = true ∧ (b.stream i).expected = some seq)) → u.check p false (x.dst + x.offset) n = none →
        ∃ X, exec (.chunk p e true) s = s.cmdIsDone p e X 0 ∧
          (X.part p).stream i = { x with
            offset := (x.offset + n) % x.dbytes, expected := some (seq + 1)
            burst := if last then none else if first then some x.offset else x.burst
            item := if last then none else if first then u.burstItem p (BitVec.ofNat 32 (eBits e 0x1C 0 32)) (eBits e 0x20 0 32) else x.item } ∧
          (∀ a, sget 0 (X.mem p).bytes a = if x.dst + x.offset ≤ a ∧ a < x.dst + x.offset + n
            then sget 0 (s.hostMemOf b.port) (ha + (a - (x.dst + x.offset))) else sget 0 b.mem.bytes a) ∧
          (∀ o, X.obj o = if last = true ∧ o = x.obj then s.obj o + 1 else s.obj o)) ∧
      (first = false → (b.stream i).burst = none →
        exec (.chunk p e true) s = s.cmdIsDone p e (s.setPart p ({ b with cmd := b.cmd.advance }.count 0x70 1)) 1) ∧
      (∀ ex, first = false → (b.stream i).burst.isSome = true → (b.stream i).expected = some ex → seq.toNat < ex.toNat →
        exec (.chunk p e true) s = s.cmdIsDone p e (s.setPart p ({ b with cmd := b.cmd.advance }.count 0x70 1)) 1) ∧
      (∀ ex, first = false → (b.stream i).burst.isSome = true → (b.stream i).expected = some ex → ex.toNat < seq.toNat →
        let d := (s.takeCmd p).discardBurst p i
        exec (.chunk p e true) s = s.cmdIsDone p e (d.setPart p ((d.part p).count 0x70 1)) 1)) ∧
    (∀ i, ((b.stream i).burst = none → exec (.streamGapExpiry p i) s = .next s) ∧
      (∀ start, (b.stream i).burst = some start → ∃ t, exec (.streamGapExpiry p i) s = .next t ∧
        (t.part p).stream i = { b.stream i with burst := none, item := none, offset := start } ∧ (t.part p).mem = b.mem ∧ t.objs = s.objs))

/-! ### Sessions and requests (R403 to R424, R494 to R500) -/

/-- SESS_OPEN gives the lowest FREE entry its fields, writes its page list with zeros and answers its number; with none FREE it fails with
FLT_SESS_FULL. SESS_CLOSE makes a session CLOSING, SESS_TRIM lowers HIGH to KEEP_TO, SESS_QUERY writes the 64-byte entry into host memory; of a
session that is FREE or another partition's each fails with FLT_SESS_UNKNOWN, of SESS_TRIM and SESS_QUERY of a FREE one by the model's choice (log 52).
SESSION_RELEASE frees a CLOSING session with nothing assigned. -/
def Obligations.SessionsOpenCloseAndRelease : Prop :=
  ∀ (p : Nat) (e : Entry) (s : State),
    let b := s.part p
    (let x : Sess := { state := .open, part := p, fmtK := eBits e 0x08 0 1, fmtV := eBits e 0x08 1 1, dm32 := eBits e 0x08 2 4,
                       layers := eBits e 0x0C 0 12, heads := eBits e 0x0C 12 8, plBase := eBits e 0x10 0 48, spc := eBits e 0x18 0 16 }
     let n := x.layers * x.heads * 2 * x.spc * 256
     s.Fetches p 0x11 e sessOpenBody → 0 < x.dm32 → x.dm32 ≤ 8 → x.layers ≠ 0 → x.heads ≠ 0 → x.spc ≠ 0 → x.plBase % 256 = 0 → b.arena ≠ none →
      0x400000 ≤ x.plBase → x.plBase + n ≤ 2 ^ 48 → b.mem.mapped x.plBase n = true →
      (∀ i, i < 262144 → (s.sessOf i).state = .free → (∀ j, j < i → (s.sessOf j).state ≠ .free) →
        ∃ X, exec (.sessOpen p e) s = s.cmdIsDone p e X i ∧ (∀ j, X.sessOf j = if j = i then x else s.sessOf j) ∧
          (∀ a, sget 0 (X.mem p).bytes a = if x.plBase ≤ a ∧ a < x.plBase + n then 0 else sget 0 b.mem.bytes a) ∧
          X = { s with parts := X.parts, sess := X.sess } ∧ ∀ q, q ≠ p → X.part q = s.part q) ∧
      ((∀ i, i < 262144 → (s.sessOf i).state ≠ .free) → exec (.sessOpen p e) s = s.cmdFails p e (s.takeCmd p) fltSessFull)) ∧
    (let n := eBits e 0x08 0 18
     let x := s.sessOf n
     let o := s.cmdOwed p e
     (x.state = .free ∨ x.part ≠ p →
      (s.Fetches p 0x12 e sessBody → exec (.sessClose p e) s = s.cmdFails p e (s.takeCmd p) fltSessUnknown) ∧
      (s.Fetches p 0x13 e (sessBody ++ [(0x10, 0, 64)]) → exec (.sessTrim p e) s = s.cmdFails p e (s.takeCmd p) fltSessUnknown) ∧
      (s.Fetches p 0x14 e (sessBody ++ [(0x10, 0, 64)]) → eBits e 0x10 0 64 % 64 = 0 →
        ∀ ok, exec (.sessQuery p e ok) s = s.cmdFails p e (s.takeCmd p) fltSessUnknown)) ∧
     (s.Fetches p 0x12 e sessBody → x.part = p →
      (x.state = .closing → exec (.sessClose p e) s = .next ((s.takeCmd p).setSess n { x with closers := x.closers ++ [o] })) ∧
      (x.state = .open →
        let t := (((s.takeCmd p).clearEntries p x x.held).setSess n
          { x with state := .closing, held := [], awaiting := x.awaiting ++ x.held.map (·.va), closers := [o] })
        let u := (t.queuedOf n).foldl (fun t r => t.endItems r .cancelled 0 fun _ => true) t
        exec (.sessClose p e) s = .next (if (u.sessOf n).assigned = 0 then u.releaseSess n else u))) ∧
     (s.Fetches p 0x13 e (sessBody ++ [(0x10, 0, 64)]) → x.state ≠ .free → x.part = p →
      (eBits e 0x14 0 32 < eBits e 0x10 0 32 → exec (.sessTrim p e) s = s.cmdFails p e (s.takeCmd p) fltArgRange) ∧
      (eBits e 0x10 0 32 ≤ eBits e 0x14 0 32 →
        ∃ X, exec (.sessTrim p e) s = s.cmdIsDone p e X 0 ∧ (X.sessOf n).high = min x.high (eBits e 0x14 0 32) ∧
          (∀ h, h ∈ (X.sessOf n).held ↔ h ∈ x.held ∧ eBits e 0x10 0 32 ≠ eBits e 0x14 0 32 ∧
            eBits e 0x10 0 32 < h.u * x.tokens h.cache + x.tokens h.cache ∧ h.u * x.tokens h.cache < eBits e 0x14 0 32))) ∧
     (s.Fetches p 0x14 e (sessBody ++ [(0x10, 0, 64)]) → x.state ≠ .free → x.part = p →
      (eBits e 0x10 0 64 % 64 = 0 →
        exec (.sessQuery p e false) s = s.cmdFails p e (s.takeCmd p) fltHostTimeout ∧
        exec (.sessQuery p e true) s = s.cmdIsDone p e ((s.takeCmd p).setHostMem b.port
          (writeBytes (s.hostMemOf b.port) (eBits e 0x10 0 64) (x.bytes b.mem))) 0))) ∧
    (∀ n, let x := s.sessOf n
     ((x.state = .free ∨ x.assigned ≠ 0) → exec (.sessionRelease n) s = .next s) ∧
     (x.state = .closing → x.assigned = 0 → exec (.sessionRelease n) s = .next (s.releaseSess n) ∧ (s.releaseSess n).sessOf n = {}) ∧
     (x.state = .open → x.assigned = 0 →
      exec (.sessionRelease n) s = .next ((s.setSess n { x with awaiting := [] }).freeSubs x.part x.awaiting)))

/-- REQ takes the lowest free entry of the request table in order of arrival: it writes the request's 64 bytes and joins the queue of the chosen
core group; without items it is DONE at once; of an unknown session, or a request table not mapped, its items fail. The lowest free entry, and the session
tested before the table, are the model's choice (log 52). While the partition has REQ_MAX requests in flight no entry of its ring is taken, whatever it
holds (R497); an entry with another CODE is none of these. CANCEL ends every unbound item of the requests with its TAG and answers their number. -/
def Obligations.RequestsQueueAndCancel : Prop :=
  ∀ (p : Nat) (e : Entry) (s : State),
    let b := s.part p
    let t := s.setPart p { b with req := b.req.advance }
    (s.canFetchReq p = false → exec (.req p e) s = .next s) ∧
    (eCode e ≠ 0x01 → exec (.req p e) s = exec (.unlistedCodeEntry (.req p) e) s) ∧
    (s.canFetchReq p = true → eCode e ≠ 0x01 → exec (.unlistedCodeEntry (.req p) e) s =
      .next (t.cmdDone p { tag := eTag e, index := b.req.head } .failed fltCmdUnknown 0)) ∧
    (s.canFetchReq p = true → eCode e = 0x01 → (eAuth e = true ∨ entryOk reqBody e = false) →
      exec (.req p e) s = .next (t.postPart p (emptyRecord s 0 (eTag e) .failed fltArgRange none))) ∧
    (b.grant.reqMax ≤ s.inFlight p → exec (.req p e) s = .next s ∧ exec (.unlistedCodeEntry (.req p) e) s = .next s ∧
      exec (.ringFetchFail (.req p)) s = .next s) ∧
    (s.canFetchReq p = true → eCode e = 0x01 → eAuth e = false → entryOk reqBody e = true →
      (∀ r, r < 16384 → s.request r = none → (∀ i, i < r → s.request i ≠ none) →
        let n := eBits e 0x0C 0 32
        let sess := if eBits e 0x08 18 1 = 1 then some (eBits e 0x08 0 18) else none
        let known := ∀ i, sess = some i → (s.sessOf i).state = .open ∧ (s.sessOf i).part = p
        let q : Request := { part := p, tag := eTag e, session := sess, count := n, seq := s.reqSeq }
        let u := { t with reqs := s.reqs ++ [(r, q)], reqSeq := s.reqSeq + 1 }
        let fails := fun f => (u.setRequest r { q with session := none }).endItems r .failed f fun _ => true
        (n = 0 → exec (.req p e) s = .next (u.postPart p (emptyRecord s r (eTag e) .done 0 (some r)))) ∧
        (n ≠ 0 → ¬known → exec (.req p e) s = .next (fails fltSessUnknown)) ∧
        (n ≠ 0 → known → s.check p false (b.grant.reqTable + 64 * r) 64 ≠ none → exec (.req p e) s = .next (fails fltMemUnmapped)) ∧
        (n ≠ 0 → known → s.check p false (b.grant.reqTable + 64 * r) 64 = none →
          exec (.req p e) s = .next (((u.setMem p (b.mem.store (b.grant.reqTable + 64 * r) (requestBytes e))).startFarOwn p).enqueue r q)))) ∧
    (s.Fetches p 0x02 e [(0x08, 0, 32)] →
      let hit := (s.reqs.filter fun x => x.2.part == p && x.2.tag == BitVec.ofNat 32 (eBits e 0x08 0 32)).map (·.1)
      ∃ X, exec (.cancel p e) s = s.cmdIsDone p e X hit.length ∧ (hit = [] → X = s.takeCmd p) ∧
        X = hit.foldl (fun u r => (match u.request r with
          | some q => { u with queues := sput [] u.queues q.group ((sget [] u.queues q.group).filter (· != r)) }
          | none => u).endItems r .cancelled 0 fun x => x.bound.isNone) (s.takeCmd p))

/-! ### Programs (R298, R301 to R305, R491 to R493, R531, R534) -/

/-- START of a READY partition puts the NCTX contexts of each of its cores at ENTRY in state RUN, with its rank, the core count, its context
number, NCTX, ARGS and its coordinate in s1 to s6, clears the instruction caches and owes the record; it changes no scratchpad. With a record
to restore it does so first, and fails where no slot verifies or the record does not match. Another state, a health halt or a failed core
refuses it. STOP of a running program holds issue and owes its record; what a failure or a halt had called for is over; of any other it is DONE at
once. That START keeps the partition's step number, and that STOP drops a pending repair, are the model's choice (log 54). -/
def Obligations.StartPutsContextsAtTheirEntry : Prop :=
  ∀ (p : Nat) (e : Entry) (f : Option FabFault) (s : State),
    let b := s.part p
    let entry := eBits e 0x08 0 48
    let n := eBits e 0x18 0 3
    (s.Fetches p 0x03 e startBody → entry % 8 = 0 → 0x400000 ≤ entry → (n = 1 ∨ n = 2 ∨ n = 4) →
      (b.state ≠ .ready → exec (.start p e f) s = s.cmdFails p e (s.takeCmd p) fltPartState) ∧
      (b.state = .ready → s.health.halted = true → exec (.start p e f) s = s.cmdFails p e (s.takeCmd p) fltHealthHalt) ∧
      (b.state = .ready → s.health.halted = false → (∃ k ∈ b.cores, (s.core k).failed = true) →
        exec (.start p e f) s = s.cmdFails p e (s.takeCmd p) fltNoSpare) ∧
      (b.state = .ready → s.health.halted = false → (∀ k ∈ b.cores, (s.core k).failed = false) → eBits e 0x40 0 1 = 0 →
        ∃ t, exec (.start p e f) s = .next t ∧ t = { s with cores := t.cores, parts := t.parts } ∧
          t.part p = { b with cmd := b.cmd.advance, state := .run, kept := none, prog :=
            { entry := entry, args := eBits e 0x10 0 48, nctx := n, step := b.prog.step, start := some (s.cmdOwed p e), faults := b.prog.faults } } ∧
          (∀ q, q ≠ p → t.part q = s.part q) ∧ (∀ k, k ∉ b.cores → t.core k = s.core k) ∧
          (∀ k ∈ b.cores, t.core k = { s.core k with nctx := n, icache := [], ctxs := (t.core k).ctxs } ∧
            ∀ c, c < n → (t.ctx k c).mode = .run ∧ (t.ctx k c).pc = BitVec.ofNat 64 entry ∧ (t.ctx k c).wait = none ∧ (t.ctx k c).item = {} ∧
              ∀ r, (t.ctx k c).readS r = match r with
                | 1 => BitVec.ofNat 64 (b.rank k)
                | 2 => BitVec.ofNat 64 b.cores.length
                | 3 => BitVec.ofNat 64 c
                | 4 => BitVec.ofNat 64 n
                | 5 => BitVec.ofNat 64 (eBits e 0x10 0 48)
                | 6 => BitVec.ofNat 64 (coordOf k)
                | _ => 0)) ∧
      (b.state = .ready → s.health.halted = false → (∀ k ∈ b.cores, (s.core k).failed = false) → eBits e 0x40 0 1 = 1 →
        let t := s.takeCmd p
        (∀ g, t.startSlots p (eBits e 0x40 4 12) (eBits e 0x40 16 16) = .error g → exec (.start p e f) s = s.cmdFails p e t g) ∧
        (∀ slots, t.startSlots p (eBits e 0x40 4 12) (eBits e 0x40 16 16) = .ok slots →
          let cur : CursorArg := { en := decide (eBits e 0x40 1 1 = 1), force := decide (eBits e 0x40 2 1 = 1), value := eBits e 0x48 0 64 }
          let u := b.cores.foldl (fun u k => u.setCore k ((u.core k).start n (startCtx b k entry (eBits e 0x10 0 48) n))) t
          (∀ g, f = some g → exec (.start p e f) s = s.cmdFails p e t (fabCode g)) ∧
          (f = none → exec (.start p e f) s = match chooseRecord slots with
            | none => s.cmdFails p e t fltRestoreDigest
            | some r => if r.mismatch p n (u.part p) then s.cmdFails p e t fltRestoreMismatch else match u.restore p n slots cur with
              | .error g => s.cmdFails p e t g
              | .ok (v, _) => .next (v.running p entry (eBits e 0x10 0 48) n (s.cmdOwed p e) (some r.windows)))))) ∧
    (s.Fetches p 0x03 e startBody → (entry % 8 ≠ 0 ∨ entry < 0x400000 ∨ (n ≠ 1 ∧ n ≠ 2 ∧ n ≠ 4)) →
      exec (.start p e f) s = s.cmdFails p e (s.takeCmd p) fltArgRange) ∧
    (s.Fetches p 0x04 e [] →
      (b.state ≠ .run → exec (.stop p e) s = s.cmdIsDone p e (s.takeCmd p) 0) ∧
      (b.state = .run → exec (.stop p e) s = .next (s.setPart p { b with
        cmd := b.cmd.advance, refill := [], failing := [], repairing := false, halting := false
        prog := { b.prog with stopping := true, stops := b.prog.stops ++ [s.cmdOwed p e] } })))

/-- STEP_BOUNDARY, once every context is at a SESS.STEP with its work complete or has ended, raises STEP by 1; where nothing calls for more, every
context waiting there goes on and nothing else changes. A securing is taken when due; a failed core leads to WAIT_REPAIR, and a health halt holds
issue as STOP does. PROGRAM_END, once every context has ended, fails the open items and makes the partition READY. -/
def Obligations.BoundariesAndEndsOfPrograms : Prop :=
  ∀ (p : Nat) (f : Option FabFault) (s : State),
    let b := s.part p
    let t := s.setPart p { b with prog := { b.prog with step := b.prog.step + 1 }, sec := { b.sec with pending := false } }
    let due := b.sec.en = true ∧ ((b.sec.every ≠ 0 ∧ (b.prog.step + 1).toNat % b.sec.every = 0) ∨ b.sec.pending = true)
    (s.atBoundary p = false → exec (.stepBoundary p f) s = .next s) ∧
    (s.atBoundary p = true → b.failing = [] → b.halting = false → ¬due →
      ∃ u, exec (.stepBoundary p f) s = .next u ∧ u = { t with cores := u.cores } ∧ (∀ k, k ∉ b.cores → u.core k = s.core k) ∧
        ∀ k ∈ b.cores, u.core k = { s.core k with ctxs := (u.core k).ctxs } ∧
          ∀ c, u.ctx k c = if (s.core k).failed = false ∧ (s.ctx k c).atStep = true then { s.ctx k c with mode := .run, wait := none } else s.ctx k c) ∧
    (s.atBoundary p = true → b.failing = [] → b.halting = false → due → exec (.stepBoundary p f) s = .next ((t.secure p (f.map fabCode)).1.releaseSteps p)) ∧
    (s.atBoundary p = true → b.failing = [] → b.halting = true →
      exec (.stepBoundary p f) s = .next ((if b.sec.en then (t.secure p (f.map fabCode)).1 else t).stopWith p fltHealthHalt)) ∧
    (s.atBoundary p = true → b.failing ≠ [] →
      exec (.stepBoundary p f) s = .next ((if b.sec.en && b.failing.all (·.2) then (t.secure p (f.map fabCode)).1 else t).enterWaitRepair p)) ∧
    (b.state = .run → b.refill = [] → b.repairing = false → b.prog.stopping = false → s.allOver p = true →
      let u := (s.failNamed p).endAll p .failed fltProgEnded
      (b.prog.faults = [] → exec (.programEnd p) s = .next ((u.startRecord p .done 0).programOver p)) ∧
      (∀ k c g rest, b.prog.faults = (k, c, g) :: rest → exec (.programEnd p) s = .next ((u.startRecord p .failed g).programOver p))) ∧
    (b.state = .run → b.prog.stopping = true →
      exec (.programEnd p) s = .next (if s.quiet p then s.stopEnd p b.prog.endFault b.prog.endFault else s)) ∧
    ((b.state ≠ .run ∨ (b.prog.stopping = false ∧ (b.refill ≠ [] ∨ b.repairing = true ∨ s.allOver p = false))) → exec (.programEnd p) s = .next s)

/-- SCL.TLD loads 64 scratchpad bytes into t[D] unchecked (R282); SCL.IFLUSH empties the core's instruction cache (R326). Nothing else changes.
ICACHE_LINE_FILL brings the 64-byte line of a running context's program counter into its core's instruction cache, so that the word there has
been fetched (R295, R301); a line that lies in Tier F is fetched in a transfer (R464; log 67). A program counter that is misaligned, below 0x40_0000 or
not mapped puts the context in FAULT with FLT_IFETCH. -/
def Obligations.TileLoadCacheFlushAndLineFill : Prop :=
  (∀ (k c : Nat) (w : W64) (s : State),
      (let va := (s.sA k c w + sextImm w).toNat
       s.Issues k c w 0x0D 0 → va % 64 = 0 → va + 64 ≤ 0x300000 →
        ∃ t, exec (.sclTld k c w) s = .next t ∧
          (∀ r, (t.ctx k c).readT r = if r = fD w then BitVec.ofNat 512 (readNat (s.core k).scratch va 64) else (s.ctx k c).readT r) ∧
          t.ctx k c = { s.ctx k c with t := (t.ctx k c).t, pc := (s.ctx k c).pc + 8 } ∧ OnlyContext s t k c ∧ (t.core k).ops = (s.core k).ops) ∧
      (s.Issues k c w 0x0F 2 →
        exec (.sclIflush k c w) s = s.afterIssue k c w (s.setCore k { s.core k with icache := [] }))) ∧
  (∀ (k c : Nat) (s : State),
      let x := s.core k
      let pc := (s.ctx k c).pc
      k < 512 → c < 4 → (s.ctx k c).mode = .run → x.misses pc = true →
      (s.fetchFault k pc = none → ∃ t p, exec (.icacheLineFill k c false) s = .next t ∧ s.partOf k = some p ∧
        (t.core k).fetched pc = some (BitVec.ofNat 64 (readNat (s.mem p).bytes pc.toNat 8)) ∧ t.core k = { x with icache := (t.core k).icache } ∧
        SameOtherCores s t k ∧ SameParts s t ∧
        t = { s with cores := t.cores, parts := t.parts, fabric := { s.fabric with trans := t.fabric.trans, waiting := t.fabric.waiting } } ∧
        (s.farOfCore k = [] → s.Near k (64 * (pc.toNat / 64)) 64 → t.fabric = s.fabric)) ∧
      (pc.toNat % 8 ≠ 0 ∨ pc.toNat < 0x400000 → exec (.icacheLineFill k c false) s = .next (s.ctxFault k c fltIfetch)) ∧
      (∀ p, pc.toNat % 8 = 0 → 0x400000 ≤ pc.toNat → s.partOf k = some p → (s.mem p).unitAt (64 * (pc.toNat / 64)) = none →
        exec (.icacheLineFill k c false) s = .next (s.ctxFault k c fltIfetch)))

/-! ### Windows (R453 to R460, R394, R504) -/

/-- WIN_IMPORT writes an entry of the remote window table and WIN_FORGET empties it. CXL_WIN binds a window that the partition owns to its port's
decoder, and 0xFFF unbinds it. A CXL.mem write through a bound window that is OPEN and still the binding partition's stores its bytes, and is otherwise
dropped and counted; a read answers the window's bytes, poisoned where it cannot. That a write beyond the window or over an unmapped page is dropped, and
what an access answers without a bound window, are the model's choice (log 18); a port that takes part in no traffic answers none (log 66). -/
def Obligations.ImportsAndCxlWindows : Prop :=
  ∀ (p n : Nat) (e : Entry) (s : State),
    let b := s.part p
    (let gap := eBits e 0x30 0 24
     let size := eBits e 0x18 0 45
     let base := eBits e 0x10 0 45
     s.Fetches p 0x1B e winImportBody → size ≠ 0 → eBits e 0x08 12 12 ≠ s.fabric.id → size % 65536 = 0 → base % 65536 = 0 → base + size ≤ 2 ^ 45 →
      (gap = 0 ∨ (10 ≤ gap ∧ gap ≤ 10000000)) →
      let x : RemoteWin := { module := eBits e 0x08 12 12, ebase := base, size := size, key := BitVec.ofNat 64 (eBits e 0x28 0 64),
                             epoch := eBits e 0x0C 0 16, gapUs := if gap = 0 then 1000 else gap }
      exec (.winImport p e) s =
        s.cmdIsDone p e (s.setPart p { b with cmd := b.cmd.advance, rwins := sput {} b.rwins (eBits e 0x08 0 12) x }) 0) ∧
    (s.Fetches p 0x1B e winImportBody → eBits e 0x18 0 45 = 0 → exec (.winImport p e) s = s.cmdFails p e (s.takeCmd p) fltArgRange) ∧
    (s.Fetches p 0x1C e winBody →
      exec (.winForget p e) s = s.cmdIsDone p e (s.setPart p { b with cmd := b.cmd.advance, rwins := sput {} b.rwins (eBits e 0x08 0 12) {} }) 0) ∧
    (s.Fetches p 0x0A e winBody →
      let w := eBits e 0x08 0 12
      let t := s.takeCmd p
      (w = 0xFFF → exec (.cxlWin p e) s = s.cmdIsDone p e (t.setPort b.port { s.port b.port with cxl := none }) 0) ∧
      (w ≠ 0xFFF → (s.win w).state ≠ .free → (s.win w).owner = p →
        exec (.cxlWin p e) s = s.cmdIsDone p e (t.setPort b.port { s.port b.port with cxl := some (p, w) }) 0) ∧
      (w ≠ 0xFFF → ((s.win w).state = .free ∨ (s.win w).owner ≠ p) → exec (.cxlWin p e) s = s.cmdFails p e t fltArgRange)) ∧
    (s.portUp n = false → ∀ wr off len data, exec (.cxlMemAccess n wr off len data) s = .next s) ∧
    (∀ q w off len data, s.portUp n = true → (s.port n).cxl = some (q, w) →
      let x := s.win w
      (x.state = .open → x.owner = q → off + data.length ≤ x.size → s.check x.owner false (x.lva + off) data.length = none →
        exec (.cxlMemAccess n true off len data) s =
          .next ((s.setMem x.owner ((s.mem x.owner).store (x.lva + off) data)).startFarOwn x.owner)) ∧
      ((x.state ≠ .open ∨ x.owner ≠ q ∨ x.size < off + data.length ∨ s.check x.owner false (x.lva + off) data.length ≠ none) →
        exec (.cxlMemAccess n true off len data) s = .next (s.setPart q ((s.part q).count 0x7C 1))) ∧
      (∃ t bs, exec (.cxlMemAccess n false off len data) s = .next t ∧ t.out = .data bs :: s.out ∧ bs.length = len ∧ SameParts s t ∧
        ∀ i, i < len → bs.getD i none =
          if x.state = .open ∧ x.owner = q ∧ off + i < x.size ∧ s.failOf x.owner true ((x.lva + off + i) / 64) = none
          then some (sget 0 (s.mem x.owner).bytes (x.lva + off + i)) else none)) ∧
    (∀ off len data, s.portUp n = true → (s.port n).cxl = none → exec (.cxlMemAccess n true off len data) s = .next s ∧
      exec (.cxlMemAccess n false off len data) s = .next (s.emit (.data (List.replicate len none))))

namespace Sys2Proof.Machine

/-- A critical command: its constructor for an entry, the ring that carries it, its CODE and the fields of its body (R478, R552). -/
structure CritRow where
  make : Entry → Instr
  ring : RingName
  code : Nat
  body : List (Nat × Nat × Nat)

/-- The critical commands of partition `p`'s command ring and of port `n`'s admin ring, with what their host and backing storage answer. -/
def critRows (p n : Nat) (work : RefillWork) (mw : List (Nat × Entry)) (a b : Bool) (stuck : BitVec 64) : List CritRow :=
  [⟨.winGrant p, .cmd p, 0x18, winGrantBody⟩, ⟨.winClose p, .cmd p, 0x19, winBody⟩, ⟨.winFree p, .cmd p, 0x1A, winBody⟩,
   ⟨fun e => .repair p e work, .cmd p, 0x1D, repairBody⟩, ⟨.partCreate n, .adm n, 0x40, partBody⟩,
   ⟨.partDestroy n, .adm n, 0x41, [(0x08, 0, 4)]⟩, ⟨.partReshape n, .adm n, 0x42, partBody⟩] ++
  [⟨fun e => .routeLoad n e a, .adm n, 0x43, [(0x08, 0, 64), (0x10, 0, 256)]⟩, ⟨.takeover n, .adm n, 0x44, [(0x08, 0, 12), (0x0C, 0, 16)]⟩,
   ⟨fun e => .spillWinGrant n e a, .adm n, 0x45, winGrantBody⟩, ⟨fun e => .spillWinClose n e a, .adm n, 0x46, winBody⟩,
   ⟨.spillWinFree n, .adm n, 0x47, winBody⟩, ⟨fun e => .keyLoad n e a, .adm n, 0x50, keyBody⟩,
   ⟨fun e => .keyRotate n e a, .adm n, 0x51, keyBody⟩] ++
  [⟨.keyErase n, .adm n, 0x52, [(0x08, 0, 4)]⟩, ⟨fun e => .fwLoad n e a b, .adm n, 0x53, [(0x08, 0, 64), (0x10, 0, 32), (0x18, 0, 384)]⟩,
   ⟨.debugSet n, .adm n, 0x54, [(0x08, 0, 2)]⟩, ⟨fun e => .lifecycle n { entry := e, meanwhile := mw }, .adm n, 0x55, [(0x08, 0, 3)]⟩,
   ⟨fun e => .fuseProg n e stuck, .adm n, 0x56, [(0x08, 0, 4), (0x10, 0, 64)]⟩]

/-- What Husk's refusal of an entry with a fault leaves (R557, R560): no slot's LAST changes, the refusal is counted and reported. -/
def State.huskRefuses (s : State) (r : RingName) (e : Entry) (f : FaultCode) : Host.Outcome State Fault Refusal :=
  .next (((s.authRefused (eSlot e) f).takeRing r).ringDone r (s.owedOn r e) .failed f 0)

end Sys2Proof.Machine

/-! ### Husk (R478, R552 to R573) -/

/-- Every critical command passes the same checks, in this order: in SCRAP or while zeroising FLT_LIFECYCLE, AUTH = 0 FLT_ARG_RANGE, Husk locked
FLT_HUSK_LOCKED; a slot with 16 FLT_AUTH_TAG refusals in a row sets it aside; then FLT_KEY_SLOT, FLT_AUTH_REPLAY and FLT_AUTH_TAG. A refused one
has no effect, leaves every LAST, and is counted; FLT_AUTH_TAG adds to its slot's streak and FLT_AUTH_REPLAY, by the model's choice (log 50), does not.
An entry is run by its CODE alone. That a reserved bit is looked at after Husk's checks is the model's choice too (log 50). AUTH_DELAY_END verifies the
entry set aside, which takes effect when it comes again (log 15). -/
def Obligations.HuskChecksInOrder : Prop :=
  ∀ (p n : Nat) (work : RefillWork) (mw : List (Nat × Entry)) (a b : Bool) (stuck : BitVec 64) (e : Entry) (s : State),
    (∀ row ∈ critRows p n work mw a b stuck,
      let r := row.ring
      let k := s.slot (eSlot e)
      (eCode e ≠ row.code → exec (row.make e) s = exec (.unlistedCodeEntry r e) s) ∧
      (s.ringOpen r = false → exec (row.make e) s = .next s) ∧
      (∀ d, eCode e = row.code → s.setAside r = some d → (d.passed = false ∨ d.entry ≠ e) → exec (row.make e) s = .next s) ∧
      (eCode e = row.code → s.ringOpen r = true → s.setAside r = none →
        (∀ c, s.critBarred e = some c → exec (row.make e) s = .next ((s.takeRing r).ringDone r (s.owedOn r e) .failed c 0)) ∧
        (s.critBarred e = none → 16 ≤ k.streak → exec (row.make e) s = .next
          { s with husk := { s.husk with delayed := s.husk.delayed ++ [{ slot := eSlot e, ring := r, entry := e, passed := false }] } }) ∧
        (s.critBarred e = none → k.streak < 16 →
          (s.slotAllows r e = false → exec (row.make e) s = s.huskRefuses r e fltKeySlot) ∧
          (s.slotAllows r e = true → eCounter e ≤ k.last.toNat → exec (row.make e) s = s.huskRefuses r e fltAuthReplay) ∧
          (s.slotAllows r e = true → k.last.toNat < eCounter e → eBits e 0x70 0 128 ≠ s.authTag r e →
            exec (row.make e) s = s.huskRefuses r e fltAuthTag))) ∧
      (s.ringOpen r = true → s.setAside r = none → s.critBarred e = none → k.streak < 16 → s.slotAllows r e = true →
        k.last.toNat < eCounter e → eBits e 0x70 0 128 = s.authTag r e → eCode e = row.code → entryOk row.body e = false →
        exec (row.make e) s = s.critFails r e (s.husked r e) fltArgRange)) ∧
    (∀ (i : Nat) (c : FaultCode) (j : Nat), ((s.authRefused i c).slot j).last = (s.slot j).last ∧
      ((s.authRefused i c).slot j).streak = if j = i ∧ c = fltAuthTag then (s.slot j).streak + 1 else (s.slot j).streak) ∧
    (∀ i d, s.husk.delayed.find? (fun d => d.slot == i && !d.passed) = some d →
      let t := { s with husk := { s.husk with delayed := s.husk.delayed.filter fun x => x.ring != d.ring } }
      (∀ c, s.verify d.ring d.entry = .error c → exec (.authDelayEnd i) s =
        .next (((t.authRefused i c).takeRing d.ring).ringDone d.ring (s.owedOn d.ring d.entry) .failed c 0)) ∧
      (∀ u, s.verify d.ring d.entry = .ok u → ∃ v, exec (.authDelayEnd i) s = .next v ∧ (v.slot (eSlot d.entry)).last =
        BitVec.ofNat 64 (eCounter d.entry) ∧ v.husk.mono = s.husk.mono + 1 ∧ v.flash.gen = s.flash.gen + 1 ∧ v.parts = s.parts ∧ v.ports = s.ports ∧
        ∃ d' ∈ v.husk.delayed, d'.ring = d.ring ∧ d'.passed = true)) ∧
    (∀ i, (∀ d ∈ s.husk.delayed, d.slot ≠ i ∨ d.passed = true) → exec (.authDelayEnd i) s = .next s)

/-- KEY_LOAD fills an EMPTY customer slot and KEY_ROTATE replaces an ACTIVE one, from a key block of digest, ECDH coordinate and wrapped key that
verify: ROLES, PORT_EN, PORT and the key are the entry's and LAST is 0. KEY_ERASE empties a slot. A change that would leave no slot with both KEY
and LIFE is refused. The maker slot is no target. Each write is durable. That a slot loaded or erased keeps its failure count and streak, and that keys are
loaded in neither MAKER_TEST nor RETURN, are the model's choice (log 56). -/
def Obligations.KeySlotsAreLoadedAndErased : Prop :=
  ∀ (n : Nat) (e : Entry) (s : State),
    let i := eBits e 0x08 0 4
    let addr := eBits e 0x10 0 64
    (∀ row ∈ [((0x50, SlotUse.empty), Instr.keyLoad n), ((0x51, SlotUse.active), Instr.keyRotate n)],
      let code := row.1.1
      let t := s.husked (.adm n) e
      let r := RingName.adm n
      s.Passes r code e keyBody →
      ((i = 15 ∨ addr % 64 ≠ 0) → ∀ h, exec (row.2 e h) s = s.critFails r e t fltArgRange) ∧
      (i ≠ 15 → addr % 64 = 0 → t.slotUse i ≠ row.1.2 ∨ t.life = .makerTest ∨ t.life = .returned →
        ∀ h, exec (row.2 e h) s = s.critFails r e t fltKeySlot) ∧
      (i ≠ 15 → addr % 64 = 0 → t.slotUse i = row.1.2 → t.life ≠ .makerTest → t.life ≠ .returned →
        exec (row.2 e false) s = s.critFails r e t fltHostTimeout ∧
        exec (row.2 e true) s = (match t.unwrapKey (readBytes (t.hostMemOf n) addr 256) (eBits e 0x18 0 256) i (eCounter e) with
          | none => s.critFails r e t fltKeyUnwrap
          | some key =>
            let u := t.setSlot i { t.slot i with active := true, key := BitVec.ofNat 256 (leNat key), roles := eBits e 0x08 8 8,
                                                 portEn := decide (eBits e 0x08 16 1 = 1), port := eBits e 0x08 17 2, last := 0 }
            if code = 0x51 ∧ u.noKeeper = true then s.critFails r e t fltArgRange else s.critIsDone r e u.durable 0))) ∧
    (let t := s.husked (.adm n) e
     let r := RingName.adm n
     s.Passes r 0x52 e [(0x08, 0, 4)] →
      (i = 15 → exec (.keyErase n e) s = s.critFails r e t fltArgRange) ∧
      (i ≠ 15 → t.slotUse i = .empty → exec (.keyErase n e) s = s.critIsDone r e t 0) ∧
      (i ≠ 15 → t.slotUse i ≠ .empty →
        let u := t.setSlot i { cntFail := (t.slot i).cntFail, streak := (t.slot i).streak }
        if u.noKeeper = true then exec (.keyErase n e) s = s.critFails r e t fltArgRange
        else exec (.keyErase n e) s = s.critIsDone r e u.durable 0)) ∧
    (∀ block digest i counter, leNat (sha256 block) ≠ digest → s.unwrapKey block digest i counter = none)

/-- FW_LOAD verifies an image of host memory by digest, signature under the fused maker key and rollback number, and writes it into the inactive bank,
pending. DEBUG_SET
sets the level that the lifecycle state allows: 0 always, 1 in FIELD_DIAG under a customer slot, 2 in MAKER_TEST and RETURN under the maker
slot. FUSE_PROG burns FW_SVN_MIN upwards, DIAG_DISABLE, and by the maker slot the repair fuses of cores and rows (their layout is the model's, log 31);
a bit that does not burn is FLT_FUSE. -/
def Obligations.FirmwareDebugLevelAndFuses : Prop :=
  ∀ (n : Nat) (e : Entry) (s : State),
    let r := RingName.adm n
    (let t := s.husked r e
     let len := eBits e 0x10 0 32
     let addr := eBits e 0x08 0 64
     let image := readBytes (t.hostMemOf n) addr len
     s.Passes r 0x53 e [(0x08, 0, 64), (0x10, 0, 32), (0x18, 0, 384)] →
      ((addr % 64 ≠ 0 ∨ len % 4 ≠ 0 ∨ 16777216 < len) → ∀ h g, exec (.fwLoad n e h g) s = s.critFails r e t fltArgRange) ∧
      (addr % 64 = 0 → len % 4 = 0 → len ≤ 16777216 →
        (∀ g, exec (.fwLoad n e false g) s = s.critFails r e t fltHostTimeout) ∧
        (let bad := leNat (sha384 image) ≠ eBits e 0x18 0 384 ∨ t.fuses.makerKey = false ∨ Config.imageSigned image = false
         let b := !t.flash.active
         exec (.fwLoad n e true true) s = (if bad then s.critFails r e t fltFwSig
          else if Config.imageSvn image < t.fuses.svnMin then s.critFails r e t fltFwRollback
          else s.critIsDone r e { t with flash := { t.flash.setBank b (some image) with pending := some b } } 0) ∧
         ∃ u, exec (.fwLoad n e true false) s = (if bad then s.critFails r e t fltFwSig
            else if Config.imageSvn image < t.fuses.svnMin then s.critFails r e t fltFwRollback else s.critFails r e u fltFwSig) ∧
          u.flash.bank b = none ∧ u.flash.pending ≠ some b ∧ u = { t with flash := u.flash }))) ∧
    (let t := s.husked r e
     let level := eBits e 0x08 0 2
     s.Passes r 0x54 e [(0x08, 0, 2)] →
      if level = 0 ∨ (level = 1 ∧ t.life = .fieldDiag ∧ eSlot e ≠ 15) ∨ (level = 2 ∧ (t.life = .makerTest ∨ t.life = .returned) ∧ eSlot e = 15)
      then exec (.debugSet n e) s = s.critIsDone r e { t with husk := { t.husk with debug := level } } 0
      else exec (.debugSet n e) s = s.critFails r e t fltLifecycle) ∧
    (∀ stuck, let t := s.husked r e
     let v := eBits e 0x10 0 64
     let customer := (t.life = .provision ∨ t.life = .field) ∧ eSlot e ≠ 15
     let maker := (t.life = .makerTest ∨ t.life = .returned) ∧ eSlot e = 15
     let fails := fun c => exec (.fuseProg n e stuck) s = s.critFails r e t c
     let done := fun x => exec (.fuseProg n e stuck) s = s.critIsDone r e { t with fuses := x } 0
     s.Passes r 0x56 e [(0x08, 0, 4), (0x10, 0, 64)] →
      (eBits e 0x08 0 4 = 0 → (¬customer → fails fltLifecycle) ∧ (customer → 64 < v → fails fltArgRange) ∧
        (customer → v ≤ 64 → v ≤ t.fuses.svnMin → done t.fuses) ∧ (customer → v ≤ 64 → t.fuses.svnMin < v → t.svn < v → fails fltArgRange) ∧
        (customer → v ≤ 64 → t.fuses.svnMin < v → v ≤ t.svn → stuck = 0 →
          done { t.fuses with svn := t.fuses.svn ||| BitVec.ofNat 64 (2 ^ v - 1) })) ∧
      (eBits e 0x08 0 4 = 1 → (¬customer → fails fltLifecycle) ∧ (customer → v ≠ 1 → fails fltArgRange) ∧
        (customer → v = 1 → t.fuses.diagDisable = true → done t.fuses) ∧
        (customer → v = 1 → t.fuses.diagDisable = false →
          if stuck.toNat % 2 = 1 then fails fltFuse else done { t.fuses with diagDisable := true })) ∧
      ((eBits e 0x08 0 4 = 2 ∨ eBits e 0x08 0 4 = 3) → ¬maker → fails fltLifecycle) ∧
      (let pos := bits v 5 5 * 8 + bits v 2 3
       let core := bits v 0 2 * 256 + pos
       eBits e 0x08 0 4 = 2 → maker → (1024 ≤ v ∨ 136 ≤ pos → fails fltArgRange) ∧
        (v < 1024 → pos < 136 → if stuck.toNat % 2 = 1 then fails fltFuse
          else done { t.fuses with cores := if core ∈ t.fuses.cores then t.fuses.cores else t.fuses.cores ++ [core] })) ∧
      (let row := (bits v 7 2 * 128 + bits v 0 7, bits v 9 2, bits v 11 6)
       eBits e 0x08 0 4 = 3 → maker → (2 ^ 17 ≤ v ∨ 34 ≤ row.2.2 → fails fltArgRange) ∧
        (v < 2 ^ 17 → row.2.2 < 34 → if stuck.toNat % 2 = 1 then fails fltFuse
          else done { t.fuses with rows := if row ∈ t.fuses.rows then t.fuses.rows else t.fuses.rows ++ [row] })) ∧
      (3 < eBits e 0x08 0 4 → fails fltLifecycle))

/-- LIFECYCLE: the transitions of R569 alone, each under the slot it needs, fuse the new state (FIELD_DIAG in its register), set the debug level
to 0 (R567) and report it; a transition to RETURN or SCRAP zeroises first (R571, R572), and the critical commands that other admin rings meet meanwhile are
refused; a reset leaves FIELD_DIAG as FIELD. Every other pair of states fails with FLT_LIFECYCLE and changes nothing. That a slot keeps what it has counted
when it is zeroised is the model's choice (logs 51 and 56). -/
def Obligations.LifecycleTransitions : Prop :=
  ∀ (n : Nat) (e : Entry) (mw : List (Nat × Entry)) (s : State),
    let r := RingName.adm n
    let t := s.husked r e
    let maker := eSlot e = 15
    let op : LifecycleOp := { entry := e, meanwhile := mw }
    let goes := fun (dest : LifeState) (u : State) => exec (.lifecycle n op) s =
      s.critIsDone r e (((if dest = .returned then u.refuseZeroising n mw else u).setLife dest n).event 0x0013 dest.code t.life.code []) 0
    let fails := fun c => exec (.lifecycle n op) s = s.critFails r e t c
    s.Passes r 0x55 e [(0x08, 0, 3)] →
    (∀ dest, lifeOf (eBits e 0x08 0 3) = some dest →
      (t.life = .makerTest → dest = .provision → if maker ∧ t.flash.keyPair = true ∧ t.fuses.makerKey = true then goes dest t else fails fltLifecycle) ∧
      (t.life = .provision → dest = .field → if maker then fails fltLifecycle else goes dest t) ∧
      (t.life = .field → dest = .fieldDiag → maker ∨ t.fuses.diagDisable = true → fails fltLifecycle) ∧
      (t.life = .field → dest = .fieldDiag → ¬maker → t.fuses.diagDisable = false →
        if ∃ x ∈ t.parts, x.2.state ≠ .free then fails fltPartBusy else goes dest t) ∧
      (t.life = .fieldDiag → dest = .field → if maker then fails fltLifecycle else goes dest t.clearAll) ∧
      (t.life = .provision ∨ t.life = .field ∨ t.life = .fieldDiag → dest = .returned ∨ dest = .scrap →
        if maker then fails fltLifecycle else goes dest (if dest = .returned then t.zeroise else t.scrap)) ∧
      (t.life = .returned → dest = .provision →
        if maker ∧ t.fuses.refurb < 3 then goes dest { t with fuses := { t.fuses with refurb := t.fuses.refurb + 1 } } else fails fltLifecycle) ∧
      (t.life = .makerTest ∨ t.life = .returned → dest = .scrap → if maker then goes dest t.scrap else fails fltLifecycle) ∧
      ((t.life, dest) ∉ [(.makerTest, .provision), (.provision, .field), (.field, .fieldDiag), (.fieldDiag, .field), (.provision, .returned),
        (.field, .returned), (.fieldDiag, .returned), (.returned, .provision), (.makerTest, .scrap), (.returned, .scrap), (.provision, .scrap),
        (.field, .scrap), (.fieldDiag, .scrap)] → fails fltLifecycle)) ∧
    (5 < eBits e 0x08 0 3 → fails fltLifecycle) ∧
    (∀ (dest : LifeState) (u : State), (u.setLife dest n).husk.debug = 0 ∧ (u.fuses.lc = .field ∨ dest ≠ .fieldDiag → (u.setLife dest n).life = dest)) ∧
    (s.powered = true → ∃ u, exec .sysReset s = .next u ∧ u.life = s.fuses.lc) ∧
    (∀ m x, s.refuseZeroising n [(m, x)] = if m ≠ n ∧ s.canFetchAdm m = true ∧ eCode x ∈ admRingCodes
      then (s.takeAdm m).admDone m (s.admOwed m x) .failed fltLifecycle 0 else s) ∧
    (let z := t.zeroise
     (∀ i, i < 15 → z.slot i = { cntFail := (t.slot i).cntFail, streak := (t.slot i).streak }) ∧ z.objs = [] ∧ z.sess = [] ∧ z.fabric.wins = [] ∧ (∀ k, k < 512 → (z.core k).scratch = []))

/-! ### Granted windows (R453 to R460, R394) -/

/-- R454's checks: another owner than the command may name, a size of 0 or a base or size off 65,536, beyond 2^45, a gap timer outside 10 to
10,000,000 microseconds and not 0, an overlap with another window that is not FREE, a window that is OPEN, CLOSING or CLOSED of another owner, or
(of a partition) a local address off 65,536, below 0x40_0000 or beyond 2^48; then FLT_ARG_RANGE. WIN_GRANT opens a window with the entry's fields,
and SPILL_WIN_GRANT one of OWNER 16 whose bytes start at 0 (the model's choice, log 16), while storage backs it; its epoch is the entry's from FREE
and its own from CLOSED. WIN_CLOSE takes an OPEN window to its close point: CLOSING, its epoch one on, its record owed until WINDOW_CLOSED.
SPILL_WIN_CLOSE leaves an OPEN window open while its units are recalled, and SPILL_RECALL_DONE takes it to its close point (the order is the model's
choice, log 17). WIN_FREE and SPILL_WIN_FREE free a CLOSED one. Another state or owner is FLT_ARG_RANGE. -/
def Obligations.WindowsOpenCloseAndFree : Prop :=
  ∀ (p n : Nat) (e : Entry) (s : State),
    let w := eBits e 0x08 0 12
    let a := RingName.adm n
    let c := RingName.cmd p
    let g := (readGrant e).2
    let gap := eBits e 0x30 0 24
    let bad := fun (owner : Nat) (t : State) => g.owner ≠ owner ∨ g.size = 0 ∨ g.size % 65536 ≠ 0 ∨ g.ebase % 65536 ≠ 0 ∨ 2 ^ 45 < g.ebase + g.size ∨
      (gap ≠ 0 ∧ (gap < 10 ∨ 10000000 < gap)) ∨
      (∃ o ∈ t.fabric.wins, o.1 ≠ w ∧ o.2.state ≠ .free ∧ g.ebase < o.2.ebase + o.2.size ∧ o.2.ebase < g.ebase + g.size) ∨
      (t.win w).state = .open ∨ (t.win w).state = .closing ∨ ((t.win w).state = .closed ∧ (t.win w).owner ≠ owner) ∨
      (owner ≠ 16 ∧ (g.lva % 65536 ≠ 0 ∨ g.lva < 0x400000 ∨ 2 ^ 48 < g.lva + g.size))
    let opened := fun (t : State) => t.setWin w { g with epoch := if (t.win w).state = .free then eBits e 0x0C 0 16 else (t.win w).epoch }
    (g.state = .open ∧ g.owner = eBits e 0x08 12 5 ∧ g.ebase = eBits e 0x10 0 45 ∧ g.size = eBits e 0x18 0 45 ∧ g.lva = eBits e 0x20 0 48 ∧
      g.key.toNat = eBits e 0x28 0 64 ∧ g.gapUs = (if eBits e 0x30 0 24 = 0 then 1000 else eBits e 0x30 0 24) ∧ g.closer = none ∧ g.recalling = false) ∧
    (s.Passes c 0x18 e winGrantBody → let t := s.husked c e
      (bad p t → exec (.winGrant p e) s = s.critFails c e t fltArgRange) ∧
      (¬bad p t → exec (.winGrant p e) s = s.critIsDone c e (opened t) 0)) ∧
    (s.Passes a 0x45 e winGrantBody → let t := s.husked a e
      (bad 16 t → ∀ b, exec (.spillWinGrant n e b) s = s.critFails a e t fltArgRange) ∧
      (¬bad 16 t →
        exec (.spillWinGrant n e false) s = s.critFails a e t fltSpillFull ∧
        (t.freeL < (g.size + 2097151) / 2097152 → exec (.spillWinGrant n e true) s = s.critFails a e t fltSpillFull) ∧
        ((g.size + 2097151) / 2097152 ≤ t.freeL → ∃ u, exec (.spillWinGrant n e true) s = s.critIsDone a e u 0 ∧ u.fabric.wins = (opened t).fabric.wins ∧
          u = { t with fabric := { t.fabric with wins := u.fabric.wins, spill := u.fabric.spill, spillPoison := u.fabric.spillPoison } } ∧
          ∀ i, sget 0 u.fabric.spill i = if g.ebase ≤ i ∧ i < g.ebase + g.size then 0 else sget 0 t.fabric.spill i))) ∧
    (s.Passes c 0x19 e winBody → let t := s.husked c e
      let x := t.win w
      if x.state = .open ∧ x.owner = p then exec (.winClose p e) s = .next (t.setWin w
        { x with state := .closing, epoch := (x.epoch + 1) % 65536, closer := some (.part p (s.owedOn c e)), recalling := false })
      else exec (.winClose p e) s = s.critFails c e t fltArgRange) ∧
    (s.Passes a 0x46 e winBody → let t := s.husked a e
      let x := t.win w
      (¬(x.state = .open ∧ x.owner = 16 ∧ x.recalling = false) → ∀ b, exec (.spillWinClose n e b) s = s.critFails a e t fltArgRange) ∧
      (x.state = .open → x.owner = 16 → x.recalling = false → exec (.spillWinClose n e false) s = s.critFails a e t fltSpillFull ∧
        exec (.spillWinClose n e true) s = .next (t.setWin w { x with recalling := true, closer := some (.adm n (s.owedOn a e)) }))) ∧
    (s.Passes c 0x1A e winBody → let t := s.husked c e
      if (t.win w).state = .closed ∧ (t.win w).owner = p then exec (.winFree p e) s = s.critIsDone c e (t.setWin w {}) 0
      else exec (.winFree p e) s = s.critFails c e t fltArgRange) ∧
    (s.Passes a 0x47 e winBody → let t := s.husked a e
      if (t.win w).state = .closed ∧ (t.win w).owner = 16 then exec (.spillWinFree n e) s = s.critIsDone a e (t.setWin w {}) 0
      else exec (.spillWinFree n e) s = s.critFails a e t fltArgRange) ∧
    (∀ i, let x := s.win i
      let closed := s.setWin i { x with state := .closed, closer := none }
      ((x.state ≠ .closing ∨ s.winInflight i ≠ 0) → exec (.windowClosed i) s = .next s) ∧
      (x.state = .closing → s.winInflight i = 0 →
        (x.closer = none → exec (.windowClosed i) s = .next closed) ∧
        (∀ q o, x.closer = some (.part q o) → exec (.windowClosed i) s = .next (closed.cmdDone q o .done 0 0)) ∧
        (∀ q o, x.closer = some (.adm q o) → exec (.windowClosed i) s = .next (closed.admDone q o .done 0 0))) ∧
      ((x.recalling = false ∨ x.state ≠ .open) → exec (.spillRecallDone i) s = .next s) ∧
      (x.recalling = true → x.state = .open → exec (.spillRecallDone i) s = .next (s.setWin i
        { x with state := .closing, epoch := (x.epoch + 1) % 65536, recalling := false })))

/-! ### Partitions, routes and takeover (R450, R465 to R467, R481 to R488) -/

/-- PART_CREATE makes a FREE partition READY with its grant and its port; its cores join cleared, its objects at 0. A grant that another partition
holds is FLT_PART_BUSY, a field out of range FLT_ARG_RANGE, too few spares FLT_NO_SPARE. PART_RESHAPE replaces a READY partition's grant.
PART_DESTROY frees a partition that does not run, with its sessions, requests and windows, and waits for one that runs; records that its full or
disabled completion ring still holds it waits for too. The codes for another port's partition and for one that is being destroyed (log 27), the destruction
at once from WAIT_REPAIR (log 54) and the wait for held records (log 63) are the model's choice. -/
def Obligations.PartitionsAreCreatedAndDestroyed : Prop :=
  ∀ (n : Nat) (e : Entry) (s : State),
    let r := RingName.adm n
    let p := eBits e 0x08 0 4
    let g := grantOf e
    (s.Passes r 0x40 e partBody →
      let t := s.husked r e
      (t.life = .fieldDiag → t.husk.diagPort ≠ n → exec (.partCreate n e) s = s.critFails r e t fltLifecycle) ∧
      ((t.life ≠ .fieldDiag ∨ t.husk.diagPort = n) →
        ((t.part p).state ≠ .free → exec (.partCreate n e) s = s.critFails r e t fltPartBusy) ∧
        ((t.part p).state = .free →
          (∀ f, t.grantRefused p g = some f → exec (.partCreate n e) s = s.critFails r e t f) ∧
          (t.grantRefused p g = none → ∃ X, exec (.partCreate n e) s = s.critIsDone r e X 0 ∧
            X.part p = { state := .ready, port := n, grant := g, spared := g.spared } ∧ (∀ q, q ≠ p → X.part q = t.part q) ∧
            (∀ k, k ∉ g.cores → X.core k = t.core k) ∧
            (∀ k ∈ g.cores, (t.core k).failed = false → X.core k = (t.core k).cleared g.chaff) ∧
            (∀ k ∈ g.cores, (X.core k).failed = false ∧ (X.core k).chaff = g.chaff ∧ (X.core k).scratch = [] ∧ (X.core k).ops = []) ∧
            (∀ i, i < 131072 → X.obj i = if g.objs.toNat.testBit (i / 1024) then 0 else t.obj i))))) ∧
    (s.Passes r 0x41 e [(0x08, 0, 4)] →
      let t := s.husked r e
      let b := t.part p
      let o := s.owedOn r e
      ((b.state = .free ∨ b.destroyer ≠ none) → exec (.partDestroy n e) s = s.critFails r e t fltPartState) ∧
      (b.state ≠ .free → b.destroyer = none → b.port ≠ n → exec (.partDestroy n e) s = s.critFails r e t fltArgRange) ∧
      (b.state = .run → b.destroyer = none → b.port = n → exec (.partDestroy n e) s =
        .next (t.setPart p { b with destroyer := some (n, o), refill := [], failing := [], repairing := false, halting := false,
                                    prog := { b.prog with stopping := true } })) ∧
      (b.state ≠ .run → b.state ≠ .free → b.destroyer = none → b.port = n →
        let v := (if b.state = .waitRepair then t.stopEnd p 0 0 else t).destroyItems p
        ((v.part p).cpl.held ≠ [] → exec (.partDestroy n e) s = .next (v.setPart p { v.part p with destroyer := some (n, o) })) ∧
        ((v.part p).cpl.held = [] → exec (.partDestroy n e) s = s.critIsDone r e (v.destroyPart p) 0))) ∧
    (let X := s.destroyPart p
     (X.part p).state = .free ∧ (∀ q, q ≠ p → X.part q = s.part q) ∧ (∀ i, (X.sessOf i).part = p → (X.sessOf i).state = .free) ∧
      (∀ i, (X.win i).owner = p → (X.win i).state ≠ .open) ∧ (∀ i q, X.request i = some q → q.part ≠ p) ∧
      (∀ i, X.request i = none ∨ X.request i = s.request i)) ∧
    ((s.part p).destroyer = none → s.destroyHeld p = s) ∧
    (∀ m o, (s.part p).destroyer = some (m, o) → (s.part p).state ≠ .run →
      ((s.part p).cpl.held ≠ [] → ∀ q, (s.destroyHeld p).part q = s.part q) ∧ ((s.part p).cpl.held = [] → s.destroyHeld p = (s.destroyPart p).admDone m o .done 0 0)) ∧
    (s.Passes r 0x42 e partBody →
      let t := s.husked r e
      let b := t.part p
      ((b.state ≠ .ready ∨ b.destroyer ≠ none) → exec (.partReshape n e) s = s.critFails r e t fltPartState) ∧
      (b.state = .ready → b.destroyer = none → b.port ≠ n → exec (.partReshape n e) s = s.critFails r e t fltArgRange) ∧
      (b.state = .ready → b.destroyer = none → b.port = n →
        (∀ f, t.grantRefused p g = some f → exec (.partReshape n e) s = s.critFails r e t f) ∧
        (t.grantRefused p g = none → ∃ X, exec (.partReshape n e) s = s.critIsDone r e X 0 ∧
          X.part p = { b with grant := g, spared := g.spared } ∧ (∀ q, q ≠ p → X.part q = t.part q) ∧
          (∀ k, k ∉ g.cores → X.core k = t.core k) ∧
          (∀ k ∈ g.cores, (t.core k).failed = false → X.core k =
            if k ∈ b.grant.cores then { t.core k with chaff := g.chaff } else (t.core k).cleared g.chaff)))) ∧
    (s.grantRefused p g = if s.grantTaken p g = true then some fltPartBusy else if s.grantRange p g = true then some fltArgRange
      else if s.grantNoSpare g = true then some fltNoSpare else none)

/-- ROUTE_LOAD reads 2,048 bytes of host memory and, when their digest is the entry's, installs the 4,096 four-bit entries. TAKEOVER probes the
named ID from a standby module with no window, where every named partition holds windows kept from it, and is owed; the probe's timeout takes the
ID and opens the kept windows with the next epoch; that the timeout tests standby and windows again is the model's choice (log 60).
SPILL_PROBE_TIMEOUT loses the owner's units. -/
def Obligations.RoutesAndTakeover : Prop :=
  ∀ (n : Nat) (e : Entry) (s : State),
    let r := RingName.adm n
    (s.Passes r 0x43 e [(0x08, 0, 64), (0x10, 0, 256)] →
      let t := s.husked r e
      let a := eBits e 0x08 0 64
      let bs := readBytes (t.hostMemOf n) a 2048
      (a % 64 ≠ 0 → ∀ h, exec (.routeLoad n e h) s = s.critFails r e t fltArgRange) ∧
      (a % 64 = 0 → exec (.routeLoad n e false) s = s.critFails r e t fltHostTimeout ∧
        (leNat (sha256 bs) ≠ eBits e 0x10 0 256 → exec (.routeLoad n e true) s = s.critFails r e t fltArgRange) ∧
        (leNat (sha256 bs) = eBits e 0x10 0 256 → ∃ X, exec (.routeLoad n e true) s = s.critIsDone r e X 0 ∧
          X = { t with fabric := { t.fabric with route := X.fabric.route } } ∧
          ∀ i, i < 4096 → sget 0 X.fabric.route i = (bs.getD (i / 2) 0).toNat / 16 ^ (i % 2) % 16))) ∧
    (s.Passes r 0x44 e [(0x08, 0, 12), (0x0C, 0, 16)] →
      let t := s.husked r e
      let id := eBits e 0x08 0 12
      let mask := eBits e 0x0C 0 16
      ((t.fabric.standby = false ∨ t.noWindows = false) → exec (.takeover n e) s = s.critFails r e t fltArgRange) ∧
      (t.fabric.standby = true → t.noWindows = true → (mask = 0 ∨ ∃ p, p < 16 ∧ mask.testBit p = true ∧ t.keptFrom p id = false) →
        exec (.takeover n e) s = s.critFails r e t fltRestoreMismatch) ∧
      (t.fabric.standby = true → t.noWindows = true → mask ≠ 0 → (∀ p, p < 16 → mask.testBit p = true → t.keptFrom p id = true) →
        ∃ X, exec (.takeover n e) s = .next X ∧ X.fabric.takeover = t.fabric.takeover ++
            [{ port := n, owed := s.owedOn r e, id := id, pmask := mask }] ∧
          X = { t with fabric := { t.fabric with takeover := X.fabric.takeover, paths := X.fabric.paths, locals := X.fabric.locals }, out := X.out } ∧
          (t.noRoute id = true → X.out = t.out))) ∧
    (∀ q id, s.keptFrom q id = true ↔ ∃ ws, (s.part q).kept = some (id, ws) ∧ ws ≠ []) ∧
    (s.fabric.takeover = [] → exec .takeoverProbeTimeout s = .next s) ∧
    (∀ w rest, s.fabric.takeover = w :: rest →
      let t := { s with fabric := { s.fabric with takeover := rest } }
      ((s.fabric.standby = false ∨ s.noWindows = false) → exec .takeoverProbeTimeout s = .next (t.admDone w.port w.owed .failed fltArgRange 0)) ∧
      (s.fabric.standby = true → s.noWindows = true →
        let o := t.openKept w.pmask
        exec .takeoverProbeTimeout s = .next (({ o.1 with fabric := { o.1.fabric with id := w.id, standby := false } }.event 0x0010 w.id o.2 []).admDone
          w.port w.owed .done 0 0) ∧ o.1 = { t with fabric := { t.fabric with wins := o.1.fabric.wins } } ∧
        ∀ p m ws i y, maskParts w.pmask = [p] → (s.part p).kept = some (m, ws) → ws = [(i, y)] →
          o.2 = 1 ∧ ∀ j, o.1.win j = if j = i then { y with state := .open, epoch := (y.epoch + 1) % 65536, closer := none } else s.win j)) ∧
    (∀ owner, (owner ∉ s.fabric.probing → s.noRoute owner = false → exec (.spillProbeTimeout owner) s = .next s) ∧
      (owner ∈ s.fabric.probing ∨ s.noRoute owner = true → exec (.spillProbeTimeout owner) s =
        .next (({ s with fabric := { s.fabric with probing := s.fabric.probing.filter (· != owner) } }).loseUnits owner fun _ => true)))

/-! ### Failed cores (R513 to R524, R531) -/

/-- CORE_FAIL abandons the core's instructions, fails their items with FLT_CORE_FAIL, reports and retires the core, and the partition takes its
path; a core that has failed fails no second time. Once the issued instructions have completed, SUBSTITUTION puts the lowest spare of the die at the
coordinate and restores the latest record; REPAIR does so from WAIT_REPAIR. While a spare is filled, its own failure takes the next one of the die, and the
failure of another core of the partition ends the refill, with the spare still mapped. The two timeouts send a running partition to WAIT_REPAIR once it is
quiet, or stop it unsecured. Operations that a ring holds back do not hold SUBSTITUTION back, a second failure before SUBSTITUTION waits its turn, and what
a restore abandons are the model's choice (log 54), as are the positions of the spares (log 25). -/
def Obligations.FailedCoresAreReplaced : Prop :=
  ∀ (p k : Nat) (e : Entry) (work : RefillWork) (cause : BitVec 3) (s : State),
    let b := s.part p
    let c := cause.toNat
    let readable : Bool := c == 1 || c == 5
    let own : CursorArg := { en := false, force := false, value := 0 }
    let op : SubstOp := { core := k, work := work }
    ((s.causeHolds k c = false ∨ (s.core k).failed = true) → exec (.coreFail k cause) s = .next s) ∧
    (s.causeHolds k c = true → (s.core k).failed = false →
      (s.partOf k = none → exec (.coreFail k cause) s = .next (s.coreFails k c)) ∧
      (s.partOf k = some p → exec (.coreFail k cause) s = .next ((s.coreFails k c).failurePath p k readable))) ∧
    (let t := s.coreFails k c
     (t.core k).failed = true ∧ (t.core k).ops = [] ∧ (t.core k).scratch = (s.core k).scratch ∧ (∀ j, j ≠ k → (t.core j).ops.map (·.id) = (s.core j).ops.map (·.id)) ∧
      t.flash.repair.cores = s.flash.repair.cores ++ [k / 128 * 256 + s.position k] ∧ (∀ i w, w ∈ sget [] t.waiters i → w.core ≠ k)) ∧
    (b.state = .run → b.prog.stopping = false →
      (b.hasRecord = false → s.failurePath p k readable = s.stopWith p fltCoreFail) ∧
      (b.hasRecord = true → b.spared = true → s.pool (k / 128) = [] → s.drained p = true → s.failurePath p k readable = s.enterWaitRepair p) ∧
      (b.hasRecord = true → b.spared = true → (s.pool (k / 128) ≠ [] ∨ s.drained p = false) →
        s.failurePath p k readable = s.setPart p { b with refill := b.refill ++ [k] }) ∧
      (b.hasRecord = true → b.spared = false → s.failurePath p k readable = s.setPart p { b with failing := b.failing ++ [(k, readable)] })) ∧
    (b.state = .free ∨ b.state = .waitRepair ∨ (b.state = .run ∧ b.prog.stopping = true) → s.failurePath p k readable = s) ∧
    (let t := s.enterWaitRepair p
     (t.part p).state = .waitRepair ∧ (t.part p).failing = [] ∧ (t.part p).refill = [] ∧ (t.part p).repairing = false ∧ (t.part p).halting = false) ∧
    (∀ q rest, s.pool (k / 128) = q :: rest → ∀ chaff, ∃ t, s.takeSpare k chaff = some t ∧ t.pool (k / 128) = rest ∧ t.position k = q ∧
      t.core k = { chaff := chaff, island := { offset := s.leanReqOf k }, sheaf := { splices := s.splicesAt (k / 128) q } } ∧
      ∀ j, j ≠ k → t.core j = s.core j ∧ t.position j = s.position j) ∧
    (∀ (filling : List Nat) (j : Nat) (x : BitVec 3) (rest : List (Nat × BitVec 3)),
      s.refillFails p filling [] = (s, true) ∧
      (s.partOf j ≠ some p ∨ (s.core j).failed = true ∨ s.causeHolds j x.toNat = false → s.refillFails p filling ((j, x) :: rest) = s.refillFails p filling rest) ∧
      (s.partOf j = some p → (s.core j).failed = false → s.causeHolds j x.toNat = true →
        (j ∉ filling → s.refillFails p filling ((j, x) :: rest) = (s.coreFails j x.toNat, false)) ∧
        (j ∈ filling →
          let t := (s.event 0x0002 (coordOf j) x.toNat [p]).retirePosition (j / 128) (s.position j)
          s.refillFails p filling ((j, x) :: rest) = match t.takeSpare j b.grant.chaff with
            | some u => u.refillFails p filling rest
            | none => (t.setCore j { t.core j with failed := true }, false)))) ∧
    (∀ cur, s.restoreOwn p work cur = match (if b.sec.dest = true then work.fabric else none) with
      | some g => .error (fabCode g)
      | none =>
        let u := b.cores.foldl (fun v j => v.abandon j) s
        (u.restore p b.prog.nctx (u.ownSlots p) cur).map fun x => x.1) ∧
    ((s.partOf k = none ∨ (s.partOf k = some p ∧ k ∉ b.refill)) → exec (.substitution op) s = .next s) ∧
    (s.partOf k = some p → k ∈ b.refill → (∃ j ∈ b.cores, ∃ o ∈ (s.core j).ops, o.blocked = false) → exec (.substitution op) s = .next s) ∧
    (s.partOf k = some p → k ∈ b.refill → (∀ j ∈ b.cores, ∀ o ∈ (s.core j).ops, o.blocked = true) →
      let t := s.rollback p
      (t.takeSpare k b.grant.chaff = none → exec (.substitution op) s = .next (t.enterWaitRepair p)) ∧
      (∀ u, t.takeSpare k b.grant.chaff = some u →
        (∀ v, u.refillFails p [k] work.fails = (v, false) → exec (.substitution op) s = .next (v.enterWaitRepair p)) ∧
        (∀ v, u.refillFails p [k] work.fails = (v, true) → exec (.substitution op) s = match v.restoreOwn p work own with
          | .error g => .next ((b.cores.foldl (fun v j => v.abandon j) v).stopEnd p fltCoreFail g)
          | .ok x => .next ((x.setPart p { x.part p with refill := (x.part p).refill.filter (· != k) }).event 0x0004 (coordOf k)
              (x.pool (k / 128)).length [p])))) ∧
    (s.Passes (.cmd p) 0x1D e repairBody →
      let r := RingName.cmd p
      let t := s.husked r e
      let b := t.part p
      let bad := b.cores.filter fun j => (t.core j).failed
      let short := ∃ d, d < 4 ∧ (t.pool d).length < (bad.filter fun j => j / 128 == d).length
      (b.state ≠ .waitRepair → exec (.repair p e work) s = s.critFails r e t fltPartState) ∧
      (b.state = .waitRepair → t.health.halted = true → exec (.repair p e work) s = s.critFails r e t fltHealthHalt) ∧
      (b.state = .waitRepair → t.health.halted = false → short → exec (.repair p e work) s = s.critFails r e t fltNoSpare) ∧
      (b.state = .waitRepair → t.health.halted = false → ¬short →
        let u := bad.foldl (fun v j => (v.takeSpare j b.grant.chaff).getD v) t
        (∀ v, u.refillFails p bad work.fails = (v, false) → exec (.repair p e work) s = s.critFails r e v fltCoreFail) ∧
        (∀ v, u.refillFails p bad work.fails = (v, true) → exec (.repair p e work) s =
          match v.restoreOwn p work { en := decide (eBits e 0x08 0 1 = 1), force := decide (eBits e 0x08 1 1 = 1), value := eBits e 0x10 0 64 } with
          | .error g => s.critFails r e v g
          | .ok x => s.critIsDone r e (x.setPart p { x.part p with state := .run }) 0))) ∧
    (b.state ≠ .run ∨ b.failing = [] → exec (.repairWaitTimeout p) s = .next s) ∧
    (b.state = .run → b.failing ≠ [] → exec (.repairWaitTimeout p) s =
      .next (if s.quiet p = true then s.enterWaitRepair p else s.setPart p { b with repairing := true })) ∧
    (let prog := { b.prog with stopping := true, endFault := fltHealthHalt }
     exec (.haltWaitTimeout p) s = .next (if b.state = .run ∧ b.halting = true
      then s.setPart p { b with halting := false, failing := [], refill := [], repairing := false, prog := prog } else s))

/-! ### Registers outside the cores (R7 to R11, R306 to R314, R471, R472, R532, R533, R540, R541, R548, R574, R596) -/

/-- RC_COUNTER_READ answers an RC field and leaves it 0, whichever agent reads: a partition's or Winnow's counter its owner only, another port
reads 0 and changes nothing; a health, fabric, Husk or core counter any agent that reaches it. COUNTER_LO_READ and KEY_LAST_LO_READ answer the low
half and latch the high half for the reader. RNG_OUT_READ answers a word of the digest of KEY and CTR. REG_READ answers a block's value, and a
read of a port's configuration space its MSI-X masks and pending bits, the Completion Timeout value and the device state. The fields of that space are PCIe's
(log 7); a port that takes part in no traffic reads nothing (log 66), and a module without power answers nothing (log 58). -/
def Obligations.RegisterReadsClearAndLatch : Prop :=
  ∀ (n i p off k c dst word : Nat) (s : State),
    let b := s.part p
    let h := s.health
    (p < 16 → s.owns n p = true →
      (off ∈ partCounters → exec (.rcCounterRead (.port n (0x10000 + 0x1000 * p + off))) s =
        .next ((s.setPart p { b with cnt := sput 0 b.cnt off 0 }).emit (.read (sget 0 b.cnt off)))) ∧
      (off ∈ winnowCounters → exec (.rcCounterRead (.port n (0x21000 + 0x40 * p + off))) s =
        .next ((s.setPart p { b with cnt := sput 0 b.cnt (0x1000 + off) 0 }).emit (.read (sget 0 b.cnt (0x1000 + off)))))) ∧
    (s.portUp n = false → exec (.rcCounterRead (.port n off)) s = .next s ∧ exec (.keyLastLoRead (.port n off) word) s = .next s) ∧
    (p < 16 → s.portUp n = true → s.owns n p = false →
      (off < 0x1000 → exec (.rcCounterRead (.port n (0x10000 + 0x1000 * p + off))) s = .next (s.emit (.read 0))) ∧
      (off < 0x40 → exec (.rcCounterRead (.port n (0x21000 + 0x40 * p + off))) s = .next (s.emit (.read 0)))) ∧
    (off ∈ healthCounters → ∀ who ∈ [RegAgent.port n (0x30000 + off), .mgmt i 0 off], s.reaches who = true → exec (.rcCounterRead who) s =
      .next ({ s with health := { h with cnt := sput 0 h.cnt off 0 } }.emit (.read (sget 0 h.cnt off)))) ∧
    (off ∈ fabCounters → ∀ who ∈ [RegAgent.port n (0x80000 + off), .mgmt i 1 off], s.reaches who = true → exec (.rcCounterRead who) s =
      .next ({ s with fabric := { s.fabric with cnt := sput 0 s.fabric.cnt off 0 } }.emit (.read (sget 0 s.fabric.cnt off)))) ∧
    (∀ who ∈ [RegAgent.port n 0x40018, .mgmt i 2 0x18], s.reaches who = true → exec (.rcCounterRead who) s =
      .next ({ s with husk := { s.husk with cntSlotFail := 0 } }.emit (.read s.husk.cntSlotFail))) ∧
    (word < 16 → ∀ who ∈ [RegAgent.port n (0x4004C + 0x10 * word), .mgmt i 2 (0x4C + 0x10 * word)], s.reaches who = true → exec (.rcCounterRead who) s =
      .next ((s.setSlot word { s.slot word with cntFail := 0 }).emit (.read (s.slot word).cntFail))) ∧
    (off ∈ rcCoreOffsets → exec (.rcCounterRead (.core k c off)) s =
      .next ((s.setCore k { s.core k with cnt := sput 0 (s.core k).cnt off 0 }).emit (.read (sget 0 (s.core k).cnt off)))) ∧
    (∃ t, exec (.counterLoRead k c true dst) s = .next t ∧ WritesScalar s t k c dst (BitVec.ofNat 64 (s.time % 2 ^ 32)) ∧
      t.ctx k c = { s.ctx k c with s := (t.ctx k c).s, timeHi := BitVec.ofNat 32 (s.time / 2 ^ 32) } ∧
      t = { s with cores := t.cores } ∧ SameOtherCores s t k ∧ SameButContext s t k c) ∧
    (∃ t, exec (.counterLoRead k c false dst) s = .next t ∧ WritesScalar s t k c dst (BitVec.ofNat 64 ((s.cycles k).toNat % 2 ^ 32)) ∧
      t.ctx k c = { s.ctx k c with s := (t.ctx k c).s, cycleHi := BitVec.ofNat 32 ((s.cycles k).toNat / 2 ^ 32) } ∧
      t = { s with cores := t.cores } ∧ SameOtherCores s t k ∧ SameButContext s t k c) ∧
    (word < 16 → ∀ x ∈ [(RegAgent.port n off, n), (RegAgent.mgmt i c off, 4 + i)], s.reaches x.1 = true →
      let last := (s.slot word).last.toNat
      exec (.keyLastLoRead x.1 word) s = .next ({ s with husk := { s.husk with
        latches := sput 0 s.husk.latches (x.2 * 16 + word) (BitVec.ofNat 32 (last / 2 ^ 32)) } }.emit (.read (BitVec.ofNat 32 last))) ∧
      ∀ t : State, t.husk.latches = sput 0 s.husk.latches (x.2 * 16 + word) (BitVec.ofNat 32 (last / 2 ^ 32)) →
        t.huskReg x.2 (0x48 + 0x10 * word) = last / 2 ^ 32) ∧
    (let r := (s.core k).rngOf off
     let digest := sha256 (leBytes 8 r.key.toNat ++ leBytes 8 r.ctr.toNat)
     ∃ t, exec (.rngOutRead k c off word dst) s = .next t ∧ WritesScalar s t k c dst (BitVec.ofNat 64 (leNat ((digest.drop (4 * word)).take 4))) ∧
      t.ctx k c = { s.ctx k c with s := (t.ctx k c).s } ∧ t = { s with cores := t.cores } ∧ SameOtherCores s t k ∧ SameButContext s t k c) ∧
    (s.boot.en = true → s.boot.heldOff = false →
      let answers := fun (block o v : Nat) => exec (.regRead i block o) s = .next (s.emit (.mgmt i (.value (BitVec.ofNat 32 v))))
      (off ∈ healthCounters → exec (.regRead i 0 off) s = .next ({ s with health := { h with cnt := sput 0 h.cnt off 0 } }.emit
        (.mgmt i (.value (sget 0 h.cnt off))))) ∧
      (off ∈ fabCounters → exec (.regRead i 1 off) s = .next ({ s with fabric := { s.fabric with cnt := sput 0 s.fabric.cnt off 0 } }.emit
        (.mgmt i (.value (sget 0 s.fabric.cnt off))))) ∧
      answers 0 0x00 (h.score + if h.halted = true then 2 ^ 10 else 0) ∧ answers 0 0x04 h.secureAt ∧ answers 0 0x08 h.haltAt ∧
      (off < 10 → answers 0 (0x40 + 4 * off) (sget 0 h.pts off)) ∧ (off < 64 → answers 0 (0x100 + 4 * off) (sget 0 h.leanReq off)) ∧
      answers 0 0x300 s.sensorBad ∧ answers 0 0x400 h.pwrCap ∧ answers 0 0x404 h.pwrLimit ∧ (off < 4 → answers 0 (0x410 + 4 * off) (s.thermCap off)) ∧
      answers 1 0x00 (s.fabric.id + if s.fabric.standby = true then 2 ^ 12 else 0) ∧ answers 1 0x0C s.fabric.rspUs ∧
      (off < 12 → answers 1 (0x40 + 4 * off) (s.vport off)) ∧ answers 2 0x10 (s.fuses.deviceId.toNat % 2 ^ 32) ∧ answers 3 0x00 s.boot.status) ∧
    (∀ z ∈ [(ConfigField.msixMask i, if i ∈ (s.port n).masked then 1 else 0), (.msixPending i, if i ∈ (s.port n).pendingVectors then 1 else 0),
        (.completionTimeout, (s.port n).timeoutValue), (.powerState, if (s.port n).d3hot = true then 3 else 0)],
      exec (.rcCounterRead (.config n z.1)) s = .next (if (s.port n).released = true then s.emit (.read (BitVec.ofNat 32 z.2)) else s)) ∧
    ((s.boot.en = false ∨ s.boot.heldOff = true) → exec (.regRead i p off) s = .next s)

/-- REGISTER_WRITE sets the RW fields: a ring's BASE and SIZE while it is disabled (a LOG2 of 6 to 16), IRQ moderation, and the SEC fields of a READY
partition, all of the owner's blocks only. SEC_CFG_WRITE, LEAN_REQ_WRITE, HEALTH_LEVEL_WRITE, WATCHDOG_WRITE and FREQ_SET take a value in range and
ignore any other; a pending MSI-X vector is sent once it is neither masked nor held back by D3hot. REG_WRITE writes RW fields of the health and fabric
blocks in STAGE 9 and else answers an error. The configuration-space fields (log 7), the low bits of BASE (log 54), the offset that a first LEAN_REQ starts
from (log 28), the reservation that SEC_CFG checks anew (log 65), the ports that take part in no traffic (log 66) and a PLACE_RATE of 0, which changes
nothing (log 68), are the model's choice. -/
def Obligations.RegisterWritesTakeValuesInRange : Prop :=
  ∀ (n i p off k c g : Nat) (v : W32) (room : Bool) (s : State),
    let b := s.part p
    let h := s.health
    let x := s.port n
    let at' := fun o => RegAgent.port n (0x10000 + 0x1000 * p + o)
    (s.portUp n = false → exec (.registerWrite (.port n off) v) s = .next s) ∧
    (n < 4 → s.portUp n = true → (x.adm.en = true → exec (.registerWrite (.port n 0x10) v) s = .next (s.setPort n x)) ∧
      (x.adm.en = false → exec (.registerWrite (.port n 0x10) v) s =
        .next (s.setPort n { x with adm := { x.adm with base := setHalf x.adm.base false (v &&& 0xFFFFF000#32) } }) ∧
        (6 ≤ v.toNat % 32 → v.toNat % 32 ≤ 16 → exec (.registerWrite (.port n 0x18) v) s =
          .next (s.setPort n { x with adm := { x.adm with log2 := v.toNat % 32 } })) ∧
        (v.toNat % 32 < 6 ∨ 16 < v.toNat % 32 → exec (.registerWrite (.port n 0x18) v) s = .next (s.setPort n x)))) ∧
    (p < 16 → s.owns n p = false → off < 0x1000 → exec (.registerWrite (at' off) v) s = .next s) ∧
    (p < 16 → s.owns n p = true →
      exec (.registerWrite (at' 0x68) v) s =
        .next (s.setPart p { b with cpl := { b.cpl with irqCount := v.toNat % 256, irqUs := v.toNat / 256 % 65536 } }) ∧
      (b.state = .ready → exec (.registerWrite (at' 0x104) v) s = .next (s.setPart p { b with sec := { b.sec with slotMib := v.toNat % 65536 } }) ∧
        exec (.registerWrite (at' 0x108) v) s = .next (s.setPart p { b with sec := { b.sec with rwin := v.toNat % 4096 } }) ∧
        exec (.registerWrite (at' 0x10C) v) s = .next (s.setPart p { b with sec := { b.sec with cur := setHalf b.sec.cur false v } }) ∧
        (off < 4 → exec (.registerWrite (at' (0x120 + 8 * off)) v) s =
          .next (s.setPart p { b with sec := { b.sec with mem := sput 0 b.sec.mem (2 * off) (v.toNat % 2 ^ 27) } }))) ∧
      (b.state ≠ .ready → ∀ o ∈ [0x104, 0x108, 0x10C, 0x110, 0x120, 0x13C], exec (.registerWrite (at' o) v) s = .next (s.setPart p b))) ∧
    (exec (.registerWrite (.core k c off) v) s = .next (s.setCore k ((s.core k).regWrite off v))) ∧
    (x.released = false → ∀ f, exec (.registerWrite (.config n f) v) s = .next s) ∧
    (x.released = true →
      let masked := if v.getLsbD 0 = true then i :: x.masked.filter (· != i) else x.masked.filter (· != i)
      (x.d3hot = true → exec (.registerWrite (.config n (.msixMask i)) v) s = .next (s.setPort n { x with masked := masked })) ∧
      (x.d3hot = false → exec (.registerWrite (.config n (.msixMask i)) v) s = .next ((x.pendingVectors.filter (!masked.contains ·)).foldl
        (fun t j => t.emit (.msix n j)) (s.setPort n { x with masked := masked, pendingVectors := x.pendingVectors.filter masked.contains }))) ∧
      exec (.registerWrite (.config n .completionTimeout) v) s = .next (s.setPort n { x with timeoutValue := v.toNat % 16 }) ∧
      (v.toNat % 4 = 3 → exec (.registerWrite (.config n .powerState) v) s = .next (s.setPort n { x with d3hot := true })) ∧
      (v.toNat % 4 = 0 → exec (.registerWrite (.config n .powerState) v) s =
        .next (((x.pendingVectors.filter (!x.masked.contains ·)).foldl (fun t j => t.emit (.msix n j))
          (s.setPort n { x with d3hot := false, pendingVectors := x.pendingVectors.filter x.masked.contains })).portBack n)) ∧
      (v.toNat % 4 = 1 ∨ v.toNat % 4 = 2 → exec (.registerWrite (.config n .powerState) v) s = .next s)) ∧
    (s.owns n p = false ∨ b.state ≠ .ready → exec (.secCfgWrite n p v room) s = .next s) ∧
    (s.owns n p = true → b.state = .ready →
      let y := { b.sec with dest := bit v.toNat 1, every := v.toNat / 4 % 2 ^ 16, waitMs := v.toNat / 2 ^ 18 % 2 ^ 10 }
      let fresh := { y with a := none, b := none, store := [] }
      (b.sec.en = true → v.toNat.testBit 0 = true → b.sec.dest = v.toNat.testBit 1 → (b.sec.dest = true ∨ b.secPages = b.sec.slotMib) → exec (.secCfgWrite n p v room) s = .next (s.setPart p { b with sec := y })) ∧
      (v.toNat.testBit 0 = false → exec (.secCfgWrite n p v room) s = .next (s.setPart p { b with secPages := 0, sec := { fresh with en := false } })) ∧
      (v.toNat.testBit 0 = true → v.toNat.testBit 1 = true → ¬(b.sec.en = true ∧ b.sec.dest = true) →
        exec (.secCfgWrite n p v room) s = .next (s.setPart p { b with secPages := 0, sec := { fresh with en := true, noRoom := false } })) ∧
      (v.toNat.testBit 0 = true → v.toNat.testBit 1 = false → ¬(b.sec.en = true ∧ b.sec.dest = false ∧ b.secPages = b.sec.slotMib) →
        let z := { b with secPages := 0 }
        (room = true → b.sec.slotMib ≤ s.freeL + b.secPages → z.memUse + b.sec.slotMib ≤ b.grant.memQuota →
          exec (.secCfgWrite n p v room) s = .next (s.setPart p { b with secPages := b.sec.slotMib, sec := { fresh with en := true, noRoom := false } })) ∧
        (room = false ∨ s.freeL + b.secPages < b.sec.slotMib ∨ b.grant.memQuota < z.memUse + b.sec.slotMib →
          exec (.secCfgWrite n p v room) s = .next (s.setPart p { z with sec := { fresh with en := false, noRoom := true } })))) ∧
    (exec (.watchdogWrite k c v) s = .next (s.setCore k { s.core k with
      wdExp := if 12 ≤ v.toNat % 32 ∧ v.toNat % 32 ≤ 30 then v.toNat % 32 else (s.core k).wdExp })) ∧
    (let l := v.toNat % 1024
     (s.boot.stage ≠ 9 → ∀ u, exec (.healthLevelWrite i u v) s = .next s) ∧
     (s.boot.stage = 9 →
      exec (.healthLevelWrite i false v) s = .next { s with health := { h with secureAt := if l ≤ h.haltAt then l else h.secureAt } } ∧
      exec (.healthLevelWrite i true v) s = .next { s with health := { h with haltAt := if h.secureAt ≤ l then l else h.haltAt } })) ∧
    (s.boot.stage ≠ 9 → exec (.leanReqWrite i (g / 16) (g % 16) v) s = .next s) ∧
    (s.boot.stage = 9 → g < 64 → ∃ t, exec (.leanReqWrite i (g / 16) (g % 16) v) s = .next t ∧
      t = { s with cores := t.cores, health := { h with leanReq := sput 0 h.leanReq g (min 6 (v.toNat % 8)) } } ∧
      ∀ j, t.core j = if j < 512 ∧ groupOf j = g then { s.core j with island := { (s.core j).island with
        offset := if sget 0 h.leanReq g = 0 then min 6 (v.toNat % 8) else min (s.core j).island.offset (min 6 (v.toNat % 8)) } } else s.core j) ∧
    ((∀ q, s.partOfGroup g = some q → s.owns n q = false ∨ off < 800 ∨ 2200 < off ∨ off % 25 ≠ 0) → exec (.freqSet n (g / 16) (g % 16) off) s = .next s) ∧
    (∀ q, s.partOfGroup g = some q → s.owns n q = true → 800 ≤ off → off ≤ 2200 → off % 25 = 0 →
      ∃ t, exec (.freqSet n (g / 16) (g % 16) off) s = .next t ∧ t = { s with groups := t.groups } ∧ (∀ j, j ≠ g → t.groupAt j = s.groupAt j) ∧
        (t.groupAt g).hostMhz = off ∧ (t.groupAt g).mhz = min off (min (s.thermCap (g / 16)) h.pwrCap) / 25 * 25) ∧
    (s.boot.en = true → s.boot.heldOff = false →
      (s.boot.stage ≠ 9 ∨ mgmtWritable p off = false → exec (.regWrite i p off v) s = .next (s.emit (.mgmt i .error))) ∧
      (s.boot.stage = 9 →
        (let l := v.toNat % 1024
         exec (.regWrite i 0 0x04 v) s =
          .next ({ s with health := { h with secureAt := if l ≤ h.haltAt then l else h.secureAt } }.emit (.mgmt i .done)) ∧
         exec (.regWrite i 0 0x08 v) s =
          .next ({ s with health := { h with haltAt := if h.secureAt ≤ l then l else h.haltAt } }.emit (.mgmt i .done))) ∧
        exec (.regWrite i 0 0x0C v) s = .next ({ s with health := { h with flowNom := v.toNat % 65536 } }.emit (.mgmt i .done)) ∧
        exec (.regWrite i 0 0x10 v) s = .next ({ s with health := { h with retireAt := v.toNat % 256 } }.emit (.mgmt i .done)) ∧
        exec (.regWrite i 0 0x404 v) s = .next ({ s with health := { h with
          pwrLimit := if 1000 ≤ v.toNat % 4096 ∧ v.toNat % 4096 ≤ 4000 then v.toNat % 4096 else h.pwrLimit } }.emit (.mgmt i .done)) ∧
        exec (.regWrite i 1 0x0C v) s = .next ({ s with fabric := { s.fabric with
          rspUs := if 100 ≤ v.toNat % 2 ^ 24 ∧ v.toNat % 2 ^ 24 ≤ 10000000 then v.toNat % 2 ^ 24 else s.fabric.rspUs } }.emit (.mgmt i .done)) ∧
        exec (.regWrite i 1 0x08 v) s = .next ({ s with fabric := { s.fabric with
          placeRate := if v.toNat % 1024 = 0 then s.fabric.placeRate else v.toNat % 1024 } }.emit (.mgmt i .done))))

/-! ### Instructions in flight (R93, R97, R127, R140, R276, R287, R309 to R318, R329, R366, R373) -/

/-- UNIT_START starts the head of a unit's queue, unless an earlier instruction holds the unit or stream 0: a tile's stream shows its mode and slot,
its lane counts begin anew and its tiles are streamed as far as rings and slots allow; a FAB instruction takes the lowest free TAG of its core's
parity. OUTPUT_WORD_WRITE puts the oldest word through the epilogue, TILE_DONE ends a tile whose words are written, ACC_REPEAT repeats an overflowing
one with one more halving, GUARDED_RING_UNIT tests a unit or waits. The lowest free TAG (log 22) and what a tile's steps count (log 42) are the model's
choice. -/
def Obligations.TilesRunInOrder : Prop :=
  ∀ (k id : Nat) (u : UnitId) (r : RingId) (s : State),
    let x := s.core k
    ((∀ o ∈ x.ops, o.unit = u → o.started = true) → exec (.unitStart k u) s = .next s) ∧
    (∀ es o rest, x.ops = es ++ o :: rest → o.unit = u → o.started = false → (∀ e ∈ es, e.unit = u → e.started = true) →
      (es.any (blocksStart o) = true → exec (.unitStart k u) s = .next s) ∧
      (es.any (blocksStart o) = false →
        let begun := x.modOp o.id fun o => { o with started := true }
        ((o.job = .plain ∨ (∃ i, o.job = .epiLoad i) ∨ ∃ l, o.job = .list l) → exec (.unitStart k u) s = .next (s.setCore k begun)) ∧
        (∀ j, o.job = .kv j → exec (.unitStart k u) s = .next ((s.setCore k begun).runKv k o j)) ∧
        (∀ st, o.job = .scatter → u = .stream st → ∃ y, exec (.unitStart k u) s = .next (s.setCore k y) ∧ y = { begun with cnt := y.cnt } ∧
          ∀ i, sget 0 y.cnt i = if i = 0x220 + 0x10 * st ∨ i = 0x224 + 0x10 * st then 0 else sget 0 x.cnt i) ∧
        (∀ j, o.job = .tile j →
          let n := 0x220 + 0x10 * tStream j.word
          ∃ y, exec (.unitStart k u) s = .next (((s.setCore k y).loadAll k).advance (j.tiles + 1) k o.id) ∧ y = { x with ops := y.ops, cnt := y.cnt, sheaf := y.sheaf } ∧
            y.ops = x.ops.map (fun e => if e.id = o.id then { e with started := true, job := .tile (j.readOnce k x.scratch) } else e) ∧
            (∀ i, sget 0 y.cnt i = if i = n ∨ i = n + 4 then 0 else sget 0 x.cnt i) ∧
            y.sheaf = { x.sheaf with
              mode := sput 0 x.sheaf.mode (tStream j.word) (if j.kind = .stream then bits j.desc.toNat 0 2 else 0),
              nextSlot := sput 0 x.sheaf.nextSlot (tStream j.word) (tSlot j.word) }) ∧
        (∀ j tag, o.job = .fab j → j.done = false → s.fabric.trans.length < 8192 → tag % 2 = (if x.tagBit then 1 else 0) →
          (∀ e ∈ s.fabric.trans, e.1 ≠ tag) → (∀ i, i < tag → i % 2 = tag % 2 → ∃ e ∈ s.fabric.trans, e.1 = i) →
          ∃ t, exec (.unitStart k u) s = .next t ∧ t = { s with cores := t.cores, fabric := t.fabric } ∧ (t.core k).tagBit = !x.tagBit ∧
            t.fabric = { s.fabric with trans := s.fabric.trans ++ [(tag, { core := k, id := o.id, next := 0, live := [], failed := false })] } ∧
            SameOtherCores s t k) ∧
        (∀ j, o.job = .fab j → j.done = false → 8192 ≤ s.fabric.trans.length → exec (.unitStart k u) s = .next s))) ∧
    (∀ o j, s.opOf k id = some o → o.job = .tile j → o.started = true →
      (j.words = [] → exec (.outputWordWrite k id) s = .next s) ∧
      (∀ w ws, j.words = w :: ws → exec (.outputWordWrite k id) s =
        .next (if j.mayWrite w = true then ((s.writeWord k o j w).setTile k id { j with words := ws }).advanceAll k else s)) ∧
      (j.ends = [] → exec (.tileDone k id) s = .next s) ∧
      (∀ n good rest, j.ends = (n, good) :: rest →
        ((∃ w ∈ j.words, w.tile ≤ n) → exec (.tileDone k id) s = .next s) ∧
        (∀ g, j.oRing = some g → good = true → j.endsUnit n = true → g.tested ≤ j.wordUnit n → exec (.tileDone k id) s = .next s) ∧
        ((∀ w ∈ j.words, n < w.tile) → (∀ g, j.oRing = some g → good = false ∨ j.endsUnit n = false ∨ j.wordUnit n < g.tested) →
          exec (.tileDone k id) s = .next (s.endTile k id j n good rest) ∧
          (j.yRing = none → j.cRing = none → j.sRing = none → j.oRing = none → ∀ a, (s.endTile k id j n good rest).obj a =
            if j.objTile = some a ∧ good = true then s.obj a + 1 else s.obj a))) ∧
      (∀ l, j.overflow = none → exec (.accRepeat k { op := id, parity := l }) s = .next s) ∧
      (∀ v l, j.overflow = some v →
        let T := j.ctx k v.tile
        let rows := l.filter fun p => T.d.arrays.contains p.1 && T.rows.contains p.2 && !(j.lost v.tile).contains p.1
        let i := { j with overflow := none, parity := j.parity ++ rows.map fun p => (p.1, p.2, v.tile) }
        let t := (s.coreCount k 0x2A0 1).charge o.bind fun y => { y with halvings := y.halvings + 1 }
        exec (.accRepeat k { op := id, parity := l }) s =
          .next ((((t.setTile k id i).parityFails k o rows).runTile k { o with job := .tile i } i v.tile (some v)).advanceAll k)) ∧
      (∀ g₀, j.ring r = some g₀ → let g := j.aim r g₀
        (r ≠ .output → g = g₀) ∧
        (j.mayTest r g = false → exec (.guardedRingUnit k id r) s = .next s) ∧
        (j.mayTest r g = true → let w := g.test (r == .output)
          (w.2.holds (s.obj w.1) = true → exec (.guardedRingUnit k id r) s =
            .next ((s.setTile k id (j.setRing r (some { g with tested := g.tested + 1 }))).advanceAll k)) ∧
          (w.2.holds (s.obj w.1) = false → exec (.guardedRingUnit k id r) s =
            .next ((s.setTile k id (j.setRing r (some { g with waiting := some { kind := w.2, wdExp := x.wdExp } }))).addWaiter w.1
              { core := k, who := .ring id r }))))) ∧
    ((∀ o, s.opOf k id = some o → o.started = false ∨ ∀ j, o.job ≠ .tile j) →
      ∀ c ∈ [Instr.outputWordWrite k id, .tileDone k id, .accRepeat k { op := id, parity := [] }, .guardedRingUnit k id r], exec c s = .next s)

/-- INSTR_COMPLETE takes a started instruction with nothing left, in its unit's order (of the DMA engine in any; one whose count is zero at once), out
of flight: it gives 1 to each completion object unless it faulted, and its results reach their registers. WATCHDOG_EXPIRY ends a context's wait, or
stops an instruction that waits for a ring, with FLT_SYNC_TIMEOUT, unless the wait's condition has held already or the watchdog is paused. XI_TIMEOUT
fails the instruction, or the request of a context (which instruction then fails is the model's choice, log 63), with FLT_XI_TIMEOUT and counts it;
NARROW_PROMOTE counts a promotion and the 64 cycles it waited. -/
def Obligations.InstructionsCompleteOrTimeOut : Prop :=
  ∀ (k c id : Nat) (s : State),
    let x := s.core k
    let y := s.ctx k c
    (s.opOf k id = none → exec (.instrComplete k id) s = .next s ∧ exec (.xiTimeout k (.op id)) s = .next s) ∧
    (∀ es o rest, x.ops = es ++ o :: rest → o.id = id → (∀ e ∈ es, e.id ≠ id) →
      ((o.started = false ∨ x.jobDone o = false ∨ (o.unit ≠ .dma ∧ o.job ≠ .empty ∧ ∃ e ∈ es, e.unit = o.unit)) → exec (.instrComplete k id) s = .next s) ∧
      (o.started = true → x.jobDone o = true → (o.unit = .dma ∨ o.job = .empty ∨ ∀ e ∈ es, e.unit ≠ o.unit) →
        exec (.instrComplete k id) s = .next (s.complete k o) ∧
        (o.objs = [] → (∀ i, (s.ctx k i).wait = none) → ∀ d v, o.results = [.scalar d v] →
          WritesScalar s (s.complete k o) k o.ctx d v ∧ (∀ e ∈ ((s.complete k o).core k).ops, e.id ≠ id) ∧ SameOtherCores s (s.complete k o) k) ∧
        (o.results = [] → (∀ i, (s.ctx k i).wait = none) → ∀ n, o.objs = [n] → ∀ a, (s.complete k o).obj a =
          if a = n ∧ o.faulted = false then s.obj a + 1 else s.obj a)) ∧
      exec (.xiTimeout k (.op id)) s = .next ((s.opFault k o fltXiTimeout).xiCount k)) ∧
    (let t := s.coreCount k 0x14 1
     s.xiCount k = { t.setCore k { t.core k with island := { (t.core k).island with
        xiTimes := s.time :: (t.core k).island.xiTimes.filter fun a => decide (s.time < a + 2 ^ 20) } } with
      health := { s.health with timeouts := match s.health.timeouts with
        | [] => [1]
        | n :: ns => (n + 1) :: ns } }) ∧
    (∀ w n, y.wait = some w → w.kind.obj? = some n → s.waitMet n k (.ctx c) = false →
      exec (.xiTimeout k (.ctx c)) s = .next ((s.failWait k c n w fltXiTimeout).xiCount k)) ∧
    (y.wait = none → y.mode = .run → x.fetched y.pc = none →
      exec (.xiTimeout k (.ctx c)) s = .next (((s.faultAt k c y.bind fltXiTimeout).setPc k c (y.pc + 8)).xiCount k)) ∧
    (y.wait = none → y.mode ≠ .run → exec (.xiTimeout k (.ctx c)) s = .next s) ∧
    (∀ w n, s.wdPaused k = false → y.wait = some w → w.kind ≠ .step → w.kind.obj? = some n →
      (s.waitMet n k (.ctx c) = true → exec (.watchdogExpiry k (.ctx c)) s = .next s) ∧
      (s.waitMet n k (.ctx c) = false →
        let t := ((((s.faultAt k c w.bind fltSyncTimeout).dropWaiter n k (.ctx c)).endWait k c .run)).recheckAll k
        exec (.watchdogExpiry k (.ctx c)) s = .next t ∧ (t.ctx k c).mode = .run ∧ (t.ctx k c).wait = none)) ∧
    (∀ w, s.wdPaused k = false → y.wait = some w → w.kind = .step →
      (s.boundaryMet k = true → exec (.watchdogExpiry k (.ctx c)) s = .next s) ∧
      (s.boundaryMet k = false →
        exec (.watchdogExpiry k (.ctx c)) s = .next (((s.faultAt k c w.bind fltSyncTimeout).endWait k c .run).recheckAll k))) ∧
    (∀ o j r g w n, s.wdPaused k = false → s.opOf k id = some o → o.job = .tile j → j.ring r = some g → g.waiting = some w →
      w.kind.obj? = some n →
      (s.waitMet n k (.ring id r) = true → exec (.watchdogExpiry k (.ring id r)) s = .next s) ∧
      (s.waitMet n k (.ring id r) = false →
        exec (.watchdogExpiry k (.ring id r)) s = .next (((s.opFault k o fltSyncTimeout).stopTile k id j true).advanceAll k))) ∧
    (s.wdPaused k = true ∨ y.wait = none → exec (.watchdogExpiry k (.ctx c)) s = .next s) ∧
    (∃ t, exec (.narrowPromote k) s = .next t ∧ t = { s with cores := t.cores } ∧ SameOtherCores s t k ∧ t.core k = { x with cnt := (t.core k).cnt } ∧
      ∀ i, sget 0 (t.core k).cnt i = if i = 0x368 then cntAdd (sget 0 x.cnt i) 1 else if i = 0x364 then cntAdd (sget 0 x.cnt i) 64
        else sget 0 x.cnt i)

/-! ### The fabric (R438 to R452, R456 to R465) -/

/-- FAB_BURST_SEND sends a transaction's next burst, up to 4,096 bytes from its address on, while fewer than 16 are outstanding and none failed; where
no hop takes it, FLT_FAB_UNREACH. RD_RSP stores each packet's data of an outstanding burst once, WR_ACK ends one, NACK ends it with its
status' fault, and the response and gap timers with FLT_FAB_TIMEOUT and FLT_STREAM_GAP; a late one is dropped and counted. What an instruction has
accessed of a unit in Tier F becomes a transaction of the program class to its owner, by the unit's frame and the key and epoch of the window held; its
failure fails the instruction's item, and its end ends the transfer. How an access makes its transfers, and the bytes that stand in the module meanwhile, are
the model's choice (log 67), as are the lowest free TAG (log 22) and the units that a refused key or a closed window loses (log 13). -/
def Obligations.TransactionsAtTheirRequester : Prop :=
  ∀ (tag burst src : Nat) (p : Packet) (s : State),
    (s.transOf tag = none → exec (.fabBurstSend tag) s = .next s ∧ exec (.fabRspTimeout tag burst) s = .next s ∧
      exec (.fabGapExpiry false src tag burst) s = .next s) ∧
    (∀ t : Trans, (∀ w, t.own = some w → s.jobOf t = some w.job) ∧ (∀ o j, t.own = none → s.fabOf t = some (o, j) → s.jobOf t = some j)) ∧
    (∀ t j, s.transOf tag = some t → s.jobOf t = some j →
      ((t.failed = true ∨ 16 ≤ t.live.length ∨ j.len ≤ 4096 * t.next) → exec (.fabBurstSend tag) s = .next s) ∧
      (t.failed = false → t.live.length < 16 → 4096 * t.next < j.len →
        let n := min 4096 (j.len - 4096 * t.next)
        let a := j.laddr + 4096 * t.next
        let h : Hdr := { cls := if j.put then clsWr else clsRdReq, dst := j.module, src := 0, tag := j.tag.getD 0, offset := j.goff + 4096 * t.next,
                         key := j.key.toNat, epoch := j.epoch, seq := 16 * t.next }
        let t' := { t with next := t.next + 1, live := t.live ++ [{ idx := t.next, got := [] }] }
        let unreached := ((s.failTrans tag fltFabUnreach).settleTrans tag).startProbes j.module
        (j.put = false → (∀ u, s.inject { h with rdlen := n / 4 - 1 } [] = some u → exec (.fabBurstSend tag) s = .next (u.setTrans tag t')) ∧
          (s.inject { h with rdlen := n / 4 - 1 } [] = none → exec (.fabBurstSend tag) s = .next unreached)) ∧
        (∀ v bs, j.put = true →
          ((j.tierF = false ∧ s.readAt t.core a n = .ok bs ∧
              ((∃ o y, s.fabOf t = some (o, y) ∧ v = (s.touchAt t.core a n).startFarOf t.core o) ∨ (s.fabOf t = none ∧ v = s))) ∨
            (j.tierF = true ∧ v = s ∧ ((∃ w, t.own = some w ∧ bs = readBytes (s.mem w.part).bytes a n) ∨
              (t.own = none ∧ ∃ q, s.partOf t.core = some q ∧ bs = readBytes (s.mem q).bytes a n)))) →
          let ps := burstPackets (j.goff + 4096 * t.next) t.next h bs
          (∀ u, v.sendAll ps = some u → exec (.fabBurstSend tag) s = .next (u.setTrans tag t')) ∧
          (v.sendAll ps = none → exec (.fabBurstSend tag) s = .next unreached)) ∧
        (∀ f, j.put = true → j.tierF = false → s.readAt t.core a n = .error f →
          exec (.fabBurstSend tag) s = .next ((s.failTrans tag f.code).settleTrans tag))) ∧
      (∀ b, t.live.find? (·.idx == burst) = some b →
        (b.got ≠ [] → exec (.fabRspTimeout tag burst) s = .next s) ∧
        (b.got = [] → exec (.fabRspTimeout tag burst) s =
            .next (((s.failTrans tag fltFabTimeout).endBurst tag burst).startProbes j.module) ∧
          exec (.fabGapExpiry false src tag burst) s = .next s) ∧
        (b.got ≠ [] → ∀ u v, u = s.failTrans tag fltStreamGap → u.transOf tag = some v →
          exec (.fabGapExpiry false src tag burst) s = .next ((u.setTrans tag { v with live := [] }).settleTrans tag)))) ∧
    (∀ t f, s.transOf tag = some t →
      (∀ o j, t.own = none → s.fabOf t = some (o, j) →
        let u := s.opFault t.core o f
        (j.owner = none → s.failTrans tag f = u.setTrans tag { t with failed := true }) ∧
        (∀ i, j.owner = some i → s.failTrans tag f = (u.modOp t.core i fun x => { x with faulted := true }).setTrans tag { t with failed := true }) ∧
        (j.tierF = true → t.live = [] → (t.failed = true ∨ j.len ≤ 4096 * t.next) →
          s.settleTrans tag = ((s.dropTrans tag).wakeOwn).complete t.core o)) ∧
      (t.own ≠ none → s.failTrans tag f = s.setTrans tag { t with failed := true })) ∧
    (∀ (k c cls q : Nat) (bind : Option (Nat × Nat)) (owner : Option Nat) (a : FarAccess) (e : Nat × Machine.PUnit), s.partOf k = some q →
      let x := s.core k
      let w := s.spillWin e.2.die
      let o := (s.startFar k c cls bind owner)
      ((s.mem q).far = [] → o = s) ∧
      ((s.mem q).far = [a] → (s.mem q).units.find? (·.1 == a.base) = some e → s.fabric.trans.length < 8192 →
        (∀ y ∈ x.ops, y.id ≠ x.nextId ∧ (y.unit = .mem → y.started = true)) →
        ∃ tag, tag % 2 = (if x.tagBit then 1 else 0) ∧ (∀ y ∈ s.fabric.trans, y.1 ≠ tag) ∧
          o.fabric = { s.fabric with trans := s.fabric.trans ++ [(tag, { core := k, id := x.nextId, next := 0, live := [], failed := false })] } ∧
          (o.core k).ops = x.ops ++ [{ id := x.nextId, ctx := c, unit := .mem, cls := cls, bind := bind, started := true, job := .fab (
            { put := a.put, module := e.2.frame / 2 ^ 29, goff := e.2.frame % 2 ^ 29 * 65536 + (a.va - a.base), laddr := e.1 + (a.va - a.base), len := a.len,
              key := w.key, epoch := w.epoch, gapUs := w.gapUs, tierF := true, owner := owner, tag := some tag } : FabJob) }] ∧
          (o.mem q).far = [] ∧ SameOtherCores s o k)) ∧
    (∀ c ∈ [Instr.rdRsp p, .wrAck p, .nack p],
      (p.bad = true → exec c s = .next (s.fabCount 0x110 1)) ∧ (p.bad = false → p.dst ≠ s.fabric.id → exec c s = .next s)) ∧
    (p.bad = false → p.dst = s.fabric.id →
      (p.cls = clsRdRsp → (s.awaited p = none → exec (.rdRsp p) s = .next (s.fabCount 0x100 1)) ∧
        ∀ t b j, s.awaited p = some (t, b, j) →
          let n := min 4096 (j.len - 4096 * b.idx)
          let t' := { t with live := t.live.map fun x => if x.idx = b.idx then { b with got := p.idx :: b.got } else x }
          let ends := fun (v : State) => exec (.rdRsp p) s = .next (if 256 * (b.got.length + 1) < n then v else v.endBurst p.tag b.idx)
          ((j.put = true ∨ p.src ≠ j.module ∨ p.idx ∈ b.got ∨ n ≤ 256 * p.idx) → exec (.rdRsp p) s = .next (s.fabCount 0x100 1)) ∧
          (j.put = false → p.src = j.module → p.idx ∉ b.got → 256 * p.idx < n →
            (j.tierF = true ∨ s.fabOf t = none → ends (s.setTrans p.tag t')) ∧
            (∀ o y u, j.tierF = false → s.fabOf t = some (o, y) →
              s.writeUpTo t.core (j.laddr + 4096 * b.idx + 256 * p.idx) (p.payload.take (n - 256 * p.idx)) = (u, none) →
              ends ((u.startFarOf t.core o).setTrans p.tag t')) ∧
            (∀ o y u f, j.tierF = false → s.fabOf t = some (o, y) →
              s.writeUpTo t.core (j.laddr + 4096 * b.idx + 256 * p.idx) (p.payload.take (n - 256 * p.idx)) = (u, some f) →
              ends (((u.startFarOf t.core o).setTrans p.tag t').failTrans p.tag f.code)))) ∧
      (p.cls = clsWrAck → (s.awaited p = none → exec (.wrAck p) s = .next (s.fabCount 0x100 1)) ∧
        ∀ t b j, s.awaited p = some (t, b, j) → exec (.wrAck p) s =
          .next (if j.put = true ∧ p.src = j.module then s.endBurst p.tag b.idx else s.fabCount 0x100 1)) ∧
      (p.cls = clsNack → (s.awaited p = none → exec (.nack p) s = .next (s.fabCount 0x100 1)) ∧
        ∀ t b j, s.awaited p = some (t, b, j) →
          let u := (s.failTrans p.tag (nackFault p.status)).endBurst p.tag b.idx
          exec (.nack p) s = .next (if p.status = nackKey ∨ p.status = nackClosed then u.spillRefused j.module p.offset
            else if p.status = nackUnreach then u.startProbes j.module else u)))

/-- A request at its owner passes the checks of R456 in order: the window, its key, the peer and the right, that it is OPEN at the epoch, its range,
its pages; the first that fails is its NACK's status. RD_REQ then answers the bytes, or NACK_POISON, of the partition's memory or of the storage behind a
spill window; WR stages its packet until its burst is whole, and then stores it. PROBE is answered, PROBE_RSP ends probing and a takeover of its sender; the
gap timer at the owner discards a burst. That each WR packet is tested for range and pages (log 21) and that a LOST unit counts as not mapped (log 20) are
the model's choice. -/
def Obligations.RequestsAtTheirOwner : Prop :=
  ∀ (p : Packet) (n tag burst src : Nat) (write : Bool) (s : State),
    (s.winAt p.offset = none → s.checkReq p n write = .refuse nackKey none) ∧
    (∀ w x, s.winAt p.offset = some (w, x) →
      let allowed := (x.peerEn = true → x.peer = p.src) ∧ (if write = true then x.wr = true else x.rd = true)
      ((p.key ≠ x.key.toNat ∨ ¬allowed) → s.checkReq p n write = .refuse nackKey (some w)) ∧
      (p.key = x.key.toNat → allowed →
        ((x.state ≠ .open ∨ p.epoch ≠ x.epoch) → s.checkReq p n write = .refuse nackClosed (some w)) ∧
        (x.state = .open → p.epoch = x.epoch →
          (x.ebase + x.size < p.offset + n → s.checkReq p n write = .refuse nackRange (some w)) ∧
          (p.offset + n ≤ x.ebase + x.size →
            s.checkReq p n write = if s.winMapped x p.offset n = true then .ok w x else .refuse nackUnmapped (some w))))) ∧
    (∀ c ∈ [Instr.rdReq p .none, .wr p, .probe p, .probeRsp p],
      (p.bad = true → exec c s = .next (s.fabCount 0x110 1)) ∧ (p.bad = false → p.dst ≠ s.fabric.id → exec c s = .next s)) ∧
    (p.bad = false → p.dst = s.fabric.id →
      (p.cls = clsRdReq → let len := 4 * (p.rdlen + 1)
        (∀ st w m, s.checkReq p len false = .refuse st w → exec (.rdReq p m) s = .next (s.refuseReq p st w)) ∧
        (∀ w x m, s.checkReq p len false = .ok w x → x.owner = 16 →
          let t := s.spillError m
          ((∃ i ∈ unitsOf p.offset len, i ∈ t.fabric.spillPoison) → exec (.rdReq p m) s = .next (t.nackTo p nackPoison)) ∧
          ((∀ i ∈ unitsOf p.offset len, i ∉ t.fabric.spillPoison) → exec (.rdReq p m) s =
            .next ((burstPackets p.offset p.burst { cls := clsRdRsp, dst := p.src, src := 0, tag := p.tag }
              (readBytes t.fabric.spill p.offset len)).foldl (fun u q => u.respond q.1 q.2) t))) ∧
        (∀ w x m, s.checkReq p len false = .ok w x → x.owner < 16 →
          let a := x.lva + (p.offset - x.ebase)
          let t := s.strike x.owner m
          let u := (t.setMem x.owner ((t.mem x.owner).touch a len)).startFarOwn x.owner
          ((u.check x.owner true a len).isSome = true → exec (.rdReq p m) s = .next ((u.nackTo p nackPoison).mend x.owner m)) ∧
          (u.check x.owner true a len = none → exec (.rdReq p m) s =
            .next (((burstPackets p.offset p.burst { cls := clsRdRsp, dst := p.src, src := 0, tag := p.tag }
              (readBytes (u.mem x.owner).bytes a len)).foldl (fun u q => u.respond q.1 q.2) u).mend x.owner m)))) ∧
      (p.cls = clsWr →
        (∀ b, p.seq ≠ 0 → s.inBurst p.src p.tag p.burst = some b → (b.overs = true ∨ ∃ q ∈ b.pkts, q.1 = p.idx) →
          exec (.wr p) s = .next (s.fabCount 0x100 1)) ∧
        (∀ b, p.seq ≠ 0 → s.inBurst p.src p.tag p.burst = some b → b.overs = false → (∀ q ∈ b.pkts, q.1 ≠ p.idx) →
          exec (.wr p) s = .next (s.stage p b)) ∧
        (p.seq ≠ 0 → s.inBurst p.src p.tag p.burst = none →
          let b : InBurst := { src := p.src, tag := p.tag, idx := p.burst, win := 0, first := p.offset - 256 * p.idx, pkts := [], last := none, overs := false }
          let add := fun (b : InBurst) => { s with fabric := { s.fabric with bursts := s.fabric.bursts ++ [b] } }
          (∀ st w, s.checkReq p p.payload.length true = .refuse st w → exec (.wr p) s =
            .next (((add { b with win := w.getD 0, overs := true }).refuseReq p st w).commitReady 65536 p.src p.tag)) ∧
          (∀ w x, s.checkReq p p.payload.length true = .ok w x → exec (.wr p) s = .next ((add { b with win := w }).stage p { b with win := w }))) ∧
        (∀ w x, s.fabric.bursts = [] → p.idx = 0 → p.burst = 0 → p.last = true → s.checkReq p p.payload.length true = .ok w x → s.win w = x →
          x.owner = 16 → x.gone = false → x.ebase ≤ p.offset → ∃ u, exec (.wr p) s = .next u ∧ u.fabric.spill = writeBytes s.fabric.spill p.offset p.payload ∧
          u.parts = s.parts ∧ u.cores = s.cores) ∧
        (∀ w x, s.fabric.bursts = [] → p.idx = 0 → p.burst = 0 → p.last = true → s.checkReq p p.payload.length true = .ok w x → s.win w = x →
          x.owner < 16 → x.gone = false → x.ebase ≤ p.offset →
          let a := x.lva + (p.offset - x.ebase)
          ∃ u, exec (.wr p) s = .next u ∧ (∀ i, sget 0 (u.mem x.owner).bytes i =
            if a ≤ i ∧ i < a + p.payload.length then p.payload.getD (i - a) 0 else sget 0 (s.mem x.owner).bytes i) ∧
          u.part x.owner = { s.part x.owner with mem := u.mem x.owner } ∧ (∀ q, q ≠ x.owner → u.part q = s.part q) ∧ u.cores = s.cores ∧
          u.hostMem = s.hostMem ∧ u.fabric.spill = s.fabric.spill)) ∧
      (p.cls = clsProbe → exec (.probe p) s = .next (s.respond { cls := clsProbeRsp, dst := p.src, src := 0, tag := p.tag, seq := p.seq } [])) ∧
      (p.cls = clsProbeRsp → let t := { s with fabric := { s.fabric with probing := s.fabric.probing.filter (· != p.src),
                                                                         takeover := s.fabric.takeover.filter (·.id != p.src) } }
        exec (.probeRsp p) s = .next ((s.fabric.takeover.filter (·.id == p.src)).foldl
          (fun u w => u.admDone w.port w.owed .failed fltTakeoverLive 0) t))) ∧
    (∀ off, s.spillHeld off = true →
      s.spillError (.ue off) = ({ s with fabric := { s.fabric with spillPoison := if off / 64 ∈ s.fabric.spillPoison then s.fabric.spillPoison
        else off / 64 :: s.fabric.spillPoison } }.healthCount 0x20C 1).event 0x000A 0xFFFFFFFF (off % 2097152 / 64) []) ∧
    (s.inBurst src tag burst = none → exec (.fabGapExpiry true src tag burst) s = .next s) ∧
    (∀ b, s.inBurst src tag burst = some b → exec (.fabGapExpiry true src tag burst) s = .next (if b.overs = true then s else
      (((s.setInBurst { b with overs := true, pkts := [] }).fabCount 0x10C 1).respond (b.reply clsNack nackGap) []).commitReady 65536 src tag))

/-- PACKET_FORWARD sends a packet for another module out of the port of its route's direction with HOPS one more and its trailer behind it, on the port of
its burst while that is up; while that output is busy, a response waits there before a request, or a packet of its transaction waits there, it joins its
port's input buffer, and is parked with what waits there for the same output once that is more than three quarters full. One whose route drops it, whose
direction is down or which has made 30 hops is refused; a malformed one is dropped and counted. PARK_RELEASE serves what waits for an output in round robin, a
request only while no response waits. LINK_CRC_ERROR asks for a replay; after 8 failed replays of a packet, at its ninth CRC error, its link retrains; the
third failed retraining in a row takes its port down. That a packet for this module changes nothing here, and the order of arrival, are the model's choice
(log 19), as is what a failed retraining counts (log 55). -/
def Obligations.PacketsAndLinks : Prop :=
  ∀ (n dir vc : Nat) (p : Packet) (s : State),
    let t := { s with fabric := { s.fabric with crc := sput 0 s.fabric.crc n 0 } }
    let e := sget 0 s.fabric.route p.dst
    let d := e % 8
    (p.bad = true → ∀ busy, exec (.packetForward n p busy) s = .next (t.fabCount 0x110 1)) ∧
    (p.bad = false → ∀ busy,
      let refused := if p.cls = clsRdReq ∨ p.cls = clsWr ∨ p.cls = clsProbe then t.nackTo p nackUnreach else t.fabCount 0x100 1
      (d = 0 → p.dst = s.fabric.id → exec (.packetForward n p busy) s = .next t) ∧
      ((d = 0 ∧ p.dst ≠ s.fabric.id) ∨ d = 7 ∨ (d ≠ 0 ∧ s.dirDown d = true) ∨ (d ≠ 0 ∧ 30 ≤ p.hops) →
        exec (.packetForward n p busy) s = .next refused) ∧
      (d ≠ 0 → d ≠ 7 → s.dirDown d = false → p.hops < 30 → ∃ q : Packet, q.payload = p.payload ∧ q.hops = p.hops + 1 ∧ q.dst = p.dst ∧
        q.src = p.src ∧ q.tag = p.tag ∧ q.key = p.key ∧ q.offset = p.offset ∧ q.seq = p.seq ∧
        (e / 8 % 2 = 1 → q.vc % 2 = 1) ∧ (q.vc / 2 = 0 ↔ (p.cls = clsRdReq ∨ p.cls = clsWr ∨ p.cls = clsProbe)) ∧
        (busy = false → t.mustWait d q = false → exec (.packetForward n p busy) s = .next (t.sendVia d q)) ∧
        (busy = true ∨ t.mustWait d q = true → exec (.packetForward n p busy) s = .next (t.keepWaiting n d q)))) ∧
    (let key := 4 * dir + p.vc
     let f := s.fabric
     (s.mustWait dir p = true ↔ ((p.cls = clsRdReq ∨ p.cls = clsWr ∨ p.cls = clsProbe) ∧
        (s.waitingAt (4 * dir + 2) ≠ [] ∨ s.waitingAt (4 * dir + 3) ≠ [])) ∨ ∃ x ∈ s.waitingAt key, x.src = p.src ∧ x.tag = p.tag) ∧
     (∃ port, (s.sendVia dir p).out = .packet port p p.crc :: s.out ∧
        (f.paths.find? (·.is dir p) = none → port = s.outPort dir p.tag) ∧
        (∀ x, f.paths.find? (·.is dir p) = some x → x.burst = p.burst → s.vport x.port = 1 → port = x.port)) ∧
     (let held := sget [] f.inbuf n ++ [(dir, p)]
      let u := { s with fabric := { f with inbuf := sput [] f.inbuf n held } }
      ((held.map fun x => 32 + x.2.payload.length).sum ≤ 98304 → s.keepWaiting n dir p = u) ∧
      (98304 < (held.map fun x => 32 + x.2.payload.length).sum → s.keepWaiting n dir p = u.parkAll n key (held.filter (waitsFor key)))) ∧
     (∀ x rest, s.parkAll n key [] = s ∧
       (s.parkUsed (n / 3) + (32 + x.2.payload.length) ≤ 134217728 → s.parkAll n key (x :: rest) = ({ s with fabric := { f with
          inbuf := sput [] f.inbuf n ((sget [] f.inbuf n).erase x), parked := sput [] f.parked key (sget [] f.parked key ++ [(n / 3, x.2)]) } }.fabCount
            0x114 1).parkAll n key rest) ∧
       (134217728 < s.parkUsed (n / 3) + (32 + x.2.payload.length) → s.parkAll n key (x :: rest) = s))) ∧
    (let key := 4 * dir + vc
     let turn := sget 0 s.fabric.turn key
     ((∀ i, i < 14 → s.takeWaiting key i = none) → exec (.parkRelease dir vc) s = .next s) ∧
     (∀ j q u, j < 14 → (∀ i, i < j → s.takeWaiting key ((turn + i) % 14) = none) → s.takeWaiting key ((turn + j) % 14) = some (q, u) →
       exec (.parkRelease dir vc) s = .next (
        if s.dirDown dir = true ∨ (vc < 2 ∧ (s.waitingAt (4 * dir + 2) ≠ [] ∨ s.waitingAt (4 * dir + 3) ≠ [])) then s
        else ({ u with fabric := { u.fabric with turn := sput 0 u.fabric.turn key (((turn + j) % 14 + 1) % 14) } }).sendVia dir q)) ∧
     (s.takeWaiting key 13 = match sget [] s.fabric.parked key with
        | [] => none
        | x :: rest => some (x.2, { s with fabric := { s.fabric with parked := sput [] s.fabric.parked key rest } })) ∧
     (s.takeWaiting key 12 = match sget [] s.fabric.locals key with
        | [] => none
        | q :: rest => some (q, { s with fabric := { s.fabric with locals := sput [] s.fabric.locals key rest } }))) ∧
    (let c := sget 0 s.fabric.crc n
     (s.vport n ≠ 1 → exec (.linkCrcError n) s = .next s) ∧
     (s.vport n = 1 → c < 8 → exec (.linkCrcError n) s =
      .next (({ s with fabric := { s.fabric with crc := sput 0 s.fabric.crc n (c + 1) } }.fabCount 0x104 1).emit (.replay n))) ∧
     (s.vport n = 1 → 8 ≤ c → ∃ u, exec (.linkCrcError n) s = .next u ∧ u.vport n = 2 ∧ sget 0 u.fabric.crc n = 0 ∧
      sget 0 u.fabric.cnt 0x108 = cntAdd (sget 0 s.fabric.cnt 0x108) 1 ∧ u = { s with fabric := u.fabric, health := u.health })) ∧
    (let c := sget 0 s.fabric.retrain n
     (∀ ok, s.vport n ≠ 2 → exec (.linkRetrainEnd n ok) s = .next s) ∧
     (s.vport n = 2 → ∃ u, exec (.linkRetrainEnd n true) s = .next u ∧ u.vport n = 1 ∧ sget 0 u.fabric.retrain n = 0 ∧
      (∀ i, i ≠ n → u.vport i = s.vport i) ∧ u = { s with fabric := u.fabric }) ∧
     (s.vport n = 2 → c < 2 → ∃ u, exec (.linkRetrainEnd n false) s = .next u ∧ u.vport n = 2 ∧ sget 0 u.fabric.retrain n = c + 1 ∧
      u = { s with fabric := u.fabric, health := u.health }) ∧
     (s.vport n = 2 → 2 ≤ c → ∃ u : State, exec (.linkRetrainEnd n false) s = .next (u.event 0x000D n (portDir n - 1) []) ∧ u.vport n = 3 ∧
      u = { s with fabric := u.fabric }))

/-! ### Health, power and placement (R395, R398, R511, R512, R528 to R532, R548 to R550, R575, R589, R591, R603 to R607) -/

/-- HEALTH_PERIOD samples the sensors, scores the ten inputs, moves PWR_CAP by the period's power against the lower of PWR_LIMIT and 85 % of the input
power and each die's ceiling by its hottest reading, applies the frequencies, and acts on the levels: at HALT_AT an event, and every running partition halts
at its next boundary if it secures, else stops with FLT_HEALTH_HALT. The indicators show READY, HEALTH and SERVICE. OVERCURRENT_FAST caps 1,400 MHz; lean
mode falls 10 mV and stalls 8 cycles at a window's second error, counted in CNT_LEAN_STALL, and rises 10 mV when calm; droops, glitches and silent sensors
are counted or marked. That every later error of a window acts as its second, and that an offset of 0 stays, is the model's choice (log 57). -/
def Obligations.HealthPeriodsAndLean : Prop :=
  ∀ (r : Readings) (k stream amps i : Nat) (g : GuardedInput) (s : State),
    let h := s.health
    let x := s.core k
    (∃ t, exec (.healthPeriod r) s = .next t ∧ t.health.score ≤ 1023 ∧
      t.health.score = min 1023 ((List.range 10).map ((s.sample r).inputPoints)).sum ∧
      (∀ j, j < 10 → sget 0 t.health.pts j = (s.sample r).inputPoints j) ∧
      (let lim := min (1000 * h.pwrLimit) (85 * r.vinMillivolts)
       t.health.pwrCap = if lim < r.powerMilliwatts then max 800 (h.pwrCap - 100) else if 100 * r.powerMilliwatts < 95 * lim then min 2200 (h.pwrCap + 25)
        else h.pwrCap) ∧
      (∀ d, d < 4 → t.thermCap d = match (s.sample r).plausible (List.range' (16 * d) 16) with
        | [] => 800
        | y :: ys => let hot := ys.foldl max y
          if 1050 ≤ hot then max 800 (s.thermCap d - 100) else if 1000 < hot then s.thermCap d else min 2200 (s.thermCap d + 25)) ∧
      (∀ j, j < 64 → (t.groupAt j).mhz = min (s.groupAt j).hostMhz (min (t.thermCap (j / 16)) t.health.pwrCap) / 25 * 25) ∧
      t.health.periodCe = 0 ∧ t.health.periodReplay = 0 ∧ t.health.periodDroop = 0 ∧ t.husk = s.husk ∧ t.fuses = s.fuses ∧ t.flash = s.flash) ∧
    (∀ old, (old < h.secureAt → h.secureAt ≤ h.score → h.score < h.haltAt → s.healthLevels old = s.healthSecure) ∧
      (h.haltAt ≤ old → h.secureAt ≤ old → h.secureAt ≤ h.score → s.healthLevels old = s) ∧
      (h.secureAt ≤ old → h.secureAt ≤ h.score → old < h.haltAt → h.haltAt ≤ h.score → s.healthLevels old = s.healthHalt) ∧
      (old < h.secureAt → h.secureAt ≤ h.score → old < h.haltAt → h.haltAt ≤ h.score → s.healthLevels old = s.healthSecure.healthHalt)) ∧
    (let e := s.event 0x0008 h.score h.mask s.liveParts
     let halted : State := { e with health := { e.health with halted := true } }
     s.healthHalt.health.halted = true ∧ (halted.runParts = [] → s.healthHalt = halted) ∧
      ∀ p, halted.runParts = [p] →
        let b := halted.part p
        (b.prog.stopping = true → s.healthHalt = halted) ∧
        (b.prog.stopping = false → b.sec.en = true → s.healthHalt = halted.setPart p { b with halting := true }) ∧
        (b.prog.stopping = false → b.sec.en = false → s.healthHalt = halted.stopWith p fltHealthHalt)) ∧
    (s.indicators.service = true ↔ s.boot.stage = 15 ∨ ∃ j, 71 ≤ j ∧ j ≤ 74 ∧ (s.sensor j).bad = false ∧ ∃ v, (s.sensor j).last = some v ∧ v < 100000) ∧
    (s.indicators.ready = true ↔ s.boot.stage = 9) ∧ (s.indicators.health = true ↔ h.secureAt ≤ h.score) ∧ s.indicators.power = s.boot.pgOut ∧
    (amps ≤ 88 → exec (.overcurrentFast amps) s = .next s) ∧
    (88 < amps → ∃ t, exec (.overcurrentFast amps) s = .next t ∧ t.health.pwrCap = min h.pwrCap 1400 ∧
      sget 0 t.health.cnt 0x420 = cntAdd (sget 0 h.cnt 0x420) 1 ∧ t = { s with health := t.health, groups := t.groups }) ∧
    (exec (.railDroop k) s = .next (if x.island.droopArmed = true then
      let t := (s.setCore k { x with island := { x.island with droopArmed := false } }).healthCount 0x218 1
      { t with health := { t.health with periodDroop := h.periodDroop + 1 } } else s)) ∧
    (exec (.droopRearm k) s = .next (s.setCore k { x with island := { x.island with droopArmed := true } })) ∧
    (exec (.leanCalm k) s = .next (s.setCore k { x with island := { x.island with offset := min (s.leanReqOf k) (x.island.offset + 1) } })) ∧
    (∃ t, exec (.leanTimingError k stream false) s = .next t ∧ t = { s with cores := t.cores, health := { h with periodReplay := h.periodReplay + 1 } } ∧
      (t.core k).island = { x.island with replays := 1 } ∧ sget 0 (t.core k).cnt 0x1604 = cntAdd (sget 0 x.cnt 0x1604) 1 ∧
      sget 0 (t.core k).cnt 0x1608 = sget 0 x.cnt 0x1608 ∧ SameOtherCores s t k) ∧
    (∃ t, exec (.leanTimingError k stream true) s = .next t ∧ (t.core k).island.replays = x.island.replays + 1 ∧
      (t.core k).island.offset = x.island.offset - 1 ∧ (t.core k).island.raises = (if x.island.offset = 0 then x.island.raises else x.island.raises + 1) ∧
      sget 0 (t.core k).cnt 0x1604 = cntAdd (sget 0 x.cnt 0x1604) 1 ∧ sget 0 (t.core k).cnt 0x1608 = cntAdd (sget 0 x.cnt 0x1608) 8 ∧
      (stream < 4 → sget 0 (t.core k).cnt (0x228 + 16 * stream) = if stream < streamsOf x.sheaf.split
        then cntAdd (sget 0 x.cnt (0x228 + 16 * stream)) 8 else sget 0 x.cnt (0x228 + 16 * stream))) ∧
    (exec (.inputGlitch g) s = .next { s with health := { h with cnt := sput 0 h.cnt 0x21C (cntAdd (sget 0 h.cnt 0x21C) 1) } }) ∧
    (exec (.sensorReadTimeout i) s = .next (if i < 77 then { s with health := { h with
      sensors := sput {} h.sensors i { s.sensor i with bad := true, good := 0, silent := true } } } else s))

/-- WINNOW_EPOCH sets each unit's heat to three quarters plus min(64, accesses / 256), clears its accesses and samples the residency of every
partition that is not FREE, in 64 KiB units of each tier. UNIT_MOVE_DONE puts a unit elsewhere, its bytes unchanged, and counts the move; a pinned unit does
not leave Tier H or reach Tier F, a retired frame takes none, and Tier F only a place in a spill window held. Into or out of Tier F the transfer of the unit
that is due begins first. PAGE_RETIRE and SPLICE_APPLY record a frame and the physical row of a failed parity check as out of use. What becomes of cold
candidates and where Tier F takes a unit are the model's choice (log 13), how a move waits for its transfers too (log 67), and that SPLICE_APPLY changes
nothing for any other row (log 43). -/
def Obligations.PlacementAndRepairsAreRecorded : Prop :=
  ∀ (p va die frame fresh k array row : Nat) (tier : Tier) (s : State),
    let b := s.part p
    (∃ t, exec .winnowEpoch s = .next t ∧ t = { s with parts := t.parts } ∧ ∀ q, (s.part q).state ≠ .free →
      t.part q = { s.part q with mem := (t.part q).mem, res := (t.part q).res } ∧ (t.mem q).bytes = (s.mem q).bytes ∧
      (t.mem q).units = ((s.mem q).units.map fun u =>
        let h := 3 * u.2.heat / 4 + min 64 (u.2.accesses / 256)
        (u.1, { u.2 with heat := h, accesses := 0, cold := u.2.cold && h == 0 })) ∧
      ∀ e ∈ [(0, Tier.H), (1, .L), (2, .F)], sget 0 (t.part q).res e.1 =
        ((s.mem q).units.map fun u => if u.2.tier = e.2 then (if u.2.sub = true then 1 else 32) else 0).sum) ∧
    ((∀ u ∈ b.mem.units, u.1 ≠ va) → exec (.unitMoveDone p va tier die frame) s = .next s) ∧
    (∀ u, b.mem.units.find? (·.1 == va) = some (va, u) →
      (u.lost = true ∨ s.moveBarred u tier = true ∨ s.placeTakes u tier die frame = false ∨ u.moving = .busy → exec (.unitMoveDone p va tier die frame) s = .next s) ∧
      (u.pinned = true → (tier = .F ∨ (u.tier = .H ∧ tier ≠ .H)) → s.moveBarred u tier = true) ∧
      (tier ≠ .F → frameKey tier frame ∈ s.frames.retired → s.placeTakes u tier die frame = false) ∧
      (tier = .F → s.inSpillWin die frame u.size = false → s.placeTakes u tier die frame = false) ∧
      ((u.moving = .idle → u.toTransfer tier frame = if u.tier = .F then some false else if tier = .F then some true else none) ∧
        (u.moving = .got → u.toTransfer tier frame = if tier = .F then some true else none) ∧
        (∀ f, u.moving = .sent f → u.toTransfer tier frame = if tier = .F ∧ f ≠ frame then some true else none)) ∧
      (∀ put, u.lost = false → s.moveBarred u tier = false → s.placeTakes u tier die frame = true → u.moving ≠ .busy → u.toTransfer tier frame = some put →
        ∃ t, ∃ w : OwnJob, exec (.unitMoveDone p va tier die frame) s = .next t ∧ (∀ q, q ≠ p → t.part q = s.part q) ∧
          t.part p = { b with mem := b.mem.setUnit va { u with moving := .busy } } ∧
          t = { s with parts := t.parts, fabric := { s.fabric with imports := t.fabric.imports, trans := t.fabric.trans, waiting := t.fabric.waiting } } ∧
          (put = false → t.fabric.imports = s.fabric.imports) ∧ w.part = p ∧ w.base = va ∧ w.move = true ∧ w.job.put = put ∧ w.job.tierF = true ∧
          w.job.laddr = va ∧ w.job.len = (if u.sub = true then 65536 else 2097152) ∧
          (let at' := if put = true then frame else u.frame
           w.job.module = at' / 2 ^ 29 ∧ w.job.goff = at' % 2 ^ 29 * 65536 ∧ w.job.key = (s.spillWin (if put = true then die else u.die)).key) ∧
          ((s.fabric.waiting = [] → s.fabric.trans.length < 8192 → ∃ tag, (∀ y ∈ s.fabric.trans, y.1 ≠ tag) ∧ t.fabric.waiting = [] ∧
            t.fabric.trans = s.fabric.trans ++ [(tag, { core := 0, id := 0, next := 0, live := [], failed := false, own := some { w with job := { w.job with tag := some tag } } })]) ∧
           ((s.fabric.waiting ≠ [] ∨ 8192 ≤ s.fabric.trans.length) → t.fabric.trans = s.fabric.trans ∧ t.fabric.waiting = s.fabric.waiting ++ [w]))) ∧
      (u.lost = false → s.moveBarred u tier = false → s.placeTakes u tier die frame = true → u.moving ≠ .busy → u.toTransfer tier frame = none →
        ∃ t, exec (.unitMoveDone p va tier die frame) s = .next t ∧ (∀ q, q ≠ p → t.part q = s.part q) ∧
          t = { s with parts := t.parts, fabric := { s.fabric with imports := t.fabric.imports } } ∧ (tier ≠ .F → t.fabric = s.fabric) ∧
          t.part p = { b with mem := (t.part p).mem, cnt := (t.part p).cnt } ∧ (t.mem p).bytes = b.mem.bytes ∧ (t.mem p).poison = b.mem.poison ∧
          (t.mem p).units.find? (·.1 == va) =
            some (va, { u with tier := tier, die := die, frame := frame, cold := u.cold && tier == u.tier, moving := .idle }) ∧
          (u.tier = .L → tier = .H → sget 0 (t.part p).cnt 0x101C = cntAdd (sget 0 b.cnt 0x101C) 1))) ∧
    (let key := frameKey tier frame
     let due := s.health.retireAt ≤ sget 0 s.frames.ce key ∨ s.framePoisoned tier frame = true
     let vacates := s.unitsIn tier frame = [] ∨ (fresh ≠ frame ∧ s.frameTakes tier false fresh = true)
     ((tier = .F ∨ ¬due ∨ key ∈ s.frames.retired ∨ ¬vacates) →
      exec (.pageRetire tier frame fresh) s = .next s) ∧
     (tier ≠ .F → due → key ∉ s.frames.retired → vacates →
      ∃ u : State, exec (.pageRetire tier frame fresh) s = .next ((u.healthCount 0x210 1).event 0x000B ((if tier = .L then 2 ^ 31 else 0) + frame % 2 ^ 31)
          (if s.framePoisoned tier frame = true then 1 else 0) []) ∧ u = { s with parts := u.parts, frames := u.frames, flash := u.flash } ∧
        u.frames = { s.frames with retired := s.frames.retired ++ [key] } ∧
        u.flash = { s.flash with repair := { s.flash.repair with frames := s.flash.repair.frames ++ [key] } } ∧
        (∀ q, (u.mem q).bytes = (s.mem q).bytes) ∧ ∀ q, ∀ e ∈ (u.mem q).units, e.2.tier = tier → e.2.frame ≠ frame)) ∧
    (let x := s.core k
     let rows := sget [] x.sheaf.splices array
     ((x.failed = true ∨ (∃ o ∈ x.ops, o.onArrays = true) ∨ (array, row) ∉ x.sheaf.failing ∨ row ∈ rows ∨ 2 ≤ rows.length ∨ 34 ≤ row) →
      exec (.spliceApply k array row) s = .next s) ∧
     (x.failed = false → (∀ o ∈ x.ops, o.onArrays = false) → (array, row) ∈ x.sheaf.failing → row ∉ rows → rows.length < 2 → row < 34 →
      ∃ u : State, exec (.spliceApply k array row) s = .next ((u.healthCount 0x200 1).event 0x0003 (coordOf k) (array * 256 + row) []) ∧
        u = { s with cores := u.cores, flash := u.flash } ∧
        u.core k = { x with sheaf := { x.sheaf with splices := (u.core k).sheaf.splices, failing := x.sheaf.failing.filter (· != (array, row)) } } ∧
        (∀ r, r ∈ sget [] (u.core k).sheaf.splices array ↔ r = row ∨ r ∈ rows) ∧ SameOtherCores s u k ∧
        u.flash.repair.rows = s.flash.repair.rows ++ [(k / 128 * 256 + s.position k, array, row)]))

/-! ### Start-up and resets (R473, R555, R575 to R593, R605) -/

/-- Each stage of start-up leads to the next: straps sampled once, a bank booted, parts and cores tested, routes and ports set, and STAGE 9 with its boot
time. A stage that fails goes to STAGE 15 with its code, a boot from a pending bank starts again from the other, stage 1 is held off, and stage 8 goes on. EN,
resets, power failures and trips clear what R585 says and keep the fuses and the flash; a zeroisation cut short is done again; PORT_RESET and a lost host clock
stop the port's partitions. That a module without power does nothing, that a power failure leaves EN off, that a failed stage 1 is held off, the codes of the
late stages' timeouts and STAGE 15 on a lost reference clock are the model's choice (log 58), the records of a zeroisation done again (log 32), and what a
port holds as PERST_Nn falls and rises (logs 54 and 66). -/
def Obligations.StartUpAndResets : Prop :=
  ∀ (w : StageWork) (n amps die sensor : Nat) (celsius : Int) (level : Bool) (s : State),
    let b := s.boot
    let kept := fun (t : State) => t.fuses = s.fuses ∧ t.husk.mono = s.husk.mono ∧ t.flash.repair = s.flash.repair ∧ t.parts = [] ∧ t.cores = [] ∧
      t.objs = [] ∧ t.husk.locked = s.husk.locked ∧ t.sess = [] ∧ t.fabric.wins = [] ∧ t.husk.debug = 0 ∧ t.husk.diag = false ∧ ∀ i, (t.slot i).key = (s.slot i).key ∧ (t.slot i).last = (s.slot i).last
    (s.powered = false → exec (.stageComplete w) s = .next s ∧ exec .stageTimeout s = .next s ∧ exec .sysReset s = .next s ∧
      (∀ a, exec (.powerFailure a) s = .next s) ∧ exec .railFault s = .next s) ∧
    (s.powered = true →
      (b.stage = 1 → b.sampled = false → ∃ t, exec (.stageComplete w) s = .next t ∧
        t.boot = { b with straps := w.straps &&& ~~~w.strapGlitch, sampled := true, stage := 2 } ∧ t = { s with boot := t.boot, health := t.health }) ∧
      (b.stage = 1 → b.sampled = true → exec (.stageComplete w) s = .next { s with boot := { b with stage := 2 } }) ∧
      (b.stage = 2 → let u := s.checkStore.resumeZeroise.makeKeyPair.chooseBank
        (u.2 = false → exec (.stageComplete w) s = .next (u.1.stage15 fltBootImage)) ∧
        (u.2 = true → let v := { u.1 with frames := { u.1.frames with retired := u.1.flash.repair.frames } }.loadFabrec
          exec (.stageComplete w) s = .next { v with boot := { v.boot with stage := 3 } })) ∧
      (b.stage = 3 → exec (.stageComplete w) s = .next { s with boot := { b with stage := 4 } }) ∧
      (b.stage = 4 → exec (.stageComplete w) s = .next { s with boot := { b with stage := 5 } }) ∧
      (b.stage = 5 → exec (.stageComplete w) s = .next { s with boot := { b with pgOut := true, stage := 6 } }) ∧
      (b.stage = 6 → w.badParts = [] → s.flash.repair.parts = [] →
        exec (.stageComplete w) s = .next { s with boot := { b with degraded := false, stage := 7 } }) ∧
      (b.stage = 7 → w.linkFail = true → exec (.stageComplete w) s = .next (s.stage15 fltSelftest)) ∧
      (b.stage = 7 → w.linkFail = false → ∃ t, exec (.stageComplete w) s = .next t ∧ t.boot = { b with stage := 8 } ∧
        ∀ c ∈ w.badCores, c ∈ t.badCores) ∧
      (b.stage = 8 → ∃ t, exec (.stageComplete w) s = .next t ∧ 
        t.boot = { b with stage := 9, bootMs := s.time / 1000000 % 2 ^ 32, fromPending := false, partsOut := [] } ∧ (∀ d, d < 4096 → sget 0 t.fabric.route d = s.fabric.routeOf d) ∧
        (b.fromPending = true → t.flash.active = b.bank ∧ t.flash.pending = none) ∧ (b.fromPending = false → t.flash = s.flash)) ∧
      (b.stage = 0 ∨ 8 < b.stage → exec (.stageComplete w) s = .next s ∧ exec .stageTimeout s = .next s) ∧
      (b.stage = 1 → exec .stageTimeout s = .next { s with boot := { b with heldOff := true } }) ∧
      (∀ e ∈ [(3, fltRailFail), (4, fltPllLock), (5, fltRailFail), (6, fltMemtrain), (7, fltSelftest)], b.stage = e.1 →
        exec .stageTimeout s = .next (s.stage15 e.2)) ∧
      (b.stage = 2 → exec .stageTimeout s = .next (s.checkStore.stage15 fltBootImage)) ∧
      (b.stage = 8 → exec .stageTimeout s = .next (s.fabricStage []).becomeReady) ∧
      (∃ t, exec .sysReset s = .next t ∧ kept t ∧ t.boot = { stage := 2, straps := b.straps, sampled := true, pgOut := b.pgOut }) ∧
      (s.fuses.lc = .scrap → exec (.moduleReset n) s = .next (s.emit (.mgmt n .error))) ∧
      (s.fuses.lc ≠ .scrap → ∃ t, exec (.moduleReset n) s = .next t ∧ kept t ∧ t.boot = { stage := 2, straps := b.straps, sampled := true, pgOut := b.pgOut }) ∧
      (∀ a, ∃ t, exec (.powerFailure { above := a }) s = .next t ∧ kept t ∧ t.boot = { en := false, cutOff := a }) ∧
      (∀ a m e, exec (.powerFailure { above := a, amid := some (m, e) }) s = .next ((s.zeroisingCut m e).powerDown .failed fltPowerLoss a)) ∧
      (95 < amps → ∃ t, exec (.overcurrentTrip amps) s = .next t ∧ kept t ∧ t.boot = { en := false, cutOff := false })) ∧
    (s.fuses.zeroising = false → ∀ m e, s.zeroisingCut m e = s ∨
      ((s.zeroisingCut m e).fuses = { s.fuses with lc := .returned, zeroising := true } ∧ (s.zeroisingCut m e).flash.zeroing ≠ none)) ∧
    (s.flash.gen < s.husk.mono → s.checkStore.husk.locked = true) ∧
    (s.husk.mono ≤ s.flash.gen → s.checkStore = { s with husk := { s.husk with locked := false } }) ∧
    (s.fuses.zeroising = false → s.resumeZeroise = s) ∧
    (s.fuses.zeroising = true → ∀ m o old, s.zeroise.flash.zeroing = some (m, o, old) →
      let z := s.zeroise
      s.resumeZeroise = (({ z with fuses := { z.fuses with zeroising := false }, flash := { z.flash with zeroing := none } } : State).admDone m o .done 0 0).event
        0x0013 z.life.code old []) ∧
    (let bad := fun (x : Option (List Byte)) => ∀ image, x = some image → (s.fuses.makerKey = false ∨ Config.imageSigned image = false ∨ Config.imageSvn image < s.fuses.svnMin)
     ∀ c, s.flash.pending = some c → b.straps.toNat.testBit 3 = false → bad s.flash.bankA → bad s.flash.bankB →
       s.chooseBank = ({ s with flash := s.flash.emptyBank c, boot := { b with fallback := true, fallbackCode := fltBootImage } }, false)) ∧
    (∀ f, (b.fromPending = false ∨ f = fltBootImage) → s.stage15 f = { s with boot := { b with stage := 15, code := f } }) ∧
    (∀ f, b.fromPending = true → f ≠ fltBootImage → kept (s.stage15 f) ∧ (s.stage15 f).flash.bank b.bank = none ∧ (s.stage15 f).boot =
      { stage := 1, fallback := true, fallbackCode := f, pgOut := b.pgOut, straps := b.straps, sampled := true, partsOut := b.partsOut }) ∧
    (s.railsOn = true → b.fromPending = false →
      (∃ t, exec .railFault s = .next t ∧ kept t ∧ t.boot = { b with stage := 15, code := fltRailFail }) ∧
      (b.refHeld = true → ∃ t, exec .refclkLoss s = .next t ∧ kept t ∧ t.boot = { b with stage := 15, code := fltRefclkLoss }) ∧
      (sensor < 16 → (s.sensor (16 * die + sensor)).bad = false → 115 ≤ celsius →
        ∃ t, exec (.thermalTrip die sensor celsius) s = .next t ∧ kept t ∧ t.boot = { b with stage := 15, code := fltThermalTrip })) ∧
    ((celsius < 115 ∨ 16 ≤ sensor) → exec (.thermalTrip die sensor celsius) s = .next s) ∧
    (level = b.en → exec (.enChange level) s = .next s) ∧
    (b.en = false → ∃ t, exec (.enChange true) s = .next t ∧ kept t ∧ t.boot = {}) ∧
    (b.en = true → (∃ t, exec (.enChange false) s = .next t ∧ kept t ∧ t.boot = { en := false, cutOff := false }) ∧
      ∃ t, exec .aonRailFault s = .next t ∧ kept t ∧ t.boot = { heldOff := true }) ∧
    (exec .pllRefclkMissing s = .next { s with boot := { b with refHeld := true } }) ∧
    (exec .pllRefclkReturn s = .next { s with boot := { b with refHeld := false } }) ∧
    (exec (.perstRelease n) s = .next (if b.pgOut = true then (s.setPort n { s.port n with released := true }).portBack n else s)) ∧
    ((∀ q ∈ s.parts, q.2.state = .free ∨ q.2.port ≠ n) →
      let out := fun (perst : Bool) =>
        s.setPort n { s.port n with released := (s.port n).released && !perst, masked := [], pendingVectors := [], timeoutValue := 0, d3hot := false }
      (∀ perst, exec (.portReset { port := n, perst := perst }) s = .next (out perst)) ∧ exec (.hostRefclkLoss n) s = .next (out false)) ∧
    (∀ p perst, s.parts = [(p, s.part p)] → (s.part p).state = .run → (s.part p).port = n → ∃ t, exec (.portReset { port := n, perst := perst }) s = .next t ∧
      (t.part p).prog.stopping = true ∧ (t.part p).prog.start = none ∧ (t.part p).req.en = false ∧ (t.part p).cmd.en = false ∧
      (t.part p).refill = [] ∧ (t.part p).failing = [] ∧ (t.part p).cpl.ring.en = false ∧ (t.part p).cpl.held = [])

/-! ### Management, attestation and the test port (R564 to R568, R572, R594 to R596, R622) -/

/-- A powered module answers its management interfaces: control and base requests by their standards, SET_EVENT_RECEIVER, sensor readings (none of
one marked implausible), a fabric record in PROVISION and FIELD_DIAG, a recovery image in STAGE 15. The oldest event goes to the receiver, with class 0xF0.
Packets discarded are counted. SPDM answers versions 1.2 and 1.3, its algorithms, chain and six measurements; in SCRAP only GET_VERSION. The test port takes
what the debug level allows, else BYPASS. The sensors' numbers (log 35), the bytes of an MCTP request (log 36), the silence in SCRAP and the bytes measured
(log 58), and IDCODE and TRST_N (log 59) are the model's choice. -/
def Obligations.ManagementAndAttestation : Prop :=
  ∀ (i n slot off len : Nat) (pec : Bool) (req chunk : List Byte) (eid code : Byte) (record : BitVec 128) (nonce : BitVec 256) (a b : Bool) (op : TestOp) (s : State),
    let out := fun (r : Reply) => (Host.Outcome.next (s.emit (.mgmt i r)) : Host.Outcome State Fault Refusal)
    let chain := Config.certificateChain
    (s.powered = false → ∀ c ∈ [Instr.mctpControl i { bytes := req, pecOk := pec }, .setEventReceiver i eid, .pldmSensorRead i n, .pldmBaseRequest i req, .fabrecWrite i record,
      .fwRecover i chunk a b, .getVersion i, .getCapabilities i, .negotiateAlgorithms i a b, .getDigests i], exec c s = .next s) ∧
    (let cut := fun (m : Nat) => (Host.Outcome.next { s with health := { s.health with cnt := sput 0 s.health.cnt 0x224 (cntAdd (sget 0 s.health.cnt 0x224) m) } } :
        Host.Outcome State Fault Refusal)
     exec (.i2cBusReset i) s = cut 1 ∧ exec (.mctpPacketTimeout { iface := i, packets := n }) s = cut n ∧
      (s.powered = true → exec (.mctpControl i { bytes := req, pecOk := false }) s = cut 1)) ∧
    (∀ e rest, s.events = e :: rest → s.mgmt.receiver = some (i, eid) →
      exec .platformEventMessage s = .next ({ s with events := rest }.emit (.event i eid 0xF0#8 e))) ∧
    ((s.events = [] ∨ s.mgmt.receiver = none) → exec .platformEventMessage s = .next s) ∧
    (s.powered = true →
      (requestedEid req = none → exec (.mctpControl i { bytes := req }) s = out (.standard req)) ∧
      (∀ e, requestedEid req = some e → exec (.mctpControl i { bytes := req }) s =
        .next ({ s with mgmt := { s.mgmt with eid := sput 0 s.mgmt.eid i e } }.emit (.mgmt i (.standard req)))) ∧
      exec (.setEventReceiver i eid) s = .next ({ s with mgmt := { s.mgmt with receiver := some (i, eid) } }.emit (.mgmt i .done)) ∧
      (n < 77 → exec (.pldmSensorRead i n) s = out (.reading (if (s.sensor n).bad = true then none else (s.sensor n).last))) ∧
      exec (.pldmSensorRead i 77) s = out (.reading (some (Int.ofNat s.health.score))) ∧
      (n < 10 → exec (.pldmSensorRead i (78 + n)) s = out (.reading (some (Int.ofNat (sget 0 s.health.pts n))))) ∧
      exec (.pldmBaseRequest i req) s = out (.standard req) ∧
      (s.life = .provision ∨ s.life = .fieldDiag → exec (.fabrecWrite i record) s =
        .next ({ s with flash := { s.flash with fabrec := some record } }.emit (.mgmt i .done))) ∧
      (s.life ≠ .provision → s.life ≠ .fieldDiag → exec (.fabrecWrite i record) s = out .error) ∧
      ((s.boot.stage ≠ 15 ∨ s.boot.code ≠ fltBootImage) → exec (.fwRecover i chunk a b) s = out .error) ∧
      (s.boot.stage = 15 → s.boot.code = fltBootImage →
        exec (.fwRecover i chunk false b) s = .next ({ s with mgmt := { s.mgmt with recover := s.mgmt.recover ++ chunk } }.emit (.mgmt i .done)) ∧
        (let image := s.mgmt.recover ++ chunk
         let t := { s with mgmt := { s.mgmt with recover := [] } }
         let bad := s.fuses.makerKey = false ∨ Config.imageSigned image = false ∨ Config.imageSvn image < s.fuses.svnMin
         ∃ u : State, exec (.fwRecover i chunk true true) s = .next (if bad then t.emit (.mgmt i .error) else u.emit (.mgmt i .done)) ∧
          u = { t with flash := u.flash } ∧ u.flash.bankA = some image ∧ u.flash.active = false ∧ u.flash.bankB = s.flash.bankB)) ∧
      exec (.getVersion i) s = out (.versions [0x12, 0x13]) ∧
      (s.fuses.lc ≠ .scrap →
        exec (.getCapabilities i) s = out .capabilities ∧ exec (.negotiateAlgorithms i a b) s = out (.algorithms a b) ∧
        exec (.getDigests i) s = out (.digests 1 (sha384 chain)) ∧ exec (.unsupportedRequest i code) s = out .unsupportedRequest ∧
        ((slot ≠ 0 ∨ chain.length < off) → exec (.getCertificate i slot off len) s = out .invalidRequest) ∧
        (off ≤ chain.length → exec (.getCertificate i 0 off len) s =
          out (.certificate ((chain.drop off).take len) (chain.length - off - min len (chain.length - off)))) ∧
        (slot ≠ 0 → exec (.challenge i slot nonce) s = out .invalidRequest) ∧
        exec (.challenge i 0 nonce) s = .next ({ s with freeCtr := s.freeCtr + 1 }.emit
          (.mgmt i (.challengeAuth (Config.deviceSign (leBytes 8 s.freeCtr ++ leBytes 32 nonce.toNat))))) ∧
        (6 < n → n ≠ 0xFF → exec (.getMeasurements i n a nonce) s = out .invalidRequest) ∧
        (1 ≤ n → n ≤ 6 → exec (.getMeasurements i n false nonce) s = out (.measurements [(n, s.measure n)] 6 none) ∧
          exec (.getMeasurements i n true nonce) s = .next ({ s with freeCtr := s.freeCtr + 1 }.emit (.mgmt i (.measurements [(n, s.measure n)] 6
            (some (Config.deviceSign (leBytes 8 s.freeCtr ++ (leBytes 32 nonce.toNat ++ s.measure n)))))))) ∧
        exec (.getMeasurements i 0xFF false nonce) s = out (.measurements ((List.range' 1 6).map fun m => (m, s.measure m)) 6 none))) ∧
    (s.fuses.lc = .scrap → ∀ c ∈ [Instr.getCapabilities i, .negotiateAlgorithms i a b, .getDigests i, .unsupportedRequest i code], exec c s = .next s) ∧
    (s.testAllowed op = false → exec (.testPortAccess op) s = .next { s with mgmt := { s.mgmt with testIr := .bypass } }) ∧
    (s.testAllowed op = true → exec (.testPortAccess op) s = .next ({ s with mgmt := { s.mgmt with testIr := op } }.runTest op)) ∧
    (let level1 := (s.life = .fieldDiag ∧ s.husk.debug = 1) ∨ ((s.life = .makerTest ∨ s.life = .returned) ∧ s.husk.debug = 2)
     s.testAllowed .bypass = true ∧ s.testAllowed .idcode = true ∧ (s.testAllowed .mandatory = true ↔ s.life ≠ .scrap) ∧
      (s.testAllowed (.readMemory i n) = true ↔ level1) ∧ (s.testAllowed (.writeScratch i n code) = true ↔ level1) ∧
      (s.testAllowed .fuseRead = true ↔ (s.life = .makerTest ∨ s.life = .returned) ∧ s.husk.debug = 2)) ∧
    exec .trstN s = .next { s with mgmt := { s.mgmt with testIr := .idcode } }

/-! ### The whole module -/

/-- Every command has a meaning in every state: exec answers a next state, never a fault or a refusal. No command is named that takes effect, so this is
no statement of completion: a command that must wait (log 9), or that comes without power (log 58), answers the state unchanged. It makes the statements of
every step say something of every command. -/
def Obligations.EveryCommandAnswersANextState : Prop :=
  ∀ (i : Instr) (s : State), ∃ t, exec i s = .next t

/-- Every step from a lawful state leads to a lawful one: SECURE_AT never rises above HALT_AT (R532), the power and thermal ceilings, FAB_RSP_TO and
PLACE_RATE (of which a write of 0 changes nothing, log 68) keep their ranges, and the debug level stays one that the lifecycle state allows (R567). And every
step keeps the memories in their canonical form: the scratchpads, the partitions' memories, what the hosts and the other modules hold, and spill storage. -/
def Obligations.StepsKeepRegistersLawful : Prop :=
  ∀ s t : State, (s.Lawful → step s = .next t → t.Lawful) ∧ (s.memoryWf = true → step s = .next t → t.memoryWf = true)

/-- No step takes a burned fuse back: FW_SVN_MIN, DIAG_DISABLE, the repair fuses, REFURB and the maker key's digest only grow, DEVICE_ID stands, and a
module in SCRAP stays in SCRAP, whatever command, reset or trip comes. -/
def Obligations.FusesAreNeverTakenBack : Prop :=
  ∀ s t : State, step s = .next t → s.fuses.Keeps t.fuses

/-- After reset the registers hold what the spec states: STAGE 1 and TIMEBASE 0; WATCHDOG 20, 2,000 MHz and the trackers' defaults in every core,
its counters 0; SECURE_AT, HALT_AT, RETIRE_AT, PWR_CAP, PWR_LIMIT, THERM_CAP, PLACE_RATE and FAB_RSP_TO at theirs; every partition, window and
session FREE. That scalar registers read 0 is the model's choice (log 1). And reset is lawful, with every memory in its canonical form. -/
def Obligations.ResetLeavesTheStatedValues : Prop :=
  let s := State.reset
  s.Lawful ∧ s.memoryWf = true ∧ s.time = 0 ∧ s.boot.stage = 1 ∧ s.pending = [] ∧
  (∀ k c, s.coreReg k c 0x0C = some 20 ∧ s.coreReg k c 0x08 = some 2000 ∧ s.coreReg k c 0x200 = some (0x2C + 0x1C * 2 ^ 8) ∧
    (s.ctx k c).mode = .idle ∧ (∀ r, (s.ctx k c).readS r = 0) ∧ (s.ctx k c).readP 0 = true ∧ ∀ off, sget 0 (s.core k).cnt off = 0) ∧
  (∀ k n, ((s.core k).tracker n).reg 0x00 = some (9 * n + 7 * 2 ^ 24 + 5 * 2 ^ 28) ∧ ((s.core k).tracker n).reg 0x04 = some 4 ∧
    ((s.core k).tracker n).reg 0x08 = some 0x3F800000 ∧ ((s.core k).tracker n).reg 0x10 = some 0xFF800000 ∧
    ((s.core k).tracker n).reg 0x14 = some 0x7F800000) ∧
  s.healthReg 0x04 = 0x200 ∧ s.healthReg 0x08 = 0x3C0 ∧ s.healthReg 0x10 = 16 ∧ s.healthReg 0x400 = 2200 ∧ s.healthReg 0x404 = 4000 ∧
  s.healthReg 0x410 = 2200 ∧ s.fabReg 0x08 = 10 ∧ s.fabReg 0x0C = 10000 ∧
  (∀ p, (s.part p).state = .free ∧ (s.part p).cmd.log2 = 6) ∧ (∀ w, (s.win w).state = .free) ∧ (∀ n, (s.sessOf n).state = .free) ∧ ∀ n, s.obj n = 0
end

