-- ==== Sys2Proof/Laws/Sparse.lean ====
section
/-! SUPPORT. Sparse tables: reading what was written, and the canonical form that every operation on a memory keeps. -/

namespace Sys2Proof.Machine

section Tables
variable {α : Type} [DecidableEq α] {d v : α} {m : Sparse α} {i j k lo lo' n : Nat}

omit [DecidableEq α] in
@[simp] theorem sget_nil : sget d ([] : Sparse α) k = d := rfl

/-- A key below the lowest listed key reads as the default. -/
theorem sget_below (h : swfFrom d lo m = true) (hk : k < lo) : sget d m k = d := by
  induction m generalizing lo with
  | nil => rfl
  | cons e m ih =>
    obtain ⟨j, x⟩ := e
    simp only [swfFrom, Bool.and_eq_true, decide_eq_true_eq] at h
    have hj : j ≠ k := by omega
    simp only [sget, if_neg hj]
    exact ih h.2 (by omega)

theorem swfFrom_mono (h : swfFrom d lo m = true) (hl : lo' ≤ lo) : swfFrom d lo' m = true := by
  cases m with
  | nil => rfl
  | cons e m =>
    obtain ⟨j, x⟩ := e
    simp only [swfFrom, Bool.and_eq_true, decide_eq_true_eq] at h ⊢
    exact ⟨⟨by omega, h.1.2⟩, h.2⟩

theorem swfFrom_filter (p : Nat × α → Bool) (h : swfFrom d lo m = true) : swfFrom d lo (m.filter p) = true := by
  induction m generalizing lo with
  | nil => rfl
  | cons e m ih =>
    obtain ⟨j, x⟩ := e
    simp only [swfFrom, Bool.and_eq_true, decide_eq_true_eq] at h
    rw [List.filter_cons]
    split
    · simp only [swfFrom, Bool.and_eq_true, decide_eq_true_eq]
      exact ⟨h.1, ih h.2⟩
    · exact swfFrom_mono (ih h.2) (by omega)

theorem swfFrom_sinsert (h : swfFrom d lo m = true) (hk : lo ≤ k) (hv : v ≠ d) : swfFrom d lo (sinsert m k v) = true := by
  induction m generalizing lo with
  | nil => simp [sinsert, swfFrom, hv, hk]
  | cons e m ih =>
    obtain ⟨j, x⟩ := e
    simp only [swfFrom, Bool.and_eq_true, decide_eq_true_eq, Bool.not_eq_true', decide_eq_false_iff_not] at h
    unfold sinsert
    split
    · simp only [swfFrom, Bool.and_eq_true, decide_eq_true_eq, Bool.not_eq_true', decide_eq_false_iff_not]
      exact ⟨⟨hk, hv⟩, ⟨by omega, h.1.2⟩, h.2⟩
    · split
      · simp only [swfFrom, Bool.and_eq_true, decide_eq_true_eq, Bool.not_eq_true', decide_eq_false_iff_not]
        subst_vars
        exact ⟨⟨hk, hv⟩, h.2⟩
      · simp only [swfFrom, Bool.and_eq_true, decide_eq_true_eq, Bool.not_eq_true', decide_eq_false_iff_not]
        exact ⟨⟨h.1.1, h.1.2⟩, ih h.2 (by omega)⟩

/-- A write keeps the canonical form. -/
theorem swf_sput (h : swf d m = true) : swf d (sput d m k v) = true := by
  unfold sput
  split
  · exact swfFrom_filter _ h
  · exact swfFrom_sinsert h (Nat.zero_le k) ‹_›

/-- Setting a range back to the default keeps the canonical form. -/
theorem swf_sclear (h : swf d m = true) : swf d (sclear m lo n) = true := swfFrom_filter _ h

omit [DecidableEq α] in
theorem sget_sinsert (m : Sparse α) (d v : α) (k i : Nat) : sget d (sinsert m k v) i = if i = k then v else sget d m i := by
  induction m with
  | nil => simp only [sinsert, sget]; by_cases h : i = k <;> simp [h, Ne.symm]
  | cons e m ih =>
    obtain ⟨j, x⟩ := e
    unfold sinsert
    split
    · simp only [sget, eq_comm]
    · split
      · subst_vars; simp only [sget]; by_cases h : i = j <;> simp [h, eq_comm]
      · simp only [sget, ih]
        by_cases h : i = k
        · subst_vars; simp [Ne.symm ‹¬i = j›]
        · simp [h]

omit [DecidableEq α] in
theorem sget_filter_ne (m : Sparse α) (d : α) (k i : Nat) :
    sget d (m.filter fun e => decide (e.1 ≠ k)) i = if i = k then d else sget d m i := by
  induction m with
  | nil => simp
  | cons e m ih =>
    obtain ⟨j, x⟩ := e
    rw [List.filter_cons]
    by_cases hj : j = k
    · subst hj; simp only [ne_eq, not_true_eq_false, decide_false, Bool.false_eq_true, if_false, ih, sget]
      by_cases h : i = j <;> simp [h, Ne.symm]
    · simp only [ne_eq, hj, not_false_eq_true, decide_true, if_true, sget, ih]
      by_cases h : i = k
      · subst h; simp [hj]
      · simp [h]

/-- One read after one write. -/
theorem sget_sput (d : α) (m : Sparse α) (k : Nat) (v : α) (i : Nat) : sget d (sput d m k v) i = if i = k then v else sget d m i := by
  unfold sput
  split
  · subst_vars; exact sget_filter_ne ..
  · exact sget_sinsert ..

/-- The written key reads as what was written. -/
@[simp] theorem sget_sput_self (d : α) (m : Sparse α) (k : Nat) (v : α) : sget d (sput d m k v) k = v := by simp [sget_sput]

/-- Every other key reads as before. -/
theorem sget_sput_ne (hi : i ≠ k) : sget d (sput d m k v) i = sget d m i := by simp [sget_sput, hi]

omit [DecidableEq α] in
/-- A range set back to the default reads as the default, and every other key as before. -/
theorem sget_sclear (d : α) (m : Sparse α) (lo n i : Nat) :
    sget d (sclear m lo n) i = if lo ≤ i ∧ i < lo + n then d else sget d m i := by
  induction m with
  | nil => simp [sclear]
  | cons e m ih =>
    obtain ⟨j, x⟩ := e
    unfold sclear at ih ⊢
    rw [List.filter_cons]
    by_cases hj : lo ≤ j ∧ j < lo + n
    · have : (decide (j < lo) || decide (lo + n ≤ j)) = false := by simp; omega
      simp only [this, Bool.false_eq_true, if_false, ih, sget]
      by_cases h : j = i
      · subst h; simp [hj]
      · simp [h]
    · have : (decide (j < lo) || decide (lo + n ≤ j)) = true := by simp; omega
      simp only [this, if_true, sget, ih]
      by_cases h : j = i
      · subst h; simp [hj]
      · simp [h]

end Tables

/-! ### Memories -/

@[simp] theorem writeBytes_nil (m : Sparse Byte) (a : Nat) : writeBytes m a [] = m := rfl

/-- Writing bytes keeps the canonical form of a memory. -/
theorem swf_writeBytes (bs : List Byte) (m : Sparse Byte) (a : Nat) (h : swf 0 m = true) : swf 0 (writeBytes m a bs) = true := by
  induction bs generalizing m a with
  | nil => exact h
  | cons b bs ih => exact ih _ _ (swf_sput h)

/-- A byte outside the bytes written reads as before. -/
theorem sget_writeBytes_outside (bs : List Byte) (m : Sparse Byte) (a i : Nat) (h : i < a ∨ a + bs.length ≤ i) :
    sget 0 (writeBytes m a bs) i = sget 0 m i := by
  induction bs generalizing m a with
  | nil => rfl
  | cons b bs ih =>
    simp only [List.length_cons] at h
    rw [writeBytes, ih _ _ (by omega), sget_sput_ne (by omega)]

/-- A byte written reads as what was written. -/
theorem sget_writeBytes_inside (bs : List Byte) (m : Sparse Byte) (a i : Nat) (h : i < bs.length) :
    sget 0 (writeBytes m a bs) (a + i) = bs.getD i 0 := by
  induction bs generalizing m a i with
  | nil => simp at h
  | cons b bs ih =>
    rw [writeBytes]
    cases i with
    | zero =>
      rw [sget_writeBytes_outside _ _ _ _ (by omega), Nat.add_zero, sget_sput_self]
      rfl
    | succ i =>
      simp only [List.length_cons] at h
      have := ih (sput 0 m a b) (a + 1) i (by omega)
      rw [show a + (i + 1) = a + 1 + i from by omega, this]
      rfl

theorem readBytes_length (m : Sparse Byte) (a n : Nat) : (readBytes m a n).length = n := by simp [readBytes]

@[simp] theorem leBytes_length (n v : Nat) : (leBytes n v).length = n := by simp [leBytes]

end Sys2Proof.Machine
end

