-- ==== Sys2Proof/Laws/State.lean ====
section
/-! SUPPORT. Reading a field of the state after each of its named updates: one lemma for each field that an update leaves alone, true by `rfl`,
and what reading back the written component gives. -/

namespace Sys2Proof.Machine

variable (s : State)

/-! ### `State.setCore` -/

@[simp] theorem State.setCore_pending (k : Nat) (c : Core) : (s.setCore k c).pending = s.pending := rfl
@[simp] theorem State.setCore_time (k : Nat) (c : Core) : (s.setCore k c).time = s.time := rfl
@[simp] theorem State.setCore_groups (k : Nat) (c : Core) : (s.setCore k c).groups = s.groups := rfl
@[simp] theorem State.setCore_objs (k : Nat) (c : Core) : (s.setCore k c).objs = s.objs := rfl
@[simp] theorem State.setCore_waiters (k : Nat) (c : Core) : (s.setCore k c).waiters = s.waiters := rfl
@[simp] theorem State.setCore_parts (k : Nat) (c : Core) : (s.setCore k c).parts = s.parts := rfl
@[simp] theorem State.setCore_reqs (k : Nat) (c : Core) : (s.setCore k c).reqs = s.reqs := rfl
@[simp] theorem State.setCore_reqSeq (k : Nat) (c : Core) : (s.setCore k c).reqSeq = s.reqSeq := rfl
@[simp] theorem State.setCore_queues (k : Nat) (c : Core) : (s.setCore k c).queues = s.queues := rfl
@[simp] theorem State.setCore_sess (k : Nat) (c : Core) : (s.setCore k c).sess = s.sess := rfl
@[simp] theorem State.setCore_ports (k : Nat) (c : Core) : (s.setCore k c).ports = s.ports := rfl
@[simp] theorem State.setCore_boot (k : Nat) (c : Core) : (s.setCore k c).boot = s.boot := rfl
@[simp] theorem State.setCore_fuses (k : Nat) (c : Core) : (s.setCore k c).fuses = s.fuses := rfl
@[simp] theorem State.setCore_flash (k : Nat) (c : Core) : (s.setCore k c).flash = s.flash := rfl
@[simp] theorem State.setCore_husk (k : Nat) (c : Core) : (s.setCore k c).husk = s.husk := rfl
@[simp] theorem State.setCore_fabric (k : Nat) (c : Core) : (s.setCore k c).fabric = s.fabric := rfl
@[simp] theorem State.setCore_health (k : Nat) (c : Core) : (s.setCore k c).health = s.health := rfl
@[simp] theorem State.setCore_frames (k : Nat) (c : Core) : (s.setCore k c).frames = s.frames := rfl
@[simp] theorem State.setCore_mgmt (k : Nat) (c : Core) : (s.setCore k c).mgmt = s.mgmt := rfl
@[simp] theorem State.setCore_aliasMap (k : Nat) (c : Core) : (s.setCore k c).aliasMap = s.aliasMap := rfl
@[simp] theorem State.setCore_spares (k : Nat) (c : Core) : (s.setCore k c).spares = s.spares := rfl
@[simp] theorem State.setCore_events (k : Nat) (c : Core) : (s.setCore k c).events = s.events := rfl
@[simp] theorem State.setCore_remoteMem (k : Nat) (c : Core) : (s.setCore k c).remoteMem = s.remoteMem := rfl
@[simp] theorem State.setCore_hostMem (k : Nat) (c : Core) : (s.setCore k c).hostMem = s.hostMem := rfl
@[simp] theorem State.setCore_out (k : Nat) (c : Core) : (s.setCore k c).out = s.out := rfl
@[simp] theorem State.setCore_freeCtr (k : Nat) (c : Core) : (s.setCore k c).freeCtr = s.freeCtr := rfl

/-! ### `State.setCtx` -/

@[simp] theorem State.setCtx_pending (k i : Nat) (x : Ctx) : (s.setCtx k i x).pending = s.pending := rfl
@[simp] theorem State.setCtx_time (k i : Nat) (x : Ctx) : (s.setCtx k i x).time = s.time := rfl
@[simp] theorem State.setCtx_groups (k i : Nat) (x : Ctx) : (s.setCtx k i x).groups = s.groups := rfl
@[simp] theorem State.setCtx_objs (k i : Nat) (x : Ctx) : (s.setCtx k i x).objs = s.objs := rfl
@[simp] theorem State.setCtx_waiters (k i : Nat) (x : Ctx) : (s.setCtx k i x).waiters = s.waiters := rfl
@[simp] theorem State.setCtx_parts (k i : Nat) (x : Ctx) : (s.setCtx k i x).parts = s.parts := rfl
@[simp] theorem State.setCtx_reqs (k i : Nat) (x : Ctx) : (s.setCtx k i x).reqs = s.reqs := rfl
@[simp] theorem State.setCtx_reqSeq (k i : Nat) (x : Ctx) : (s.setCtx k i x).reqSeq = s.reqSeq := rfl
@[simp] theorem State.setCtx_queues (k i : Nat) (x : Ctx) : (s.setCtx k i x).queues = s.queues := rfl
@[simp] theorem State.setCtx_sess (k i : Nat) (x : Ctx) : (s.setCtx k i x).sess = s.sess := rfl
@[simp] theorem State.setCtx_ports (k i : Nat) (x : Ctx) : (s.setCtx k i x).ports = s.ports := rfl
@[simp] theorem State.setCtx_boot (k i : Nat) (x : Ctx) : (s.setCtx k i x).boot = s.boot := rfl
@[simp] theorem State.setCtx_fuses (k i : Nat) (x : Ctx) : (s.setCtx k i x).fuses = s.fuses := rfl
@[simp] theorem State.setCtx_flash (k i : Nat) (x : Ctx) : (s.setCtx k i x).flash = s.flash := rfl
@[simp] theorem State.setCtx_husk (k i : Nat) (x : Ctx) : (s.setCtx k i x).husk = s.husk := rfl
@[simp] theorem State.setCtx_fabric (k i : Nat) (x : Ctx) : (s.setCtx k i x).fabric = s.fabric := rfl
@[simp] theorem State.setCtx_health (k i : Nat) (x : Ctx) : (s.setCtx k i x).health = s.health := rfl
@[simp] theorem State.setCtx_frames (k i : Nat) (x : Ctx) : (s.setCtx k i x).frames = s.frames := rfl
@[simp] theorem State.setCtx_mgmt (k i : Nat) (x : Ctx) : (s.setCtx k i x).mgmt = s.mgmt := rfl
@[simp] theorem State.setCtx_aliasMap (k i : Nat) (x : Ctx) : (s.setCtx k i x).aliasMap = s.aliasMap := rfl
@[simp] theorem State.setCtx_spares (k i : Nat) (x : Ctx) : (s.setCtx k i x).spares = s.spares := rfl
@[simp] theorem State.setCtx_events (k i : Nat) (x : Ctx) : (s.setCtx k i x).events = s.events := rfl
@[simp] theorem State.setCtx_remoteMem (k i : Nat) (x : Ctx) : (s.setCtx k i x).remoteMem = s.remoteMem := rfl
@[simp] theorem State.setCtx_hostMem (k i : Nat) (x : Ctx) : (s.setCtx k i x).hostMem = s.hostMem := rfl
@[simp] theorem State.setCtx_out (k i : Nat) (x : Ctx) : (s.setCtx k i x).out = s.out := rfl
@[simp] theorem State.setCtx_freeCtr (k i : Nat) (x : Ctx) : (s.setCtx k i x).freeCtr = s.freeCtr := rfl

/-! ### `State.setPart` -/

@[simp] theorem State.setPart_pending (p : Nat) (b : PartBlock) : (s.setPart p b).pending = s.pending := rfl
@[simp] theorem State.setPart_time (p : Nat) (b : PartBlock) : (s.setPart p b).time = s.time := rfl
@[simp] theorem State.setPart_cores (p : Nat) (b : PartBlock) : (s.setPart p b).cores = s.cores := rfl
@[simp] theorem State.setPart_groups (p : Nat) (b : PartBlock) : (s.setPart p b).groups = s.groups := rfl
@[simp] theorem State.setPart_objs (p : Nat) (b : PartBlock) : (s.setPart p b).objs = s.objs := rfl
@[simp] theorem State.setPart_waiters (p : Nat) (b : PartBlock) : (s.setPart p b).waiters = s.waiters := rfl
@[simp] theorem State.setPart_reqs (p : Nat) (b : PartBlock) : (s.setPart p b).reqs = s.reqs := rfl
@[simp] theorem State.setPart_reqSeq (p : Nat) (b : PartBlock) : (s.setPart p b).reqSeq = s.reqSeq := rfl
@[simp] theorem State.setPart_queues (p : Nat) (b : PartBlock) : (s.setPart p b).queues = s.queues := rfl
@[simp] theorem State.setPart_sess (p : Nat) (b : PartBlock) : (s.setPart p b).sess = s.sess := rfl
@[simp] theorem State.setPart_ports (p : Nat) (b : PartBlock) : (s.setPart p b).ports = s.ports := rfl
@[simp] theorem State.setPart_boot (p : Nat) (b : PartBlock) : (s.setPart p b).boot = s.boot := rfl
@[simp] theorem State.setPart_fuses (p : Nat) (b : PartBlock) : (s.setPart p b).fuses = s.fuses := rfl
@[simp] theorem State.setPart_flash (p : Nat) (b : PartBlock) : (s.setPart p b).flash = s.flash := rfl
@[simp] theorem State.setPart_husk (p : Nat) (b : PartBlock) : (s.setPart p b).husk = s.husk := rfl
@[simp] theorem State.setPart_fabric (p : Nat) (b : PartBlock) : (s.setPart p b).fabric = s.fabric := rfl
@[simp] theorem State.setPart_health (p : Nat) (b : PartBlock) : (s.setPart p b).health = s.health := rfl
@[simp] theorem State.setPart_frames (p : Nat) (b : PartBlock) : (s.setPart p b).frames = s.frames := rfl
@[simp] theorem State.setPart_mgmt (p : Nat) (b : PartBlock) : (s.setPart p b).mgmt = s.mgmt := rfl
@[simp] theorem State.setPart_aliasMap (p : Nat) (b : PartBlock) : (s.setPart p b).aliasMap = s.aliasMap := rfl
@[simp] theorem State.setPart_spares (p : Nat) (b : PartBlock) : (s.setPart p b).spares = s.spares := rfl
@[simp] theorem State.setPart_events (p : Nat) (b : PartBlock) : (s.setPart p b).events = s.events := rfl
@[simp] theorem State.setPart_remoteMem (p : Nat) (b : PartBlock) : (s.setPart p b).remoteMem = s.remoteMem := rfl
@[simp] theorem State.setPart_hostMem (p : Nat) (b : PartBlock) : (s.setPart p b).hostMem = s.hostMem := rfl
@[simp] theorem State.setPart_out (p : Nat) (b : PartBlock) : (s.setPart p b).out = s.out := rfl
@[simp] theorem State.setPart_freeCtr (p : Nat) (b : PartBlock) : (s.setPart p b).freeCtr = s.freeCtr := rfl

/-! ### `State.setPort` -/

@[simp] theorem State.setPort_pending (n : Nat) (b : Port) : (s.setPort n b).pending = s.pending := rfl
@[simp] theorem State.setPort_time (n : Nat) (b : Port) : (s.setPort n b).time = s.time := rfl
@[simp] theorem State.setPort_cores (n : Nat) (b : Port) : (s.setPort n b).cores = s.cores := rfl
@[simp] theorem State.setPort_groups (n : Nat) (b : Port) : (s.setPort n b).groups = s.groups := rfl
@[simp] theorem State.setPort_objs (n : Nat) (b : Port) : (s.setPort n b).objs = s.objs := rfl
@[simp] theorem State.setPort_waiters (n : Nat) (b : Port) : (s.setPort n b).waiters = s.waiters := rfl
@[simp] theorem State.setPort_parts (n : Nat) (b : Port) : (s.setPort n b).parts = s.parts := rfl
@[simp] theorem State.setPort_reqs (n : Nat) (b : Port) : (s.setPort n b).reqs = s.reqs := rfl
@[simp] theorem State.setPort_reqSeq (n : Nat) (b : Port) : (s.setPort n b).reqSeq = s.reqSeq := rfl
@[simp] theorem State.setPort_queues (n : Nat) (b : Port) : (s.setPort n b).queues = s.queues := rfl
@[simp] theorem State.setPort_sess (n : Nat) (b : Port) : (s.setPort n b).sess = s.sess := rfl
@[simp] theorem State.setPort_boot (n : Nat) (b : Port) : (s.setPort n b).boot = s.boot := rfl
@[simp] theorem State.setPort_fuses (n : Nat) (b : Port) : (s.setPort n b).fuses = s.fuses := rfl
@[simp] theorem State.setPort_flash (n : Nat) (b : Port) : (s.setPort n b).flash = s.flash := rfl
@[simp] theorem State.setPort_husk (n : Nat) (b : Port) : (s.setPort n b).husk = s.husk := rfl
@[simp] theorem State.setPort_fabric (n : Nat) (b : Port) : (s.setPort n b).fabric = s.fabric := rfl
@[simp] theorem State.setPort_health (n : Nat) (b : Port) : (s.setPort n b).health = s.health := rfl
@[simp] theorem State.setPort_frames (n : Nat) (b : Port) : (s.setPort n b).frames = s.frames := rfl
@[simp] theorem State.setPort_mgmt (n : Nat) (b : Port) : (s.setPort n b).mgmt = s.mgmt := rfl
@[simp] theorem State.setPort_aliasMap (n : Nat) (b : Port) : (s.setPort n b).aliasMap = s.aliasMap := rfl
@[simp] theorem State.setPort_spares (n : Nat) (b : Port) : (s.setPort n b).spares = s.spares := rfl
@[simp] theorem State.setPort_events (n : Nat) (b : Port) : (s.setPort n b).events = s.events := rfl
@[simp] theorem State.setPort_remoteMem (n : Nat) (b : Port) : (s.setPort n b).remoteMem = s.remoteMem := rfl
@[simp] theorem State.setPort_hostMem (n : Nat) (b : Port) : (s.setPort n b).hostMem = s.hostMem := rfl
@[simp] theorem State.setPort_out (n : Nat) (b : Port) : (s.setPort n b).out = s.out := rfl
@[simp] theorem State.setPort_freeCtr (n : Nat) (b : Port) : (s.setPort n b).freeCtr = s.freeCtr := rfl

/-! ### `State.setSess` -/

@[simp] theorem State.setSess_pending (n : Nat) (e : Sess) : (s.setSess n e).pending = s.pending := rfl
@[simp] theorem State.setSess_time (n : Nat) (e : Sess) : (s.setSess n e).time = s.time := rfl
@[simp] theorem State.setSess_cores (n : Nat) (e : Sess) : (s.setSess n e).cores = s.cores := rfl
@[simp] theorem State.setSess_groups (n : Nat) (e : Sess) : (s.setSess n e).groups = s.groups := rfl
@[simp] theorem State.setSess_objs (n : Nat) (e : Sess) : (s.setSess n e).objs = s.objs := rfl
@[simp] theorem State.setSess_waiters (n : Nat) (e : Sess) : (s.setSess n e).waiters = s.waiters := rfl
@[simp] theorem State.setSess_parts (n : Nat) (e : Sess) : (s.setSess n e).parts = s.parts := rfl
@[simp] theorem State.setSess_reqs (n : Nat) (e : Sess) : (s.setSess n e).reqs = s.reqs := rfl
@[simp] theorem State.setSess_reqSeq (n : Nat) (e : Sess) : (s.setSess n e).reqSeq = s.reqSeq := rfl
@[simp] theorem State.setSess_queues (n : Nat) (e : Sess) : (s.setSess n e).queues = s.queues := rfl
@[simp] theorem State.setSess_ports (n : Nat) (e : Sess) : (s.setSess n e).ports = s.ports := rfl
@[simp] theorem State.setSess_boot (n : Nat) (e : Sess) : (s.setSess n e).boot = s.boot := rfl
@[simp] theorem State.setSess_fuses (n : Nat) (e : Sess) : (s.setSess n e).fuses = s.fuses := rfl
@[simp] theorem State.setSess_flash (n : Nat) (e : Sess) : (s.setSess n e).flash = s.flash := rfl
@[simp] theorem State.setSess_husk (n : Nat) (e : Sess) : (s.setSess n e).husk = s.husk := rfl
@[simp] theorem State.setSess_fabric (n : Nat) (e : Sess) : (s.setSess n e).fabric = s.fabric := rfl
@[simp] theorem State.setSess_health (n : Nat) (e : Sess) : (s.setSess n e).health = s.health := rfl
@[simp] theorem State.setSess_frames (n : Nat) (e : Sess) : (s.setSess n e).frames = s.frames := rfl
@[simp] theorem State.setSess_mgmt (n : Nat) (e : Sess) : (s.setSess n e).mgmt = s.mgmt := rfl
@[simp] theorem State.setSess_aliasMap (n : Nat) (e : Sess) : (s.setSess n e).aliasMap = s.aliasMap := rfl
@[simp] theorem State.setSess_spares (n : Nat) (e : Sess) : (s.setSess n e).spares = s.spares := rfl
@[simp] theorem State.setSess_events (n : Nat) (e : Sess) : (s.setSess n e).events = s.events := rfl
@[simp] theorem State.setSess_remoteMem (n : Nat) (e : Sess) : (s.setSess n e).remoteMem = s.remoteMem := rfl
@[simp] theorem State.setSess_hostMem (n : Nat) (e : Sess) : (s.setSess n e).hostMem = s.hostMem := rfl
@[simp] theorem State.setSess_out (n : Nat) (e : Sess) : (s.setSess n e).out = s.out := rfl
@[simp] theorem State.setSess_freeCtr (n : Nat) (e : Sess) : (s.setSess n e).freeCtr = s.freeCtr := rfl

/-! ### `State.setHostMem` -/

@[simp] theorem State.setHostMem_pending (n : Nat) (m : Sparse Byte) : (s.setHostMem n m).pending = s.pending := rfl
@[simp] theorem State.setHostMem_time (n : Nat) (m : Sparse Byte) : (s.setHostMem n m).time = s.time := rfl
@[simp] theorem State.setHostMem_cores (n : Nat) (m : Sparse Byte) : (s.setHostMem n m).cores = s.cores := rfl
@[simp] theorem State.setHostMem_groups (n : Nat) (m : Sparse Byte) : (s.setHostMem n m).groups = s.groups := rfl
@[simp] theorem State.setHostMem_objs (n : Nat) (m : Sparse Byte) : (s.setHostMem n m).objs = s.objs := rfl
@[simp] theorem State.setHostMem_waiters (n : Nat) (m : Sparse Byte) : (s.setHostMem n m).waiters = s.waiters := rfl
@[simp] theorem State.setHostMem_parts (n : Nat) (m : Sparse Byte) : (s.setHostMem n m).parts = s.parts := rfl
@[simp] theorem State.setHostMem_reqs (n : Nat) (m : Sparse Byte) : (s.setHostMem n m).reqs = s.reqs := rfl
@[simp] theorem State.setHostMem_reqSeq (n : Nat) (m : Sparse Byte) : (s.setHostMem n m).reqSeq = s.reqSeq := rfl
@[simp] theorem State.setHostMem_queues (n : Nat) (m : Sparse Byte) : (s.setHostMem n m).queues = s.queues := rfl
@[simp] theorem State.setHostMem_sess (n : Nat) (m : Sparse Byte) : (s.setHostMem n m).sess = s.sess := rfl
@[simp] theorem State.setHostMem_ports (n : Nat) (m : Sparse Byte) : (s.setHostMem n m).ports = s.ports := rfl
@[simp] theorem State.setHostMem_boot (n : Nat) (m : Sparse Byte) : (s.setHostMem n m).boot = s.boot := rfl
@[simp] theorem State.setHostMem_fuses (n : Nat) (m : Sparse Byte) : (s.setHostMem n m).fuses = s.fuses := rfl
@[simp] theorem State.setHostMem_flash (n : Nat) (m : Sparse Byte) : (s.setHostMem n m).flash = s.flash := rfl
@[simp] theorem State.setHostMem_husk (n : Nat) (m : Sparse Byte) : (s.setHostMem n m).husk = s.husk := rfl
@[simp] theorem State.setHostMem_fabric (n : Nat) (m : Sparse Byte) : (s.setHostMem n m).fabric = s.fabric := rfl
@[simp] theorem State.setHostMem_health (n : Nat) (m : Sparse Byte) : (s.setHostMem n m).health = s.health := rfl
@[simp] theorem State.setHostMem_frames (n : Nat) (m : Sparse Byte) : (s.setHostMem n m).frames = s.frames := rfl
@[simp] theorem State.setHostMem_mgmt (n : Nat) (m : Sparse Byte) : (s.setHostMem n m).mgmt = s.mgmt := rfl
@[simp] theorem State.setHostMem_aliasMap (n : Nat) (m : Sparse Byte) : (s.setHostMem n m).aliasMap = s.aliasMap := rfl
@[simp] theorem State.setHostMem_spares (n : Nat) (m : Sparse Byte) : (s.setHostMem n m).spares = s.spares := rfl
@[simp] theorem State.setHostMem_events (n : Nat) (m : Sparse Byte) : (s.setHostMem n m).events = s.events := rfl
@[simp] theorem State.setHostMem_remoteMem (n : Nat) (m : Sparse Byte) : (s.setHostMem n m).remoteMem = s.remoteMem := rfl
@[simp] theorem State.setHostMem_out (n : Nat) (m : Sparse Byte) : (s.setHostMem n m).out = s.out := rfl
@[simp] theorem State.setHostMem_freeCtr (n : Nat) (m : Sparse Byte) : (s.setHostMem n m).freeCtr = s.freeCtr := rfl

/-! ### `State.setMem` -/

@[simp] theorem State.setMem_pending (p : Nat) (m : Mem) : (s.setMem p m).pending = s.pending := rfl
@[simp] theorem State.setMem_time (p : Nat) (m : Mem) : (s.setMem p m).time = s.time := rfl
@[simp] theorem State.setMem_cores (p : Nat) (m : Mem) : (s.setMem p m).cores = s.cores := rfl
@[simp] theorem State.setMem_groups (p : Nat) (m : Mem) : (s.setMem p m).groups = s.groups := rfl
@[simp] theorem State.setMem_objs (p : Nat) (m : Mem) : (s.setMem p m).objs = s.objs := rfl
@[simp] theorem State.setMem_waiters (p : Nat) (m : Mem) : (s.setMem p m).waiters = s.waiters := rfl
@[simp] theorem State.setMem_reqs (p : Nat) (m : Mem) : (s.setMem p m).reqs = s.reqs := rfl
@[simp] theorem State.setMem_reqSeq (p : Nat) (m : Mem) : (s.setMem p m).reqSeq = s.reqSeq := rfl
@[simp] theorem State.setMem_queues (p : Nat) (m : Mem) : (s.setMem p m).queues = s.queues := rfl
@[simp] theorem State.setMem_sess (p : Nat) (m : Mem) : (s.setMem p m).sess = s.sess := rfl
@[simp] theorem State.setMem_ports (p : Nat) (m : Mem) : (s.setMem p m).ports = s.ports := rfl
@[simp] theorem State.setMem_boot (p : Nat) (m : Mem) : (s.setMem p m).boot = s.boot := rfl
@[simp] theorem State.setMem_fuses (p : Nat) (m : Mem) : (s.setMem p m).fuses = s.fuses := rfl
@[simp] theorem State.setMem_flash (p : Nat) (m : Mem) : (s.setMem p m).flash = s.flash := rfl
@[simp] theorem State.setMem_husk (p : Nat) (m : Mem) : (s.setMem p m).husk = s.husk := rfl
@[simp] theorem State.setMem_fabric (p : Nat) (m : Mem) : (s.setMem p m).fabric = s.fabric := rfl
@[simp] theorem State.setMem_health (p : Nat) (m : Mem) : (s.setMem p m).health = s.health := rfl
@[simp] theorem State.setMem_frames (p : Nat) (m : Mem) : (s.setMem p m).frames = s.frames := rfl
@[simp] theorem State.setMem_mgmt (p : Nat) (m : Mem) : (s.setMem p m).mgmt = s.mgmt := rfl
@[simp] theorem State.setMem_aliasMap (p : Nat) (m : Mem) : (s.setMem p m).aliasMap = s.aliasMap := rfl
@[simp] theorem State.setMem_spares (p : Nat) (m : Mem) : (s.setMem p m).spares = s.spares := rfl
@[simp] theorem State.setMem_events (p : Nat) (m : Mem) : (s.setMem p m).events = s.events := rfl
@[simp] theorem State.setMem_remoteMem (p : Nat) (m : Mem) : (s.setMem p m).remoteMem = s.remoteMem := rfl
@[simp] theorem State.setMem_hostMem (p : Nat) (m : Mem) : (s.setMem p m).hostMem = s.hostMem := rfl
@[simp] theorem State.setMem_out (p : Nat) (m : Mem) : (s.setMem p m).out = s.out := rfl
@[simp] theorem State.setMem_freeCtr (p : Nat) (m : Mem) : (s.setMem p m).freeCtr = s.freeCtr := rfl

/-! ### `State.setRequest` -/

@[simp] theorem State.setRequest_pending (r : Nat) (q : Request) : (s.setRequest r q).pending = s.pending := rfl
@[simp] theorem State.setRequest_time (r : Nat) (q : Request) : (s.setRequest r q).time = s.time := rfl
@[simp] theorem State.setRequest_cores (r : Nat) (q : Request) : (s.setRequest r q).cores = s.cores := rfl
@[simp] theorem State.setRequest_groups (r : Nat) (q : Request) : (s.setRequest r q).groups = s.groups := rfl
@[simp] theorem State.setRequest_objs (r : Nat) (q : Request) : (s.setRequest r q).objs = s.objs := rfl
@[simp] theorem State.setRequest_waiters (r : Nat) (q : Request) : (s.setRequest r q).waiters = s.waiters := rfl
@[simp] theorem State.setRequest_parts (r : Nat) (q : Request) : (s.setRequest r q).parts = s.parts := rfl
@[simp] theorem State.setRequest_reqSeq (r : Nat) (q : Request) : (s.setRequest r q).reqSeq = s.reqSeq := rfl
@[simp] theorem State.setRequest_queues (r : Nat) (q : Request) : (s.setRequest r q).queues = s.queues := rfl
@[simp] theorem State.setRequest_sess (r : Nat) (q : Request) : (s.setRequest r q).sess = s.sess := rfl
@[simp] theorem State.setRequest_ports (r : Nat) (q : Request) : (s.setRequest r q).ports = s.ports := rfl
@[simp] theorem State.setRequest_boot (r : Nat) (q : Request) : (s.setRequest r q).boot = s.boot := rfl
@[simp] theorem State.setRequest_fuses (r : Nat) (q : Request) : (s.setRequest r q).fuses = s.fuses := rfl
@[simp] theorem State.setRequest_flash (r : Nat) (q : Request) : (s.setRequest r q).flash = s.flash := rfl
@[simp] theorem State.setRequest_husk (r : Nat) (q : Request) : (s.setRequest r q).husk = s.husk := rfl
@[simp] theorem State.setRequest_fabric (r : Nat) (q : Request) : (s.setRequest r q).fabric = s.fabric := rfl
@[simp] theorem State.setRequest_health (r : Nat) (q : Request) : (s.setRequest r q).health = s.health := rfl
@[simp] theorem State.setRequest_frames (r : Nat) (q : Request) : (s.setRequest r q).frames = s.frames := rfl
@[simp] theorem State.setRequest_mgmt (r : Nat) (q : Request) : (s.setRequest r q).mgmt = s.mgmt := rfl
@[simp] theorem State.setRequest_aliasMap (r : Nat) (q : Request) : (s.setRequest r q).aliasMap = s.aliasMap := rfl
@[simp] theorem State.setRequest_spares (r : Nat) (q : Request) : (s.setRequest r q).spares = s.spares := rfl
@[simp] theorem State.setRequest_events (r : Nat) (q : Request) : (s.setRequest r q).events = s.events := rfl
@[simp] theorem State.setRequest_remoteMem (r : Nat) (q : Request) : (s.setRequest r q).remoteMem = s.remoteMem := rfl
@[simp] theorem State.setRequest_hostMem (r : Nat) (q : Request) : (s.setRequest r q).hostMem = s.hostMem := rfl
@[simp] theorem State.setRequest_out (r : Nat) (q : Request) : (s.setRequest r q).out = s.out := rfl
@[simp] theorem State.setRequest_freeCtr (r : Nat) (q : Request) : (s.setRequest r q).freeCtr = s.freeCtr := rfl

/-! ### `State.freeRequest` -/

@[simp] theorem State.freeRequest_pending (r : Nat) : (s.freeRequest r).pending = s.pending := rfl
@[simp] theorem State.freeRequest_time (r : Nat) : (s.freeRequest r).time = s.time := rfl
@[simp] theorem State.freeRequest_cores (r : Nat) : (s.freeRequest r).cores = s.cores := rfl
@[simp] theorem State.freeRequest_groups (r : Nat) : (s.freeRequest r).groups = s.groups := rfl
@[simp] theorem State.freeRequest_objs (r : Nat) : (s.freeRequest r).objs = s.objs := rfl
@[simp] theorem State.freeRequest_waiters (r : Nat) : (s.freeRequest r).waiters = s.waiters := rfl
@[simp] theorem State.freeRequest_parts (r : Nat) : (s.freeRequest r).parts = s.parts := rfl
@[simp] theorem State.freeRequest_reqSeq (r : Nat) : (s.freeRequest r).reqSeq = s.reqSeq := rfl
@[simp] theorem State.freeRequest_queues (r : Nat) : (s.freeRequest r).queues = s.queues := rfl
@[simp] theorem State.freeRequest_sess (r : Nat) : (s.freeRequest r).sess = s.sess := rfl
@[simp] theorem State.freeRequest_ports (r : Nat) : (s.freeRequest r).ports = s.ports := rfl
@[simp] theorem State.freeRequest_boot (r : Nat) : (s.freeRequest r).boot = s.boot := rfl
@[simp] theorem State.freeRequest_fuses (r : Nat) : (s.freeRequest r).fuses = s.fuses := rfl
@[simp] theorem State.freeRequest_flash (r : Nat) : (s.freeRequest r).flash = s.flash := rfl
@[simp] theorem State.freeRequest_husk (r : Nat) : (s.freeRequest r).husk = s.husk := rfl
@[simp] theorem State.freeRequest_fabric (r : Nat) : (s.freeRequest r).fabric = s.fabric := rfl
@[simp] theorem State.freeRequest_health (r : Nat) : (s.freeRequest r).health = s.health := rfl
@[simp] theorem State.freeRequest_frames (r : Nat) : (s.freeRequest r).frames = s.frames := rfl
@[simp] theorem State.freeRequest_mgmt (r : Nat) : (s.freeRequest r).mgmt = s.mgmt := rfl
@[simp] theorem State.freeRequest_aliasMap (r : Nat) : (s.freeRequest r).aliasMap = s.aliasMap := rfl
@[simp] theorem State.freeRequest_spares (r : Nat) : (s.freeRequest r).spares = s.spares := rfl
@[simp] theorem State.freeRequest_events (r : Nat) : (s.freeRequest r).events = s.events := rfl
@[simp] theorem State.freeRequest_remoteMem (r : Nat) : (s.freeRequest r).remoteMem = s.remoteMem := rfl
@[simp] theorem State.freeRequest_hostMem (r : Nat) : (s.freeRequest r).hostMem = s.hostMem := rfl
@[simp] theorem State.freeRequest_out (r : Nat) : (s.freeRequest r).out = s.out := rfl
@[simp] theorem State.freeRequest_freeCtr (r : Nat) : (s.freeRequest r).freeCtr = s.freeCtr := rfl

/-! ### `State.emit` -/

@[simp] theorem State.emit_pending (o : Out) : (s.emit o).pending = s.pending := rfl
@[simp] theorem State.emit_time (o : Out) : (s.emit o).time = s.time := rfl
@[simp] theorem State.emit_cores (o : Out) : (s.emit o).cores = s.cores := rfl
@[simp] theorem State.emit_groups (o : Out) : (s.emit o).groups = s.groups := rfl
@[simp] theorem State.emit_objs (o : Out) : (s.emit o).objs = s.objs := rfl
@[simp] theorem State.emit_waiters (o : Out) : (s.emit o).waiters = s.waiters := rfl
@[simp] theorem State.emit_parts (o : Out) : (s.emit o).parts = s.parts := rfl
@[simp] theorem State.emit_reqs (o : Out) : (s.emit o).reqs = s.reqs := rfl
@[simp] theorem State.emit_reqSeq (o : Out) : (s.emit o).reqSeq = s.reqSeq := rfl
@[simp] theorem State.emit_queues (o : Out) : (s.emit o).queues = s.queues := rfl
@[simp] theorem State.emit_sess (o : Out) : (s.emit o).sess = s.sess := rfl
@[simp] theorem State.emit_ports (o : Out) : (s.emit o).ports = s.ports := rfl
@[simp] theorem State.emit_boot (o : Out) : (s.emit o).boot = s.boot := rfl
@[simp] theorem State.emit_fuses (o : Out) : (s.emit o).fuses = s.fuses := rfl
@[simp] theorem State.emit_flash (o : Out) : (s.emit o).flash = s.flash := rfl
@[simp] theorem State.emit_husk (o : Out) : (s.emit o).husk = s.husk := rfl
@[simp] theorem State.emit_fabric (o : Out) : (s.emit o).fabric = s.fabric := rfl
@[simp] theorem State.emit_health (o : Out) : (s.emit o).health = s.health := rfl
@[simp] theorem State.emit_frames (o : Out) : (s.emit o).frames = s.frames := rfl
@[simp] theorem State.emit_mgmt (o : Out) : (s.emit o).mgmt = s.mgmt := rfl
@[simp] theorem State.emit_aliasMap (o : Out) : (s.emit o).aliasMap = s.aliasMap := rfl
@[simp] theorem State.emit_spares (o : Out) : (s.emit o).spares = s.spares := rfl
@[simp] theorem State.emit_events (o : Out) : (s.emit o).events = s.events := rfl
@[simp] theorem State.emit_remoteMem (o : Out) : (s.emit o).remoteMem = s.remoteMem := rfl
@[simp] theorem State.emit_hostMem (o : Out) : (s.emit o).hostMem = s.hostMem := rfl
@[simp] theorem State.emit_freeCtr (o : Out) : (s.emit o).freeCtr = s.freeCtr := rfl

/-! ### `State.healthCount` -/

@[simp] theorem State.healthCount_pending (off n : Nat) : (s.healthCount off n).pending = s.pending := rfl
@[simp] theorem State.healthCount_time (off n : Nat) : (s.healthCount off n).time = s.time := rfl
@[simp] theorem State.healthCount_cores (off n : Nat) : (s.healthCount off n).cores = s.cores := rfl
@[simp] theorem State.healthCount_groups (off n : Nat) : (s.healthCount off n).groups = s.groups := rfl
@[simp] theorem State.healthCount_objs (off n : Nat) : (s.healthCount off n).objs = s.objs := rfl
@[simp] theorem State.healthCount_waiters (off n : Nat) : (s.healthCount off n).waiters = s.waiters := rfl
@[simp] theorem State.healthCount_parts (off n : Nat) : (s.healthCount off n).parts = s.parts := rfl
@[simp] theorem State.healthCount_reqs (off n : Nat) : (s.healthCount off n).reqs = s.reqs := rfl
@[simp] theorem State.healthCount_reqSeq (off n : Nat) : (s.healthCount off n).reqSeq = s.reqSeq := rfl
@[simp] theorem State.healthCount_queues (off n : Nat) : (s.healthCount off n).queues = s.queues := rfl
@[simp] theorem State.healthCount_sess (off n : Nat) : (s.healthCount off n).sess = s.sess := rfl
@[simp] theorem State.healthCount_ports (off n : Nat) : (s.healthCount off n).ports = s.ports := rfl
@[simp] theorem State.healthCount_boot (off n : Nat) : (s.healthCount off n).boot = s.boot := rfl
@[simp] theorem State.healthCount_fuses (off n : Nat) : (s.healthCount off n).fuses = s.fuses := rfl
@[simp] theorem State.healthCount_flash (off n : Nat) : (s.healthCount off n).flash = s.flash := rfl
@[simp] theorem State.healthCount_husk (off n : Nat) : (s.healthCount off n).husk = s.husk := rfl
@[simp] theorem State.healthCount_fabric (off n : Nat) : (s.healthCount off n).fabric = s.fabric := rfl
@[simp] theorem State.healthCount_frames (off n : Nat) : (s.healthCount off n).frames = s.frames := rfl
@[simp] theorem State.healthCount_mgmt (off n : Nat) : (s.healthCount off n).mgmt = s.mgmt := rfl
@[simp] theorem State.healthCount_aliasMap (off n : Nat) : (s.healthCount off n).aliasMap = s.aliasMap := rfl
@[simp] theorem State.healthCount_spares (off n : Nat) : (s.healthCount off n).spares = s.spares := rfl
@[simp] theorem State.healthCount_events (off n : Nat) : (s.healthCount off n).events = s.events := rfl
@[simp] theorem State.healthCount_remoteMem (off n : Nat) : (s.healthCount off n).remoteMem = s.remoteMem := rfl
@[simp] theorem State.healthCount_hostMem (off n : Nat) : (s.healthCount off n).hostMem = s.hostMem := rfl
@[simp] theorem State.healthCount_out (off n : Nat) : (s.healthCount off n).out = s.out := rfl
@[simp] theorem State.healthCount_freeCtr (off n : Nat) : (s.healthCount off n).freeCtr = s.freeCtr := rfl

/-! ### `State.markFailed` -/

@[simp] theorem State.markFailed_pending (r i : Nat) : (s.markFailed r i).pending = s.pending := rfl
@[simp] theorem State.markFailed_time (r i : Nat) : (s.markFailed r i).time = s.time := rfl
@[simp] theorem State.markFailed_groups (r i : Nat) : (s.markFailed r i).groups = s.groups := rfl
@[simp] theorem State.markFailed_objs (r i : Nat) : (s.markFailed r i).objs = s.objs := rfl
@[simp] theorem State.markFailed_waiters (r i : Nat) : (s.markFailed r i).waiters = s.waiters := rfl
@[simp] theorem State.markFailed_parts (r i : Nat) : (s.markFailed r i).parts = s.parts := rfl
@[simp] theorem State.markFailed_reqs (r i : Nat) : (s.markFailed r i).reqs = s.reqs := rfl
@[simp] theorem State.markFailed_reqSeq (r i : Nat) : (s.markFailed r i).reqSeq = s.reqSeq := rfl
@[simp] theorem State.markFailed_queues (r i : Nat) : (s.markFailed r i).queues = s.queues := rfl
@[simp] theorem State.markFailed_sess (r i : Nat) : (s.markFailed r i).sess = s.sess := rfl
@[simp] theorem State.markFailed_ports (r i : Nat) : (s.markFailed r i).ports = s.ports := rfl
@[simp] theorem State.markFailed_boot (r i : Nat) : (s.markFailed r i).boot = s.boot := rfl
@[simp] theorem State.markFailed_fuses (r i : Nat) : (s.markFailed r i).fuses = s.fuses := rfl
@[simp] theorem State.markFailed_flash (r i : Nat) : (s.markFailed r i).flash = s.flash := rfl
@[simp] theorem State.markFailed_husk (r i : Nat) : (s.markFailed r i).husk = s.husk := rfl
@[simp] theorem State.markFailed_fabric (r i : Nat) : (s.markFailed r i).fabric = s.fabric := rfl
@[simp] theorem State.markFailed_health (r i : Nat) : (s.markFailed r i).health = s.health := rfl
@[simp] theorem State.markFailed_frames (r i : Nat) : (s.markFailed r i).frames = s.frames := rfl
@[simp] theorem State.markFailed_mgmt (r i : Nat) : (s.markFailed r i).mgmt = s.mgmt := rfl
@[simp] theorem State.markFailed_aliasMap (r i : Nat) : (s.markFailed r i).aliasMap = s.aliasMap := rfl
@[simp] theorem State.markFailed_spares (r i : Nat) : (s.markFailed r i).spares = s.spares := rfl
@[simp] theorem State.markFailed_events (r i : Nat) : (s.markFailed r i).events = s.events := rfl
@[simp] theorem State.markFailed_remoteMem (r i : Nat) : (s.markFailed r i).remoteMem = s.remoteMem := rfl
@[simp] theorem State.markFailed_hostMem (r i : Nat) : (s.markFailed r i).hostMem = s.hostMem := rfl
@[simp] theorem State.markFailed_out (r i : Nat) : (s.markFailed r i).out = s.out := rfl
@[simp] theorem State.markFailed_freeCtr (r i : Nat) : (s.markFailed r i).freeCtr = s.freeCtr := rfl

/-! ### `State.coreCount` -/

@[simp] theorem State.coreCount_pending (k off n : Nat) : (s.coreCount k off n).pending = s.pending := rfl
@[simp] theorem State.coreCount_time (k off n : Nat) : (s.coreCount k off n).time = s.time := rfl
@[simp] theorem State.coreCount_groups (k off n : Nat) : (s.coreCount k off n).groups = s.groups := rfl
@[simp] theorem State.coreCount_objs (k off n : Nat) : (s.coreCount k off n).objs = s.objs := rfl
@[simp] theorem State.coreCount_waiters (k off n : Nat) : (s.coreCount k off n).waiters = s.waiters := rfl
@[simp] theorem State.coreCount_parts (k off n : Nat) : (s.coreCount k off n).parts = s.parts := rfl
@[simp] theorem State.coreCount_reqs (k off n : Nat) : (s.coreCount k off n).reqs = s.reqs := rfl
@[simp] theorem State.coreCount_reqSeq (k off n : Nat) : (s.coreCount k off n).reqSeq = s.reqSeq := rfl
@[simp] theorem State.coreCount_queues (k off n : Nat) : (s.coreCount k off n).queues = s.queues := rfl
@[simp] theorem State.coreCount_sess (k off n : Nat) : (s.coreCount k off n).sess = s.sess := rfl
@[simp] theorem State.coreCount_ports (k off n : Nat) : (s.coreCount k off n).ports = s.ports := rfl
@[simp] theorem State.coreCount_boot (k off n : Nat) : (s.coreCount k off n).boot = s.boot := rfl
@[simp] theorem State.coreCount_fuses (k off n : Nat) : (s.coreCount k off n).fuses = s.fuses := rfl
@[simp] theorem State.coreCount_flash (k off n : Nat) : (s.coreCount k off n).flash = s.flash := rfl
@[simp] theorem State.coreCount_husk (k off n : Nat) : (s.coreCount k off n).husk = s.husk := rfl
@[simp] theorem State.coreCount_fabric (k off n : Nat) : (s.coreCount k off n).fabric = s.fabric := rfl
@[simp] theorem State.coreCount_health (k off n : Nat) : (s.coreCount k off n).health = s.health := rfl
@[simp] theorem State.coreCount_frames (k off n : Nat) : (s.coreCount k off n).frames = s.frames := rfl
@[simp] theorem State.coreCount_mgmt (k off n : Nat) : (s.coreCount k off n).mgmt = s.mgmt := rfl
@[simp] theorem State.coreCount_aliasMap (k off n : Nat) : (s.coreCount k off n).aliasMap = s.aliasMap := rfl
@[simp] theorem State.coreCount_spares (k off n : Nat) : (s.coreCount k off n).spares = s.spares := rfl
@[simp] theorem State.coreCount_events (k off n : Nat) : (s.coreCount k off n).events = s.events := rfl
@[simp] theorem State.coreCount_remoteMem (k off n : Nat) : (s.coreCount k off n).remoteMem = s.remoteMem := rfl
@[simp] theorem State.coreCount_hostMem (k off n : Nat) : (s.coreCount k off n).hostMem = s.hostMem := rfl
@[simp] theorem State.coreCount_out (k off n : Nat) : (s.coreCount k off n).out = s.out := rfl
@[simp] theorem State.coreCount_freeCtr (k off n : Nat) : (s.coreCount k off n).freeCtr = s.freeCtr := rfl

/-! ### `State.setObj` -/

@[simp] theorem State.setObj_pending (n : Nat) (v : W32) : (s.setObj n v).pending = s.pending := rfl
@[simp] theorem State.setObj_time (n : Nat) (v : W32) : (s.setObj n v).time = s.time := rfl
@[simp] theorem State.setObj_cores (n : Nat) (v : W32) : (s.setObj n v).cores = s.cores := rfl
@[simp] theorem State.setObj_groups (n : Nat) (v : W32) : (s.setObj n v).groups = s.groups := rfl
@[simp] theorem State.setObj_parts (n : Nat) (v : W32) : (s.setObj n v).parts = s.parts := rfl
@[simp] theorem State.setObj_reqs (n : Nat) (v : W32) : (s.setObj n v).reqs = s.reqs := rfl
@[simp] theorem State.setObj_reqSeq (n : Nat) (v : W32) : (s.setObj n v).reqSeq = s.reqSeq := rfl
@[simp] theorem State.setObj_queues (n : Nat) (v : W32) : (s.setObj n v).queues = s.queues := rfl
@[simp] theorem State.setObj_sess (n : Nat) (v : W32) : (s.setObj n v).sess = s.sess := rfl
@[simp] theorem State.setObj_ports (n : Nat) (v : W32) : (s.setObj n v).ports = s.ports := rfl
@[simp] theorem State.setObj_boot (n : Nat) (v : W32) : (s.setObj n v).boot = s.boot := rfl
@[simp] theorem State.setObj_fuses (n : Nat) (v : W32) : (s.setObj n v).fuses = s.fuses := rfl
@[simp] theorem State.setObj_flash (n : Nat) (v : W32) : (s.setObj n v).flash = s.flash := rfl
@[simp] theorem State.setObj_husk (n : Nat) (v : W32) : (s.setObj n v).husk = s.husk := rfl
@[simp] theorem State.setObj_fabric (n : Nat) (v : W32) : (s.setObj n v).fabric = s.fabric := rfl
@[simp] theorem State.setObj_health (n : Nat) (v : W32) : (s.setObj n v).health = s.health := rfl
@[simp] theorem State.setObj_frames (n : Nat) (v : W32) : (s.setObj n v).frames = s.frames := rfl
@[simp] theorem State.setObj_mgmt (n : Nat) (v : W32) : (s.setObj n v).mgmt = s.mgmt := rfl
@[simp] theorem State.setObj_aliasMap (n : Nat) (v : W32) : (s.setObj n v).aliasMap = s.aliasMap := rfl
@[simp] theorem State.setObj_spares (n : Nat) (v : W32) : (s.setObj n v).spares = s.spares := rfl
@[simp] theorem State.setObj_events (n : Nat) (v : W32) : (s.setObj n v).events = s.events := rfl
@[simp] theorem State.setObj_remoteMem (n : Nat) (v : W32) : (s.setObj n v).remoteMem = s.remoteMem := rfl
@[simp] theorem State.setObj_hostMem (n : Nat) (v : W32) : (s.setObj n v).hostMem = s.hostMem := rfl
@[simp] theorem State.setObj_out (n : Nat) (v : W32) : (s.setObj n v).out = s.out := rfl
@[simp] theorem State.setObj_freeCtr (n : Nat) (v : W32) : (s.setObj n v).freeCtr = s.freeCtr := rfl

/-! ### `State.signal` -/

@[simp] theorem State.signal_pending (n : Nat) (v : W32) : (s.signal n v).pending = s.pending := rfl
@[simp] theorem State.signal_time (n : Nat) (v : W32) : (s.signal n v).time = s.time := rfl
@[simp] theorem State.signal_cores (n : Nat) (v : W32) : (s.signal n v).cores = s.cores := rfl
@[simp] theorem State.signal_groups (n : Nat) (v : W32) : (s.signal n v).groups = s.groups := rfl
@[simp] theorem State.signal_parts (n : Nat) (v : W32) : (s.signal n v).parts = s.parts := rfl
@[simp] theorem State.signal_reqs (n : Nat) (v : W32) : (s.signal n v).reqs = s.reqs := rfl
@[simp] theorem State.signal_reqSeq (n : Nat) (v : W32) : (s.signal n v).reqSeq = s.reqSeq := rfl
@[simp] theorem State.signal_queues (n : Nat) (v : W32) : (s.signal n v).queues = s.queues := rfl
@[simp] theorem State.signal_sess (n : Nat) (v : W32) : (s.signal n v).sess = s.sess := rfl
@[simp] theorem State.signal_ports (n : Nat) (v : W32) : (s.signal n v).ports = s.ports := rfl
@[simp] theorem State.signal_boot (n : Nat) (v : W32) : (s.signal n v).boot = s.boot := rfl
@[simp] theorem State.signal_fuses (n : Nat) (v : W32) : (s.signal n v).fuses = s.fuses := rfl
@[simp] theorem State.signal_flash (n : Nat) (v : W32) : (s.signal n v).flash = s.flash := rfl
@[simp] theorem State.signal_husk (n : Nat) (v : W32) : (s.signal n v).husk = s.husk := rfl
@[simp] theorem State.signal_fabric (n : Nat) (v : W32) : (s.signal n v).fabric = s.fabric := rfl
@[simp] theorem State.signal_health (n : Nat) (v : W32) : (s.signal n v).health = s.health := rfl
@[simp] theorem State.signal_frames (n : Nat) (v : W32) : (s.signal n v).frames = s.frames := rfl
@[simp] theorem State.signal_mgmt (n : Nat) (v : W32) : (s.signal n v).mgmt = s.mgmt := rfl
@[simp] theorem State.signal_aliasMap (n : Nat) (v : W32) : (s.signal n v).aliasMap = s.aliasMap := rfl
@[simp] theorem State.signal_spares (n : Nat) (v : W32) : (s.signal n v).spares = s.spares := rfl
@[simp] theorem State.signal_events (n : Nat) (v : W32) : (s.signal n v).events = s.events := rfl
@[simp] theorem State.signal_remoteMem (n : Nat) (v : W32) : (s.signal n v).remoteMem = s.remoteMem := rfl
@[simp] theorem State.signal_hostMem (n : Nat) (v : W32) : (s.signal n v).hostMem = s.hostMem := rfl
@[simp] theorem State.signal_out (n : Nat) (v : W32) : (s.signal n v).out = s.out := rfl
@[simp] theorem State.signal_freeCtr (n : Nat) (v : W32) : (s.signal n v).freeCtr = s.freeCtr := rfl

/-! ### `State.addWaiter` -/

@[simp] theorem State.addWaiter_pending (n : Nat) (w : Waiter) : (s.addWaiter n w).pending = s.pending := rfl
@[simp] theorem State.addWaiter_time (n : Nat) (w : Waiter) : (s.addWaiter n w).time = s.time := rfl
@[simp] theorem State.addWaiter_cores (n : Nat) (w : Waiter) : (s.addWaiter n w).cores = s.cores := rfl
@[simp] theorem State.addWaiter_groups (n : Nat) (w : Waiter) : (s.addWaiter n w).groups = s.groups := rfl
@[simp] theorem State.addWaiter_objs (n : Nat) (w : Waiter) : (s.addWaiter n w).objs = s.objs := rfl
@[simp] theorem State.addWaiter_parts (n : Nat) (w : Waiter) : (s.addWaiter n w).parts = s.parts := rfl
@[simp] theorem State.addWaiter_reqs (n : Nat) (w : Waiter) : (s.addWaiter n w).reqs = s.reqs := rfl
@[simp] theorem State.addWaiter_reqSeq (n : Nat) (w : Waiter) : (s.addWaiter n w).reqSeq = s.reqSeq := rfl
@[simp] theorem State.addWaiter_queues (n : Nat) (w : Waiter) : (s.addWaiter n w).queues = s.queues := rfl
@[simp] theorem State.addWaiter_sess (n : Nat) (w : Waiter) : (s.addWaiter n w).sess = s.sess := rfl
@[simp] theorem State.addWaiter_ports (n : Nat) (w : Waiter) : (s.addWaiter n w).ports = s.ports := rfl
@[simp] theorem State.addWaiter_boot (n : Nat) (w : Waiter) : (s.addWaiter n w).boot = s.boot := rfl
@[simp] theorem State.addWaiter_fuses (n : Nat) (w : Waiter) : (s.addWaiter n w).fuses = s.fuses := rfl
@[simp] theorem State.addWaiter_flash (n : Nat) (w : Waiter) : (s.addWaiter n w).flash = s.flash := rfl
@[simp] theorem State.addWaiter_husk (n : Nat) (w : Waiter) : (s.addWaiter n w).husk = s.husk := rfl
@[simp] theorem State.addWaiter_fabric (n : Nat) (w : Waiter) : (s.addWaiter n w).fabric = s.fabric := rfl
@[simp] theorem State.addWaiter_health (n : Nat) (w : Waiter) : (s.addWaiter n w).health = s.health := rfl
@[simp] theorem State.addWaiter_frames (n : Nat) (w : Waiter) : (s.addWaiter n w).frames = s.frames := rfl
@[simp] theorem State.addWaiter_mgmt (n : Nat) (w : Waiter) : (s.addWaiter n w).mgmt = s.mgmt := rfl
@[simp] theorem State.addWaiter_aliasMap (n : Nat) (w : Waiter) : (s.addWaiter n w).aliasMap = s.aliasMap := rfl
@[simp] theorem State.addWaiter_spares (n : Nat) (w : Waiter) : (s.addWaiter n w).spares = s.spares := rfl
@[simp] theorem State.addWaiter_events (n : Nat) (w : Waiter) : (s.addWaiter n w).events = s.events := rfl
@[simp] theorem State.addWaiter_remoteMem (n : Nat) (w : Waiter) : (s.addWaiter n w).remoteMem = s.remoteMem := rfl
@[simp] theorem State.addWaiter_hostMem (n : Nat) (w : Waiter) : (s.addWaiter n w).hostMem = s.hostMem := rfl
@[simp] theorem State.addWaiter_out (n : Nat) (w : Waiter) : (s.addWaiter n w).out = s.out := rfl
@[simp] theorem State.addWaiter_freeCtr (n : Nat) (w : Waiter) : (s.addWaiter n w).freeCtr = s.freeCtr := rfl

/-! ### `State.dropWaiter` -/

@[simp] theorem State.dropWaiter_pending (n k : Nat) (w : WaitAgent) : (s.dropWaiter n k w).pending = s.pending := rfl
@[simp] theorem State.dropWaiter_time (n k : Nat) (w : WaitAgent) : (s.dropWaiter n k w).time = s.time := rfl
@[simp] theorem State.dropWaiter_cores (n k : Nat) (w : WaitAgent) : (s.dropWaiter n k w).cores = s.cores := rfl
@[simp] theorem State.dropWaiter_groups (n k : Nat) (w : WaitAgent) : (s.dropWaiter n k w).groups = s.groups := rfl
@[simp] theorem State.dropWaiter_objs (n k : Nat) (w : WaitAgent) : (s.dropWaiter n k w).objs = s.objs := rfl
@[simp] theorem State.dropWaiter_parts (n k : Nat) (w : WaitAgent) : (s.dropWaiter n k w).parts = s.parts := rfl
@[simp] theorem State.dropWaiter_reqs (n k : Nat) (w : WaitAgent) : (s.dropWaiter n k w).reqs = s.reqs := rfl
@[simp] theorem State.dropWaiter_reqSeq (n k : Nat) (w : WaitAgent) : (s.dropWaiter n k w).reqSeq = s.reqSeq := rfl
@[simp] theorem State.dropWaiter_queues (n k : Nat) (w : WaitAgent) : (s.dropWaiter n k w).queues = s.queues := rfl
@[simp] theorem State.dropWaiter_sess (n k : Nat) (w : WaitAgent) : (s.dropWaiter n k w).sess = s.sess := rfl
@[simp] theorem State.dropWaiter_ports (n k : Nat) (w : WaitAgent) : (s.dropWaiter n k w).ports = s.ports := rfl
@[simp] theorem State.dropWaiter_boot (n k : Nat) (w : WaitAgent) : (s.dropWaiter n k w).boot = s.boot := rfl
@[simp] theorem State.dropWaiter_fuses (n k : Nat) (w : WaitAgent) : (s.dropWaiter n k w).fuses = s.fuses := rfl
@[simp] theorem State.dropWaiter_flash (n k : Nat) (w : WaitAgent) : (s.dropWaiter n k w).flash = s.flash := rfl
@[simp] theorem State.dropWaiter_husk (n k : Nat) (w : WaitAgent) : (s.dropWaiter n k w).husk = s.husk := rfl
@[simp] theorem State.dropWaiter_fabric (n k : Nat) (w : WaitAgent) : (s.dropWaiter n k w).fabric = s.fabric := rfl
@[simp] theorem State.dropWaiter_health (n k : Nat) (w : WaitAgent) : (s.dropWaiter n k w).health = s.health := rfl
@[simp] theorem State.dropWaiter_frames (n k : Nat) (w : WaitAgent) : (s.dropWaiter n k w).frames = s.frames := rfl
@[simp] theorem State.dropWaiter_mgmt (n k : Nat) (w : WaitAgent) : (s.dropWaiter n k w).mgmt = s.mgmt := rfl
@[simp] theorem State.dropWaiter_aliasMap (n k : Nat) (w : WaitAgent) : (s.dropWaiter n k w).aliasMap = s.aliasMap := rfl
@[simp] theorem State.dropWaiter_spares (n k : Nat) (w : WaitAgent) : (s.dropWaiter n k w).spares = s.spares := rfl
@[simp] theorem State.dropWaiter_events (n k : Nat) (w : WaitAgent) : (s.dropWaiter n k w).events = s.events := rfl
@[simp] theorem State.dropWaiter_remoteMem (n k : Nat) (w : WaitAgent) : (s.dropWaiter n k w).remoteMem = s.remoteMem := rfl
@[simp] theorem State.dropWaiter_hostMem (n k : Nat) (w : WaitAgent) : (s.dropWaiter n k w).hostMem = s.hostMem := rfl
@[simp] theorem State.dropWaiter_out (n k : Nat) (w : WaitAgent) : (s.dropWaiter n k w).out = s.out := rfl
@[simp] theorem State.dropWaiter_freeCtr (n k : Nat) (w : WaitAgent) : (s.dropWaiter n k w).freeCtr = s.freeCtr := rfl

/-! ### `State.frameError` -/

@[simp] theorem State.frameError_pending (u : PUnit) : (s.frameError u).pending = s.pending := rfl
@[simp] theorem State.frameError_time (u : PUnit) : (s.frameError u).time = s.time := rfl
@[simp] theorem State.frameError_cores (u : PUnit) : (s.frameError u).cores = s.cores := rfl
@[simp] theorem State.frameError_groups (u : PUnit) : (s.frameError u).groups = s.groups := rfl
@[simp] theorem State.frameError_objs (u : PUnit) : (s.frameError u).objs = s.objs := rfl
@[simp] theorem State.frameError_waiters (u : PUnit) : (s.frameError u).waiters = s.waiters := rfl
@[simp] theorem State.frameError_parts (u : PUnit) : (s.frameError u).parts = s.parts := rfl
@[simp] theorem State.frameError_reqs (u : PUnit) : (s.frameError u).reqs = s.reqs := rfl
@[simp] theorem State.frameError_reqSeq (u : PUnit) : (s.frameError u).reqSeq = s.reqSeq := rfl
@[simp] theorem State.frameError_queues (u : PUnit) : (s.frameError u).queues = s.queues := rfl
@[simp] theorem State.frameError_sess (u : PUnit) : (s.frameError u).sess = s.sess := rfl
@[simp] theorem State.frameError_ports (u : PUnit) : (s.frameError u).ports = s.ports := rfl
@[simp] theorem State.frameError_boot (u : PUnit) : (s.frameError u).boot = s.boot := rfl
@[simp] theorem State.frameError_fuses (u : PUnit) : (s.frameError u).fuses = s.fuses := rfl
@[simp] theorem State.frameError_flash (u : PUnit) : (s.frameError u).flash = s.flash := rfl
@[simp] theorem State.frameError_husk (u : PUnit) : (s.frameError u).husk = s.husk := rfl
@[simp] theorem State.frameError_fabric (u : PUnit) : (s.frameError u).fabric = s.fabric := rfl
@[simp] theorem State.frameError_health (u : PUnit) : (s.frameError u).health = s.health := rfl
@[simp] theorem State.frameError_mgmt (u : PUnit) : (s.frameError u).mgmt = s.mgmt := rfl
@[simp] theorem State.frameError_aliasMap (u : PUnit) : (s.frameError u).aliasMap = s.aliasMap := rfl
@[simp] theorem State.frameError_spares (u : PUnit) : (s.frameError u).spares = s.spares := rfl
@[simp] theorem State.frameError_events (u : PUnit) : (s.frameError u).events = s.events := rfl
@[simp] theorem State.frameError_remoteMem (u : PUnit) : (s.frameError u).remoteMem = s.remoteMem := rfl
@[simp] theorem State.frameError_hostMem (u : PUnit) : (s.frameError u).hostMem = s.hostMem := rfl
@[simp] theorem State.frameError_out (u : PUnit) : (s.frameError u).out = s.out := rfl
@[simp] theorem State.frameError_freeCtr (u : PUnit) : (s.frameError u).freeCtr = s.freeCtr := rfl

/-! ### `State.putS` -/

@[simp] theorem State.putS_pending (k i d : Nat) (v : W64) : (s.putS k i d v).pending = s.pending := rfl
@[simp] theorem State.putS_time (k i d : Nat) (v : W64) : (s.putS k i d v).time = s.time := rfl
@[simp] theorem State.putS_groups (k i d : Nat) (v : W64) : (s.putS k i d v).groups = s.groups := rfl
@[simp] theorem State.putS_objs (k i d : Nat) (v : W64) : (s.putS k i d v).objs = s.objs := rfl
@[simp] theorem State.putS_waiters (k i d : Nat) (v : W64) : (s.putS k i d v).waiters = s.waiters := rfl
@[simp] theorem State.putS_parts (k i d : Nat) (v : W64) : (s.putS k i d v).parts = s.parts := rfl
@[simp] theorem State.putS_reqs (k i d : Nat) (v : W64) : (s.putS k i d v).reqs = s.reqs := rfl
@[simp] theorem State.putS_reqSeq (k i d : Nat) (v : W64) : (s.putS k i d v).reqSeq = s.reqSeq := rfl
@[simp] theorem State.putS_queues (k i d : Nat) (v : W64) : (s.putS k i d v).queues = s.queues := rfl
@[simp] theorem State.putS_sess (k i d : Nat) (v : W64) : (s.putS k i d v).sess = s.sess := rfl
@[simp] theorem State.putS_ports (k i d : Nat) (v : W64) : (s.putS k i d v).ports = s.ports := rfl
@[simp] theorem State.putS_boot (k i d : Nat) (v : W64) : (s.putS k i d v).boot = s.boot := rfl
@[simp] theorem State.putS_fuses (k i d : Nat) (v : W64) : (s.putS k i d v).fuses = s.fuses := rfl
@[simp] theorem State.putS_flash (k i d : Nat) (v : W64) : (s.putS k i d v).flash = s.flash := rfl
@[simp] theorem State.putS_husk (k i d : Nat) (v : W64) : (s.putS k i d v).husk = s.husk := rfl
@[simp] theorem State.putS_fabric (k i d : Nat) (v : W64) : (s.putS k i d v).fabric = s.fabric := rfl
@[simp] theorem State.putS_health (k i d : Nat) (v : W64) : (s.putS k i d v).health = s.health := rfl
@[simp] theorem State.putS_frames (k i d : Nat) (v : W64) : (s.putS k i d v).frames = s.frames := rfl
@[simp] theorem State.putS_mgmt (k i d : Nat) (v : W64) : (s.putS k i d v).mgmt = s.mgmt := rfl
@[simp] theorem State.putS_aliasMap (k i d : Nat) (v : W64) : (s.putS k i d v).aliasMap = s.aliasMap := rfl
@[simp] theorem State.putS_spares (k i d : Nat) (v : W64) : (s.putS k i d v).spares = s.spares := rfl
@[simp] theorem State.putS_events (k i d : Nat) (v : W64) : (s.putS k i d v).events = s.events := rfl
@[simp] theorem State.putS_remoteMem (k i d : Nat) (v : W64) : (s.putS k i d v).remoteMem = s.remoteMem := rfl
@[simp] theorem State.putS_hostMem (k i d : Nat) (v : W64) : (s.putS k i d v).hostMem = s.hostMem := rfl
@[simp] theorem State.putS_out (k i d : Nat) (v : W64) : (s.putS k i d v).out = s.out := rfl
@[simp] theorem State.putS_freeCtr (k i d : Nat) (v : W64) : (s.putS k i d v).freeCtr = s.freeCtr := rfl

/-! ### `State.putP` -/

@[simp] theorem State.putP_pending (k i d : Nat) (v : Bool) : (s.putP k i d v).pending = s.pending := rfl
@[simp] theorem State.putP_time (k i d : Nat) (v : Bool) : (s.putP k i d v).time = s.time := rfl
@[simp] theorem State.putP_groups (k i d : Nat) (v : Bool) : (s.putP k i d v).groups = s.groups := rfl
@[simp] theorem State.putP_objs (k i d : Nat) (v : Bool) : (s.putP k i d v).objs = s.objs := rfl
@[simp] theorem State.putP_waiters (k i d : Nat) (v : Bool) : (s.putP k i d v).waiters = s.waiters := rfl
@[simp] theorem State.putP_parts (k i d : Nat) (v : Bool) : (s.putP k i d v).parts = s.parts := rfl
@[simp] theorem State.putP_reqs (k i d : Nat) (v : Bool) : (s.putP k i d v).reqs = s.reqs := rfl
@[simp] theorem State.putP_reqSeq (k i d : Nat) (v : Bool) : (s.putP k i d v).reqSeq = s.reqSeq := rfl
@[simp] theorem State.putP_queues (k i d : Nat) (v : Bool) : (s.putP k i d v).queues = s.queues := rfl
@[simp] theorem State.putP_sess (k i d : Nat) (v : Bool) : (s.putP k i d v).sess = s.sess := rfl
@[simp] theorem State.putP_ports (k i d : Nat) (v : Bool) : (s.putP k i d v).ports = s.ports := rfl
@[simp] theorem State.putP_boot (k i d : Nat) (v : Bool) : (s.putP k i d v).boot = s.boot := rfl
@[simp] theorem State.putP_fuses (k i d : Nat) (v : Bool) : (s.putP k i d v).fuses = s.fuses := rfl
@[simp] theorem State.putP_flash (k i d : Nat) (v : Bool) : (s.putP k i d v).flash = s.flash := rfl
@[simp] theorem State.putP_husk (k i d : Nat) (v : Bool) : (s.putP k i d v).husk = s.husk := rfl
@[simp] theorem State.putP_fabric (k i d : Nat) (v : Bool) : (s.putP k i d v).fabric = s.fabric := rfl
@[simp] theorem State.putP_health (k i d : Nat) (v : Bool) : (s.putP k i d v).health = s.health := rfl
@[simp] theorem State.putP_frames (k i d : Nat) (v : Bool) : (s.putP k i d v).frames = s.frames := rfl
@[simp] theorem State.putP_mgmt (k i d : Nat) (v : Bool) : (s.putP k i d v).mgmt = s.mgmt := rfl
@[simp] theorem State.putP_aliasMap (k i d : Nat) (v : Bool) : (s.putP k i d v).aliasMap = s.aliasMap := rfl
@[simp] theorem State.putP_spares (k i d : Nat) (v : Bool) : (s.putP k i d v).spares = s.spares := rfl
@[simp] theorem State.putP_events (k i d : Nat) (v : Bool) : (s.putP k i d v).events = s.events := rfl
@[simp] theorem State.putP_remoteMem (k i d : Nat) (v : Bool) : (s.putP k i d v).remoteMem = s.remoteMem := rfl
@[simp] theorem State.putP_hostMem (k i d : Nat) (v : Bool) : (s.putP k i d v).hostMem = s.hostMem := rfl
@[simp] theorem State.putP_out (k i d : Nat) (v : Bool) : (s.putP k i d v).out = s.out := rfl
@[simp] theorem State.putP_freeCtr (k i d : Nat) (v : Bool) : (s.putP k i d v).freeCtr = s.freeCtr := rfl

/-! ### `State.putV` -/

@[simp] theorem State.putV_pending (k i d : Nat) (v : List W32) : (s.putV k i d v).pending = s.pending := rfl
@[simp] theorem State.putV_time (k i d : Nat) (v : List W32) : (s.putV k i d v).time = s.time := rfl
@[simp] theorem State.putV_groups (k i d : Nat) (v : List W32) : (s.putV k i d v).groups = s.groups := rfl
@[simp] theorem State.putV_objs (k i d : Nat) (v : List W32) : (s.putV k i d v).objs = s.objs := rfl
@[simp] theorem State.putV_waiters (k i d : Nat) (v : List W32) : (s.putV k i d v).waiters = s.waiters := rfl
@[simp] theorem State.putV_parts (k i d : Nat) (v : List W32) : (s.putV k i d v).parts = s.parts := rfl
@[simp] theorem State.putV_reqs (k i d : Nat) (v : List W32) : (s.putV k i d v).reqs = s.reqs := rfl
@[simp] theorem State.putV_reqSeq (k i d : Nat) (v : List W32) : (s.putV k i d v).reqSeq = s.reqSeq := rfl
@[simp] theorem State.putV_queues (k i d : Nat) (v : List W32) : (s.putV k i d v).queues = s.queues := rfl
@[simp] theorem State.putV_sess (k i d : Nat) (v : List W32) : (s.putV k i d v).sess = s.sess := rfl
@[simp] theorem State.putV_ports (k i d : Nat) (v : List W32) : (s.putV k i d v).ports = s.ports := rfl
@[simp] theorem State.putV_boot (k i d : Nat) (v : List W32) : (s.putV k i d v).boot = s.boot := rfl
@[simp] theorem State.putV_fuses (k i d : Nat) (v : List W32) : (s.putV k i d v).fuses = s.fuses := rfl
@[simp] theorem State.putV_flash (k i d : Nat) (v : List W32) : (s.putV k i d v).flash = s.flash := rfl
@[simp] theorem State.putV_husk (k i d : Nat) (v : List W32) : (s.putV k i d v).husk = s.husk := rfl
@[simp] theorem State.putV_fabric (k i d : Nat) (v : List W32) : (s.putV k i d v).fabric = s.fabric := rfl
@[simp] theorem State.putV_health (k i d : Nat) (v : List W32) : (s.putV k i d v).health = s.health := rfl
@[simp] theorem State.putV_frames (k i d : Nat) (v : List W32) : (s.putV k i d v).frames = s.frames := rfl
@[simp] theorem State.putV_mgmt (k i d : Nat) (v : List W32) : (s.putV k i d v).mgmt = s.mgmt := rfl
@[simp] theorem State.putV_aliasMap (k i d : Nat) (v : List W32) : (s.putV k i d v).aliasMap = s.aliasMap := rfl
@[simp] theorem State.putV_spares (k i d : Nat) (v : List W32) : (s.putV k i d v).spares = s.spares := rfl
@[simp] theorem State.putV_events (k i d : Nat) (v : List W32) : (s.putV k i d v).events = s.events := rfl
@[simp] theorem State.putV_remoteMem (k i d : Nat) (v : List W32) : (s.putV k i d v).remoteMem = s.remoteMem := rfl
@[simp] theorem State.putV_hostMem (k i d : Nat) (v : List W32) : (s.putV k i d v).hostMem = s.hostMem := rfl
@[simp] theorem State.putV_out (k i d : Nat) (v : List W32) : (s.putV k i d v).out = s.out := rfl
@[simp] theorem State.putV_freeCtr (k i d : Nat) (v : List W32) : (s.putV k i d v).freeCtr = s.freeCtr := rfl

/-! ### `State.setPc` -/

@[simp] theorem State.setPc_pending (k i : Nat) (pc : W64) : (s.setPc k i pc).pending = s.pending := rfl
@[simp] theorem State.setPc_time (k i : Nat) (pc : W64) : (s.setPc k i pc).time = s.time := rfl
@[simp] theorem State.setPc_groups (k i : Nat) (pc : W64) : (s.setPc k i pc).groups = s.groups := rfl
@[simp] theorem State.setPc_objs (k i : Nat) (pc : W64) : (s.setPc k i pc).objs = s.objs := rfl
@[simp] theorem State.setPc_waiters (k i : Nat) (pc : W64) : (s.setPc k i pc).waiters = s.waiters := rfl
@[simp] theorem State.setPc_parts (k i : Nat) (pc : W64) : (s.setPc k i pc).parts = s.parts := rfl
@[simp] theorem State.setPc_reqs (k i : Nat) (pc : W64) : (s.setPc k i pc).reqs = s.reqs := rfl
@[simp] theorem State.setPc_reqSeq (k i : Nat) (pc : W64) : (s.setPc k i pc).reqSeq = s.reqSeq := rfl
@[simp] theorem State.setPc_queues (k i : Nat) (pc : W64) : (s.setPc k i pc).queues = s.queues := rfl
@[simp] theorem State.setPc_sess (k i : Nat) (pc : W64) : (s.setPc k i pc).sess = s.sess := rfl
@[simp] theorem State.setPc_ports (k i : Nat) (pc : W64) : (s.setPc k i pc).ports = s.ports := rfl
@[simp] theorem State.setPc_boot (k i : Nat) (pc : W64) : (s.setPc k i pc).boot = s.boot := rfl
@[simp] theorem State.setPc_fuses (k i : Nat) (pc : W64) : (s.setPc k i pc).fuses = s.fuses := rfl
@[simp] theorem State.setPc_flash (k i : Nat) (pc : W64) : (s.setPc k i pc).flash = s.flash := rfl
@[simp] theorem State.setPc_husk (k i : Nat) (pc : W64) : (s.setPc k i pc).husk = s.husk := rfl
@[simp] theorem State.setPc_fabric (k i : Nat) (pc : W64) : (s.setPc k i pc).fabric = s.fabric := rfl
@[simp] theorem State.setPc_health (k i : Nat) (pc : W64) : (s.setPc k i pc).health = s.health := rfl
@[simp] theorem State.setPc_frames (k i : Nat) (pc : W64) : (s.setPc k i pc).frames = s.frames := rfl
@[simp] theorem State.setPc_mgmt (k i : Nat) (pc : W64) : (s.setPc k i pc).mgmt = s.mgmt := rfl
@[simp] theorem State.setPc_aliasMap (k i : Nat) (pc : W64) : (s.setPc k i pc).aliasMap = s.aliasMap := rfl
@[simp] theorem State.setPc_spares (k i : Nat) (pc : W64) : (s.setPc k i pc).spares = s.spares := rfl
@[simp] theorem State.setPc_events (k i : Nat) (pc : W64) : (s.setPc k i pc).events = s.events := rfl
@[simp] theorem State.setPc_remoteMem (k i : Nat) (pc : W64) : (s.setPc k i pc).remoteMem = s.remoteMem := rfl
@[simp] theorem State.setPc_hostMem (k i : Nat) (pc : W64) : (s.setPc k i pc).hostMem = s.hostMem := rfl
@[simp] theorem State.setPc_out (k i : Nat) (pc : W64) : (s.setPc k i pc).out = s.out := rfl
@[simp] theorem State.setPc_freeCtr (k i : Nat) (pc : W64) : (s.setPc k i pc).freeCtr = s.freeCtr := rfl

/-! ### `State.enterWait` -/

@[simp] theorem State.enterWait_pending (k i : Nat) (w : WaitKind) : (s.enterWait k i w).pending = s.pending := rfl
@[simp] theorem State.enterWait_time (k i : Nat) (w : WaitKind) : (s.enterWait k i w).time = s.time := rfl
@[simp] theorem State.enterWait_groups (k i : Nat) (w : WaitKind) : (s.enterWait k i w).groups = s.groups := rfl
@[simp] theorem State.enterWait_objs (k i : Nat) (w : WaitKind) : (s.enterWait k i w).objs = s.objs := rfl
@[simp] theorem State.enterWait_waiters (k i : Nat) (w : WaitKind) : (s.enterWait k i w).waiters = s.waiters := rfl
@[simp] theorem State.enterWait_parts (k i : Nat) (w : WaitKind) : (s.enterWait k i w).parts = s.parts := rfl
@[simp] theorem State.enterWait_reqs (k i : Nat) (w : WaitKind) : (s.enterWait k i w).reqs = s.reqs := rfl
@[simp] theorem State.enterWait_reqSeq (k i : Nat) (w : WaitKind) : (s.enterWait k i w).reqSeq = s.reqSeq := rfl
@[simp] theorem State.enterWait_queues (k i : Nat) (w : WaitKind) : (s.enterWait k i w).queues = s.queues := rfl
@[simp] theorem State.enterWait_sess (k i : Nat) (w : WaitKind) : (s.enterWait k i w).sess = s.sess := rfl
@[simp] theorem State.enterWait_ports (k i : Nat) (w : WaitKind) : (s.enterWait k i w).ports = s.ports := rfl
@[simp] theorem State.enterWait_boot (k i : Nat) (w : WaitKind) : (s.enterWait k i w).boot = s.boot := rfl
@[simp] theorem State.enterWait_fuses (k i : Nat) (w : WaitKind) : (s.enterWait k i w).fuses = s.fuses := rfl
@[simp] theorem State.enterWait_flash (k i : Nat) (w : WaitKind) : (s.enterWait k i w).flash = s.flash := rfl
@[simp] theorem State.enterWait_husk (k i : Nat) (w : WaitKind) : (s.enterWait k i w).husk = s.husk := rfl
@[simp] theorem State.enterWait_fabric (k i : Nat) (w : WaitKind) : (s.enterWait k i w).fabric = s.fabric := rfl
@[simp] theorem State.enterWait_health (k i : Nat) (w : WaitKind) : (s.enterWait k i w).health = s.health := rfl
@[simp] theorem State.enterWait_frames (k i : Nat) (w : WaitKind) : (s.enterWait k i w).frames = s.frames := rfl
@[simp] theorem State.enterWait_mgmt (k i : Nat) (w : WaitKind) : (s.enterWait k i w).mgmt = s.mgmt := rfl
@[simp] theorem State.enterWait_aliasMap (k i : Nat) (w : WaitKind) : (s.enterWait k i w).aliasMap = s.aliasMap := rfl
@[simp] theorem State.enterWait_spares (k i : Nat) (w : WaitKind) : (s.enterWait k i w).spares = s.spares := rfl
@[simp] theorem State.enterWait_events (k i : Nat) (w : WaitKind) : (s.enterWait k i w).events = s.events := rfl
@[simp] theorem State.enterWait_remoteMem (k i : Nat) (w : WaitKind) : (s.enterWait k i w).remoteMem = s.remoteMem := rfl
@[simp] theorem State.enterWait_hostMem (k i : Nat) (w : WaitKind) : (s.enterWait k i w).hostMem = s.hostMem := rfl
@[simp] theorem State.enterWait_out (k i : Nat) (w : WaitKind) : (s.enterWait k i w).out = s.out := rfl
@[simp] theorem State.enterWait_freeCtr (k i : Nat) (w : WaitKind) : (s.enterWait k i w).freeCtr = s.freeCtr := rfl

/-! ### `State.launch` -/

@[simp] theorem State.launch_pending (k c : Nat) (u : UnitId) (cls : Nat) (objs : List Nat) (rs : List Result) (j : Job) : (s.launch k c u cls objs rs j).pending = s.pending := rfl
@[simp] theorem State.launch_time (k c : Nat) (u : UnitId) (cls : Nat) (objs : List Nat) (rs : List Result) (j : Job) : (s.launch k c u cls objs rs j).time = s.time := rfl
@[simp] theorem State.launch_groups (k c : Nat) (u : UnitId) (cls : Nat) (objs : List Nat) (rs : List Result) (j : Job) : (s.launch k c u cls objs rs j).groups = s.groups := rfl
@[simp] theorem State.launch_objs (k c : Nat) (u : UnitId) (cls : Nat) (objs : List Nat) (rs : List Result) (j : Job) : (s.launch k c u cls objs rs j).objs = s.objs := rfl
@[simp] theorem State.launch_waiters (k c : Nat) (u : UnitId) (cls : Nat) (objs : List Nat) (rs : List Result) (j : Job) : (s.launch k c u cls objs rs j).waiters = s.waiters := rfl
@[simp] theorem State.launch_parts (k c : Nat) (u : UnitId) (cls : Nat) (objs : List Nat) (rs : List Result) (j : Job) : (s.launch k c u cls objs rs j).parts = s.parts := rfl
@[simp] theorem State.launch_reqs (k c : Nat) (u : UnitId) (cls : Nat) (objs : List Nat) (rs : List Result) (j : Job) : (s.launch k c u cls objs rs j).reqs = s.reqs := rfl
@[simp] theorem State.launch_reqSeq (k c : Nat) (u : UnitId) (cls : Nat) (objs : List Nat) (rs : List Result) (j : Job) : (s.launch k c u cls objs rs j).reqSeq = s.reqSeq := rfl
@[simp] theorem State.launch_queues (k c : Nat) (u : UnitId) (cls : Nat) (objs : List Nat) (rs : List Result) (j : Job) : (s.launch k c u cls objs rs j).queues = s.queues := rfl
@[simp] theorem State.launch_sess (k c : Nat) (u : UnitId) (cls : Nat) (objs : List Nat) (rs : List Result) (j : Job) : (s.launch k c u cls objs rs j).sess = s.sess := rfl
@[simp] theorem State.launch_ports (k c : Nat) (u : UnitId) (cls : Nat) (objs : List Nat) (rs : List Result) (j : Job) : (s.launch k c u cls objs rs j).ports = s.ports := rfl
@[simp] theorem State.launch_boot (k c : Nat) (u : UnitId) (cls : Nat) (objs : List Nat) (rs : List Result) (j : Job) : (s.launch k c u cls objs rs j).boot = s.boot := rfl
@[simp] theorem State.launch_fuses (k c : Nat) (u : UnitId) (cls : Nat) (objs : List Nat) (rs : List Result) (j : Job) : (s.launch k c u cls objs rs j).fuses = s.fuses := rfl
@[simp] theorem State.launch_flash (k c : Nat) (u : UnitId) (cls : Nat) (objs : List Nat) (rs : List Result) (j : Job) : (s.launch k c u cls objs rs j).flash = s.flash := rfl
@[simp] theorem State.launch_husk (k c : Nat) (u : UnitId) (cls : Nat) (objs : List Nat) (rs : List Result) (j : Job) : (s.launch k c u cls objs rs j).husk = s.husk := rfl
@[simp] theorem State.launch_fabric (k c : Nat) (u : UnitId) (cls : Nat) (objs : List Nat) (rs : List Result) (j : Job) : (s.launch k c u cls objs rs j).fabric = s.fabric := rfl
@[simp] theorem State.launch_health (k c : Nat) (u : UnitId) (cls : Nat) (objs : List Nat) (rs : List Result) (j : Job) : (s.launch k c u cls objs rs j).health = s.health := rfl
@[simp] theorem State.launch_frames (k c : Nat) (u : UnitId) (cls : Nat) (objs : List Nat) (rs : List Result) (j : Job) : (s.launch k c u cls objs rs j).frames = s.frames := rfl
@[simp] theorem State.launch_mgmt (k c : Nat) (u : UnitId) (cls : Nat) (objs : List Nat) (rs : List Result) (j : Job) : (s.launch k c u cls objs rs j).mgmt = s.mgmt := rfl
@[simp] theorem State.launch_aliasMap (k c : Nat) (u : UnitId) (cls : Nat) (objs : List Nat) (rs : List Result) (j : Job) : (s.launch k c u cls objs rs j).aliasMap = s.aliasMap := rfl
@[simp] theorem State.launch_spares (k c : Nat) (u : UnitId) (cls : Nat) (objs : List Nat) (rs : List Result) (j : Job) : (s.launch k c u cls objs rs j).spares = s.spares := rfl
@[simp] theorem State.launch_events (k c : Nat) (u : UnitId) (cls : Nat) (objs : List Nat) (rs : List Result) (j : Job) : (s.launch k c u cls objs rs j).events = s.events := rfl
@[simp] theorem State.launch_remoteMem (k c : Nat) (u : UnitId) (cls : Nat) (objs : List Nat) (rs : List Result) (j : Job) : (s.launch k c u cls objs rs j).remoteMem = s.remoteMem := rfl
@[simp] theorem State.launch_hostMem (k c : Nat) (u : UnitId) (cls : Nat) (objs : List Nat) (rs : List Result) (j : Job) : (s.launch k c u cls objs rs j).hostMem = s.hostMem := rfl
@[simp] theorem State.launch_out (k c : Nat) (u : UnitId) (cls : Nat) (objs : List Nat) (rs : List Result) (j : Job) : (s.launch k c u cls objs rs j).out = s.out := rfl
@[simp] theorem State.launch_freeCtr (k c : Nat) (u : UnitId) (cls : Nat) (objs : List Nat) (rs : List Result) (j : Job) : (s.launch k c u cls objs rs j).freeCtr = s.freeCtr := rfl

/-! ### `State.faultLast` -/

@[simp] theorem State.faultLast_pending (k : Nat) : (s.faultLast k).pending = s.pending := rfl
@[simp] theorem State.faultLast_time (k : Nat) : (s.faultLast k).time = s.time := rfl
@[simp] theorem State.faultLast_groups (k : Nat) : (s.faultLast k).groups = s.groups := rfl
@[simp] theorem State.faultLast_objs (k : Nat) : (s.faultLast k).objs = s.objs := rfl
@[simp] theorem State.faultLast_waiters (k : Nat) : (s.faultLast k).waiters = s.waiters := rfl
@[simp] theorem State.faultLast_parts (k : Nat) : (s.faultLast k).parts = s.parts := rfl
@[simp] theorem State.faultLast_reqs (k : Nat) : (s.faultLast k).reqs = s.reqs := rfl
@[simp] theorem State.faultLast_reqSeq (k : Nat) : (s.faultLast k).reqSeq = s.reqSeq := rfl
@[simp] theorem State.faultLast_queues (k : Nat) : (s.faultLast k).queues = s.queues := rfl
@[simp] theorem State.faultLast_sess (k : Nat) : (s.faultLast k).sess = s.sess := rfl
@[simp] theorem State.faultLast_ports (k : Nat) : (s.faultLast k).ports = s.ports := rfl
@[simp] theorem State.faultLast_boot (k : Nat) : (s.faultLast k).boot = s.boot := rfl
@[simp] theorem State.faultLast_fuses (k : Nat) : (s.faultLast k).fuses = s.fuses := rfl
@[simp] theorem State.faultLast_flash (k : Nat) : (s.faultLast k).flash = s.flash := rfl
@[simp] theorem State.faultLast_husk (k : Nat) : (s.faultLast k).husk = s.husk := rfl
@[simp] theorem State.faultLast_fabric (k : Nat) : (s.faultLast k).fabric = s.fabric := rfl
@[simp] theorem State.faultLast_health (k : Nat) : (s.faultLast k).health = s.health := rfl
@[simp] theorem State.faultLast_frames (k : Nat) : (s.faultLast k).frames = s.frames := rfl
@[simp] theorem State.faultLast_mgmt (k : Nat) : (s.faultLast k).mgmt = s.mgmt := rfl
@[simp] theorem State.faultLast_aliasMap (k : Nat) : (s.faultLast k).aliasMap = s.aliasMap := rfl
@[simp] theorem State.faultLast_spares (k : Nat) : (s.faultLast k).spares = s.spares := rfl
@[simp] theorem State.faultLast_events (k : Nat) : (s.faultLast k).events = s.events := rfl
@[simp] theorem State.faultLast_remoteMem (k : Nat) : (s.faultLast k).remoteMem = s.remoteMem := rfl
@[simp] theorem State.faultLast_hostMem (k : Nat) : (s.faultLast k).hostMem = s.hostMem := rfl
@[simp] theorem State.faultLast_out (k : Nat) : (s.faultLast k).out = s.out := rfl
@[simp] theorem State.faultLast_freeCtr (k : Nat) : (s.faultLast k).freeCtr = s.freeCtr := rfl

/-! ### Reading back -/

@[simp] theorem State.core_setCore_self (k : Nat) (c : Core) : (s.setCore k c).core k = c := sget_sput_self ..
theorem State.core_setCore (k j : Nat) (c : Core) : (s.setCore k c).core j = if j = k then c else s.core j := sget_sput ..
@[simp] theorem Core.ctx_setCtx_self (c : Core) (i : Nat) (x : Ctx) : (c.setCtx i x).ctx i = x := sget_sput_self ..
theorem Core.ctx_setCtx (c : Core) (i j : Nat) (x : Ctx) : (c.setCtx i x).ctx j = if j = i then x else c.ctx j := sget_sput ..
@[simp] theorem State.ctx_setCtx_self (k i : Nat) (x : Ctx) : (s.setCtx k i x).ctx k i = x := by simp [State.setCtx, State.ctx]
theorem State.core_setCtx (k i j : Nat) (x : Ctx) : (s.setCtx k i x).core j = if j = k then (s.core k).setCtx i x else s.core j :=
  State.core_setCore ..
@[simp] theorem State.part_setPart_self (p : Nat) (b : PartBlock) : (s.setPart p b).part p = b := sget_sput_self ..
theorem State.part_setPart (p j : Nat) (b : PartBlock) : (s.setPart p b).part j = if j = p then b else s.part j := sget_sput ..
@[simp] theorem State.port_setPort_self (n : Nat) (b : Port) : (s.setPort n b).port n = b := sget_sput_self ..
theorem State.port_setPort (n j : Nat) (b : Port) : (s.setPort n b).port j = if j = n then b else s.port j := sget_sput ..
@[simp] theorem State.sessOf_setSess_self (n : Nat) (e : Sess) : (s.setSess n e).sessOf n = e := sget_sput_self ..
theorem State.sessOf_setSess (n j : Nat) (e : Sess) : (s.setSess n e).sessOf j = if j = n then e else s.sessOf j := sget_sput ..
@[simp] theorem State.hostMemOf_setHostMem_self (n : Nat) (m : Sparse Byte) : (s.setHostMem n m).hostMemOf n = m := sget_sput_self ..
theorem State.hostMemOf_setHostMem (n j : Nat) (m : Sparse Byte) :
    (s.setHostMem n m).hostMemOf j = if j = n then m else s.hostMemOf j := sget_sput ..
@[simp] theorem State.mem_setMem_self (p : Nat) (m : Mem) : (s.setMem p m).mem p = m := by simp [State.setMem, State.mem]
@[simp] theorem State.obj_setObj_self (n : Nat) (v : W32) : (s.setObj n v).obj n = v := sget_sput_self ..
theorem State.obj_setObj (n j : Nat) (v : W32) : (s.setObj n v).obj j = if j = n then v else s.obj j := sget_sput ..
@[simp] theorem State.obj_signal_self (n : Nat) (a : W32) : (s.signal n a).obj n = s.obj n + a := sget_sput_self ..
theorem State.obj_signal (n j : Nat) (a : W32) : (s.signal n a).obj j = if j = n then s.obj n + a else s.obj j := sget_sput ..
@[simp] theorem State.emit_out (o : Out) : (s.emit o).out = o :: s.out := rfl

/-! ### Registers of a context (R274) -/

theorem Ctx.readS_writeS (x : Ctx) (d r : Nat) (v : W64) :
    (x.writeS d v).readS r = if r = 0 then 0 else if r = d then v else x.readS r := by
  unfold Ctx.writeS Ctx.readS
  by_cases hr : r = 0
  · simp [hr]
  · by_cases hd : d = 0
    · have : r ≠ d := by omega
      simp [hd, hr]
    · simp [hr, hd, sget_sput]

theorem Ctx.readP_writeP (x : Ctx) (d r : Nat) (v : Bool) :
    (x.writeP d v).readP r = if r = 0 then true else if r = d then v else x.readP r := by
  unfold Ctx.writeP Ctx.readP
  by_cases hr : r = 0
  · simp [hr]
  · by_cases hd : d = 0
    · have : r ≠ d := by omega
      simp [hd, hr]
    · simp [hr, hd, sget_sput]

theorem Ctx.readT_writeT (x : Ctx) (d r : Nat) (v : BitVec 512) : (x.writeT d v).readT r = if r = d then v else x.readT r := sget_sput ..

/-! ### Every memory of the state after reset -/

theorem State.reset_memoryWf : State.reset.memoryWf = true := by decide

end Sys2Proof.Machine
end

