-- ==== Sys2Proof/Laws/Blocks.lean ====
section
/-! SUPPORT. Reading a field of the state after each named update of the module's blocks (the ports' vectors, the key slots, health, the fabric and its
tables), and what reading back the written entry gives. -/

namespace Sys2Proof.Machine

variable (s : State)

/-! ### `State.interrupt` -/

/-- A vector raised changes its port and what leaves the module. -/
theorem State.interrupt_frame (n v : Nat) : s.interrupt n v = { s with ports := (s.interrupt n v).ports, out := (s.interrupt n v).out } := by
  unfold State.interrupt
  dsimp only
  split
  · rfl
  · split <;> rfl

@[simp] theorem State.interrupt_pending (n v : Nat) : (s.interrupt n v).pending = s.pending := by rw [State.interrupt_frame]
@[simp] theorem State.interrupt_time (n v : Nat) : (s.interrupt n v).time = s.time := by rw [State.interrupt_frame]
@[simp] theorem State.interrupt_cores (n v : Nat) : (s.interrupt n v).cores = s.cores := by rw [State.interrupt_frame]
@[simp] theorem State.interrupt_groups (n v : Nat) : (s.interrupt n v).groups = s.groups := by rw [State.interrupt_frame]
@[simp] theorem State.interrupt_objs (n v : Nat) : (s.interrupt n v).objs = s.objs := by rw [State.interrupt_frame]
@[simp] theorem State.interrupt_waiters (n v : Nat) : (s.interrupt n v).waiters = s.waiters := by rw [State.interrupt_frame]
@[simp] theorem State.interrupt_parts (n v : Nat) : (s.interrupt n v).parts = s.parts := by rw [State.interrupt_frame]
@[simp] theorem State.interrupt_reqs (n v : Nat) : (s.interrupt n v).reqs = s.reqs := by rw [State.interrupt_frame]
@[simp] theorem State.interrupt_reqSeq (n v : Nat) : (s.interrupt n v).reqSeq = s.reqSeq := by rw [State.interrupt_frame]
@[simp] theorem State.interrupt_queues (n v : Nat) : (s.interrupt n v).queues = s.queues := by rw [State.interrupt_frame]
@[simp] theorem State.interrupt_sess (n v : Nat) : (s.interrupt n v).sess = s.sess := by rw [State.interrupt_frame]
@[simp] theorem State.interrupt_boot (n v : Nat) : (s.interrupt n v).boot = s.boot := by rw [State.interrupt_frame]
@[simp] theorem State.interrupt_fuses (n v : Nat) : (s.interrupt n v).fuses = s.fuses := by rw [State.interrupt_frame]
@[simp] theorem State.interrupt_flash (n v : Nat) : (s.interrupt n v).flash = s.flash := by rw [State.interrupt_frame]
@[simp] theorem State.interrupt_husk (n v : Nat) : (s.interrupt n v).husk = s.husk := by rw [State.interrupt_frame]
@[simp] theorem State.interrupt_fabric (n v : Nat) : (s.interrupt n v).fabric = s.fabric := by rw [State.interrupt_frame]
@[simp] theorem State.interrupt_health (n v : Nat) : (s.interrupt n v).health = s.health := by rw [State.interrupt_frame]
@[simp] theorem State.interrupt_frames (n v : Nat) : (s.interrupt n v).frames = s.frames := by rw [State.interrupt_frame]
@[simp] theorem State.interrupt_mgmt (n v : Nat) : (s.interrupt n v).mgmt = s.mgmt := by rw [State.interrupt_frame]
@[simp] theorem State.interrupt_aliasMap (n v : Nat) : (s.interrupt n v).aliasMap = s.aliasMap := by rw [State.interrupt_frame]
@[simp] theorem State.interrupt_spares (n v : Nat) : (s.interrupt n v).spares = s.spares := by rw [State.interrupt_frame]
@[simp] theorem State.interrupt_events (n v : Nat) : (s.interrupt n v).events = s.events := by rw [State.interrupt_frame]
@[simp] theorem State.interrupt_remoteMem (n v : Nat) : (s.interrupt n v).remoteMem = s.remoteMem := by rw [State.interrupt_frame]
@[simp] theorem State.interrupt_hostMem (n v : Nat) : (s.interrupt n v).hostMem = s.hostMem := by rw [State.interrupt_frame]
@[simp] theorem State.interrupt_freeCtr (n v : Nat) : (s.interrupt n v).freeCtr = s.freeCtr := by rw [State.interrupt_frame]

/-! ### `State.setRemote` -/

@[simp] theorem State.setRemote_pending (m : Nat) (b : Sparse Byte) : (s.setRemote m b).pending = s.pending := rfl
@[simp] theorem State.setRemote_time (m : Nat) (b : Sparse Byte) : (s.setRemote m b).time = s.time := rfl
@[simp] theorem State.setRemote_cores (m : Nat) (b : Sparse Byte) : (s.setRemote m b).cores = s.cores := rfl
@[simp] theorem State.setRemote_groups (m : Nat) (b : Sparse Byte) : (s.setRemote m b).groups = s.groups := rfl
@[simp] theorem State.setRemote_objs (m : Nat) (b : Sparse Byte) : (s.setRemote m b).objs = s.objs := rfl
@[simp] theorem State.setRemote_waiters (m : Nat) (b : Sparse Byte) : (s.setRemote m b).waiters = s.waiters := rfl
@[simp] theorem State.setRemote_parts (m : Nat) (b : Sparse Byte) : (s.setRemote m b).parts = s.parts := rfl
@[simp] theorem State.setRemote_reqs (m : Nat) (b : Sparse Byte) : (s.setRemote m b).reqs = s.reqs := rfl
@[simp] theorem State.setRemote_reqSeq (m : Nat) (b : Sparse Byte) : (s.setRemote m b).reqSeq = s.reqSeq := rfl
@[simp] theorem State.setRemote_queues (m : Nat) (b : Sparse Byte) : (s.setRemote m b).queues = s.queues := rfl
@[simp] theorem State.setRemote_sess (m : Nat) (b : Sparse Byte) : (s.setRemote m b).sess = s.sess := rfl
@[simp] theorem State.setRemote_ports (m : Nat) (b : Sparse Byte) : (s.setRemote m b).ports = s.ports := rfl
@[simp] theorem State.setRemote_boot (m : Nat) (b : Sparse Byte) : (s.setRemote m b).boot = s.boot := rfl
@[simp] theorem State.setRemote_fuses (m : Nat) (b : Sparse Byte) : (s.setRemote m b).fuses = s.fuses := rfl
@[simp] theorem State.setRemote_flash (m : Nat) (b : Sparse Byte) : (s.setRemote m b).flash = s.flash := rfl
@[simp] theorem State.setRemote_husk (m : Nat) (b : Sparse Byte) : (s.setRemote m b).husk = s.husk := rfl
@[simp] theorem State.setRemote_fabric (m : Nat) (b : Sparse Byte) : (s.setRemote m b).fabric = s.fabric := rfl
@[simp] theorem State.setRemote_health (m : Nat) (b : Sparse Byte) : (s.setRemote m b).health = s.health := rfl
@[simp] theorem State.setRemote_frames (m : Nat) (b : Sparse Byte) : (s.setRemote m b).frames = s.frames := rfl
@[simp] theorem State.setRemote_mgmt (m : Nat) (b : Sparse Byte) : (s.setRemote m b).mgmt = s.mgmt := rfl
@[simp] theorem State.setRemote_aliasMap (m : Nat) (b : Sparse Byte) : (s.setRemote m b).aliasMap = s.aliasMap := rfl
@[simp] theorem State.setRemote_spares (m : Nat) (b : Sparse Byte) : (s.setRemote m b).spares = s.spares := rfl
@[simp] theorem State.setRemote_events (m : Nat) (b : Sparse Byte) : (s.setRemote m b).events = s.events := rfl
@[simp] theorem State.setRemote_hostMem (m : Nat) (b : Sparse Byte) : (s.setRemote m b).hostMem = s.hostMem := rfl
@[simp] theorem State.setRemote_out (m : Nat) (b : Sparse Byte) : (s.setRemote m b).out = s.out := rfl
@[simp] theorem State.setRemote_freeCtr (m : Nat) (b : Sparse Byte) : (s.setRemote m b).freeCtr = s.freeCtr := rfl

/-! ### `State.setSlot` -/

@[simp] theorem State.setSlot_pending (n : Nat) (k : KeySlot) : (s.setSlot n k).pending = s.pending := rfl
@[simp] theorem State.setSlot_time (n : Nat) (k : KeySlot) : (s.setSlot n k).time = s.time := rfl
@[simp] theorem State.setSlot_cores (n : Nat) (k : KeySlot) : (s.setSlot n k).cores = s.cores := rfl
@[simp] theorem State.setSlot_groups (n : Nat) (k : KeySlot) : (s.setSlot n k).groups = s.groups := rfl
@[simp] theorem State.setSlot_objs (n : Nat) (k : KeySlot) : (s.setSlot n k).objs = s.objs := rfl
@[simp] theorem State.setSlot_waiters (n : Nat) (k : KeySlot) : (s.setSlot n k).waiters = s.waiters := rfl
@[simp] theorem State.setSlot_parts (n : Nat) (k : KeySlot) : (s.setSlot n k).parts = s.parts := rfl
@[simp] theorem State.setSlot_reqs (n : Nat) (k : KeySlot) : (s.setSlot n k).reqs = s.reqs := rfl
@[simp] theorem State.setSlot_reqSeq (n : Nat) (k : KeySlot) : (s.setSlot n k).reqSeq = s.reqSeq := rfl
@[simp] theorem State.setSlot_queues (n : Nat) (k : KeySlot) : (s.setSlot n k).queues = s.queues := rfl
@[simp] theorem State.setSlot_sess (n : Nat) (k : KeySlot) : (s.setSlot n k).sess = s.sess := rfl
@[simp] theorem State.setSlot_ports (n : Nat) (k : KeySlot) : (s.setSlot n k).ports = s.ports := rfl
@[simp] theorem State.setSlot_boot (n : Nat) (k : KeySlot) : (s.setSlot n k).boot = s.boot := rfl
@[simp] theorem State.setSlot_fuses (n : Nat) (k : KeySlot) : (s.setSlot n k).fuses = s.fuses := rfl
@[simp] theorem State.setSlot_husk (n : Nat) (k : KeySlot) : (s.setSlot n k).husk = s.husk := rfl
@[simp] theorem State.setSlot_fabric (n : Nat) (k : KeySlot) : (s.setSlot n k).fabric = s.fabric := rfl
@[simp] theorem State.setSlot_health (n : Nat) (k : KeySlot) : (s.setSlot n k).health = s.health := rfl
@[simp] theorem State.setSlot_frames (n : Nat) (k : KeySlot) : (s.setSlot n k).frames = s.frames := rfl
@[simp] theorem State.setSlot_mgmt (n : Nat) (k : KeySlot) : (s.setSlot n k).mgmt = s.mgmt := rfl
@[simp] theorem State.setSlot_aliasMap (n : Nat) (k : KeySlot) : (s.setSlot n k).aliasMap = s.aliasMap := rfl
@[simp] theorem State.setSlot_spares (n : Nat) (k : KeySlot) : (s.setSlot n k).spares = s.spares := rfl
@[simp] theorem State.setSlot_events (n : Nat) (k : KeySlot) : (s.setSlot n k).events = s.events := rfl
@[simp] theorem State.setSlot_remoteMem (n : Nat) (k : KeySlot) : (s.setSlot n k).remoteMem = s.remoteMem := rfl
@[simp] theorem State.setSlot_hostMem (n : Nat) (k : KeySlot) : (s.setSlot n k).hostMem = s.hostMem := rfl
@[simp] theorem State.setSlot_out (n : Nat) (k : KeySlot) : (s.setSlot n k).out = s.out := rfl
@[simp] theorem State.setSlot_freeCtr (n : Nat) (k : KeySlot) : (s.setSlot n k).freeCtr = s.freeCtr := rfl

/-! ### `State.fabCount` -/

@[simp] theorem State.fabCount_pending (off k : Nat) : (s.fabCount off k).pending = s.pending := rfl
@[simp] theorem State.fabCount_time (off k : Nat) : (s.fabCount off k).time = s.time := rfl
@[simp] theorem State.fabCount_cores (off k : Nat) : (s.fabCount off k).cores = s.cores := rfl
@[simp] theorem State.fabCount_groups (off k : Nat) : (s.fabCount off k).groups = s.groups := rfl
@[simp] theorem State.fabCount_objs (off k : Nat) : (s.fabCount off k).objs = s.objs := rfl
@[simp] theorem State.fabCount_waiters (off k : Nat) : (s.fabCount off k).waiters = s.waiters := rfl
@[simp] theorem State.fabCount_parts (off k : Nat) : (s.fabCount off k).parts = s.parts := rfl
@[simp] theorem State.fabCount_reqs (off k : Nat) : (s.fabCount off k).reqs = s.reqs := rfl
@[simp] theorem State.fabCount_reqSeq (off k : Nat) : (s.fabCount off k).reqSeq = s.reqSeq := rfl
@[simp] theorem State.fabCount_queues (off k : Nat) : (s.fabCount off k).queues = s.queues := rfl
@[simp] theorem State.fabCount_sess (off k : Nat) : (s.fabCount off k).sess = s.sess := rfl
@[simp] theorem State.fabCount_ports (off k : Nat) : (s.fabCount off k).ports = s.ports := rfl
@[simp] theorem State.fabCount_boot (off k : Nat) : (s.fabCount off k).boot = s.boot := rfl
@[simp] theorem State.fabCount_fuses (off k : Nat) : (s.fabCount off k).fuses = s.fuses := rfl
@[simp] theorem State.fabCount_flash (off k : Nat) : (s.fabCount off k).flash = s.flash := rfl
@[simp] theorem State.fabCount_husk (off k : Nat) : (s.fabCount off k).husk = s.husk := rfl
@[simp] theorem State.fabCount_health (off k : Nat) : (s.fabCount off k).health = s.health := rfl
@[simp] theorem State.fabCount_frames (off k : Nat) : (s.fabCount off k).frames = s.frames := rfl
@[simp] theorem State.fabCount_mgmt (off k : Nat) : (s.fabCount off k).mgmt = s.mgmt := rfl
@[simp] theorem State.fabCount_aliasMap (off k : Nat) : (s.fabCount off k).aliasMap = s.aliasMap := rfl
@[simp] theorem State.fabCount_spares (off k : Nat) : (s.fabCount off k).spares = s.spares := rfl
@[simp] theorem State.fabCount_events (off k : Nat) : (s.fabCount off k).events = s.events := rfl
@[simp] theorem State.fabCount_remoteMem (off k : Nat) : (s.fabCount off k).remoteMem = s.remoteMem := rfl
@[simp] theorem State.fabCount_hostMem (off k : Nat) : (s.fabCount off k).hostMem = s.hostMem := rfl
@[simp] theorem State.fabCount_out (off k : Nat) : (s.fabCount off k).out = s.out := rfl
@[simp] theorem State.fabCount_freeCtr (off k : Nat) : (s.fabCount off k).freeCtr = s.freeCtr := rfl

/-! ### `State.setWin` -/

@[simp] theorem State.setWin_pending (w : Nat) (x : Window) : (s.setWin w x).pending = s.pending := rfl
@[simp] theorem State.setWin_time (w : Nat) (x : Window) : (s.setWin w x).time = s.time := rfl
@[simp] theorem State.setWin_cores (w : Nat) (x : Window) : (s.setWin w x).cores = s.cores := rfl
@[simp] theorem State.setWin_groups (w : Nat) (x : Window) : (s.setWin w x).groups = s.groups := rfl
@[simp] theorem State.setWin_objs (w : Nat) (x : Window) : (s.setWin w x).objs = s.objs := rfl
@[simp] theorem State.setWin_waiters (w : Nat) (x : Window) : (s.setWin w x).waiters = s.waiters := rfl
@[simp] theorem State.setWin_parts (w : Nat) (x : Window) : (s.setWin w x).parts = s.parts := rfl
@[simp] theorem State.setWin_reqs (w : Nat) (x : Window) : (s.setWin w x).reqs = s.reqs := rfl
@[simp] theorem State.setWin_reqSeq (w : Nat) (x : Window) : (s.setWin w x).reqSeq = s.reqSeq := rfl
@[simp] theorem State.setWin_queues (w : Nat) (x : Window) : (s.setWin w x).queues = s.queues := rfl
@[simp] theorem State.setWin_sess (w : Nat) (x : Window) : (s.setWin w x).sess = s.sess := rfl
@[simp] theorem State.setWin_ports (w : Nat) (x : Window) : (s.setWin w x).ports = s.ports := rfl
@[simp] theorem State.setWin_boot (w : Nat) (x : Window) : (s.setWin w x).boot = s.boot := rfl
@[simp] theorem State.setWin_fuses (w : Nat) (x : Window) : (s.setWin w x).fuses = s.fuses := rfl
@[simp] theorem State.setWin_flash (w : Nat) (x : Window) : (s.setWin w x).flash = s.flash := rfl
@[simp] theorem State.setWin_husk (w : Nat) (x : Window) : (s.setWin w x).husk = s.husk := rfl
@[simp] theorem State.setWin_health (w : Nat) (x : Window) : (s.setWin w x).health = s.health := rfl
@[simp] theorem State.setWin_frames (w : Nat) (x : Window) : (s.setWin w x).frames = s.frames := rfl
@[simp] theorem State.setWin_mgmt (w : Nat) (x : Window) : (s.setWin w x).mgmt = s.mgmt := rfl
@[simp] theorem State.setWin_aliasMap (w : Nat) (x : Window) : (s.setWin w x).aliasMap = s.aliasMap := rfl
@[simp] theorem State.setWin_spares (w : Nat) (x : Window) : (s.setWin w x).spares = s.spares := rfl
@[simp] theorem State.setWin_events (w : Nat) (x : Window) : (s.setWin w x).events = s.events := rfl
@[simp] theorem State.setWin_remoteMem (w : Nat) (x : Window) : (s.setWin w x).remoteMem = s.remoteMem := rfl
@[simp] theorem State.setWin_hostMem (w : Nat) (x : Window) : (s.setWin w x).hostMem = s.hostMem := rfl
@[simp] theorem State.setWin_out (w : Nat) (x : Window) : (s.setWin w x).out = s.out := rfl
@[simp] theorem State.setWin_freeCtr (w : Nat) (x : Window) : (s.setWin w x).freeCtr = s.freeCtr := rfl

/-! ### `State.setImport` -/

@[simp] theorem State.setImport_pending (n : Nat) (e : RemoteWin) : (s.setImport n e).pending = s.pending := rfl
@[simp] theorem State.setImport_time (n : Nat) (e : RemoteWin) : (s.setImport n e).time = s.time := rfl
@[simp] theorem State.setImport_cores (n : Nat) (e : RemoteWin) : (s.setImport n e).cores = s.cores := rfl
@[simp] theorem State.setImport_groups (n : Nat) (e : RemoteWin) : (s.setImport n e).groups = s.groups := rfl
@[simp] theorem State.setImport_objs (n : Nat) (e : RemoteWin) : (s.setImport n e).objs = s.objs := rfl
@[simp] theorem State.setImport_waiters (n : Nat) (e : RemoteWin) : (s.setImport n e).waiters = s.waiters := rfl
@[simp] theorem State.setImport_parts (n : Nat) (e : RemoteWin) : (s.setImport n e).parts = s.parts := rfl
@[simp] theorem State.setImport_reqs (n : Nat) (e : RemoteWin) : (s.setImport n e).reqs = s.reqs := rfl
@[simp] theorem State.setImport_reqSeq (n : Nat) (e : RemoteWin) : (s.setImport n e).reqSeq = s.reqSeq := rfl
@[simp] theorem State.setImport_queues (n : Nat) (e : RemoteWin) : (s.setImport n e).queues = s.queues := rfl
@[simp] theorem State.setImport_sess (n : Nat) (e : RemoteWin) : (s.setImport n e).sess = s.sess := rfl
@[simp] theorem State.setImport_ports (n : Nat) (e : RemoteWin) : (s.setImport n e).ports = s.ports := rfl
@[simp] theorem State.setImport_boot (n : Nat) (e : RemoteWin) : (s.setImport n e).boot = s.boot := rfl
@[simp] theorem State.setImport_fuses (n : Nat) (e : RemoteWin) : (s.setImport n e).fuses = s.fuses := rfl
@[simp] theorem State.setImport_flash (n : Nat) (e : RemoteWin) : (s.setImport n e).flash = s.flash := rfl
@[simp] theorem State.setImport_husk (n : Nat) (e : RemoteWin) : (s.setImport n e).husk = s.husk := rfl
@[simp] theorem State.setImport_health (n : Nat) (e : RemoteWin) : (s.setImport n e).health = s.health := rfl
@[simp] theorem State.setImport_frames (n : Nat) (e : RemoteWin) : (s.setImport n e).frames = s.frames := rfl
@[simp] theorem State.setImport_mgmt (n : Nat) (e : RemoteWin) : (s.setImport n e).mgmt = s.mgmt := rfl
@[simp] theorem State.setImport_aliasMap (n : Nat) (e : RemoteWin) : (s.setImport n e).aliasMap = s.aliasMap := rfl
@[simp] theorem State.setImport_spares (n : Nat) (e : RemoteWin) : (s.setImport n e).spares = s.spares := rfl
@[simp] theorem State.setImport_events (n : Nat) (e : RemoteWin) : (s.setImport n e).events = s.events := rfl
@[simp] theorem State.setImport_remoteMem (n : Nat) (e : RemoteWin) : (s.setImport n e).remoteMem = s.remoteMem := rfl
@[simp] theorem State.setImport_hostMem (n : Nat) (e : RemoteWin) : (s.setImport n e).hostMem = s.hostMem := rfl
@[simp] theorem State.setImport_out (n : Nat) (e : RemoteWin) : (s.setImport n e).out = s.out := rfl
@[simp] theorem State.setImport_freeCtr (n : Nat) (e : RemoteWin) : (s.setImport n e).freeCtr = s.freeCtr := rfl

/-! ### `State.setTrans` -/

@[simp] theorem State.setTrans_pending (tag : Nat) (t : Trans) : (s.setTrans tag t).pending = s.pending := rfl
@[simp] theorem State.setTrans_time (tag : Nat) (t : Trans) : (s.setTrans tag t).time = s.time := rfl
@[simp] theorem State.setTrans_cores (tag : Nat) (t : Trans) : (s.setTrans tag t).cores = s.cores := rfl
@[simp] theorem State.setTrans_groups (tag : Nat) (t : Trans) : (s.setTrans tag t).groups = s.groups := rfl
@[simp] theorem State.setTrans_objs (tag : Nat) (t : Trans) : (s.setTrans tag t).objs = s.objs := rfl
@[simp] theorem State.setTrans_waiters (tag : Nat) (t : Trans) : (s.setTrans tag t).waiters = s.waiters := rfl
@[simp] theorem State.setTrans_parts (tag : Nat) (t : Trans) : (s.setTrans tag t).parts = s.parts := rfl
@[simp] theorem State.setTrans_reqs (tag : Nat) (t : Trans) : (s.setTrans tag t).reqs = s.reqs := rfl
@[simp] theorem State.setTrans_reqSeq (tag : Nat) (t : Trans) : (s.setTrans tag t).reqSeq = s.reqSeq := rfl
@[simp] theorem State.setTrans_queues (tag : Nat) (t : Trans) : (s.setTrans tag t).queues = s.queues := rfl
@[simp] theorem State.setTrans_sess (tag : Nat) (t : Trans) : (s.setTrans tag t).sess = s.sess := rfl
@[simp] theorem State.setTrans_ports (tag : Nat) (t : Trans) : (s.setTrans tag t).ports = s.ports := rfl
@[simp] theorem State.setTrans_boot (tag : Nat) (t : Trans) : (s.setTrans tag t).boot = s.boot := rfl
@[simp] theorem State.setTrans_fuses (tag : Nat) (t : Trans) : (s.setTrans tag t).fuses = s.fuses := rfl
@[simp] theorem State.setTrans_flash (tag : Nat) (t : Trans) : (s.setTrans tag t).flash = s.flash := rfl
@[simp] theorem State.setTrans_husk (tag : Nat) (t : Trans) : (s.setTrans tag t).husk = s.husk := rfl
@[simp] theorem State.setTrans_health (tag : Nat) (t : Trans) : (s.setTrans tag t).health = s.health := rfl
@[simp] theorem State.setTrans_frames (tag : Nat) (t : Trans) : (s.setTrans tag t).frames = s.frames := rfl
@[simp] theorem State.setTrans_mgmt (tag : Nat) (t : Trans) : (s.setTrans tag t).mgmt = s.mgmt := rfl
@[simp] theorem State.setTrans_aliasMap (tag : Nat) (t : Trans) : (s.setTrans tag t).aliasMap = s.aliasMap := rfl
@[simp] theorem State.setTrans_spares (tag : Nat) (t : Trans) : (s.setTrans tag t).spares = s.spares := rfl
@[simp] theorem State.setTrans_events (tag : Nat) (t : Trans) : (s.setTrans tag t).events = s.events := rfl
@[simp] theorem State.setTrans_remoteMem (tag : Nat) (t : Trans) : (s.setTrans tag t).remoteMem = s.remoteMem := rfl
@[simp] theorem State.setTrans_hostMem (tag : Nat) (t : Trans) : (s.setTrans tag t).hostMem = s.hostMem := rfl
@[simp] theorem State.setTrans_out (tag : Nat) (t : Trans) : (s.setTrans tag t).out = s.out := rfl
@[simp] theorem State.setTrans_freeCtr (tag : Nat) (t : Trans) : (s.setTrans tag t).freeCtr = s.freeCtr := rfl

/-! ### `State.setInBurst` -/

@[simp] theorem State.setInBurst_pending (b : InBurst) : (s.setInBurst b).pending = s.pending := rfl
@[simp] theorem State.setInBurst_time (b : InBurst) : (s.setInBurst b).time = s.time := rfl
@[simp] theorem State.setInBurst_cores (b : InBurst) : (s.setInBurst b).cores = s.cores := rfl
@[simp] theorem State.setInBurst_groups (b : InBurst) : (s.setInBurst b).groups = s.groups := rfl
@[simp] theorem State.setInBurst_objs (b : InBurst) : (s.setInBurst b).objs = s.objs := rfl
@[simp] theorem State.setInBurst_waiters (b : InBurst) : (s.setInBurst b).waiters = s.waiters := rfl
@[simp] theorem State.setInBurst_parts (b : InBurst) : (s.setInBurst b).parts = s.parts := rfl
@[simp] theorem State.setInBurst_reqs (b : InBurst) : (s.setInBurst b).reqs = s.reqs := rfl
@[simp] theorem State.setInBurst_reqSeq (b : InBurst) : (s.setInBurst b).reqSeq = s.reqSeq := rfl
@[simp] theorem State.setInBurst_queues (b : InBurst) : (s.setInBurst b).queues = s.queues := rfl
@[simp] theorem State.setInBurst_sess (b : InBurst) : (s.setInBurst b).sess = s.sess := rfl
@[simp] theorem State.setInBurst_ports (b : InBurst) : (s.setInBurst b).ports = s.ports := rfl
@[simp] theorem State.setInBurst_boot (b : InBurst) : (s.setInBurst b).boot = s.boot := rfl
@[simp] theorem State.setInBurst_fuses (b : InBurst) : (s.setInBurst b).fuses = s.fuses := rfl
@[simp] theorem State.setInBurst_flash (b : InBurst) : (s.setInBurst b).flash = s.flash := rfl
@[simp] theorem State.setInBurst_husk (b : InBurst) : (s.setInBurst b).husk = s.husk := rfl
@[simp] theorem State.setInBurst_health (b : InBurst) : (s.setInBurst b).health = s.health := rfl
@[simp] theorem State.setInBurst_frames (b : InBurst) : (s.setInBurst b).frames = s.frames := rfl
@[simp] theorem State.setInBurst_mgmt (b : InBurst) : (s.setInBurst b).mgmt = s.mgmt := rfl
@[simp] theorem State.setInBurst_aliasMap (b : InBurst) : (s.setInBurst b).aliasMap = s.aliasMap := rfl
@[simp] theorem State.setInBurst_spares (b : InBurst) : (s.setInBurst b).spares = s.spares := rfl
@[simp] theorem State.setInBurst_events (b : InBurst) : (s.setInBurst b).events = s.events := rfl
@[simp] theorem State.setInBurst_remoteMem (b : InBurst) : (s.setInBurst b).remoteMem = s.remoteMem := rfl
@[simp] theorem State.setInBurst_hostMem (b : InBurst) : (s.setInBurst b).hostMem = s.hostMem := rfl
@[simp] theorem State.setInBurst_out (b : InBurst) : (s.setInBurst b).out = s.out := rfl
@[simp] theorem State.setInBurst_freeCtr (b : InBurst) : (s.setInBurst b).freeCtr = s.freeCtr := rfl

/-! ### `State.mend` -/

@[simp] theorem State.mend_pending (p : Nat) (e : MemErr) : (s.mend p e).pending = s.pending := by unfold State.mend; split <;> rfl
@[simp] theorem State.mend_time (p : Nat) (e : MemErr) : (s.mend p e).time = s.time := by unfold State.mend; split <;> rfl
@[simp] theorem State.mend_cores (p : Nat) (e : MemErr) : (s.mend p e).cores = s.cores := by unfold State.mend; split <;> rfl
@[simp] theorem State.mend_groups (p : Nat) (e : MemErr) : (s.mend p e).groups = s.groups := by unfold State.mend; split <;> rfl
@[simp] theorem State.mend_objs (p : Nat) (e : MemErr) : (s.mend p e).objs = s.objs := by unfold State.mend; split <;> rfl
@[simp] theorem State.mend_waiters (p : Nat) (e : MemErr) : (s.mend p e).waiters = s.waiters := by unfold State.mend; split <;> rfl
@[simp] theorem State.mend_reqs (p : Nat) (e : MemErr) : (s.mend p e).reqs = s.reqs := by unfold State.mend; split <;> rfl
@[simp] theorem State.mend_reqSeq (p : Nat) (e : MemErr) : (s.mend p e).reqSeq = s.reqSeq := by unfold State.mend; split <;> rfl
@[simp] theorem State.mend_queues (p : Nat) (e : MemErr) : (s.mend p e).queues = s.queues := by unfold State.mend; split <;> rfl
@[simp] theorem State.mend_sess (p : Nat) (e : MemErr) : (s.mend p e).sess = s.sess := by unfold State.mend; split <;> rfl
@[simp] theorem State.mend_ports (p : Nat) (e : MemErr) : (s.mend p e).ports = s.ports := by unfold State.mend; split <;> rfl
@[simp] theorem State.mend_boot (p : Nat) (e : MemErr) : (s.mend p e).boot = s.boot := by unfold State.mend; split <;> rfl
@[simp] theorem State.mend_fuses (p : Nat) (e : MemErr) : (s.mend p e).fuses = s.fuses := by unfold State.mend; split <;> rfl
@[simp] theorem State.mend_flash (p : Nat) (e : MemErr) : (s.mend p e).flash = s.flash := by unfold State.mend; split <;> rfl
@[simp] theorem State.mend_husk (p : Nat) (e : MemErr) : (s.mend p e).husk = s.husk := by unfold State.mend; split <;> rfl
@[simp] theorem State.mend_fabric (p : Nat) (e : MemErr) : (s.mend p e).fabric = s.fabric := by unfold State.mend; split <;> rfl
@[simp] theorem State.mend_health (p : Nat) (e : MemErr) : (s.mend p e).health = s.health := by unfold State.mend; split <;> rfl
@[simp] theorem State.mend_frames (p : Nat) (e : MemErr) : (s.mend p e).frames = s.frames := by unfold State.mend; split <;> rfl
@[simp] theorem State.mend_mgmt (p : Nat) (e : MemErr) : (s.mend p e).mgmt = s.mgmt := by unfold State.mend; split <;> rfl
@[simp] theorem State.mend_aliasMap (p : Nat) (e : MemErr) : (s.mend p e).aliasMap = s.aliasMap := by unfold State.mend; split <;> rfl
@[simp] theorem State.mend_spares (p : Nat) (e : MemErr) : (s.mend p e).spares = s.spares := by unfold State.mend; split <;> rfl
@[simp] theorem State.mend_events (p : Nat) (e : MemErr) : (s.mend p e).events = s.events := by unfold State.mend; split <;> rfl
@[simp] theorem State.mend_remoteMem (p : Nat) (e : MemErr) : (s.mend p e).remoteMem = s.remoteMem := by unfold State.mend; split <;> rfl
@[simp] theorem State.mend_hostMem (p : Nat) (e : MemErr) : (s.mend p e).hostMem = s.hostMem := by unfold State.mend; split <;> rfl
@[simp] theorem State.mend_out (p : Nat) (e : MemErr) : (s.mend p e).out = s.out := by unfold State.mend; split <;> rfl
@[simp] theorem State.mend_freeCtr (p : Nat) (e : MemErr) : (s.mend p e).freeCtr = s.freeCtr := by unfold State.mend; split <;> rfl

/-! ### Reading back -/

@[simp] theorem State.slot_setSlot_self (n : Nat) (k : KeySlot) : (s.setSlot n k).slot n = k := sget_sput_self ..

theorem State.slot_setSlot (n m : Nat) (k : KeySlot) : (s.setSlot n k).slot m = if m = n then k else s.slot m := sget_sput ..

@[simp] theorem State.win_setWin_self (w : Nat) (x : Window) : (s.setWin w x).win w = x := sget_sput_self ..

theorem State.win_setWin (w v : Nat) (x : Window) : (s.setWin w x).win v = if v = w then x else s.win v := sget_sput ..

/-- A vector that the host does not mask is sent, while the port answers; a masked one becomes pending, once (R509). -/
theorem State.interrupt_sent (n v : Nat) (hr : (s.port n).released = true) (hd : (s.port n).d3hot = false)
    (h : (s.port n).masked.contains v = false) : s.interrupt n v = s.emit (.msix n v) := by
  unfold State.interrupt; simp only [h, hr, hd, Bool.or_self, Bool.not_true, Bool.false_eq_true, if_false]

theorem State.interrupt_masked (n v : Nat) (hr : (s.port n).released = true) (h : (s.port n).masked.contains v = true) :
    (s.interrupt n v).out = s.out ∧ v ∈ ((s.interrupt n v).port n).pendingVectors := by
  unfold State.interrupt
  simp only [h, hr, Bool.not_true, Bool.false_eq_true, if_false, Bool.or_true, if_true]
  refine ⟨rfl, ?_⟩
  rw [State.port_setPort_self]
  by_cases e : v ∈ (s.port n).pendingVectors <;> simp [e]

end Sys2Proof.Machine
end

