-- ==== Sys2Proof/Laws/Ops.lean ====
section
/-! SUPPORT. What the shared operations on records, events, items and memories can change: each lemma says once, as one equation, that every
other field is as before. -/

namespace Sys2Proof.Machine

/-! ### Records -/

/-- The fields that one record written into a ring can change, blanked. -/
def State.offRec (s : State) : State := { s with hostMem := [], reqs := [], out := [], ports := [] }

theorem State.of_offRec {s t : State} (h : t.offRec = s.offRec) :
    t = { s with hostMem := t.hostMem, reqs := t.reqs, out := t.out, ports := t.ports } := by
  cases s; cases t
  simp only [State.offRec, State.mk.injEq] at h ⊢
  simp [h]

theorem ite_keeps {α β : Type} {π : α → β} {b : Bool} {x y : α} {z : β} (hx : π x = z) (hy : π y = z) : π (if b then x else y) = z := by
  cases b
  · exact hy
  · exact hx

theorem iteProp_keeps {α β : Type} {π : α → β} {p : Prop} [Decidable p] {x y : α} {z : β} (hx : π x = z) (hy : π y = z) :
    π (if p then x else y) = z := by
  split
  · exact hx
  · exact hy

/-- A fold of steps that each keep a projection keeps it. -/
theorem foldl_keeps {α β γ : Type} (f : β → α → β) (π : β → γ) (h : ∀ b a, π (f b a) = π b) (l : List α) (b : β) : π (l.foldl f b) = π b := by
  induction l generalizing b with
  | nil => rfl
  | cons a l ih => rw [List.foldl_cons, ih, h]

/-- A vector raised leaves the module, or sets its pending bit. -/
theorem State.interrupt_offRec (s : State) (n v : Nat) : (s.interrupt n v).offRec = s.offRec := by
  unfold State.interrupt
  dsimp only
  split
  · rfl
  · split <;> rfl

theorem writeRecord_offRec (v : Vectors) (c : CplRing) (r : HeldRec) (s : State) : (writeRecord v c r s).2.offRec = s.offRec := by
  have hs : ∀ t : State, (match r.frees with
      | some q => t.freeRequest q
      | none => t).offRec = t.offRec := fun t => by cases r.frees <;> rfl
  unfold writeRecord
  refine ite_keeps (π := fun x : CplRing × State => x.2.offRec) ((State.interrupt_offRec ..).trans ?_) ?_
  all_goals
    by_cases h : recKind r.bits = 2
    · simp only [h, if_true]; exact (State.interrupt_offRec ..).trans (hs _)
    · simp only [h, if_false]; exact hs _

theorem drainHeld_offRec (v : Vectors) (held : List HeldRec) (c : CplRing) (s : State) : (drainHeld v held c s).2.offRec = s.offRec := by
  induction held generalizing c s with
  | nil => rfl
  | cons r rest ih =>
    rw [drainHeld]
    refine ite_keeps (π := fun x : CplRing × State => x.2.offRec) ?_ rfl
    exact (ih _ _).trans (writeRecord_offRec v c r s)

/-- Settling a ring changes host memory, the request table, pending vectors and what leaves the module, and nothing else. -/
theorem settleCpl_offRec (v : Vectors) (c : CplRing) (s : State) : (settleCpl v c s).2.offRec = s.offRec := by
  unfold settleCpl
  exact ite_keeps (π := State.offRec) ((State.interrupt_offRec ..).trans (drainHeld_offRec v c.held c s)) (drainHeld_offRec v c.held c s)

/-- The fields that a record on a partition's ring can change, blanked. -/
def State.offPart (s : State) : State := { s with hostMem := [], reqs := [], out := [], ports := [], parts := [] }

theorem State.of_offPart {s t : State} (h : t.offPart = s.offPart) :
    t = { s with hostMem := t.hostMem, reqs := t.reqs, out := t.out, ports := t.ports, parts := t.parts } := by
  cases s; cases t
  simp only [State.offPart, State.mk.injEq] at h ⊢
  simp [h]

theorem State.settlePart_offPart (s : State) (p : Nat) : (s.settlePart p).offPart = s.offPart :=
  (congrArg State.offPart (settleCpl_offRec (s.part p).vectors (s.part p).cpl s) :)

theorem State.postPart_offPart (s : State) (p : Nat) (r : HeldRec) : (s.postPart p r).offPart = s.offPart := State.settlePart_offPart ..

/-- A command record on a partition's ring changes that ring, host memory, the request table and what leaves the module. -/
theorem State.cmdDone_offPart (s : State) (p : Nat) (o : Owed) (st : RecStatus) (f : FaultCode) (r : Nat) :
    (s.cmdDone p o st f r).offPart = s.offPart := State.settlePart_offPart ..

/-- The fields that a record on a port's admin ring can change, blanked. -/
def State.offPort (s : State) : State := { s with hostMem := [], reqs := [], out := [], ports := [] }

theorem State.of_offPort {s t : State} (h : t.offPort = s.offPort) :
    t = { s with hostMem := t.hostMem, reqs := t.reqs, out := t.out, ports := t.ports } := by
  cases s; cases t
  simp only [State.offPort, State.mk.injEq] at h ⊢
  simp [h]

theorem State.settlePort_offPort (s : State) (n : Nat) : (s.settlePort n).offPort = s.offPort :=
  (congrArg State.offPort (settleCpl_offRec (adminVectors n) (s.port n).acpl s) :)

theorem State.postPort_offPort (s : State) (n : Nat) (r : HeldRec) : (s.postPort n r).offPort = s.offPort := State.settlePort_offPort ..

/-- A command record on a port's admin ring changes that ring, host memory, the request table and what leaves the module. -/
theorem State.admDone_offPort (s : State) (n : Nat) (o : Owed) (st : RecStatus) (f : FaultCode) (r : Nat) :
    (s.admDone n o st f r).offPort = s.offPort := State.settlePort_offPort ..

/-! ### Events -/

theorem State.hostEvent_offPart (s : State) (p code d d2 : Nat) : (s.hostEvent p code d d2).offPart = s.offPart :=
  ite_keeps (π := State.offPart) (State.postPart_offPart ..) rfl

/-- The fields that an event can change, blanked: the management queue, its count of losses, and what a partition's record changes. -/
def State.offEvent (s : State) : State := { s with hostMem := [], reqs := [], out := [], ports := [], parts := [], events := [], health := {} }

theorem State.of_offEvent {s t : State} (h : t.offEvent = s.offEvent) :
    t = { s with hostMem := t.hostMem, reqs := t.reqs, out := t.out, ports := t.ports, parts := t.parts, events := t.events, health := t.health } := by
  cases s; cases t
  simp only [State.offEvent, State.mk.injEq] at h ⊢
  simp [h]

theorem State.mgmtEvent_offEvent (s : State) (code d d2 : Nat) : (s.mgmtEvent code d d2).offEvent = s.offEvent :=
  iteProp_keeps (π := State.offEvent) rfl rfl

/-- An event changes nothing but the management queue, its count of losses, and what a record on a partition's ring changes. -/
theorem State.event_offEvent (s : State) (code d d2 : Nat) (ps : List Nat) : (s.event code d d2 ps).offEvent = s.offEvent := by
  have h : ∀ (t : State) (p : Nat), (t.hostEvent p code d d2).offEvent = t.offEvent := fun t p =>
    (congrArg State.offEvent (State.hostEvent_offPart t p code d d2) :)
  exact (foldl_keeps (fun (t : State) (p : Nat) => t.hostEvent p code d d2) State.offEvent h ps (s.mgmtEvent code d d2)).trans
    (State.mgmtEvent_offEvent s code d d2)

/-- The management queue holds at most 64 events, whatever events are raised (R595). -/
theorem State.mgmtEvent_length (s : State) (code d d2 : Nat) (h : s.events.length ≤ 64) : (s.mgmtEvent code d d2).events.length ≤ 64 := by
  unfold State.mgmtEvent
  split
  · simp only [List.length_append, List.length_cons, List.length_nil]; omega
  · exact h

/-! ### Items and faults -/

theorem State.charge_frame (s : State) (b : Option (Nat × Nat)) (f : ItemInfo → ItemInfo) :
    s.charge b f = { s with reqs := (s.charge b f).reqs } := by
  unfold State.charge
  split
  · rfl
  · split
    · rfl
    · dsimp only; split <;> rfl

theorem State.bindItem_frame (s : State) (b : Option (Nat × Nat)) : s.bindItem b = { s with reqs := (s.bindItem b).reqs } := by
  unfold State.bindItem
  split
  · rfl
  · split
    · rfl
    · exact State.charge_frame ..

theorem State.failItem_frame (s : State) (r i : Nat) (f : FaultCode) :
    s.failItem r i f = { s with reqs := (s.failItem r i f).reqs, cores := (s.failItem r i f).cores } := by
  unfold State.failItem
  split <;> rfl

/-- The fields that a fault can change, blanked: those of an event, and the cores. -/
def State.offFault (s : State) : State := { s.offEvent with cores := [] }

theorem State.of_offFault {s t : State} (h : t.offFault = s.offFault) :
    t = { s with hostMem := t.hostMem, reqs := t.reqs, out := t.out, ports := t.ports, parts := t.parts, events := t.events, health := t.health
                 cores := t.cores } := by
  cases s; cases t
  simp only [State.offFault, State.offEvent, State.mk.injEq] at h ⊢
  simp [h]

/-- A fault without an item changes CORE_FAULT and what an event changes. -/
theorem State.coreFault_offFault (s : State) (k c : Nat) (f : FaultCode) : (s.coreFault k c f).offFault = s.offFault := by
  unfold State.coreFault
  refine (congrArg (fun t : State => { t with cores := [] }) (State.event_offEvent ..)).trans ?_
  exact ite_keeps (π := State.offFault) rfl rfl

theorem State.failItem_offFault (s : State) (r i : Nat) (f : FaultCode) : (s.failItem r i f).offFault = s.offFault := by
  rw [State.failItem_frame]; rfl

/-- A fault changes the item it is charged to and the marks of the contexts that name it, or CORE_FAULT and what an event changes. -/
theorem State.faultAt_offFault (s : State) (k c : Nat) (b : Option (Nat × Nat)) (f : FaultCode) :
    (s.faultAt k c b f).offFault = s.offFault := by
  unfold State.faultAt
  cases b with
  | none => exact State.coreFault_offFault ..
  | some x => exact ite_keeps (π := State.offFault) (State.failItem_offFault ..) (State.coreFault_offFault ..)

theorem State.requestOver_frame (s : State) (r : Nat) (q : Request) :
    s.requestOver r q = { s with queues := (s.requestOver r q).queues, sess := (s.requestOver r q).sess } := by
  unfold State.requestOver
  cases q.session <;> rfl

/-- The fields that the end of an item can change, blanked. -/
def State.offItem (s : State) : State := { s.offPart with queues := [], sess := [], cores := [] }

theorem State.of_offItem {s t : State} (h : t.offItem = s.offItem) :
    t = { s with hostMem := t.hostMem, reqs := t.reqs, out := t.out, ports := t.ports, parts := t.parts, queues := t.queues, sess := t.sess
                 cores := t.cores } := by
  cases s; cases t
  simp only [State.offItem, State.offPart, State.mk.injEq] at h ⊢
  simp [h]

/-- The end of an item changes the request table, its queue and session, the marks of the contexts, and its partition's ring. -/
theorem State.endItem_offItem (s : State) (r i : Nat) (st : RecStatus) (f : FaultCode) : (s.endItem r i st f).offItem = s.offItem := by
  unfold State.endItem
  split
  · rfl
  · dsimp only
    refine ite_keeps (π := State.offItem) rfl ?_
    refine (congrArg (fun t : State => { t with queues := [], sess := [], cores := [] }) (State.postPart_offPart ..)).trans ?_
    refine ite_keeps (π := State.offItem) ((congrArg State.offItem (State.requestOver_frame ..)).trans ?_) ?_
    all_goals exact iteProp_keeps (π := State.offItem) rfl rfl

/-! ### Memory -/

theorem State.touchAt_frame (s : State) (k va n : Nat) : s.touchAt k va n = { s with parts := (s.touchAt k va n).parts } := by
  unfold State.touchAt
  split
  · rfl
  · split <;> rfl

theorem State.writeAt_frame (s : State) (k va : Nat) (bs : List Byte) :
    s.writeAt k va bs = { s with cores := (s.writeAt k va bs).cores, parts := (s.writeAt k va bs).parts } := by
  unfold State.writeAt
  split
  · rfl
  · split <;> rfl

/-- The fields that a memory error can change, blanked: those of an event, and the frames' counts. -/
def State.offMemError (s : State) : State := { s.offEvent with frames := {} }

theorem State.memError_offMemError (s : State) (p : Nat) (e : MemErr) : (s.memError p e).offMemError = s.offMemError := by
  induction e generalizing s with
  | none => rfl
  | ce va => unfold State.memError; dsimp only; split <;> rfl
  | ue va =>
    unfold State.memError
    dsimp only
    split
    · exact congrArg (fun t : State => { t with frames := {} }) (State.event_offEvent ..)
    · rfl
  | fab va f => rfl
  | seq a b ha hb => exact (hb _).trans (ha _)

/-- A store keeps the canonical form of a partition's memory. -/
theorem Mem.store_wf (m : Mem) (va : Nat) (bs : List Byte) (h : Memory.wf m.bytes = true) : Memory.wf (m.store va bs).bytes = true :=
  swf_writeBytes bs _ va h

/-- A store changes no byte outside the bytes stored. -/
theorem Mem.store_outside (m : Mem) (va i : Nat) (bs : List Byte) (h : i < va ∨ va + bs.length ≤ i) :
    sget 0 (m.store va bs).bytes i = sget 0 m.bytes i := sget_writeBytes_outside bs _ va i h

/-- A store's own bytes. -/
theorem Mem.store_inside (m : Mem) (va i : Nat) (bs : List Byte) (h : i < bs.length) :
    sget 0 (m.store va bs).bytes (va + i) = bs.getD i 0 := sget_writeBytes_inside bs _ va i h

@[simp] theorem Mem.touch_bytes (m : Mem) (va n : Nat) : (m.touch va n).bytes = m.bytes := rfl
@[simp] theorem Mem.touch_poison (m : Mem) (va n : Nat) : (m.touch va n).poison = m.poison := rfl

/-! ### Issue -/

/-- Everything that issue can answer: the command waits; the context enters FAULT on an illegal word; the instruction is refused, by its meaning or as
one that names LOG4; or its effect happens and the program counter moves. -/
theorem issue_cases (k c : Nat) (w : W64) (mine : Bool) (m : Issued) (s : State) :
    (issue k c w mine m s = .next s ∧ (s.ready k c w = false ∨ mine = false ∨ m = .hold)) ∨
    (issue k c w mine m s = .next (s.ctxFault k c fltIllegalOp) ∧ s.ready k c w = true ∧ wellFormedWord w = false) ∨
    (∃ f, issue k c w mine m s = .next ((s.faultAt k c (s.ctx k c).bind f).setPc k c ((s.ctx k c).pc + 8)) ∧ s.ready k c w = true ∧ mine = true ∧
      ((m = .refuse f ∧ wellFormedWord w = true) ∨ (f = fltFmtRole ∧ wellFormedWord w = false ∧ s.namesLog4 k c w = true))) ∨
    (∃ t pc, issue k c w mine m s = .next ((s.issued k c w t).setPc k c pc)
      ∧ ((m = .go t ∧ pc = (s.ctx k c).pc + 8) ∨ m = .jump t pc) ∧ s.ready k c w = true ∧ wellFormedWord w = true ∧ mine = true) := by
  unfold issue
  cases hr : s.ready k c w
  · simp
  · cases hw : wellFormedWord w
    · cases hl : s.namesLog4 k c w
      · simp
      · cases mine
        · simp
        · exact .inr (.inr (.inl ⟨fltFmtRole, rfl, rfl, rfl, .inr ⟨rfl, rfl, rfl⟩⟩))
    · cases mine
      · simp
      · cases m with
        | go t => exact .inr (.inr (.inr ⟨t, _, rfl, .inl ⟨rfl, rfl⟩, rfl, rfl, rfl⟩))
        | jump t pc => exact .inr (.inr (.inr ⟨t, pc, rfl, .inr rfl, rfl, rfl, rfl⟩))
        | hold => simp
        | refuse f => exact .inr (.inr (.inl ⟨f, rfl, rfl, rfl, .inl ⟨rfl, rfl⟩⟩))

/-- Issue of a ready, well-formed word that spells the instruction. -/
theorem issue_go {k c : Nat} {w : W64} {s t : State} (hr : s.ready k c w = true) (hw : wellFormedWord w = true) :
    issue k c w true (.go t) s = .next ((s.issued k c w t).setPc k c ((s.ctx k c).pc + 8)) := by
  simp [issue, hr, hw]

/-- An instruction that has accessed nothing in Tier F begins no transfer. -/
theorem issued_near {k c : Nat} {w : W64} {s t : State} (h : t.farOfCore k = s.farOfCore k) :
    s.issued k c w t = t.bindItem (s.ctx k c).bind := by
  simp [State.issued, h]

/-- An effect that leaves the partitions alone has accessed nothing in Tier F. -/
theorem farOfCore_parts {k : Nat} {s t : State} (h : t.parts = s.parts) : t.farOfCore k = s.farOfCore k := by
  unfold State.farOfCore State.partOf State.mem State.part
  rw [h]

end Sys2Proof.Machine
end

