-- ==== Sys2Proof/Laws/Issue.lean ====
section
/-! SUPPORT. What issue adds to an instruction's own effect: its item is marked as bound, and its context's program counter moves. -/

namespace Sys2Proof.Machine

@[simp] theorem bindItem_cores (s : State) (b : Option (Nat × Nat)) : (s.bindItem b).cores = s.cores := by rw [State.bindItem_frame]
@[simp] theorem bindItem_core (s : State) (b : Option (Nat × Nat)) (k : Nat) : (s.bindItem b).core k = s.core k := by unfold State.core; rw [bindItem_cores]
/-- Binding looks at the request table and the partitions alone. -/
theorem bindItem_reqs_congr (s t : State) (b : Option (Nat × Nat)) (h : t.reqs = s.reqs) (h2 : t.parts = s.parts) : (t.bindItem b).reqs = (s.bindItem b).reqs := by
  cases s; cases t
  simp only at h h2
  subst h h2
  unfold State.bindItem State.charge State.request State.part State.setRequest
  cases b with
  | none => rfl
  | some b =>
    obtain ⟨r, i⟩ := b
    dsimp only
    split
    · rfl
    · split
      · rfl
      · split <;> rfl

/-- An instruction whose own effect `X` lies within its context: after issue the context has moved on, and nothing outside it has changed. -/
theorem setPc_only (s X : State) (k c : Nat) (pc : W64) (hX : X = { s with cores := X.cores }) (ho : SameOtherCores s X k) (hb : SameButContext s X k c) :
    let t := (X.bindItem (s.ctx k c).bind).setPc k c pc
    t.ctx k c = { X.ctx k c with pc := pc } ∧ OnlyContext s t k c ∧ (t.core k).ops = (X.core k).ops := by
  intro t
  have hk : t.core k = (X.core k).setCtx c { X.ctx k c with pc := pc } := by
    simp only [t, State.setPc, State.setCtx, State.ctx, State.core_setCore_self, bindItem_core]
  refine ⟨?_, ⟨?_, ?_, ?_⟩, ?_⟩
  · simp only [State.ctx, hk, Core.ctx_setCtx_self]
  · have h1 : t = { X.bindItem (s.ctx k c).bind with cores := t.cores } := rfl
    rw [h1, State.bindItem_frame]
    have h2 := bindItem_reqs_congr s X (s.ctx k c).bind (by rw [hX]) (by rw [hX])
    rw [h2]
    conv => lhs; rw [hX]
    rfl
  · intro j hj
    have : t.core j = X.core j := by
      simp only [t, State.setPc, State.setCtx, State.core_setCore, hj, if_false, bindItem_core]
    rw [this, ho j hj]
  · constructor
    · rw [hk]
      conv => lhs; rw [hb.1]
      rfl
    · intro i hi
      simp only [State.ctx, hk, Core.ctx_setCtx, hi, if_false]
      exact hb.2 i hi
  · rw [hk]; rfl

/-- An instruction whose own effect is one scalar result. -/
theorem put_only (s : State) (k c d : Nat) (v : W64) (pc : W64) :
    let t := ((s.putS k c d v).bindItem (s.ctx k c).bind).setPc k c pc
    WritesScalar s t k c d v ∧ OnlyScalars s t k c pc ∧ OnlyContext s t k c ∧ (t.core k).ops = ((s.core k).dropScalar c d).ops := by
  have hc : (s.putS k c d v).core k = ((s.core k).dropScalar c d).setCtx c ((s.ctx k c).writeS d v) := by
    simp only [State.putS, State.core_setCore_self]; rfl
  have h := setPc_only s (s.putS k c d v) k c pc rfl
    (by intro j hj; simp only [State.putS, State.core_setCore, hj, if_false])
    (by
      constructor
      · rw [hc]; rfl
      · intro i hi; simp only [State.ctx, hc, Core.ctx_setCtx, hi, if_false]; rfl)
  have hx : (s.putS k c d v).ctx k c = (s.ctx k c).writeS d v := by simp only [State.ctx, hc, Core.ctx_setCtx_self]
  obtain ⟨h1, h2, h3⟩ := h
  refine ⟨?_, ?_, h2, ?_⟩
  · intro r
    rw [h1, hx]
    exact Ctx.readS_writeS ..
  · unfold OnlyScalars
    rw [h1, hx]
    unfold Ctx.writeS
    split <;> rfl
  · rw [h3, hc]; rfl

theorem core_touchAt (s : State) (k va n j : Nat) : (s.touchAt k va n).core j = s.core j := by
  rw [State.touchAt_frame]; rfl

theorem sameParts_touchAt (s : State) (k va n : Nat) : SameParts s (s.touchAt k va n) := by
  intro p
  unfold State.touchAt
  split
  · rfl
  · split
    · rfl
    · rename_i q _
      by_cases h : p = q
      · subst h; simp [State.setMem, State.mem, Mem.touch, Mem.note]
      · simp [State.setMem, State.part_setPart, h]

/-- After issue: the item's mark, the context's program counter, and everything else as the instruction's own effect left it. -/
theorem setPc_any (s X : State) (k c : Nat) (pc : W64) :
    let t := (X.bindItem (s.ctx k c).bind).setPc k c pc
    t = { X with cores := t.cores, reqs := (X.bindItem (s.ctx k c).bind).reqs } ∧
    t.core k = (X.core k).setCtx c { X.ctx k c with pc := pc } ∧ t.ctx k c = { X.ctx k c with pc := pc } ∧
    (∀ j, j ≠ k → t.core j = X.core j) ∧ (∀ i, i ≠ c → t.ctx k i = X.ctx k i) ∧ (∀ p, t.part p = X.part p) := by
  intro t
  have hk : t.core k = (X.core k).setCtx c { X.ctx k c with pc := pc } := by
    simp only [t, State.setPc, State.setCtx, State.ctx, State.core_setCore_self, bindItem_core]
  refine ⟨?_, hk, ?_, ?_, ?_, ?_⟩
  · have h1 : t = { X.bindItem (s.ctx k c).bind with cores := t.cores } := rfl
    conv => lhs; rw [h1, State.bindItem_frame]
  · simp only [State.ctx, hk, Core.ctx_setCtx_self]
  · intro j hj
    simp only [t, State.setPc, State.setCtx, State.core_setCore, hj, if_false, bindItem_core]
  · intro i hi
    simp only [State.ctx, hk, Core.ctx_setCtx, hi, if_false]
  · intro p
    have h1 : t.parts = (X.bindItem (s.ctx k c).bind).parts := rfl
    unfold State.part
    rw [h1, State.bindItem_frame]

theorem boundReqs_touchAt (s : State) (k c j va n : Nat) : ((s.touchAt j va n).bindItem (s.ctx k c).bind).reqs = s.boundReqs k c := by
  have hp := sameParts_touchAt s j va n
  unfold State.boundReqs State.bindItem State.charge State.request State.setRequest
  have hr : (s.touchAt j va n).reqs = s.reqs := by rw [State.touchAt_frame]
  cases hb : (s.ctx k c).bind with
  | none => exact hr
  | some b =>
    obtain ⟨r, i⟩ := b
    simp only [hr]
    split
    · exact hr
    · rename_i q _
      rw [show ((s.touchAt j va n).part q.part).prog = (s.part q.part).prog by rw [hp]]
      split
      · exact hr
      · split
        · dsimp only
        · exact hr

end Sys2Proof.Machine
end

