-- ==== Sys2Proof/Laws/Remote.lean ====
section
/-! SUPPORT. What the transfers of Tier F that a step begins can change (15, R464): the instructions in flight, the transactions of the fabric, and
the notes of the step's accesses. No byte of memory is among it (R390). -/

namespace Sys2Proof.Machine

/-- The fields that beginning a transfer can change, blanked. -/
def State.offFar (s : State) : State := { s with cores := [], parts := [], fabric := {} }

theorem State.of_offFar {s t : State} (h : t.offFar = s.offFar) : t = { s with cores := t.cores, parts := t.parts, fabric := t.fabric } := by
  cases s; cases t
  simp only [State.offFar, State.mk.injEq] at h ⊢
  simp [h]

theorem State.addTrans_offFar (s : State) (tag : Nat) (t : Trans) : (s.addTrans tag t).offFar = s.offFar := rfl

theorem State.addTrans_parts (s : State) (tag : Nat) (t : Trans) : (s.addTrans tag t).parts = s.parts := rfl

/-- A transaction that begins changes the core and the fabric; it leaves every partition as it is. -/
theorem State.startFab_keeps {s t : State} {k : Nat} {o : InFlight} {j : FabJob} (h : s.startFab k o j = some t) :
    t.offFar = s.offFar ∧ t.parts = s.parts := by
  unfold State.startFab at h
  dsimp only at h
  split at h
  · cases h; exact ⟨rfl, rfl⟩
  · split at h
    · cases h
    · cases h; exact ⟨rfl, rfl⟩

theorem State.startOwn_keeps (s : State) (w : OwnJob) : (s.startOwn w).offFar = s.offFar ∧ (s.startOwn w).parts = s.parts := by
  unfold State.startOwn
  split <;> exact ⟨rfl, rfl⟩

theorem State.launchFar_keeps (s : State) (k c cls : Nat) (b : Option (Nat × Nat)) (j : FabJob) :
    (s.launchFar k c cls b j).offFar = s.offFar ∧ (s.launchFar k c cls b j).parts = s.parts := by
  unfold State.launchFar
  dsimp only
  split
  · exact ⟨rfl, rfl⟩
  · generalize hq : State.startFab _ _ _ _ = q
    cases q with
    | none => exact ⟨rfl, rfl⟩
    | some t => exact ⟨(State.startFab_keeps hq).1, (State.startFab_keeps hq).2⟩

theorem State.takeFar_offFar (s : State) (p : Nat) : (s.takeFar p).2.offFar = s.offFar := rfl

/-- The transfers that an instruction's accesses begin change the cores, the partitions' notes and the fabric, and nothing else. -/
theorem State.startFar_offFar (s : State) (k c cls : Nat) (b : Option (Nat × Nat)) (owner : Option Nat) :
    (s.startFar k c cls b owner).offFar = s.offFar := by
  unfold State.startFar
  split
  · rfl
  · split
    · rfl
    · exact foldl_keeps _ State.offFar (fun t _ => (State.launchFar_keeps t ..).1) _ _

theorem State.startFarOwn_offFar (s : State) (p : Nat) : (s.startFarOwn p).offFar = s.offFar := by
  unfold State.startFarOwn
  split
  · rfl
  · exact foldl_keeps _ State.offFar (fun t _ => (State.startOwn_keeps t _).1) _ _

/-- Of the partitions they change the notes of one, by forgetting them. -/
theorem State.startFar_parts (s : State) (k c cls : Nat) (b : Option (Nat × Nat)) (owner : Option Nat) :
    (s.startFar k c cls b owner).parts = s.parts ∨
      ∃ p, s.partOf k = some p ∧ (s.startFar k c cls b owner).parts = (s.setMem p { s.mem p with far := [] }).parts := by
  unfold State.startFar
  split
  · exact .inl rfl
  · rename_i p hp
    split
    · exact .inl rfl
    · exact .inr ⟨p, hp, foldl_keeps _ State.parts (fun t _ => (State.launchFar_keeps t ..).2) _ _⟩

theorem State.startFarOwn_parts (s : State) (p : Nat) :
    (s.startFarOwn p).parts = s.parts ∨ (s.startFarOwn p).parts = (s.setMem p { s.mem p with far := [] }).parts := by
  unfold State.startFarOwn
  split
  · exact .inl rfl
  · exact .inr (foldl_keeps _ State.parts (fun t _ => (State.startOwn_keeps t _).2) _ _)

/-- Forgetting a partition's notes changes no byte of any partition's memory. -/
theorem State.forget_bytes (s : State) (p q : Nat) : ((s.setMem p { s.mem p with far := [] }).mem q).bytes = (s.mem q).bytes := by
  by_cases h : q = p
  · subst h; simp [State.setMem, State.mem]
  · simp [State.setMem, State.mem, State.part_setPart, h]

/-- A transfer that begins changes no byte that the module's memories hold (R390). -/
theorem State.startFar_bytes (s : State) (k c cls : Nat) (b : Option (Nat × Nat)) (owner : Option Nat) (q : Nat) :
    ((s.startFar k c cls b owner).mem q).bytes = (s.mem q).bytes := by
  obtain h | ⟨p, -, h⟩ := s.startFar_parts k c cls b owner
  · simp only [State.mem, State.part, h]
  · rw [← s.forget_bytes p q]; simp only [State.mem, State.part, h]

theorem State.startFarOwn_bytes (s : State) (p q : Nat) : ((s.startFarOwn p).mem q).bytes = (s.mem q).bytes := by
  obtain h | h := s.startFarOwn_parts p
  · simp only [State.mem, State.part, h]
  · rw [← s.forget_bytes p q]; simp only [State.mem, State.part, h]

end Sys2Proof.Machine
end

