-- ==== Sys2Proof/Laws/Rings.lean ====
section
/-! SUPPORT. What a command of a ring comes to, once its entry is fetched and, if it is critical, verified. -/

namespace Sys2Proof.Machine

/-- A fetched entry with a sound frame: the command's own effect decides (R478, R480). -/
theorem partCmd_go {s : State} {p code : Nat} {e : Entry} {body : List (Nat × Nat × Nat)} (h : s.Fetches p code e body) (f : Owed → State → CmdRes) :
    partCmd p code e body s f = match f (s.cmdOwed p e) (s.takeCmd p) with
      | .done u r => s.cmdIsDone p e u r
      | .fail u c => s.cmdFails p e u c
      | .owes u => .next u
      | .hold => .next s := by
  obtain ⟨h0, h1, h2, h3⟩ := h
  unfold partCmd State.cmdIsDone State.cmdFails
  simp only [h0, h1, h2, h3, ne_eq, not_true_eq_false, if_true, Bool.not_true, Bool.or_self, Bool.false_eq_true, if_false]
  all_goals rfl

/-- Nothing happens while the ring is not fetched. -/
theorem partCmd_closed {s : State} {p code : Nat} {e : Entry} {body : List (Nat × Nat × Nat)} (h : s.canFetchCmd p = false)
    (f : Owed → State → CmdRes) : partCmd p code e body s f = .next s := by
  unfold partCmd unlistedEntry; simp [h]

/-- An entry with another CODE goes by that CODE (R478). -/
theorem partCmd_other {s : State} {p code : Nat} {e : Entry} {body : List (Nat × Nat × Nat)} (h : eCode e ≠ code) (f : Owed → State → CmdRes) :
    partCmd p code e body s f = unlistedEntry (.cmd p) e s := by
  unfold partCmd; simp [h]

/-- AUTH = 1 or a reserved bit fails a command of the ring before its own effect (R478). -/
theorem partCmd_bad {s : State} {p code : Nat} {e : Entry} {body : List (Nat × Nat × Nat)} (h0 : eCode e = code) (h : s.canFetchCmd p = true)
    (hb : eAuth e = true ∨ entryOk body e = false) (f : Owed → State → CmdRes) :
    partCmd p code e body s f = s.cmdFails p e (s.takeCmd p) fltArgRange := by
  unfold partCmd State.cmdFails
  rcases hb with hb | hb <;> simp [h0, h, hb]

/-- The three checks of R557, for an entry that passes them. -/
theorem verify_ok {s : State} {r : RingName} {e : Entry} (h1 : s.slotAllows r e = true) (h2 : (s.slot (eSlot e)).last.toNat < eCounter e)
    (h3 : eBits e 0x70 0 128 = s.authTag r e) :
    s.verify r e = .ok (s.setSlot (eSlot e) { s.slot (eSlot e) with last := BitVec.ofNat 64 (eCounter e), streak := 0 }).durable := by
  unfold State.verify
  simp only [h1, h3, Bool.not_true, Bool.false_eq_true, if_false, ne_eq, not_true_eq_false, Nat.not_le.mpr h2]

/-- An entry that passes the checks passed each of them, and only its slot's LAST and streak, the generation and the counter have changed (R557). -/
theorem verify_inv {s u : State} {r : RingName} {e : Entry} (h : s.verify r e = .ok u) :
    s.slotAllows r e = true ∧ (s.slot (eSlot e)).last.toNat < eCounter e ∧ eBits e 0x70 0 128 = s.authTag r e ∧
    u = (s.setSlot (eSlot e) { s.slot (eSlot e) with last := BitVec.ofNat 64 (eCounter e), streak := 0 }).durable := by
  unfold State.verify at h
  by_cases h1 : s.slotAllows r e = true
  · by_cases h2 : eCounter e ≤ (s.slot (eSlot e)).last.toNat
    · simp [h1, h2] at h
    · by_cases h3 : eBits e 0x70 0 128 = s.authTag r e
      · simp [h1, h2, h3] at h
        exact ⟨h1, Nat.not_le.mp h2, h3, h.symm⟩
      · simp [h1, h2, h3] at h
  · simp [h1] at h

/-- A verified entry with a sound frame: the command's own effect decides (R557, R558). -/
theorem critCmd_go {s : State} {r : RingName} {code : Nat} {e : Entry} {body : List (Nat × Nat × Nat)} (h : s.Passes r code e body)
    (f : Owed → State → CmdRes) :
    critCmd r code e body s f = match f (s.owedOn r e) (s.husked r e) with
      | .done u v => s.critIsDone r e u v
      | .fail u c => s.critFails r e u c
      | .owes u => .next u
      | .hold => .next (s.husked r e) := by
  obtain ⟨h0, h1, h2, h3, h4, h5, h6, h7, h8⟩ := h
  unfold critCmd
  simp only [h0, h1, h2, h3, verify_ok h5 h6 h7, Nat.not_le.mpr h4, ne_eq, not_true_eq_false, Bool.not_true, Bool.false_eq_true, if_false]
  unfold runCrit State.critIsDone State.critFails State.husked
  simp only [h8, Bool.not_true, Bool.false_eq_true, if_false]
  all_goals rfl

/-- A verified entry with a reserved bit set. -/
theorem critCmd_bad {s : State} {r : RingName} {code : Nat} {e : Entry} {body : List (Nat × Nat × Nat)} (h0 : eCode e = code)
    (h1 : s.ringOpen r = true) (h2 : s.setAside r = none) (h3 : s.critBarred e = none) (h4 : (s.slot (eSlot e)).streak < 16)
    (h5 : s.slotAllows r e = true) (h6 : (s.slot (eSlot e)).last.toNat < eCounter e)
    (h7 : eBits e 0x70 0 128 = s.authTag r e) (h8 : entryOk body e = false)
    (f : Owed → State → CmdRes) :
    critCmd r code e body s f = s.critFails r e (s.husked r e) fltArgRange := by
  unfold critCmd
  simp only [h0, h1, h2, h3, verify_ok h5 h6 h7, Nat.not_le.mpr h4, ne_eq, not_true_eq_false, Bool.not_true, Bool.false_eq_true, if_false]
  unfold runCrit State.critFails State.husked
  simp [h8]

end Sys2Proof.Machine
end

