-- ==== Sys2Proof/Tests/Slice0.lean ====
section
/-! SUPPORT. The model's own tests: a term that each check of WellFormed refuses, a state that meets the hypotheses of each statement, and small
steps with results from the spec's text. -/

namespace Sys2Proof.Machine.Test

open Sys2Proof

set_option Elab.async false

/-! ### WellFormed refuses each ill-formed term -/

theorem test_wf_words : (wordInstrs .none []).all (fun mk => !(mk 512 0 0).wf && !(mk 0 4 0).wf && (mk 511 3 0).wf) = true := by decide +kernel

theorem test_wf_1 :
    ([.unitStart 512 .dma, .unitStart 0 (.stream 4), .accRepeat 512 ⟨0, []⟩, .outputWordWrite 512 0, .tileDone 512 0, .guardedRingUnit 512 0 .streamed,
     .scatterAddIssue 512 0 true, .scatterAddIssue 0 16 true, .narrowPromote 512, .instrComplete 512 0, .waitSatisfied 131072,
     .watchdogExpiry 512 (.ctx 0), .xiTimeout 512 (.op 0), .xiTimeout 512 (.ctx 0), .dmaListEntry 512 0 .none, .stepBoundary 16 none, .programEnd 16, .req 16 0, .cancel 16 0,
     .start 16 0 none, .stop 16 0, .memMap 16 0, .memUnmap 16 0, .hcopy 16 0 none .none, .streamCfg 16 0, .chunk 16 0 true, .cxlWin 16 0,
     .kvArena 16 0, .sessOpen 16 0, .sessClose 16 0, .sessTrim 16 0, .sessQuery 16 0 true, .sessionRelease 262144, .winGrant 16 0, .winClose 16 0,
     .winFree 16 0, .spillWinGrant 4 0 true] : List Instr).all (fun i => !i.wf) = true := by decide +kernel

theorem test_wf_2 :
    ([.spillWinClose 4 0 true, .spillWinFree 4 0, .windowClosed 4096, .winImport 16 0, .winForget 16 0, .repair 16 0 {}, .repair 0 0 ⟨none, [(512, 0)]⟩, .partCreate 4 0,
     .partDestroy 4 0, .partReshape 4 0, .routeLoad 4 0 true, .takeover 4 0, .keyLoad 4 0 true, .keyRotate 4 0 true, .keyErase 4 0,
     .fwLoad 4 0 true true, .debugSet 4 0, .lifecycle 4 ⟨0, []⟩, .lifecycle 0 ⟨0, [(4, 0)]⟩, .fuseProg 4 0 0, .authDelayEnd 16, .ringTailWrite 4 (.adm 0) 0,
     .ringTailWrite 0 (.req 16) 0, .ringTailWrite 0 (.cmd 16) 0, .ringTailWrite 0 (.adm 4) 0, .cplHeadWrite 4 (.adm 0) 0,
     .cplHeadWrite 0 (.req 16) 0, .cplHeadWrite 0 (.cmd 16) 0, .cplHeadWrite 0 (.adm 4) 0, .ringCtlWrite 4 (.adm 0) 0, .ringCtlWrite 0 (.req 16) 0,
     .ringCtlWrite 0 (.cmd 16) 0, .ringCtlWrite 0 (.adm 4) 0, .secCfgWrite 4 0 0 true, .secCfgWrite 0 16 0 true, .healthLevelWrite 2 true 0,
     .watchdogWrite 512 0 0, .watchdogWrite 0 4 0] : List Instr).all (fun i => !i.wf) = true := by decide +kernel

theorem test_wf_3 :
    ([.leanReqWrite 2 0 0 0, .leanReqWrite 0 4 0 0, .leanReqWrite 0 0 16 0, .freqSet 4 0 0 0, .freqSet 0 4 0 0, .freqSet 0 0 16 0,
     .registerWrite (.port 4 0) 0, .registerWrite (.port 0 0x100000) 0, .registerWrite (.mgmt 2 0 0) 0, .registerWrite (.mgmt 0 4 0) 0,
     .registerWrite (.core 512 0 0) 0, .registerWrite (.core 0 4 0) 0, .registerWrite (.core 0 0 0x10000) 0, .rcCounterRead (.port 4 0),
     .rcCounterRead (.port 0 0x100000), .rcCounterRead (.config 4 .powerState), .rcCounterRead (.config 0 (.msixMask 2048)),
     .registerWrite (.config 0 (.msixPending 2048)) 0, .rcCounterRead (.mgmt 2 0 0), .rcCounterRead (.mgmt 0 4 0), .rcCounterRead (.core 512 0 0),
     .rcCounterRead (.core 0 4 0), .rcCounterRead (.core 0 0 0x10000), .counterLoRead 512 0 true 0, .counterLoRead 0 4 true 0,
     .counterLoRead 0 0 true 32, .keyLastLoRead (.port 4 0) 0, .keyLastLoRead (.port 0 0x100000) 0, .keyLastLoRead (.mgmt 2 0 0) 0,
     .keyLastLoRead (.mgmt 0 4 0) 0, .keyLastLoRead (.core 512 0 0) 0, .keyLastLoRead (.core 0 4 0) 0, .keyLastLoRead (.core 0 0 0x10000) 0,
     .keyLastLoRead (.port 0 0) 16, .rngOutRead 512 0 0 0 0, .rngOutRead 0 4 0 0 0, .rngOutRead 0 0 8 0 0, .rngOutRead 0 0 0 8 0,
     .rngOutRead 0 0 0 0 32] : List Instr).all (fun i => !i.wf) = true := by decide +kernel

theorem test_wf_4 :
    ([.cxlMemAccess 4 true 0 0 [], .irqModExpiry 16, .streamGapExpiry 16 0, .streamGapExpiry 0 16, .portReset ⟨4, true⟩, .packetForward 12 ⟨0, []⟩ true,
     .parkRelease 7 0, .parkRelease 0 4, .linkCrcError 12, .linkRetrainEnd 12 true, .unitMoveDone 16 0 .H 0 0, .spillRecallDone 4096,
     .coreFail 512 0, .spliceApply 512 0 0, .spliceApply 0 4 0, .spliceApply 0 0 34, .substitution ⟨512, {}⟩, .substitution ⟨0, ⟨none, [(512, 0)]⟩⟩, .repairWaitTimeout 16, .haltWaitTimeout 16,
     .leanTimingError 512 0 true, .leanTimingError 0 4 true, .leanCalm 512, .moduleReset 2, .railDroop 512, .hostRefclkLoss 4, .thermalTrip 4 0 0,
     .regRead 2 0 0, .regRead 0 4 0, .regWrite 2 0 0 0, .regWrite 0 4 0 0, .fabrecWrite 2 0, .fwRecover 2 [] true true, .mctpControl 2 ⟨[], true⟩,
     .mctpPacketTimeout ⟨2, 1⟩, .powerFailure ⟨true, some (4, 0)⟩, .i2cBusReset 2, .setEventReceiver 2 0] : List Instr).all (fun i => !i.wf) = true := by decide +kernel

theorem test_wf_5 :
    ([.pldmSensorRead 2 0, .getVersion 2, .getCapabilities 2, .negotiateAlgorithms 2 true true, .getDigests 2, .getCertificate 2 0 0 0,
     .getCertificate 0 16 0 0, .challenge 2 0 0, .challenge 0 16 0, .getMeasurements 2 0 true 0, .unlistedCodeEntry (.req 16) 0,
     .unlistedCodeEntry (.cmd 16) 0, .unlistedCodeEntry (.adm 4) 0, .ringFetchFail (.req 16), .ringFetchFail (.cmd 16), .ringFetchFail (.adm 4),
     .icacheLineFill 512 0 true, .icacheLineFill 0 4 true, .perstRelease 4, .droopRearm 512, .unsupportedRequest 2 0, .pldmBaseRequest 2 []] : List Instr).all (fun i => !i.wf) = true := by decide +kernel

/-! ### A machine with one context that issues -/

/-- An instruction word (R12). -/
def wd (opc d a b imm : Nat) : W64 := BitVec.ofNat 64 (opc * 2 ^ 56 + d * 2 ^ 46 + a * 2 ^ 40 + b * 2 ^ 34 + imm)

/-- A running partition of core group 0 of die 0, with one page. -/
def part3 : PartBlock :=
  { state := .run, port := 1,
    grant := { groups := 1#64, objs := 1#128, memQuota := 100, pinQuota := 4, reqTable := 0x400000, reqMax := 16, chaff := 5#32 },
    mem := { units := [(0x400000, {})] } }

/-- Core 2 at a word, with what its context 1 holds. -/
def core2 (w : W64) (x : Ctx) : Core :=
  { nctx := 4, ctxs := [(1, { x with mode := .run })], icache := [(0, w.zeroExtend 512)] }

/-- The machine with core 2 as given, in partition 3. -/
def withCore (c : Core) : State := { cores := [(2, c)], parts := [(3, part3)] }

def at' (w : W64) (x : Ctx := {}) : State := withCore (core2 w x)

/-- A request of partition 3 with two open items, in tracking entry 0. -/
def req0 : Request := { part := 3, tag := 7#32, session := none, count := 2, assigned := true }

/-! ### Scalar instructions -/

/-- A word of each row of the arithmetic, on s1 and s2 into s31. -/
def aluWord (row : AluRow) : W64 :=
  if row.opc = 0x02 then wd 0x02 31 1 2 row.sel else if row.opc = 0x03 then wd 0x03 31 1 row.sel 5
  else if row.opc = 0x06 then wd 0x06 31 1 0 5 else wd row.opc 31 1 2 0

theorem test_alu_issues : ∀ row ∈ aluRows, (at' (aluWord row)).Issues 2 1 (aluWord row) row.opc row.sel := by decide +kernel

theorem test_cmp_issues : (at' (wd 0x05 7 31 31 5)).Issues 2 1 (wd 0x05 7 31 31 5) 0x05 0 := by decide +kernel

theorem test_br_meets_both_ways :
    ((at' (wd 0x0B 1 0 0 3)).Issues 2 1 (wd 0x0B 1 0 0 3) 0x0B 0 ∧
      ((at' (wd 0x0B 1 0 0 3)).ctx 2 1).readP (fA (wd 0x0B 1 0 0 3)) ≠ decide (fB (wd 0x0B 1 0 0 3) % 2 = 1)) ∧
    ((at' (wd 0x0B 1 7 0 3)).Issues 2 1 (wd 0x0B 1 7 0 3) 0x0B 0 ∧
      ((at' (wd 0x0B 1 7 0 3)).ctx 2 1).readP (fA (wd 0x0B 1 7 0 3)) = decide (fB (wd 0x0B 1 7 0 3) % 2 = 1)) ∧
    (at' (wd 0x0C 0 3 0 0)).Issues 2 1 (wd 0x0C 0 3 0 0) 0x0C 0 := by decide +kernel

/-- A scalar access of `n` bytes at the last place before the hole, and in a mapped page. -/
theorem test_load_hypotheses :
    ∀ x ∈ [(0x07, 8, 0x2FFFF8), (0x08, 4, 0x2FFFFC), (0x07, 8, 0x400000), (0x08, 4, 0x5FFFFC)],
      let w := wd x.1 5 0 0 x.2.2
      (at' w).Issues 2 1 w x.1 0 ∧ ((at' w).sA 2 1 w + sextImm w).toNat = x.2.2 ∧ x.2.2 % x.2.1 = 0 ∧ reachesHole x.2.2 x.2.1 = false ∧
        ((at' w).readAt 2 x.2.2 x.2.1).toOption = some (List.replicate x.2.1 0) := by decide +kernel

theorem test_store_hypotheses :
    ∀ x ∈ [(0x09, 8, 0x2FFFF8), (0x0A, 4, 0x2FFFFC), (0x09, 8, 0x400000), (0x0A, 4, 0x5FFFFC)],
      let w := wd x.1 0 0 5 x.2.2
      (at' w).Issues 2 1 w x.1 0 ∧ ((at' w).sA 2 1 w + sextImm w).toNat = x.2.2 ∧ x.2.2 % x.2.1 = 0 ∧ reachesHole x.2.2 x.2.1 = false ∧
        (at' w).writableAt 2 x.2.2 x.2.1 = none := by decide +kernel

/-- Misaligned, and in the hole, by an instruction of an open item. -/
theorem test_misaligned_hypotheses :
    ∀ x ∈ [(0x07, 8, 0x2FFFFC), (0x08, 4, 1), (0x09, 8, 0x300000), (0x0A, 4, 0x3FFFFC), (0x0D, 64, 0x2FFFE0)],
      let w := wd x.1 0 0 0 x.2.2
      let s := { at' w { item := { valid := true, req := 0, item := 1 } } with reqs := [(0, req0)] }
      s.Issues 2 1 w x.1 0 ∧ (x.2.2 % x.2.1 ≠ 0 ∨ reachesHole x.2.2 x.2.1 = true) ∧ (s.ctx 2 1).item.valid = true ∧
        s.request 0 = some req0 ∧ 1 < req0.count ∧ (req0.item 1).status = .open := by decide +kernel

def busyOp : InFlight := { id := 0, ctx := 1, unit := .dma, cls := 1 }

theorem test_fence_and_halt_hypotheses :
    let f := wd 0x0F 0 0 0 0x7FF
    let h := wd 0x0F 0 0 1 0
    let busy := fun w => withCore { core2 w {} with ops := [busyOp] }
    ((at' f).Issues 2 1 f 0x0F 0 ∧ ∀ o ∈ ((at' f).core 2).ops, o.ctx = 1 → (fImm f % 2048).testBit o.cls = false) ∧
    ((busy f).Issues 2 1 f 0x0F 0 ∧ ∃ o ∈ ((busy f).core 2).ops, o.ctx = 1 ∧ (fImm f % 2048).testBit o.cls = true) ∧
    ((at' h).Issues 2 1 h 0x0F 1 ∧ ∀ o ∈ ((at' h).core 2).ops, o.ctx ≠ 1) ∧
    ((busy h).Issues 2 1 h 0x0F 1 ∧ ∃ o ∈ ((busy h).core 2).ops, o.ctx = 1) := by decide +kernel

theorem test_csrr_hypotheses :
    let r := fun off => wd 0x0E 3 0 0 off
    let s := fun off => at' (r off)
    (∀ off ∈ [0x00, 0x0C, 0x188, 0x220, 0x141C - 4], (s off).Issues 2 1 (r off) 0x0E 0 ∧ fImm (r off) % 65536 = off ∧ off ∉ rcCoreOffsets ∧
      off ≠ 0x18 ∧ off ≠ 0x20 ∧ ((s off).coreReg 2 1 off).isSome = true) ∧
    (∀ off ∈ rcCoreOffsets, (s off).Issues 2 1 (r off) 0x0E 0) ∧ (s 0x20).Issues 2 1 (r 0x20) 0x0E 0 ∧ (s 0x18).Issues 2 1 (r 0x18) 0x0E 0 ∧
    (∀ off ∈ [0x02, 0x141C, 0xFFFC], off ∉ rcCoreOffsets ∧ (s off).coreReg 2 1 off = none ∧ (s off).Issues 2 1 (r off) 0x0E 0 ∧
      (at' (wd 0x0E 0 3 1 off)).Issues 2 1 (wd 0x0E 0 3 1 off) 0x0E 1) := by decide +kernel

theorem test_csrw_hypotheses :
    ∀ off ∈ [0x00, 0x0C, 0x10, 0x188, 0x340, 0x35C, 0x1400, 0x15D8, 0x1604],
      let w := wd 0x0E 0 3 1 off
      (at' w).Issues 2 1 w 0x0E 1 ∧ (off ∈ rcCoreOffsets ∨ ((at' w).coreReg 2 1 off).isSome = true) := by decide +kernel

/-- Core 2 fetches nothing at the second word; OPC 0 is unassigned (R278). -/
theorem test_held_and_illegal_hypotheses :
    (at' (wd 0x01 1 1 1 0)).ready 2 1 (wd 0x01 1 1 1 8) = false ∧ (at' 0).ready 2 1 0 = true ∧ wellFormedWord 0 = false := by decide +kernel

/-! ### Vector, quantisation and guard selection -/

def laneWord (row : LaneRow) : W64 :=
  if row.opc = 0x40 ∨ row.opc = 0x41 ∨ row.opc = 0x42 then wd row.opc 31 1 2 row.sel
  else if row.opc = 0x45 then wd row.opc 31 1 2 0 else wd row.opc 31 1 0 row.sel

/-- A VEC.SADD that stalls (R210). -/
def stalledScat : Scatter := { stalled := [{ entry := 0, value := 0, src := 4, id := 0 }] }

theorem test_lane_hypotheses :
    (∀ row ∈ laneRows,
      ((at' (laneWord row)).Issues 2 1 (laneWord row) row.opc row.sel ∧ ((at' (laneWord row)).core 2).scat.stalled.any (·.src == 4) = false) ∧
      ((withCore { core2 (laneWord row) {} with scat := stalledScat }).Issues 2 1 (laneWord row) row.opc row.sel ∧
        ((withCore { core2 (laneWord row) {} with scat := stalledScat }).core 2).scat.stalled.any (·.src == 4) = true)) ∧
    (∀ sel ∈ [0, 1], (at' (wd 0x46 9 31 0 sel)).Issues 2 1 (wd 0x46 9 31 0 sel) 0x46 sel ∧
      ((at' (wd 0x46 9 31 0 sel)).core 2).vecStalled = false) := by decide +kernel

/-- A word with a FMT field. -/
def wf (opc fmt d a b imm : Nat) : W64 := BitVec.ofNat 64 (opc * 2 ^ 56 + fmt * 2 ^ 52 + d * 2 ^ 46 + a * 2 ^ 40 + b * 2 ^ 34 + imm)

/-- s1 = 0x40_0000 and s2 as given. -/
def xs (s2 : W64) : Ctx := { s := [(1, 0x400000#64), (2, s2)] }

theorem test_vector_load_hypotheses :
    (∀ x ∈ [(12, 2), (13, 2), (14, 4)], ∀ a ∈ [0, 1],
      let w := wf 0x47 x.1 5 a 0 0
      let s := at' w (xs 0)
      let va := (s.sA 2 1 w).toNat
      s.Issues 2 1 w 0x47 0 ∧ fFmt w = x.1 ∧ va % x.2 = 0 ∧ reachesHole va (64 * x.2) = false ∧ (s.core 2).vecStalled = false ∧
        (s.readAt 2 va (64 * x.2)).toOption = some (List.replicate (64 * x.2) 0)) ∧
    (∀ f ∈ [0, 11, 15], (at' (wf 0x47 f 5 0 0 0)).Issues 2 1 (wf 0x47 f 5 0 0 0) 0x47 0 ∧ fFmt (wf 0x47 f 5 0 0 0) ∉ [12, 13, 14]) := by
  decide +kernel

theorem test_vector_store_hypotheses :
    (∀ x ∈ [(5, 1, 0x3), (7, 2, 0x8000), (8, 1, 0), (9, 1, 0), (12, 2, 0), (14, 4, 0)], ∀ a ∈ [0, 1],
      let w := wf 0x48 x.1 2 a 31 0xC5
      let s := at' w (xs (BitVec.ofNat 64 (x.2.2 * 2 ^ 32 + 0x3F800000)))
      let va := (s.sA 2 1 w).toNat
      let d := (s.ctx 2 1).readS (fD w)
      s.Issues 2 1 w 0x48 0 ∧ (s.core 2).vecStalled = false ∧
        (FV.zero.lt (f32 (d.truncate 32)) && (f32 (d.truncate 32)).isFinite) = true ∧
        ((d.extractLsb' 32 16).toInt = 0 ∨ x.1 = 5 ∨ x.1 = 7) ∧ va % x.2.1 = 0 ∧ reachesHole va (64 * x.2.1) = false ∧
        s.writableAt 2 va (64 * x.2.1) = none) ∧
    (∀ f ∈ [0, 6, 15], (at' (wf 0x48 f 5 0 0 0)).Issues 2 1 (wf 0x48 f 5 0 0 0) 0x48 0 ∧ fFmt (wf 0x48 f 5 0 0 0) ∉ [5, 7, 8, 9, 12, 14]) ∧
    (∀ f ∈ [5, 7, 8, 9, 12],
      let w := wf 0x48 f 2 1 0 0
      let s := at' w (xs 0x7F800000#64)
      s.Issues 2 1 w 0x48 0 ∧ (f32 (((s.ctx 2 1).readS (fD w)).truncate 32)).isFinite = false) := by decide +kernel

theorem test_table_load_hypotheses :
    (∀ der ∈ [0, 1],
      let w := wd 0x4A 0 1 2 der
      let s := at' w { s := [(1, 0x2FF800#64), (2, 0x0080000000000000#64)] }
      s.Issues 2 1 w 0x4A 0 ∧ (s.core 2).vecStalled = false ∧ (s.sA 2 1 w).toNat % 8 = 0 ∧ (s.sA 2 1 w).toNat + 2048 ≤ 0x300000 ∧
        (f32 ((s.sB 2 1 w).extractLsb' 0 32)).isFinite = true ∧
        ((f32 ((s.sB 2 1 w).extractLsb' 32 32)).isFinite && FV.zero.lt (f32 ((s.sB 2 1 w).extractLsb' 32 32))) = true) ∧
    (at' (wd 0x4B 0 1 2 0)).Issues 2 1 (wd 0x4B 0 1 2 0) 0x4B 0 ∧ ((at' (wd 0x4B 0 1 2 0)).core 2).vecStalled = false := by decide +kernel

/-- A descriptor of R154 at the end of the scratchpad: 8 steps of INT8, entries BF16, margin 1. -/
def cfgCore (w : W64) : Core :=
  { core2 w { s := [(1, 0x2FFFF0#64)] } with scratch := [(0x2FFFF3, 0x57#8), (0x2FFFF4, 0x04#8), (0x2FFFFA, 0x80#8), (0x2FFFFB, 0x3F#8)] }

/-- No instruction is in flight, so none observes a tracker; s1 masks trackers 0 and 63. -/
theorem test_quant_hypotheses :
    (let w := wd 0x60 0 1 0 63
     let s := withCore (cfgCore w)
     let a := (s.sA 2 1 w).toNat
     s.Issues 2 1 w 0x60 0 ∧ (s.core 2).ops = [] ∧ (s.core 2).queueFull .quant = false ∧ a % 16 = 0 ∧ a + 16 ≤ 0x300000 ∧
      (readTracker (readNat (s.core 2).scratch a 16)).isSome = true) ∧
    (∀ opc ∈ [0x61, 0x62],
      let w := wd opc 0 1 0 0
      let s := at' w { s := [(1, 0x8000000000000001#64)] }
      s.Issues 2 1 w opc 0 ∧ (s.core 2).ops = [] ∧ (s.core 2).queueFull .quant = false ∧ bit (s.sA 2 1 w).toNat 63 = true ∧
        bit (s.sA 2 1 w).toNat 62 = false) ∧
    (∀ x ∈ [(0x3F800000, true), (0, true), (0x7F800000, false), (0xBF800000, false)],
      let w := wd 0x63 7 1 0 63
      let s := at' w { s := [(1, BitVec.ofNat 64 x.1)] }
      let bound := f32 ((s.sA 2 1 w).truncate 32)
      s.Issues 2 1 w 0x63 0 ∧ (s.core 2).ops = [] ∧ (bound.isFinite && !bound.lt FV.zero) = x.2) ∧
    (let w := wd 0x64 0 1 2 63
     let s := at' w { s := [(1, 0x2FFFFE#64)] }
     let t := (s.core 2).tracker 63
     let a := (s.sA 2 1 w).toNat
     s.Issues 2 1 w 0x64 0 ∧ (s.core 2).ops = [] ∧ t.tfmt ∉ [10, 12, 13] ∧ a % entryBytes t.psfmt = 0 ∧
      a + (t.cm1 + 1) * entryBytes t.psfmt ≤ 0x300000) := by decide +kernel

theorem test_guard_select_hypotheses :
    ∀ x ∈ [(7, 0, 0, 0), (12, 0, 8, 0), (7, 1, 65536, 65536), (12, 1, 8, 1)],
      let w := wf 0x70 x.1 0 1 2 (x.2.1 * 2 ^ 17 + x.2.2.1)
      let s := at' w { s := [(1, BitVec.ofNat 64 (0x2FE000 * 2 ^ 32)), (2, BitVec.ofNat 64 (x.2.2.2 * 2 ^ 32))] }
      let sa := (s.sA 2 1 w).toNat % 2 ^ 22
      let ba := (s.sA 2 1 w).toNat / 2 ^ 32 % 2 ^ 22
      let nn := fImm w % 2 ^ 17
      let kk := (s.sB 2 1 w).toNat / 2 ^ 32 % 2 ^ 17
      s.Issues 2 1 w 0x70 0 ∧ (s.core 2).queueFull .guard = false ∧ nn = x.2.2.1 ∧ bit (fImm w) 17 = (x.2.1 == 1) ∧ nn % 8 = 0 ∧
        (nn ≠ 0 → x.2.1 = 1 → 0 < kk ∧ kk ≤ nn) ∧ (f32 ((s.sB 2 1 w).truncate 32)).isNaN = false ∧ sa % 2 = 0 ∧ ba % 4 = 0 ∧
        sa + 2 * nn ≤ 0x300000 ∧ ba + (nn + 31) / 32 * 4 ≤ 0x300000 ∧ (s.core 2).arraysBusy = false ∧ (s.core 2).vecStalled = false := by
  decide +kernel
/-! ### The DMA engine and the tile instructions -/

/-- Bytes placed in a memory. -/
def place (m : Sparse Byte) (a n v : Nat) : Sparse Byte := writeBytes m a (leBytes n v)

/-- A tensor descriptor without scales (R55), in plane layout or in element layout. -/
def tens (base fmt rows cols stride : Nat) (elem : Bool := false) : Nat :=
  base + fmt * 2 ^ 48 + (if elem then 2 ^ 57 else 0) + rows * 2 ^ 64 + cols * 2 ^ 96 + stride * 2 ^ 128

theorem test_linear_copy_hypotheses :
    ∀ x ∈ [(0, 0x400000, 0x2FFFF8, 8), (1, 0x2FFFF8, 0x5FFFF8, 8), (1, 0, 0, 0)],
      let w := wd 0x11 3 1 2 (x.1 * 2 ^ 17 + 5)
      let s := at' w { s := [(1, BitVec.ofNat 64 x.2.1), (2, BitVec.ofNat 64 x.2.2.1), (3, BitVec.ofNat 64 x.2.2.2)] }
      let a := (s.sA 2 1 w).toNat
      let b := (s.sB 2 1 w).toNat
      let n := ((s.ctx 2 1).readS (fD w)).toNat
      let u := s.struck 2 (.ce 0x400000)
      s.Accepts 2 1 w 0x11 0 .dma ∧ (a, b, n) = x.2 ∧ a % 4 = 0 ∧ b % 4 = 0 ∧ n % 4 = 0 ∧ bits (fImm w) 18 8 = 0 ∧
        (n ≠ 0 → reachesHole a n = false ∧ reachesHole b n = false ∧ (a + n ≤ b ∨ b + n ≤ a)) ∧ u.stopAt 2 true a n = none ∧
        u.stopAt 2 false b n = none := by decide +kernel

/-- A scratchpad with two INT8 descriptors at 0x1000 and 0x1040, of 32 by 32 blocks at 0x8000 and 0xC000, and a DMA descriptor at 0x2000 that
copies `rows` rows of the first to the second, or from the page beyond the partition's when `far`. -/
def dmaScratch (rows src : Nat) : Sparse Byte :=
  place (place (place [] 0x1000 64 (tens 0x8000 5 32 32 1024)) 0x1040 64 (tens 0xC000 5 32 32 1024)) 0x2000 64
    (src + 0x1040 * 2 ^ 64 + rows * 2 ^ 160)

def dmaAt (w : W64) (rows src : Nat) : State :=
  withCore { core2 w { s := [(1, 0x2000#64), (2, 0x4000#64)] } with scratch := dmaScratch rows src }

/-- How a copy ended: run to its end, refused, stopped, with tags that differ, or with nothing to copy. -/
def ended : DmaAnswer → Nat
  | .refuse _ => 1
  | .empty _ => 4
  | .ran _ stop skew => if skew then 3 else if stop.isSome then 2 else 0

theorem test_copy_hypotheses :
    (∀ x ∈ [(32, 0x1000, 0), (33, 0x1000, 1), (32, 0x600000, 2), (0, 0x1000, 4)],
      let w := wd 0x10 0 1 0 0
      let s := dmaAt w x.1 x.2.1
      let va := (s.sA 2 1 w + sextImm w).toNat
      let n := readNat (s.core 2).scratch va 64
      s.Accepts 2 1 w 0x10 0 .dma ∧ va % 64 = 0 ∧ reachesHole va 64 = false ∧ (s.readAt 2 va 64).toOption.isSome = true ∧
        ended (s.dmaCopy { k := 2, ctx := 1, bind := (s.ctx 2 1).bind, targets := s.dmaTargets 2 0 } (BitVec.ofNat 512 n) (readDma n 0)) = x.2.2) ∧
    (∀ n ∈ [0, 65536],
      let w := wd 0x12 0 1 2 n
      let s := dmaAt w 0 0
      s.Accepts 2 1 w 0x12 0 .dma ∧ (s.sA 2 1 w).toNat % 64 = 0 ∧ (s.sB 2 1 w).toNat % 16 = 0 ∧
        reachesHole (s.sB 2 1 w).toNat (16 * (fImm w % 2 ^ 17)) = false ∧ fImm w % 2 ^ 17 = n ∧ (s.readAt 2 0x2000 64).toOption.isSome = true) := by
  decide +kernel

/-- The copy of one whole block, and what it reads and writes. -/
theorem test_one_block_hypotheses :
    let w := wd 0x10 0 1 0 0
    let s := dmaAt w 32 0x1000
    let d := readDma (readNat (s.core 2).scratch 0x2000 64) 0
    let x := readTensor (readNat (s.core 2).scratch d.src 64)
    let t := readTensor (readNat (s.core 2).scratch d.dst 64)
    let n := 128 * x.width
    s.Accepts 2 1 w 0x10 0 .dma ∧ d.src = 0x1000 ∧ d.dst = 0x1040 ∧ (s.readAt 2 d.src 64).toOption.isSome = true ∧
      (s.readAt 2 d.dst 64).toOption.isSome = true ∧ OneBlockCopy d x t ∧ n = 1024 ∧ reachesHole x.base n = false ∧ reachesHole t.base n = false ∧
      (s.readAt 2 x.base n).toOption.isSome = true ∧ s.writableAt 2 t.base n = none := by
  unfold OneBlockCopy; decide +kernel

theorem test_list_is_refused_hypotheses :
    ∀ x ∈ [(0x2004, 0x4000, 1), (0x2FFFE0, 0x4000, 1), (0x2000, 0x4008, 1), (0x2000, 0x2FFFF0, 2), (0x2000, 0x4000, 65537)],
      let w := wd 0x12 0 1 2 x.2.2
      let s := at' w { s := [(1, BitVec.ofNat 64 x.1), (2, BitVec.ofNat 64 x.2.1)] }
      let va := (s.sA 2 1 w).toNat
      let list := (s.sB 2 1 w).toNat
      let n := fImm w % 2 ^ 17
      s.Accepts 2 1 w 0x12 0 .dma ∧
        (va % 64 ≠ 0 ∨ reachesHole va 64 = true ∨ list % 16 ≠ 0 ∨ reachesHole list (16 * n) = true ∨ 65536 < n) := by decide +kernel

/-- An append of `nt` tokens of one head of session 0, which is open or free with FP32 source rows at 0 and E4M3 caches. -/
def kvDesc (nt : Nat) : Nat := 1 * 2 ^ 88 + nt * 2 ^ 128

def kvAt (c : Core) (st : SessState) (arena : Nat) : State :=
  { withCore { c with scratch := place [] 0x2000 32 (kvDesc 1) } with
    parts := [(3, { part3 with arena := some (arena, 1) })]
    sess := [(0, { state := st, part := 3, fmtK := 2, fmtV := 2, dm32 := 1, layers := 1, heads := 1, plBase := 0x400000, spc := 1 })] }

theorem test_append_hypotheses :
    (∀ nt ∈ [0, 1],
      let w := wf 0x13 8 0 1 0 0
      let s := kvAt (core2 w { s := [(1, 0x2000#64)] }) .open 0x800000
      let s := s.setCore 2 { s.core 2 with scratch := place [] 0x2000 32 (kvDesc nt) }
      let d := readKv (readNat (s.core 2).scratch 0x2000 32)
      s.Accepts 2 1 w 0x13 0 .dma ∧ (s.readAt 2 0x2000 32).toOption.isSome = true ∧ s.partOf 2 = some 3 ∧ d.nt = nt ∧ d.session = 0 ∧
        KvFits d 3 (fFmt w) (s.sessOf 0)) ∧
    (let w := wf 0x13 5 0 1 0 0
     let s := kvAt (core2 w { s := [(1, 0x2000#64)] }) .open 0x800000
     s.Accepts 2 1 w 0x13 0 .dma ∧ (s.readAt 2 0x2000 32).toOption.isSome = true ∧ fFmt w = 5) ∧
    (let w := wf 0x13 8 0 1 0 0
     let s := kvAt (core2 w { s := [(1, 0x2000#64)] }) .free 0x800000
     s.Accepts 2 1 w 0x13 0 .dma ∧ (s.readAt 2 0x2000 32).toOption.isSome = true ∧ fFmt w = 8 ∧ (s.sessOf 0).state = .free) := by
  unfold KvFits; decide +kernel

/-- The append in its queue, which runs when the engine starts it: to its end, stopped with no free subpage, and over a session that is free. -/
def kvOp : InFlight := { id := 0, ctx := 1, unit := .dma, cls := 0, job := .kv { desc := BitVec.ofNat 256 (kvDesc 1), fmt := 8 } }

theorem test_append_start_hypotheses :
    ∀ x ∈ [((SessState.open, 0x800000), (none : Option FaultCode)), ((.open, 0x400000), some fltKvNospace), ((.free, 0x800000), some fltSessUnknown)],
      let s := kvAt { core2 0 {} with ops := [kvOp] } x.1.1 x.1.2
      let d := readKv (kvDesc 1)
      let r := (s.setCore 2 ((s.core 2).modOp 0 fun o => { o with started := true })).kvAppend 2 1 none d 8 3 (s.sessOf 0)
      (s.core 2).ops = [kvOp] ∧ s.partOf 2 = some 3 ∧ r.stop = x.2 ∧ (r.s.sessOf 0).part = 3 ∧ ((r.s.sessOf 0).state = .free ↔ x.1.1 = .free) ∧
        d.nt = 1 ∧ d.dm32 = 1 := by decide +kernel

/-- DMA.LIST number 0 in flight with no entry left, and one whose entry is refused (the list holds zeros). -/
def listAt (n : Nat) (rows : Nat := 32) : State :=
  let j : ListJob := { desc := BitVec.ofNat 512 (readNat (dmaScratch rows 0x1000) 0x2000 64), list := 0x4000, n := n }
  withCore { core2 0 {} with scratch := dmaScratch rows 0x1000
                             ops := [{ id := 0, ctx := 1, unit := .dma, cls := 0, started := true, job := .list j }] }

theorem test_list_entry_hypotheses :
    (∀ n ∈ [0, 1], ∃ o ∈ (listAt n).opOf 2 0, ∃ j, o.job = .list j ∧ o.started = true ∧ j.n = n ∧ j.next = 0) ∧
    ∃ o ∈ (listAt 1 33).opOf 2 0, ∃ j, o.job = .list j ∧ (((listAt 1 33).struck 2 .none).listCopy 2 o j).2.1 = some fltArgRange :=
  ⟨fun n hn => match n, hn with
    | 0, _ => ⟨_, rfl, _, rfl, rfl, rfl, rfl⟩
    | 1, _ => ⟨_, rfl, _, rfl, rfl, rfl, rfl⟩,
   ⟨_, rfl, _, rfl, by decide +kernel⟩⟩
/-- A tile descriptor of one block row and one stored block (R283): operands at 0x1000 and 0x1040, arrays `amask`. -/
def tile (mode amask rowsN nb kb krows : Nat) : BitVec 512 :=
  BitVec.ofNat 512 (mode + amask * 2 ^ 16 + rowsN * 2 ^ 64 + nb * 2 ^ 80 + kb * 2 ^ 92 + krows * 2 ^ 104 + 0x1000 * 2 ^ 256 + 0x1040 * 2 ^ 320)

/-- A core whose t1 is the tile descriptor, with its two operands and DRAIN on every stream. -/
def tileAt (w : W64) (t : BitVec 512) (x y : Nat) : State :=
  let epi : BitVec 512 := BitVec.ofNat 512 (1 + 0x10000 * 2 ^ 128 + 0x400 * 2 ^ 160)
  withCore { core2 w { t := [(1, t)] } with
    scratch := place (place [] 0x1000 64 x) 0x1040 64 y
    sheaf := { epi := [(0, epi), (1, epi)] } }

/-- What an instruction's descriptors come to; the empty one where they are refused. -/
def issued (s : State) (w : W64) (u : TileUse) : TileIssue :=
  match s.tileIssue 2 1 w u with
  | .ok t => t
  | .error _ => { d := readTileDesc 0 0, desc := 0, xt := 0, yt := 0, aux := 0, use := {} }

/-- A seed ring and the tag of an earlier product, for an instruction without START. -/
def tagged (s : State) (start : Nat) : State :=
  let sh : Sheaf :=
    { (s.core 2).sheaf with
      tags := [(0, { valid := true, kind := 0, fx := 5, fy := 5 })]
      epi := [(0, BitVec.ofNat 512 (1 + 0x10000 * 2 ^ 128 + 0x400 * 2 ^ 160 + 0x400 * 2 ^ 224))] }
  if start = 1 then s else s.setCore 2 { s.core 2 with sheaf := sh }

set_option synthInstance.maxHeartbeats 200000 in
set_option synthInstance.maxSize 1024 in
theorem test_array_hypotheses :
    ∀ x ∈ [(0, 1, 1), (0, 0, 1), (1, 1, 0)],
      let w := wf 0x20 5 1 1 0 (4 * x.2.2)
      let s := tagged (tileAt w (tile x.1 1 32 x.2.1 1 0) (tens 0x8000 5 32 32 1024) (tens 0xC000 5 32 32 1024)) x.2.2
      let t := issued s w .stream
      let xt := readTensor t.xt.toNat
      let yt := readTensor t.yt.toNat
      let tm := termOf w t.aux.toNat
      let epi := sget 0 (s.core 2).sheaf.epi 0
      let job := mkJob .stream w t epi t.d.tiles t.d.tiles
      let empty := arrEmpty (s.core 2).scratch t.d tm xt yt
      s.Accepts 2 1 w 0x20 0 (.stream 0) ∧ s.namesLog4 2 1 w = false ∧ (s.tileIssue 2 1 w .stream).toOption.isSome = true ∧
        StreamFits (s.core 2).sheaf w t xt yt {} {} (readEpi epi.toNat) tm ∧ tSpx w = false ∧ tSpy w = false ∧ empty = (x.2.1 == 0) ∧
        s.tileHole (job.ctx 2 0) t.d.tiles = false ∧ t.d.split = (s.core 2).sheaf.split ∧ (s.core 2).epiLoading 0 = false ∧ tm.sel = false ∧
        ([(0, 31, 0)].filter fun p => t.d.arrays.contains p.1 && (subRows t.d.split 0).contains p.2.1) = [(0, 31, 0)] := by
  unfold StreamFits AxisFits; dsimp only; decide +kernel

set_option synthInstance.maxHeartbeats 200000 in
set_option synthInstance.maxSize 1024 in
/-- A split that changes: SPLIT 1 of the descriptor where the sheaf holds 0, with no tile in flight. -/
theorem test_array_split_hypotheses :
    let w := wf 0x20 5 1 1 0 4
    let s := tileAt w (tile 1 1 32 1 1 0 ||| BitVec.ofNat 512 (2 ^ 2)) (tens 0x8000 5 32 32 1024) (tens 0xC000 5 32 32 1024)
    let t := issued s w .stream
    let tm := termOf w t.aux.toNat
    let epi := sget 0 (s.core 2).sheaf.epi 0
    (s.tileIssue 2 1 w .stream).toOption.isSome = true ∧ t.d.split = 1 ∧ (s.core 2).sheaf.split = 0 ∧ (s.core 2).tilesInFlight = false ∧
      StreamFits (s.core 2).sheaf w t (readTensor t.xt.toNat) (readTensor t.yt.toNat) {} {} (readEpi epi.toNat) tm := by
  unfold StreamFits AxisFits; dsimp only; decide +kernel

theorem test_guard_pass_hypotheses :
    ∀ nb ∈ [0, 1],
      let w := wf 0x71 5 0 1 0 (2 ^ 18 + 2 ^ 22)
      let s := tileAt w (tile 0 1 0 nb 1 32) (tens 0x8000 5 32 32 1024) (tens 0xC000 5 32 32 1024)
      let term := 0x3200 * 2 ^ 64 + 32 * 2 ^ 96 + 0x3000 * 2 ^ 192 + 0x3100 * 2 ^ 224
      let s := s.setCore 2 { s.core 2 with scratch := place (s.core 2).scratch 0 32 term }
      let t := issued s w .guard
      let xt := readTensor t.xt.toNat
      let yt := readTensor t.yt.toNat
      s.Accepts 2 1 w 0x71 0 .guard ∧ (s.tileIssue 2 1 w .guard).toOption.isSome = true ∧
        GuardFits w t (termOf w t.aux.toNat) xt yt ∧ s.tileHole ((mkJob .guard w t 0 t.d.nb 0).ctx 2 0) t.d.nb = false ∧
        (s.core 2).sheaf.split = 0 ∧ (s.core 2).guarding = false ∧ (xt.isEmpty || yt.isEmpty || t.d.nb == 0 || t.d.kb == 0) = (nb == 0) := by
  unfold GuardFits; decide +kernel

theorem test_table_product_hypotheses :
    ∀ row ∈ [(0x50, false, 0, 128), (0x51, true, 11, 512)], ∀ nb ∈ [0, 1],
      let w := wf row.1 row.2.2.1 1 1 0 4
      let s := tileAt w (tile 0 1 0 nb 1 0) (tens 0x8000 12 32 32 2048) (tens 0xC000 row.2.2.1 32 32 row.2.2.2)
      let t := issued s w .table
      let xt := readTensor t.xt.toNat
      let yt := readTensor t.yt.toNat
      let epi := sget 0 (s.core 2).sheaf.epi 0
      let job := mkJob (if row.2.1 then .log else .table) w t epi t.d.nb (ceilDiv t.d.nb 32)
      s.Accepts 2 1 w row.1 0 .tab ∧ (s.tileIssue 2 1 w .table).toOption.isSome = true ∧
        TabFits (s.core 2) row.2.1 w t (readEpi epi.toNat) xt yt ∧ s.tileHole (job.ctx 2 0) t.d.nb = false ∧ (s.core 2).ops = [] ∧
        (s.core 2).epiLoading 0 = false ∧ (xt.isEmpty || yt.isEmpty || t.d.nb == 0 || t.d.kb == 0) = (nb == 0) := by
  unfold TabFits; decide +kernel

/-- A compressed-row descriptor (R196) of INT8 values: pointers at `ptr`, indices at `idx`. -/
def crow (val ptr idx rows cols : Nat) : Nat :=
  val + 5 * 2 ^ 48 + rows * 2 ^ 64 + cols * 2 ^ 96 + ptr * 2 ^ 128 + idx * 2 ^ 192 + 4 * (rows + 1) * 2 ^ 320 + 32 * 2 ^ 384

theorem test_sparse_product_hypotheses :
    ∀ rowsN ∈ [0, 1],
      let w := wf 0x21 5 0 1 0 0
      let s := tileAt w (tile 0 1 rowsN 0 0 1) (crow 0x8000 0xA000 0xB000 1 32) (crow 0xC000 0xE000 0xF000 1 32)
      let t := issued s w .cam
      let xr := readCRow t.xt.toNat
      let yr := readCRow t.yt.toNat
      let o := s.camRun 2 xr yr t.d (s.chaffRoom 2 none)
      s.Accepts 2 1 w 0x21 0 (.stream 0) ∧ (s.tileIssue 2 1 w .cam).toOption.isSome = true ∧ CamFits (s.core 2) w t xr yr ∧
        s.camHole 2 xr yr t.d = false ∧ o.skews = 0 ∧ o.stop = none ∧ t.d.rowsN = rowsN := by
  unfold CamFits; decide +kernel

theorem test_epilogue_hypotheses :
    (let w := wd 0x30 0 1 0 3
     let s := dmaAt w 0 0
     s.Accepts 2 1 w 0x30 0 .epi ∧ (s.sA 2 1 w).toNat % 64 = 0 ∧ reachesHole (s.sA 2 1 w).toNat 64 = false ∧
      (s.readAt 2 (s.sA 2 1 w).toNat 64).toOption.isSome = true) ∧
    (∀ ne ∈ [0, 65536],
      let w := wd 0x31 0 1 2 ne
      let s := dmaAt w 0 0
      s.Accepts 2 1 w 0x31 0 .epi ∧ fImm w % 2 ^ 17 = ne ∧ ne % 32 = 0 ∧ (s.core 2).scat.idle = true) ∧
    (let sc : Scatter := { queues := [(3, [{ entry := 65535, value := 0x3F800000#32, src := 4, id := 0 }])] }
     let s := withCore { core2 0 {} with scat := sc }
     (sget [] (s.core 2).scat.queues 3).length = 1 ∧ sget [] (s.core 2).scat.queues 0 = []) ∧
    (∀ x ∈ [(0, 0), (65536, 1)],
      let w := wd 0x32 0 1 2 (x.1 + x.2 * 2 ^ 17 + 2 ^ 18)
      let s := tileAt w 0 0 0
      let e := readEpi (sget 0 (s.core 2).sheaf.epi 1).toNat
      s.Accepts 2 1 w 0x32 0 .epi ∧ fImm w / 2 ^ 18 % 4 = 1 ∧ fImm w % 2 ^ 17 = x.1 ∧ e.refusal 1 true 128 = none ∧ e.corr = false ∧
        x.1 % 32 = 0 ∧ (s.core 2).scat.idle = true) := by decide +kernel
/-! ### Slots, objects, items and FAB -/

/-- Core 2 with a slot descriptor of 4 entries of 16 bytes at 0x100, objects F and D, and object F at `f`. -/
def slotAt (w : W64) (objF objD f pos : Nat) : State :=
  { withCore { core2 w { s := [(1, 0x100#64), (2, BitVec.ofNat 64 pos)] } with
      scratch := place [] 0x100 16 (0x2000 + 16 * 2 ^ 32 + objF * 2 ^ 64 + objD * 2 ^ 96 + 3 * 2 ^ 113) } with
    objs := if f = 0 then [] else [(objF, BitVec.ofNat 32 f)] }

theorem test_slot_hypotheses :
    (∀ x ∈ [(0x80, 1, 0), (0x80, 0, 0), (0x81, 0, 3), (0x81, 0, 4)],
      let w := wd x.1 31 1 2 0
      let s := slotAt w 0 1023 x.2.1 x.2.2
      let pos : W32 := (s.sB 2 1 w).truncate 32
      let d := readSlotDesc (s.core 2).scratch (s.sA 2 1 w).toNat
      s.Issues 2 1 w x.1 0 ∧ d = some { base := 0x2000, esize := 16, objF := 0, objD := 1023, n := 4 } ∧ s.objGranted 2 0 = true ∧
        s.objGranted 2 1023 = true ∧
        (0 ≤ (if x.1 = 0x80 then s.obj 0 - (pos + 1) else s.obj 1023 + 4 - (pos + 1)).toInt ↔ (x.2.1 = 1 ∨ x.2.2 = 3))) ∧
    (∀ opc ∈ [0x82, 0x83], (slotAt (wd opc 0 1 0 0) 0 1 0 0).Accepts 2 1 (wd opc 0 1 0 0) opc 0 .slot) ∧
    (∀ x ∈ [(0x80, 2), (0x81, 2), (0x82, 0), (0x83, 0)],
      let w := wd x.1 0 1 x.2 0
      (at' w).Accepts 2 1 w x.1 0 .slot ∧ readSlotDesc ((at' w).core 2).scratch ((at' w).sA 2 1 w).toNat = none) ∧
    (∀ x ∈ [(0x80, 0, 1024), (0x81, 1024, 0), (0x82, 1024, 1), (0x83, 1, 1024)],
      let w := wd x.1 0 1 (if x.1 < 0x82 then 2 else 0) 0
      let s := slotAt w x.2.1 x.2.2 0 0
      s.Accepts 2 1 w x.1 0 .slot ∧ (readSlotDesc (s.core 2).scratch (s.sA 2 1 w).toNat).map (fun d => (d.objF, d.objD)) = some x.2 ∧
        (s.objGranted 2 x.2.1 = false ∨ s.objGranted 2 x.2.2 = false)) := by decide +kernel

theorem test_sync_hypotheses :
    (∀ x ∈ [(0x90, 0, 0), (0x91, 0, 0), (0x92, 9, 0), (0x93, 9, 0), (0x93, 9, 1)],
      let w := wd x.1 x.2.1 1 2 (if x.1 = 0x93 then 1023 else 1023 + 5 * 2 ^ 17)
      let s := slotAt w 1023 0 x.2.2 0
      let s := s.setCtx 2 1 { s.ctx 2 1 with s := [] }
      let n := syncObj (s.ctx 2 1) w
      s.Accepts 2 1 w x.1 0 .sync ∧ n = 1023 ∧ s.objGranted 2 n = true ∧ (s.obj n = (s.sB 2 1 w).truncate 32 ↔ x.2.2 = 0)) ∧
    (∀ opc ∈ [0x90, 0x91, 0x92, 0x93],
      let w := wd opc (if opc < 0x92 then 0 else 9) 1 2 1024
      (at' w).Accepts 2 1 w opc 0 .sync ∧ (at' w).objGranted 2 (syncObj ((at' w).ctx 2 1) w) = false) ∧
    (∀ amount ∈ [0, 1],
      let w := wd 0x91 0 0 0 (amount * 2 ^ 17)
      (at' w).Issues 2 1 w 0x91 0 ∧ (at' w).objGranted 2 (syncObj ((at' w).ctx 2 1) w) = true ∧ (0 ≤ ((at' w).obj 0 - BitVec.ofNat 32 amount).toInt ↔ amount = 0)) := by
  decide +kernel

/-- Two contexts that wait on object 0: one released, on a SLOT, one not. -/
def waiting : State :=
  let w0 : Wait := { kind := .slot 0 0 0 5 0x2000#64 }
  { withCore { core2 0 {} with ctxs := [(0, { mode := .wait, wait := some w0 }), (1, { mode := .wait, wait := some { kind := .sync 0 9#32 } })] } with
    waiters := [(0, [{ core := 2, who := .ctx 0, satisfied := true }, { core := 2, who := .ctx 1 }])] }

theorem test_waiter_hypotheses :
    let go := (sget [] waiting.waiters 0).filter (·.satisfied)
    go.length = 1 ∧ (go.all fun w => w.who == .ctx 0) = true ∧ (waiting.ctx 2 0).wait = some { kind := .slot 0 0 0 5 0x2000#64 } ∧
      ∀ i ∈ [0, 1, 2, 3], ((waiting.ctx 2 i).wait.all fun y => y.kind.obj?.isSome) = true := by decide +kernel

/-- A context of item `i` of request 0, which has two items; the completion ring takes records when `en`. -/
def itemAt (w : W64) (valid en : Bool) (i : Nat) (ops : List InFlight) (x : ItemInfo := {}) : State :=
  { withCore { core2 w { item := { valid := valid, req := 0, item := i } } with ops := ops } with
    reqs := [(0, { req0 with items := if x = {} then [] else [(i, x)] })]
    parts := [(3, { part3 with cpl := { ring := { en := en } } })] }

def itemOp : InFlight := { id := 0, ctx := 1, unit := .dma, cls := 0, bind := some (0, 1) }

theorem test_item_hypotheses :
    (∀ i ∈ [0, 1, 2],
      let w := wd 0xA0 0 1 0 1
      let s := itemAt w false true 0 []
      let s := s.setCtx 2 1 { s.ctx 2 1 with s := [(1, BitVec.ofNat 64 (i * 2 ^ 32))] }
      s.Issues 2 1 w 0xA0 0 ∧ bit (fImm w) 0 = true ∧ (s.request ((s.sA 2 1 w).toNat % 2 ^ 14)).isSome = true ∧ some req0.part = s.partOf 2 ∧
        ((s.sA 2 1 w).toNat / 2 ^ 32 % 2 ^ 32 < req0.count ↔ i < 2)) ∧
    ((at' (wd 0xA0 0 0 0 1)).Issues 2 1 (wd 0xA0 0 0 0 1) 0xA0 0 ∧ (at' (wd 0xA0 0 0 0 1)).request 0 = none) ∧
    ((at' (wd 0xA0 0 0 0 0)).Issues 2 1 (wd 0xA0 0 0 0 0) 0xA0 0 ∧ bit (fImm (wd 0xA0 0 0 0 0)) 0 = false) ∧
    (at' (wd 0xA2 0 0 0 0)).Issues 2 1 (wd 0xA2 0 0 0 0) 0xA2 0 := by decide +kernel

theorem test_end_hypotheses :
    (let w := wd 0xA1 0 0 0 0
     (itemAt w true true 1 []).Issues 2 1 w 0xA1 0 ∧ bit (fImm w) 0 = false ∧ ((itemAt w true true 1 []).ctx 2 1).item.valid = true) ∧
    (let w := wd 0xA1 0 0 0 1
     ∀ x ∈ [(true, false, [], false), (false, true, [], false), (true, true, [itemOp], false), (true, true, [], true), (true, true, [], false)],
       let s := itemAt w x.1 x.2.1 1 x.2.2.1 (if x.2.2.2 then { status := .done } else {})
       s.Issues 2 1 w 0xA1 0 ∧ bit (fImm w) 0 = true ∧ s.partOf 2 = some 3 ∧ (s.part 3).cplHeld = !x.2.1 ∧ (s.ctx 2 1).item.valid = x.1 ∧
        ((s.core 2).ops.any fun o => o.bind == some (0, 1)) = !x.2.2.1.isEmpty ∧ s.itemOpen 0 1 = !x.2.2.2 ∧ (s.request 0).isSome = true ∧ ∀ i ∈ [0, 1, 2, 3], (s.ctx 2 i).wait = none) ∧
    (let w := wd 0xA1 0 0 0 1
     let s := (itemAt w true true 1 []).setCtx 2 3 { mode := .wait, wait := some { kind := .sync 0 9#32, bind := some (0, 1) } }
     s.Issues 2 1 w 0xA1 0 ∧ (s.part 3).cplHeld = false ∧ (s.ctx 2 1).item.valid = true ∧ ((s.ctx 2 3).wait.map (·.bind)) = some (some (0, 1))) := by
  decide +kernel

/-- SESS.END as it waits: for an instruction in flight, for a context, and for neither, on an open item or on none. -/
theorem test_end_waits_hypotheses :
    ∀ x ∈ [([0], [], [itemOp], some (0, 1)), ([], [3], [], some (0, 1)), ([0], [], [], some (0, 1)), ([0], [], [], none)],
      let y : Wait := { kind := .sessEnd x.1 x.2.1, bind := x.2.2.2 }
      let s := (itemAt 0 true true 1 x.2.2.1).setCtx 2 1 { mode := .wait, wait := some y }
      (s.ctx 2 1).wait = some y ∧ ((x.2.1 ≠ [] ∨ ∃ o ∈ (s.core 2).ops, o.id ∈ x.1) ∨ (x.2.1 = [] ∧ ∀ o ∈ (s.core 2).ops, o.id ∉ x.1)) := by
  decide +kernel

theorem test_next_and_hint_hypotheses :
    (∀ x ∈ [([], none), ([0], none), ([0], some 262143)],
      let w := wd 0xA3 9 0 0 0
      let s := { at' w with reqs := [(0, { req0 with session := x.2 })], queues := if x.1 = [] then [] else [(0, x.1)] }
      s.Accepts 2 1 w 0xA3 0 .sess ∧ sget [] s.queues (groupOf 2) = x.1 ∧ (s.request 0).isSome = true) ∧
    (∀ x ∈ [(2 ^ 48 - 1, 2, false, 0), (2 ^ 48 - 1, 1, true, 0), (0x400000, 0x200000, true, 0), (0x400000, 1, true, 3)],
      let w := wd 0xA4 0 1 2 x.2.2.2
      let s := at' w { s := [(1, BitVec.ofNat 64 x.1), (2, BitVec.ofNat 64 x.2.1)] }
      s.Accepts 2 1 w 0xA4 0 .sess ∧ s.partOf 2 = some 3 ∧ ((s.sA 2 1 w).toNat + (s.sB 2 1 w).toNat ≤ 2 ^ 48 ↔ x.2.2.1 = true)) := by
  decide +kernel

theorem test_hint_unit_hypotheses :
    ∀ x ∈ [(1, true), (0, false)],
      let u : Sys2Proof.Machine.PUnit := {}
      let m : Sys2Proof.Machine.Mem := { units := [(0x400000, u)] }
      u.pinned = false ∧ decide (m.pinUsed + u.pinCount ≤ x.1 * 32) = x.2 := by decide +kernel

theorem test_fabric_hypotheses :
    ∀ opc ∈ [0xB0, 0xB1], ∀ x ∈ [(7, 0x1000, 64, true), (7, 0x1000, 0, true), (7, 0x1040, 4, false), (0, 0x1000, 4, false), (8, 0x1000, 4, false)],
      let w := wd opc 0 1 0 0
      let s := { dmaAt w 0 0 with parts := [(3, { part3 with rwins := [(5, { module := 7, ebase := 0x1000, size := 64, key := 3#64 })] })] }
      let v := x.2.1 + x.1 * 2 ^ 45 + 0x400000 * 2 ^ 64 + x.2.2.1 * 2 ^ 128 + 5 * 2 ^ 192
      let s := s.setCore 2 { s.core 2 with scratch := place [] 0x2000 32 v }
      let e := (s.part 3).rwin (bits v 192 12)
      s.Accepts 2 1 w opc 0 .fab ∧ (s.sA 2 1 w + sextImm w).toNat = 0x2000 ∧
        ((s.readAt 2 0x2000 32).toOption.map leNat) = some v ∧ s.partOf 2 = some 3 ∧ e.size ≠ 0 ∧
        bits v 57 7 + bits v 112 16 + bits v 168 24 + bits v 222 34 = 0 ∧ reachesHole (bits v 64 48) (bits v 128 40) = false ∧
        ((bits v 45 12 ≠ s.fabric.id ∧ (bits v 128 40 ≠ 0 → e.module = bits v 45 12 ∧ e.ebase ≤ bits v 0 45 ∧
          bits v 0 45 + bits v 128 40 ≤ e.ebase + e.size)) ↔ x.2.2.2 = true) := by decide +kernel
/-! ### Rings, pages, copies and streams -/

/-- A ring entry: its fields by byte offset. -/
def entry (fields : List (Nat × Nat)) : Entry := BitVec.ofNat 1024 (fields.foldl (fun v f => v + f.2 * 2 ^ (8 * f.1)) 0)

def openRing : HostRing := { en := true, tail := 1, base := 0x10000#64 }

/-- Partition 3 with a command to fetch and a completion ring that takes its record. -/
def ringPart : PartBlock := { part3 with cmd := openRing, req := openRing, cpl := { ring := { en := true, base := 0x20000#64 } } }

/-- A module at STAGE 9 with that partition, and a port 1 with an admin command to fetch. -/
def serving (b : PartBlock := ringPart) : State :=
  { boot := { stage := 9 }, parts := [(3, b)], ports := [(1, { released := true, adm := openRing, acpl := { ring := { en := true } } })] }

theorem test_record_hypotheses : (serving.part 3).cpl.ring.en = true ∧ (serving.part 3).cpl.ring.isFull = false ∧ (serving.part 3).cpl.held = [] := by
  decide +kernel

theorem test_ring_hypotheses :
    ((serving { ringPart with cmd := { openRing with tail := 0 } }).canFetchCmd 3 = false) ∧ serving.canFetchCmd 3 = true ∧ eAuth (entry [(0, 0x100)]) = true ∧
    ((cmdRows none .none none true).all fun row => !entryOk row.2.2 (entry [(0, row.2.1), (0x78 + 8, 1)]) || !entryOk row.2.2 (entry [(0, row.2.1), (0x5F, 1)])) =
      true ∧ ((cmdRows none .none none true).all fun row => eCode (entry [(0, row.2.1)]) == row.2.1) = true ∧ eCode (entry [(0, 0x77)]) = 0x77 ∧
    serving.owns 0 3 = false ∧ serving.owns 1 3 = true ∧ (64 : W32).toNat % 2 ^ 16 = 2 ^ (serving.part 3).cmd.log2 ∧
    (let b := { ringPart with cpl := { ringPart.cpl with since := 1, irqUs := 1 } }
     b.state ≠ .free ∧ b.cpl.since ≠ 0 ∧ b.cpl.irqUs ≠ 0) ∧
    eCode (entry [(0, 0)]) ∉ cmdRingCodes ∧ serving.canFetchAdm 1 = true ∧ eCode (entry [(0, 0)]) ∉ admRingCodes ∧ serving.fuses.lc ≠ .scrap := by
  decide +kernel

/-- A range of pages (R489). -/
def pagesEntry (code va pages : Nat) : Entry := entry [(0, code), (8, va), (0x10, pages)]

theorem test_page_hypotheses :
    (∀ x ∈ [(0x400000, 1, true, true), (2 ^ 48 - 0x200000, 1, true, true), (0x400000, 101, true, false), (0x400000, 0, false, true),
        (0x400001, 1, false, true), (0x200000, 1, false, true), (2 ^ 48 - 0x200000, 2, false, true)],
      let e := pagesEntry 0x05 x.1 x.2.1
      let b := serving.part 3
      serving.Fetches 3 0x05 e memBody ∧ eBits e 0x08 0 48 = x.1 ∧ eBits e 0x10 0 32 = x.2.1 ∧
        ((x.1 % 2097152 = 0 ∧ x.2.1 ≠ 0 ∧ 0x400000 ≤ x.1 ∧ x.1 + x.2.1 * 2097152 ≤ 2 ^ 48) ↔ x.2.2.1 = true) ∧
        meetsArena b.arena x.1 (x.2.1 * 2097152) = false ∧
        (b.memUse + ((List.range x.2.1).filter fun i => (b.mem.unitAt (x.1 + 2097152 * i)).isNone).length ≤ b.grant.memQuota ↔ x.2.2.2 = true)) ∧
    ((serving.takeCmd 3).mapUnit 3 (2 ^ 48 - 0x200000) false 0).isSome = true ∧
    (∀ x ∈ [(0x06, 0x400000, 1), (0x06, 0x400001, 1), (0x06, 0x400000, 0), (0x10, 0x800000, 1), (0x10, 0x400000, 1), (0x10, 0x400000, 0)],
      serving.Fetches 3 x.1 (pagesEntry x.1 x.2.1 x.2.2) memBody) ∧
    (∀ x ∈ serving.sess, x.2.part = 3 → x.2.state = .free) ∧
    (∀ x ∈ (serving.part 3).mem.units, 0x800000 + 2097152 ≤ x.1 ∨ x.1 + x.2.size ≤ 0x800000) := by decide +kernel

theorem test_host_copy_hypotheses :
    ∀ x ∈ [(0, 8, none, true), (1, 8, some 8, true), (0, 8, some 7, true), (1, 0x200004, none, false)],
      let e := entry [(0, 0x07), (8, x.1), (0x10, 0x30000), (0x18, 0x400000), (0x20, x.2.1)]
      let u := (serving.takeCmd 3).strike 3 .none
      serving.Fetches 3 0x07 e hcopyBody ∧ eBits e 0x10 0 64 % 4 = 0 ∧ eBits e 0x18 0 48 = 0x400000 ∧ eBits e 0x20 0 32 = x.2.1 ∧ x.2.1 % 4 = 0 ∧
        eBits e 0x08 0 1 = x.1 ∧
        (if x.2.1 ≤ 8 then (u.check 3 (x.1 == 1) 0x400000 x.2.1).isNone = true else
          (u.check 3 (x.1 == 1) 0x5FFFFC 8).isSome = true) := by decide +kernel

/-- Stream 2 configured, with a burst in progress when `burst`. -/
def streaming (burst : Bool) : State :=
  let x : InStream := { configured := true, dst := 0x400000, dbytes := 64, obj := 5, gapUs := 1000, offset := 60 }
  serving { ringPart with streams := [(2, if burst then { x with burst := some 4, expected := some 7#32 } else x)] }

theorem test_stream_hypotheses :
    (let e := entry [(0, 0x08), (8, 2), (0x10, 0x400000), (0x18, 64), (0x1C, 1023), (0x20, 10)]
     serving.Fetches 3 0x08 e streamCfgBody ∧ eBits e 0x10 0 48 % 64 = 0 ∧ eBits e 0x18 0 32 = 64 ∧ eBits e 0x20 0 24 = 10 ∧
      (serving.part 3).hasObj (eBits e 0x1C 0 17) = true) ∧
    (∀ x ∈ [(true, 0x32, 0), (false, 0x22, 7), (false, 2, 6), (false, 2, 8), (true, 2, 7)],
      let s := streaming (x.2.1 != 0x22 || x.2.2 != 0)
      let e := entry [(0, 0x09), (8, x.2.1), (0x0C, x.2.2), (0x10, 0x30000), (0x18, 64)]
      s.Fetches 3 0x09 e chunkBody ∧ ((s.part 3).stream (eBits e 0x08 0 4)).configured = true ∧
        eBits e 0x18 0 32 ≤ ((s.part 3).stream 2).dbytes ∧ bit (eBits e 0x08 0 32) 4 = (x.2.1 == 0x32) ∧
        ((s.part 3).stream 2).expected = some 7#32 ∧ (BitVec.ofNat 32 (eBits e 0x0C 0 32)).toNat = x.2.2) ∧
    (streaming false).check 3 false 0x40003C 64 = none ∧ ((streaming false).part 3 |>.stream 2).burst = none ∧
    ((streaming true).part 3 |>.stream 2).burst = some 4 := by decide +kernel
/-! ### Sessions, requests, programs, windows of a partition -/

theorem test_session_hypotheses :
    (let e := entry [(0, 0x11), (8, 2 * 1 + 1 + 4 * 8), (0x0C, 1 + 2 ^ 12), (0x10, 0x400000), (0x18, 1)]
     let s := serving { ringPart with arena := some (0x800000, 1) }
     s.Fetches 3 0x11 e sessOpenBody ∧ eBits e 0x08 2 4 = 8 ∧ eBits e 0x0C 0 12 = 1 ∧ eBits e 0x0C 12 8 = 1 ∧ eBits e 0x18 0 16 = 1 ∧
      (s.part 3).mem.mapped 0x400000 512 = true ∧ (s.sessOf 0).state = .free ∧ (s.part 3).arena ≠ none) ∧
    (∀ st ∈ [SessState.free, .open, .closing], ∀ part ∈ [3, 4],
      let s := { serving with sess := sput {} [] 262143 { state := st, part := part, high := 64, fmtK := 1, heads := 1, layers := 1, dm32 := 1 } }
      let e := entry [(0, 0x12), (8, 262143)]
      s.Fetches 3 0x12 e sessBody ∧ (s.sessOf 262143).state = st ∧ (s.sessOf 262143).part = part ∧ (s.sessOf 262143).assigned = 0) ∧
    (∀ x ∈ [(5, 5), (0, 64), (6, 5)], serving.Fetches 3 0x13 (entry [(0, 0x13), (8, 0), (0x10, x.1), (0x14, x.2)]) (sessBody ++ [(0x10, 0, 64)])) ∧
    (serving.Fetches 3 0x14 (entry [(0, 0x14), (8, 0), (0x10, 0x30040)]) (sessBody ++ [(0x10, 0, 64)]) ∧ 0x30040 % 64 = 0) := by decide +kernel

theorem sget_consecutive {α : Type} (d x : α) : ∀ (n a i : Nat), a ≤ i → i < a + n → sget d ((List.range' a n).map fun j => (j, x)) i = x
  | 0, a, i, h, h' => absurd h' (by omega)
  | n + 1, a, i, h, h' => by
    rw [List.range'_succ, List.map_cons, sget]
    by_cases e : a = i
    · simp [e]
    · have := sget_consecutive d x n (a + 1) i (by omega) (by omega)
      simp only [e, if_false]
      exact this

/-- A full directory. -/
theorem test_directory_full : ∃ s : State, ∀ i, i < 262144 → (s.sessOf i).state ≠ .free :=
  ⟨{ serving with sess := (List.range' 0 262144).map fun j => (j, { state := .open, part := 4 }) }, fun i h => by
    rw [State.sessOf, sget_consecutive _ _ 262144 0 i (by omega) (by omega)]
    exact SessState.noConfusion⟩

theorem test_request_hypotheses :
    (let e := entry [(0, 1), (8, 2 ^ 18), (0x0C, 1)]
     let s := serving { ringPart with grant := { part3.grant with reqTable := 0x400000 } }
     let far := serving { ringPart with grant := { part3.grant with reqTable := 0x5FFFFF } }
     s.canFetchReq 3 = true ∧ eCode e = 1 ∧ eCode (entry [(0, 2)]) ≠ 1 ∧ eAuth e = false ∧ entryOk reqBody e = true ∧ s.inFlight 3 < (s.part 3).grant.reqMax ∧ s.request 0 = none ∧
      eBits e 0x0C 0 32 = 1 ∧ eBits e 0x08 18 1 = 1 ∧ s.check 3 false 0x400000 64 = none ∧
      (far.check 3 false 0x5FFFFF 64).isSome = true ∧ (s.sessOf 0).state ≠ .open ∧
      entryOk reqBody (entry [(0, 1), (0x0A, 0x10)]) = false ∧ (serving { ringPart with grant := { part3.grant with reqMax := 0 } }).inFlight 3 = 0) ∧
    (serving { ringPart with req := {} }).canFetchReq 3 = false ∧ serving.Fetches 3 0x02 (entry [(0, 2), (8, 7)]) [(0x08, 0, 32)] := by decide +kernel

/-- Partition 3 ready, with a window of 65536 bytes of module 7. -/
def ready (halted failed : Bool) (slot : Nat) : State :=
  { serving { ringPart with state := .ready, rwins := [(5, { module := 7, ebase := 0, size := 2097152 * slot })] } with
    health := { halted := halted }, cores := if failed then [(7, { failed := true })] else [] }

theorem test_start_hypotheses :
    (∀ n ∈ [1, 2, 4],
      let e := entry [(0, 3), (8, 0x400000), (0x10, 0x500000), (0x18, n)]
      let s := ready false false 1
      s.Fetches 3 0x03 e startBody ∧ eBits e 0x08 0 48 = 0x400000 ∧ eBits e 0x18 0 3 = n ∧ (s.part 3).state = .ready ∧ s.health.halted = false ∧
        (∀ k ∈ (s.part 3).cores, (s.core k).failed = false) ∧ (s.part 3).cores.length = 8 ∧ eBits e 0x40 0 1 = 0) ∧
    ((serving.part 3).state ≠ .ready ∧ (ready true false 1).health.halted = true ∧
      (∃ k ∈ ((ready false true 1).part 3).cores, ((ready false true 1).core k).failed = true)) ∧
    (∀ x ∈ [(5, 1, true), (5, 2, false), (4, 1, false)],
      let e := entry [(0, 3), (8, 0x400000), (0x18, 1), (0x40, 1 + x.1 * 16 + x.2.1 * 65536)]
      let s := ready false false 1
      s.Fetches 3 0x03 e startBody ∧ eBits e 0x40 0 1 = 1 ∧ ((s.takeCmd 3).startSlots 3 (eBits e 0x40 4 12) (eBits e 0x40 16 16)).isOk = x.2.2) ∧
    (∀ x ∈ [(0x400004, 1), (0x3FFFF8, 1), (0x400000, 3), (0x400000, 0)],
      let e := entry [(0, 3), (8, x.1), (0x18, x.2)]
      (ready false false 1).Fetches 3 0x03 e startBody ∧ (x.1 % 8 ≠ 0 ∨ x.1 < 0x400000 ∨ (x.2 ≠ 1 ∧ x.2 ≠ 2 ∧ x.2 ≠ 4))) ∧
    serving.Fetches 3 0x04 (entry [(0, 4)]) [] ∧ (serving.part 3).state = .run ∧ (ready false false 1).Fetches 3 0x04 (entry [(0, 4)]) [] := by decide +kernel

/-- Eight cores, of which core 2 waits at a SESS.STEP and the others have ended. -/
def stepping (b : PartBlock) : State :=
  let halted : Core := { ctxs := [(0, { mode := .halted })] }
  { serving b with cores := (List.range 8).map fun k => (k, if k = 2 then { ctxs := [(0, { mode := .wait, wait := some { kind := .step } })] } else halted) }

def ended' : State := { stepping ringPart with cores := (List.range 8).map fun k => (k, { ctxs := [(0, { mode := .halted })] }) }

theorem test_boundary_hypotheses :
    serving.atBoundary 3 = false ∧ (stepping ringPart).atBoundary 3 = true ∧
    (∀ x ∈ [(false, 1, false), (true, 1, true), (true, 2, false)],
      let b := { ringPart with sec := { ringPart.sec with en := x.1, every := x.2.1 } }
      (stepping b).atBoundary 3 = true ∧ ((b.sec.en = true ∧ ((b.sec.every ≠ 0 ∧ (b.prog.step + 1).toNat % b.sec.every = 0) ∨ b.sec.pending = true)) ↔
        x.2.2 = true)) ∧
    (stepping { ringPart with halting := true }).atBoundary 3 = true ∧ (stepping { ringPart with failing := [(5, true)] }).atBoundary 3 = true ∧
    ended'.allOver 3 = true ∧ (ended'.part 3).state = .run ∧ (ended'.part 3).refill = [] ∧ (ended'.part 3).prog.stopping = false ∧ (ended'.part 3).prog.faults = [] ∧
    (let s := ended'.setPart 3 { ended'.part 3 with prog := { faults := [(2, 0, fltIfetch)] } }
     s.allOver 3 = true ∧ (s.part 3).prog.stopping = false ∧ (s.part 3).prog.faults = [(2, 0, fltIfetch)]) ∧
    (let s := ended'.setPart 3 { ended'.part 3 with prog := { stopping := true } }
     s.quiet 3 = true ∧ (s.part 3).refill = []) ∧
    (let s := ended'.setPart 3 { ended'.part 3 with state := .ready }
     (s.part 3).state ≠ .run) := by decide +kernel

theorem test_fetch_hypotheses :
    (let w := wd 0x0D 15 0 0 0x2FFFC0
     (at' w).Issues 2 1 w 0x0D 0 ∧ ((at' w).sA 2 1 w + sextImm w).toNat = 0x2FFFC0 ∧ (at' (wd 0x0F 0 0 2 0)).Issues 2 1 (wd 0x0F 0 0 2 0) 0x0F 2) ∧
    (∀ x ∈ [(0x400000, 0), (0x400004, 1), (0x3FFFC0, 1), (0x600000, 2)],
      let s := at' 0 { pc := BitVec.ofNat 64 x.1 }
      (s.ctx 2 1).mode = .run ∧ (s.core 2).misses (s.ctx 2 1).pc = true ∧ (s.fetchFault 2 (s.ctx 2 1).pc = none ↔ x.2 = 0) ∧
        (x.2 = 2 → (s.mem 3).unitAt (64 * (x.1 / 64)) = none) ∧ s.partOf 2 = some 3) := by decide +kernel

theorem test_import_hypotheses :
    (∀ gap ∈ [0, 10, 10000000],
      let e := entry [(0, 0x1B), (8, 4095 + 7 * 2 ^ 12), (0x10, 0x10000), (0x18, 0x10000), (0x30, gap)]
      serving.Fetches 3 0x1B e winImportBody ∧ eBits e 0x18 0 45 = 0x10000 ∧ eBits e 0x08 12 12 ≠ serving.fabric.id ∧ eBits e 0x10 0 45 = 0x10000 ∧
        eBits e 0x30 0 24 = gap) ∧
    (serving.Fetches 3 0x1B (entry [(0, 0x1B)]) winImportBody ∧ eBits (entry [(0, 0x1B)]) 0x18 0 45 = 0) ∧
    serving.Fetches 3 0x1C (entry [(0, 0x1C), (8, 0xFFF)]) winBody ∧
    (∀ w ∈ [0xFFF, 9], serving.Fetches 3 0x0A (entry [(0, 0x0A), (8, w)]) winBody ∧ eBits (entry [(0, 0x0A), (8, w)]) 0x08 0 12 = w) ∧
    (let s := { serving with fabric := { wins := [(9, { state := .open, owner := 3, size := 0x10000, lva := 0x400000 })] }
                             ports := [(1, { released := true, cxl := some (3, 9) })] }
     (s.win 9).state ≠ .free ∧ (s.win 9).owner = 3 ∧ (s.win 8).state = .free ∧ (s.port 1).cxl = some (3, 9) ∧ 0xFFC0 + 64 ≤ (s.win 9).size ∧
      s.check 3 false (0x400000 + 0xFFC0) 64 = none ∧ (s.port 0).cxl = none) := by decide +kernel
/-! ### Critical commands -/

/-- The 112 low bytes of an entry, with a tag above them. -/
def withTag (B x : Nat) : Entry := BitVec.ofNat 1024 (B + x * 2 ^ 896)

set_option exponentiation.threshold 1024

theorem withTag_toNat {B x : Nat} (hB : B < 2 ^ 896) (hx : x < 2 ^ 128) : (withTag B x).toNat = B + x * 2 ^ 896 := by
  rw [withTag, BitVec.toNat_ofNat, Nat.mod_eq_of_lt]
  have : x * 2 ^ 896 ≤ (2 ^ 128 - 1) * 2 ^ 896 := Nat.mul_le_mul_right _ (by omega)
  omega

theorem bits_withTag (B x lo n : Nat) (h : lo + n ≤ 896) : bits (B + x * 2 ^ 896) lo n = bits B lo n := by
  unfold bits
  obtain ⟨r, hr⟩ : ∃ r, 896 = lo + (n + r) := ⟨896 - lo - n, by omega⟩
  have h1 : x * 2 ^ 896 = x * 2 ^ r * 2 ^ n * 2 ^ lo := by rw [hr, Nat.pow_add, Nat.pow_add]; ac_rfl
  rw [h1, Nat.add_mul_div_right _ _ (Nat.two_pow_pos lo), Nat.add_mul_mod_self_right]

theorem leNat_lt (bs : List Byte) : leNat bs < 256 ^ bs.length := by
  induction bs with
  | nil => simp [leNat]
  | cons b bs ih => simp only [leNat, List.length_cons, Nat.pow_succ]; have := b.isLt; omega

theorem leBytes_withTag (B x : Nat) : leBytes 112 (B + x * 2 ^ 896) = leBytes 112 B := by
  refine List.map_congr_left fun i hi => BitVec.eq_of_toNat_eq ?_
  have hi := List.mem_range.mp hi
  have h := bits_withTag B x (8 * i) 8 (by omega)
  simpa only [bits, Nat.pow_mul, BitVec.toNat_ofNat] using h

theorem mask_mono (fs : List (Nat × Nat × Nat)) (m i : Nat) (h : m.testBit i = true) :
    (fs.foldl (fun m f => m ||| (2 ^ f.2.2 - 1) * 2 ^ (8 * f.1 + f.2.1)) m).testBit i = true := by
  induction fs generalizing m with
  | nil => exact h
  | cons f fs ih => exact ih _ (by rw [Nat.testBit_or, h, Bool.true_or])

theorem mask_tag (body : List (Nat × Nat × Nat)) (i : Nat) (h : i < 128) : (fieldMask (frameFields ++ body)).testBit (896 + i) = true := by
  rw [fieldMask, List.foldl_append]
  refine mask_mono _ _ _ ?_
  have : ∀ j, j < 128 → (fieldMask frameFields).testBit (896 + j) = true := by decide +kernel
  exact this i h

/-- The entry of these low bytes with the tag that its slot's key gives it. -/
def signed (s : State) (r : RingName) (B : Nat) : Entry := withTag B (s.authTag r (withTag B 0))

theorem testBit_withTag (B x i : Nat) (hB : B < 2 ^ 896) : (B + x * 2 ^ 896).testBit i = if i < 896 then B.testBit i else x.testBit (i - 896) := by
  rw [Nat.add_comm, Nat.mul_comm, Nat.testBit_two_pow_mul_add _ hB]

/-- What Husk's checks ask of the low bytes. -/
abbrev Low (s : State) (r : RingName) (code B : Nat) (body : List (Nat × Nat × Nat)) : Prop :=
  let e := withTag B 0
  B < 2 ^ 896 ∧ eCode e = code ∧ s.ringOpen r = true ∧ s.setAside r = none ∧ s.critBarred e = none ∧ (s.slot (eSlot e)).streak < 16 ∧
    s.slotAllows r e = true ∧ (s.slot (eSlot e)).last.toNat < eCounter e ∧ entryOk body e = true

/-- Whatever the key, a signed entry passes Husk's checks when its low bytes do; its fields, and what the checks leave, are those of the low
bytes. -/
theorem signed_passes (s : State) (r : RingName) (code B : Nat) (body : List (Nat × Nat × Nat)) (h : Low s r code B body) :
    s.Passes r code (signed s r B) body ∧
    (∀ off lo n, 8 * off + lo + n ≤ 896 → eBits (signed s r B) off lo n = eBits (withTag B 0) off lo n) ∧
    s.husked r (signed s r B) = s.husked r (withTag B 0) := by
  obtain ⟨hB, hc, h1, h2, h3, h4, h5, h6, h7⟩ := h
  have hx : s.authTag r (withTag B 0) < 2 ^ 128 := by
    refine Nat.lt_of_lt_of_le (leNat_lt _) ?_
    rw [show (2 : Nat) ^ 128 = 256 ^ 16 from rfl]
    exact Nat.pow_le_pow_right (by omega) (List.length_take_le _ _)
  have hz : (withTag B 0).toNat = B := by rw [withTag_toNat hB (by omega)]; simp
  have ht : (signed s r B).toNat = B + s.authTag r (withTag B 0) * 2 ^ 896 := withTag_toNat hB hx
  have eb : ∀ off lo n, 8 * off + lo + n ≤ 896 → eBits (signed s r B) off lo n = eBits (withTag B 0) off lo n := by
    intro off lo n h
    rw [eBits, eBits, ht, hz, bits_withTag _ _ _ _ h]
  have hcode : eCode (signed s r B) = code := by rw [eCode, eb 0 0 8 (by omega)]; exact hc
  have hslot : eSlot (signed s r B) = eSlot (withTag B 0) := eb 0x68 0 4 (by omega)
  have hctr : eCounter (signed s r B) = eCounter (withTag B 0) := eb 0x60 0 64 (by omega)
  have hauth : eAuth (signed s r B) = eAuth (withTag B 0) := by
    rw [eAuth, eAuth, bit, bit, ht, hz, testBit_withTag _ _ _ hB, if_pos (by omega)]
  have hmsg : s.authMessage r (signed s r B) = s.authMessage r (withTag B 0) := by
    unfold State.authMessage
    rw [ht, hz, leBytes_withTag]
  have htag : s.authTag r (signed s r B) = s.authTag r (withTag B 0) := by rw [State.authTag, State.authTag, hslot, hmsg]
  have hallow : s.slotAllows r (signed s r B) = s.slotAllows r (withTag B 0) := by
    have : eBits (signed s r B) 0x08 0 4 = eBits (withTag B 0) 0x08 0 4 := eb _ _ _ (by omega)
    rw [State.slotAllows, State.slotAllows, hslot, this, hcode, hc]
  have hbar : s.critBarred (signed s r B) = s.critBarred (withTag B 0) := by rw [State.critBarred, State.critBarred, hauth]
  have hok : entryOk body (signed s r B) = true := by
    simp only [entryOk, decide_eq_true_eq] at h7 ⊢
    rw [hz] at h7
    rw [ht]
    apply Nat.eq_of_testBit_eq
    intro i
    rw [Nat.testBit_or, testBit_withTag _ _ _ hB]
    by_cases hi : i < 896
    · rw [if_pos hi, ← Nat.testBit_or, h7]
    · rw [if_neg hi]
      by_cases hj : i - 896 < 128
      · have := mask_tag body (i - 896) hj
        rw [show 896 + (i - 896) = i by omega] at this
        rw [this, Bool.or_true]
      · rw [Nat.testBit_lt_two_pow (Nat.lt_of_lt_of_le hx (Nat.pow_le_pow_right (by omega) (by omega))), Bool.false_or]
  refine ⟨?_, eb, ?_⟩
  rotate_left
  · simp only [State.husked, hslot, hctr]
  simp only [State.Passes, hslot, hctr, hbar, hallow, htag]
  refine ⟨hcode, h1, h2, h3, h4, h5, h6, ?_, hok⟩
  rw [eBits, ht, bits, show 8 * 0x70 + 0 = 896 from rfl, Nat.add_mul_div_right _ _ (Nat.two_pow_pos 896), Nat.div_eq_of_lt hB, Nat.zero_add,
    Nat.mod_eq_of_lt hx]

/-- The low bytes of a critical entry: AUTH = 1, counter 1, the slot, and its fields. -/
def low (code slot : Nat) (fields : List (Nat × Nat)) : Nat :=
  fields.foldl (fun v f => v + f.2 * 2 ^ (8 * f.1)) (code + 2 ^ 8 + 2 ^ (8 * 0x60) + slot * 2 ^ (8 * 0x68))

/-- A module in a lifecycle state, with partition 3 and an active slot 2 that holds every role. -/
def husk (lc : LifeState) (diag : Bool := false) (b : PartBlock := ringPart) : State :=
  { serving b with fuses := { lc := lc }, husk := { diag := diag, diagPort := 1 }
                   flash := { slots := [(2, { active := true, roles := 0xFF })], keyPair := true } }

theorem test_husk_order_hypotheses :
    let s := husk .field
    let e := withTag (low 0x52 2 []) 0
    let r := RingName.adm 1
    (husk .field false { ringPart with cmd := {} }).ringOpen (.cmd 3) = false ∧ s.ringOpen r = true ∧ s.ringOpen (.cmd 3) = true ∧ s.setAside r = none ∧
    (husk .scrap).critBarred e = some fltLifecycle ∧ s.critBarred e = none ∧ (s.slot (eSlot e)).streak < 16 ∧ s.slotAllows r e = true ∧
    s.slotAllows r (withTag (low 0x52 3 []) 0) = false ∧ (s.slot 2).last.toNat < eCounter e ∧ eCounter (withTag 0x52 0) ≤ (s.slot 2).last.toNat ∧
    (∀ row ∈ critRows 3 1 {} [] true true 0, entryOk row.body (withTag (low row.code 2 [(0x5F, 1)]) 0) = false) ∧
    16 ≤ ({ streak := 16 } : KeySlot).streak := by decide +kernel

/-- Whatever the key, 0 or 1 is a wrong tag. -/
theorem test_wrong_tag (s : State) (r : RingName) (e : Entry) : ∃ x, x < 2 ∧ s.authTag r e ≠ x :=
  if h : s.authTag r e = 0 then ⟨1, by omega, by omega⟩ else ⟨0, by omega, h⟩

/-- An entry that waits on its ring, verified or not; another CODE than the command's. -/
theorem test_set_aside_hypotheses :
    let e := withTag (low 0x52 2 []) 0
    (∀ passed ∈ [true, false],
      let d : Delayed := { slot := 2, ring := .adm 1, entry := withTag (low 0x52 3 []) 0, passed := passed }
      let s := { husk .field with husk := { delayed := [d] } }
      s.setAside (.adm 1) = some d ∧ (d.passed = false ∨ d.entry ≠ e)) ∧ eCode e = 0x52 := by decide +kernel

/-- An entry set aside that verifies, whatever the key. -/
theorem test_delay_passes : ∃ (s : State) (d : Delayed) (u : State),
    s.husk.delayed.find? (fun d => d.slot == 2 && !d.passed) = some d ∧ s.verify d.ring d.entry = .ok u := by
  let s₀ := husk .field
  let e := signed s₀ (.adm 1) (low 0x52 2 [])
  obtain ⟨-, -, -, -, -, h5, h6, h7, -⟩ := (signed_passes s₀ (.adm 1) 0x52 (low 0x52 2 []) [(0x08, 0, 4)] (by decide +kernel)).1
  let d : Delayed := { slot := 2, ring := .adm 1, entry := e, passed := false }
  let s := { s₀ with husk := { s₀.husk with delayed := [d] } }
  refine ⟨s, d, (s.setSlot (eSlot e) { s.slot (eSlot e) with last := BitVec.ofNat 64 (eCounter e), streak := 0 }).durable, rfl, ?_⟩
  show s.verify (.adm 1) e = _
  have h5' : s.slotAllows (.adm 1) e = true := h5
  have h6' : ¬eCounter e ≤ (s.slot (eSlot e)).last.toNat := Nat.not_le.mpr h6
  have h7' : ¬eBits e 0x70 0 128 ≠ s.authTag (.adm 1) e := fun h => h h7
  simp only [State.verify, h5', h6', h7', Bool.not_true, if_false, Bool.false_eq_true]

theorem test_delay_hypotheses :
    let d : Delayed := { slot := 2, ring := .adm 1, entry := withTag (low 0x52 3 []) 0, passed := false }
    let s := { husk .field with husk := { delayed := [d] } }
    s.husk.delayed.find? (fun d => d.slot == 2 && !d.passed) = some d ∧ s.slotAllows d.ring d.entry = false ∧
    (∀ d ∈ s.husk.delayed, d.slot ≠ 3 ∨ d.passed = true) := by decide +kernel

theorem test_key_hypotheses :
    (∀ row ∈ [(0x50, SlotUse.empty, 3), (0x51, SlotUse.active, 2)], ∀ x ∈ [(15, 0, LifeState.field), (row.2.2, 0x1001, .field), (row.2.2, 0x1000, .field)],
      let s := husk x.2.2
      let B := low row.1 2 [(8, x.1), (0x10, x.2.1)]
      let e := withTag B 0
      let t := s.husked (.adm 1) e
      Low s (.adm 1) row.1 B keyBody ∧ eBits e 0x08 0 4 = x.1 ∧ eBits e 0x10 0 64 = x.2.1 ∧ t.slotUse row.2.2 = row.2.1 ∧ t.life = x.2.2) ∧
    (Low (husk .makerTest) (.adm 1) 0x50 (low 0x50 15 [(8, 3)]) keyBody ∧
      ((husk .makerTest).husked (.adm 1) (withTag (low 0x50 15 [(8, 3)]) 0)).life = .makerTest) ∧
    (∀ i ∈ [15, 3, 2],
      let s := husk .field
      Low s (.adm 1) 0x52 (low 0x52 2 [(8, i)]) [(0x08, 0, 4)] ∧
        (i = 3 ↔ (s.husked (.adm 1) (withTag (low 0x52 2 [(8, i)]) 0)).slotUse i = .empty)) ∧
    leNat (sha256 []) ≠ 0 := by decide +kernel

theorem test_firmware_hypotheses :
    (∀ x ∈ [(0x1001, 4), (0x1000, 5), (0x1000, 16777220), (0x1000, 16777216), (0x1000, 0)],
      let B := low 0x53 2 [(8, x.1), (0x10, x.2)]
      Low (husk .field) (.adm 1) 0x53 B [(0x08, 0, 64), (0x10, 0, 32), (0x18, 0, 384)] ∧ eBits (withTag B 0) 0x08 0 64 = x.1 ∧
        eBits (withTag B 0) 0x10 0 32 = x.2) ∧
    (∀ x ∈ [(LifeState.field, true, 2, 1), (.field, false, 2, 0), (.makerTest, false, 15, 2), (.field, false, 2, 2)],
      let s := husk x.1 x.2.1
      let B := low 0x54 x.2.2.1 [(8, x.2.2.2)]
      Low s (.adm 1) 0x54 B [(0x08, 0, 2)] ∧ eBits (withTag B 0) 0x08 0 2 = x.2.2.2 ∧ eSlot (withTag B 0) = x.2.2.1) := by decide +kernel

theorem test_fuse_hypotheses :
    (∀ x ∈ [(LifeState.field, 2, 0, 65), (.field, 2, 0, 0), (.field, 2, 0, 1), (.field, 2, 0, 64), (.makerTest, 15, 0, 1), (.field, 2, 1, 0), (.field, 2, 1, 1),
        (.makerTest, 15, 1, 1), (.field, 2, 2, 0), (.field, 2, 3, 0), (.makerTest, 15, 2, 0x3FF), (.makerTest, 15, 2, 0x00), (.field, 2, 4, 0), (.field, 2, 15, 0)],
      let s := husk x.1
      let B := low 0x56 x.2.1 [(8, x.2.2.1), (0x10, x.2.2.2)]
      let t := s.husked (.adm 1) (withTag B 0)
      Low s (.adm 1) 0x56 B [(0x08, 0, 4), (0x10, 0, 64)] ∧ eBits (withTag B 0) 0x08 0 4 = x.2.2.1 ∧ eBits (withTag B 0) 0x10 0 64 = x.2.2.2 ∧
        t.life = x.1 ∧ eSlot (withTag B 0) = x.2.1 ∧ t.fuses.svnMin = 0 ∧ t.fuses.diagDisable = false ∧ t.fuses.cores = []) ∧
    bits 0x1E7 5 5 * 8 + bits 0x1E7 2 3 < 136 := by decide +kernel

theorem test_lifecycle_hypotheses :
    ∀ x ∈ [(LifeState.makerTest, false, 15, 1), (.provision, false, 2, 2), (.field, false, 2, 3), (.field, true, 2, 2), (.field, true, 2, 4), (.field, false, 2, 5),
        (.provision, false, 2, 4), (.returned, false, 15, 1), (.makerTest, false, 15, 5), (.returned, false, 15, 5), (.field, false, 2, 1), (.field, false, 2, 6),
        (.field, false, 2, 7)],
      let s := husk x.1 x.2.1
      let B := low 0x55 x.2.2.1 [(8, x.2.2.2)]
      let t := s.husked (.adm 1) (withTag B 0)
      Low s (.adm 1) 0x55 B [(0x08, 0, 3)] ∧ eBits (withTag B 0) 0x08 0 3 = x.2.2.2 ∧
        t.life = (if x.2.1 then .fieldDiag else x.1) ∧ (x.2.2.2 ≤ 5 ↔ (lifeOf x.2.2.2).isSome = true) := by decide +kernel
/-! ### Windows, partitions, routes, failed cores -/

/-- The fields of a grant: window 9, an owner, 65,536 bytes at 0, a local address. -/
def grantFields (owner size base lva gap : Nat) : List (Nat × Nat) :=
  [(8, 9 + owner * 2 ^ 12), (0x0C, 5), (0x10, base), (0x18, size), (0x20, lva), (0x30, gap)]

def windowed (st : WinState) (owner : Nat) : State :=
  { husk .field with fabric := { wins := if st = .free then [] else [(9, { state := st, owner := owner, size := 65536 })] } }

theorem test_grant_hypotheses :
    (∀ x ∈ [(3, 65536, 0, 0x400000, 0, WinState.free, true), (3, 65536, 2 ^ 45 - 65536, 2 ^ 48 - 65536, 10, .closed, true), (4, 65536, 0, 0x400000, 0, .free, false),
        (3, 0, 0, 0x400000, 0, .free, false), (3, 65537, 0, 0x400000, 0, .free, false), (3, 65536, 1, 0x400000, 0, .free, false),
        (3, 131072, 2 ^ 45 - 65536, 0x400000, 0, .free, false), (3, 65536, 0, 0x3F0000, 0, .free, false), (3, 65536, 0, 0x400000, 9, .free, false),
        (3, 65536, 0, 0x400000, 0, .open, false)],
      let s := windowed x.2.2.2.2.2.1 3
      let B := low 0x18 2 (grantFields x.1 x.2.1 x.2.2.1 x.2.2.2.1 x.2.2.2.2.1)
      let g := (readGrant (withTag B 0)).2
      Low s (.cmd 3) 0x18 B winGrantBody ∧ (g.owner, g.size, g.ebase, g.lva) = (x.1, x.2.1, x.2.2.1, x.2.2.2.1) ∧
        (s.husked (.cmd 3) (withTag B 0)).grantBad 3 9 g x.2.2.2.2.1 = !x.2.2.2.2.2.2) ∧
    (∀ x ∈ [(WinState.free, true), (.open, false)],
      let s := windowed x.1 16
      let B := low 0x45 2 (grantFields 16 65536 0 0 0)
      Low s (.adm 1) 0x45 B winGrantBody ∧
        (s.husked (.adm 1) (withTag B 0)).grantBad 16 9 (readGrant (withTag B 0)).2 0 = !x.2) ∧
    (∀ x ∈ [(65536, true), (2 ^ 45 - 65536, false)],
      let s := husk .field
      let B := low 0x45 2 (grantFields 16 x.1 0 0 0)
      let t := s.husked (.adm 1) (withTag B 0)
      Low s (.adm 1) 0x45 B winGrantBody ∧ t.grantBad 16 9 (readGrant (withTag B 0)).2 0 = false ∧ (((x.1 + 2097151) / 2097152 ≤ t.freeL) ↔ x.2 = true)) := by
  decide +kernel

theorem test_window_hypotheses :
    (∀ st ∈ [WinState.free, .open, .closing, .closed], ∀ owner ∈ [3, 16], ∀ x ∈ [(RingName.cmd 3, 0x19), (.adm 1, 0x46), (.cmd 3, 0x1A), (.adm 1, 0x47)],
      let s := windowed st owner
      Low s x.1 x.2 (low x.2 2 [(8, 9)]) winBody ∧ ((s.husked x.1 (withTag (low x.2 2 [(8, 9)]) 0)).win 9).state = st) ∧
    (let s := { husk .field with fabric := { wins := [(9, { state := .open, owner := 16, size := 65536, recalling := true })] } }
     Low s (.adm 1) 0x46 (low 0x46 2 [(8, 9)]) winBody ∧ ((s.husked (.adm 1) (withTag (low 0x46 2 [(8, 9)]) 0)).win 9).recalling = true) ∧
    (let o : OwedAt := .part 3 { tag := 0, index := 0 }
     let a : OwedAt := .adm 1 { tag := 0, index := 0 }
     let s : State := { fabric := { wins := [(9, { state := .closing, closer := some o }), (8, { state := .closing, closer := some a }),
                                             (7, { state := .closing }), (6, { state := .open, recalling := true })] } }
     (s.win 9).closer = some o ∧ (s.win 8).closer = some a ∧ (s.win 7).closer = none ∧ (∀ w ∈ [7, 8, 9], (s.win w).state = .closing ∧ s.winInflight w = 0) ∧
      (s.win 6).recalling = true ∧ (s.win 6).state = .open ∧ (s.win 5).state ≠ .closing ∧ (s.win 5).recalling = false) := by
  decide +kernel

/-- A grant of core group 1 and object block 1. -/
def grantEntry (code p groups objs reqMax : Nat) : Nat :=
  low code 2 [(8, p), (0x10, groups), (0x18, objs), (0x28, 100), (0x30, 0x400000), (0x38, reqMax)]

theorem test_partition_hypotheses :
    (∀ x ∈ [(0, 2, 2, 16, none), (0, 1, 2, 16, some fltPartBusy), (0, 2, 2, 0, some fltArgRange)],
      let s := husk .field
      let B := grantEntry 0x40 x.1 x.2.1 x.2.2.1 x.2.2.2.1
      let t := s.husked (.adm 1) (withTag B 0)
      Low s (.adm 1) 0x40 B partBody ∧ t.life ≠ .fieldDiag ∧ (t.part x.1).state = .free ∧ t.grantRefused x.1 (grantOf (withTag B 0)) = x.2.2.2.2) ∧
    (let s := { husk .field true with husk := { diag := true, diagPort := 2 } }
     let B := grantEntry 0x40 0 2 2 16
     Low s (.adm 1) 0x40 B partBody ∧ (s.husked (.adm 1) (withTag B 0)).life = .fieldDiag) ∧
    (∀ x ∈ [(PartState.run, 1, false), (.ready, 1, false), (.ready, 2, false), (.run, 1, true), (.free, 1, false)],
      let s := husk .field false { ringPart with state := x.1, port := x.2.1, destroyer := if x.2.2 then some (1, { tag := 0, index := 0 }) else none }
      let B := low 0x41 2 [(8, 3)]
      let b := (s.husked (.adm 1) (withTag B 0)).part 3
      Low s (.adm 1) 0x41 B [(0x08, 0, 4)] ∧ b.state = x.1 ∧ b.port = x.2.1 ∧ b.destroyer.isSome = x.2.2) ∧
    (∀ x ∈ [(PartState.ready, 1, 16, none), (.ready, 1, 0, some fltArgRange), (.ready, 2, 16, none), (.run, 1, 16, none)],
      let s := husk .field false { ringPart with state := x.1, port := x.2.1 }
      let B := grantEntry 0x42 3 3 1 x.2.2.1
      let t := s.husked (.adm 1) (withTag B 0)
      (t.part 3).destroyer = none ∧ Low s (.adm 1) 0x42 B partBody ∧ (t.part 3).state = x.1 ∧ (t.part 3).port = x.2.1 ∧ t.grantRefused 3 (grantOf (withTag B 0)) = x.2.2.2) := by
  decide +kernel

/-- A PART_DESTROY of a partition that does not run, with and without a record that its ring cannot take, and one that waits for that. -/
theorem test_destroy_hypotheses :
    (∀ st ∈ [PartState.ready, .waitRepair], ∀ en ∈ [true, false],
      let b := { ringPart with state := st, cpl := { ring := { en := en } } }
      let s := { husk .field false b with reqs := [(0, req0)] }
      let B := low 0x41 2 [(8, 3)]
      let t := s.husked (.adm 1) (withTag B 0)
      let v := (if st = .waitRepair then t.stopEnd 3 0 0 else t).destroyItems 3
      Low s (.adm 1) 0x41 B [(0x08, 0, 4)] ∧ (t.part 3).state = st ∧ (t.part 3).destroyer = none ∧ (t.part 3).port = 1 ∧
        ((v.part 3).cpl.held = [] ↔ en = true)) ∧
    (∀ held ∈ [[], [{ bits := 0 }]],
      let s := serving { ringPart with state := .ready, cpl := { held := held }, destroyer := some (1, { tag := 0, index := 0 }) }
      (s.part 3).destroyer.isSome = true ∧ (s.part 3).state ≠ .run ∧ (s.part 3).cpl.held = held) ∧ (serving.part 3).destroyer = none := by decide +kernel

theorem test_route_hypotheses :
    let zeros := leNat (sha256 (List.replicate 2048 0))
    ∀ x ∈ [(0x30001, 0), (0x30000, 0), (0x30000, zeros)],
      let B := low 0x43 2 [(8, x.1), (0x10, x.2)]
      Low (husk .field) (.adm 1) 0x43 B [(0x08, 0, 64), (0x10, 0, 256)] ∧ eBits (withTag B 0) 0x08 0 64 = x.1 ∧ eBits (withTag B 0) 0x10 0 256 = x.2 ∧
        zeros ≠ 0 := by decide +kernel

/-- A standby module whose partition 3 keeps window 9 of module 7. -/
def standby (sb : Bool) : State :=
  { husk .field false { ringPart with kept := some (7, [(9, { state := .closed, epoch := 65535 })]) } with fabric := { standby := sb } }

theorem test_takeover_hypotheses :
    (∀ x ∈ [(false, 7, 8), (true, 7, 0), (true, 7, 12), (true, 6, 8), (true, 7, 8)],
      let s := standby x.1
      let B := low 0x44 2 [(8, x.2.1), (0x0C, x.2.2)]
      let t := s.husked (.adm 1) (withTag B 0)
      Low s (.adm 1) 0x44 B [(0x08, 0, 12), (0x0C, 0, 16)] ∧ t.fabric.standby = x.1 ∧ t.noWindows = true ∧ eBits (withTag B 0) 0x08 0 12 = x.2.1 ∧
        eBits (withTag B 0) 0x0C 0 16 = x.2.2 ∧
        ((x.2.2 ≠ 0 ∧ ∀ p, p < 16 → x.2.2.testBit p = true → t.keptFrom p x.2.1 = true) ↔ (x.2.1 = 7 ∧ x.2.2 = 8))) ∧
    (let w : TakeoverWait := { port := 1, owed := { tag := 0, index := 0 }, id := 7, pmask := 8 }
     let s : State := { standby true with fabric := { standby := true, takeover := [w], probing := [5] } }
     s.fabric.takeover = w :: [] ∧ s.noWindows = true ∧ maskParts w.pmask = [3] ∧ (s.part 3).kept.isSome = true ∧ 5 ∈ s.fabric.probing ∧ 6 ∉ s.fabric.probing) ∧
    (husk .field).fabric.takeover = [] := by decide +kernel

theorem test_core_fail_hypotheses :
    let s := withCore (core2 0 {})
    s.causeHolds 2 0 = false ∧ s.causeHolds 2 2 = true ∧ s.partOf 2 = some 3 ∧ s.partOf 200 = none ∧ 2 ∉ (s.part 3).refill ∧ (s.core 2).failed = false ∧
    ({ s with parts := [(3, { part3 with refill := [2] })] }.part 3).refill = [2] ∧ (withCore { core2 0 {} with failed := true }).causeHolds 2 3 = true ∧
    (s.part 3).state = .run ∧ (s.part 3).prog.stopping = false ∧ (s.part 3).hasRecord = false ∧
    (∀ sp ∈ [true, false], ({ part3 with spared := sp, sec := { en := true, a := some { seq := 1, step := 0 } } } : PartBlock).hasRecord = true) ∧
    s.pool 0 = List.range' 128 8 ∧ ({ s with spares := [(0, [])] } : State).pool 0 = [] := by decide +kernel

theorem test_substitution_hypotheses :
    let s := { withCore { failed := true } with parts := [(3, { part3 with refill := [2] })] }
    s.partOf 2 = some 3 ∧ 2 ∈ (s.part 3).refill ∧ (∀ j ∈ (s.part 3).cores, ∀ o ∈ (s.core j).ops, o.blocked = true) ∧
    ((s.rollback 3).takeSpare 2 0).isSome = true ∧ (({ s with spares := [(0, [])] } : State).rollback 3 |>.takeSpare 2 0).isNone = true ∧
    (∃ j ∈ (s.part 3).cores, ∃ o ∈ (({ s with cores := [(2, { ops := [busyOp] })] } : State).core j).ops, o.blocked = false) := by decide +kernel

theorem test_repair_hypotheses :
    (∀ x ∈ [(PartState.run, false, []), (.waitRepair, true, []), (.waitRepair, false, [(0, [])]), (.waitRepair, false, [])],
      let s := { husk .field false { ringPart with state := x.1 } with health := { halted := x.2.1 }, spares := x.2.2, cores := [(2, { failed := true })] }
      let B := low 0x1D 2 [(8, 1), (0x10, 77)]
      let t := s.husked (.cmd 3) (withTag B 0)
      let bad := (t.part 3).cores.filter fun j => (t.core j).failed
      Low s (.cmd 3) 0x1D B repairBody ∧ (t.part 3).state = x.1 ∧ t.health.halted = x.2.1 ∧ bad = [2] ∧
        ((∃ d, d < 4 ∧ (t.pool d).length < (bad.filter fun j => j / 128 == d).length) ↔ x.2.2 ≠ [])) ∧
    (let b := { part3 with failing := [(2, true)], halting := true }
     b.state = .run ∧ b.failing ≠ [] ∧ b.halting = true) := by decide +kernel
/-! ### Registers, units, fabric, health, start-up, management -/

theorem test_register_read_hypotheses :
    serving.owns 1 3 = true ∧ serving.owns 0 3 = false ∧ 0x7C ∈ partCounters ∧ 0x1C ∈ winnowCounters ∧ 0x424 ∈ healthCounters ∧ 0x118 ∈ fabCounters ∧
    0x14 ∈ rcCoreOffsets ∧ State.reset.boot.en = true ∧ State.reset.boot.heldOff = false ∧ ({ State.reset.boot with heldOff := true } : Boot).heldOff = true ∧
    (∀ t : Sparse W32, t = sput 0 State.reset.husk.latches 17 5#32 → ({ State.reset with husk := { latches := t } } : State).husk.latches = t) :=
  ⟨by decide +kernel, by decide +kernel, by decide, by decide, by decide, by decide, by decide, rfl, rfl, rfl, fun _ _ => rfl⟩

/-- A vector that is masked and pending, and a write that unmasks it. -/
theorem test_mask_hypotheses :
    let x := ({ serving with ports := [(1, { released := true, masked := [7], pendingVectors := [7] })] } : State).port 1
    7 ∈ x.pendingVectors ∧ 6 ∉ x.pendingVectors ∧ (0#32).getLsbD 0 = false ∧ (1#32).getLsbD 0 = true := by decide +kernel

/-- Partition 3 in a state, with its securing. -/
def securing (st : PartState) (en dest : Bool) (slot : Nat) : State :=
  serving { ringPart with state := st, sec := { en := en, dest := dest, slotMib := slot } }

theorem test_register_write_hypotheses :
    (∀ en ∈ [true, false], ({ serving with ports := [(1, { released := true, adm := { en := en } })] }.port 1).adm.en = en) ∧
    (∀ v ∈ [6, 16], (6 ≤ (BitVec.ofNat 32 v : W32).toNat % 32 ∧ (BitVec.ofNat 32 v : W32).toNat % 32 ≤ 16)) ∧
    (∀ v ∈ [5, 17], ((BitVec.ofNat 32 v : W32).toNat % 32 < 6 ∨ 16 < (BitVec.ofNat 32 v : W32).toNat % 32)) ∧
    (∀ st ∈ [PartState.ready, .run], (securing st false false 1).owns 1 3 = true ∧ ((securing st false false 1).part 3).state = st) ∧
    (∀ x ∈ [(true, true, 3), (true, false, 1), (false, false, 1), (false, false, 3), (true, true, 0)],
      ((securing .ready x.1 x.2.1 1).part 3).sec.en = x.1 ∧ ((securing .ready x.1 x.2.1 1).part 3).sec.dest = x.2.1 ∧
        ((BitVec.ofNat 32 x.2.2 : W32).toNat.testBit 0 = (x.2.2 != 0)) ∧ ((BitVec.ofNat 32 x.2.2 : W32).toNat.testBit 1 = (x.2.2 == 3))) ∧
    (∀ x ∈ [(99, true), (100, false)],
      let b := (securing .ready false false x.1).part 3
      ({ b with secPages := 0 }.memUse + b.sec.slotMib ≤ b.grant.memQuota ↔ x.2 = true)) ∧
    State.reset.boot.stage ≠ 9 ∧ serving.boot.stage = 9 ∧
    (∀ x ∈ [(1, 800, true), (1, 2200, true), (1, 775, false), (1, 2225, false), (1, 810, false), (0, 800, false)],
      serving.partOfGroup 0 = some 3 ∧ (((serving.part 3).port = x.1 ∧ 800 ≤ x.2.1 ∧ x.2.1 ≤ 2200 ∧ x.2.1 % 25 = 0) ↔ x.2.2 = true)) ∧
    serving.partOfGroup 1 = none ∧ mgmtWritable 0 0x00 = false ∧ serving.boot.en = true ∧ serving.boot.heldOff = false := by decide +kernel

/-- Core 2 with instructions in flight. -/
def flying (ops : List InFlight) : State := withCore { core2 0 {} with ops := ops }

def tileJob : TileJob := { kind := .stream, word := wf 0x20 5 1 1 0 4, desc := 0, y0 := 0, xt := 0, yt := 0, aux := 0, epi := 0 }

def fabJob : FabJob := { put := false, module := 7, goff := 0, laddr := 0x400000, len := 4100, key := 3#64, epoch := 0, gapUs := 1000 }

theorem test_unit_start_hypotheses :
    (∀ j ∈ [Job.plain, .epiLoad 2, .list { desc := 0, list := 0x4000, n := 1 }, .kv { desc := 0, fmt := 8 }, .scatter, .tile tileJob, .fab fabJob],
      let o : InFlight := { id := 4, ctx := 1, unit := .fab, cls := 10, job := j }
      let e : InFlight := { o with id := 3, started := true, job := .plain }
      ((flying [e, o]).core 2).ops = [e] ++ o :: [] ∧ o.started = false ∧ [e].any (blocksStart o) = false ∧
        ([{ e with unit := .stream 0 }].any (blocksStart { o with unit := .tab })) = true) ∧
    (let s := flying []
     s.fabric.trans.length < 8192 ∧ 0 % 2 = (if (s.core 2).tagBit then 1 else 0) ∧ ∀ e ∈ s.fabric.trans, e.1 ≠ 0) ∧
    8192 ≤ ((List.range 8192).map fun i => (i, ({ core := 0, id := 0, next := 0, live := [], failed := false } : Trans))).length := by decide +kernel

def outWord : OutWord := { arr := 0, tile := 0, word := 0, vals := [] }

theorem test_tile_step_hypotheses :
    (∀ j ∈ [tileJob, { tileJob with words := [outWord], ends := [(0, true)] }, { tileJob with ends := [(0, true)], objTile := some 5 },
        { tileJob with overflow := some { tile := 0, blk := 0, hs := [1], done := [0] } }],
      let o : InFlight := { id := 4, ctx := 1, unit := .stream 0, cls := 1, started := true, job := .tile j }
      (flying [o]).opOf 2 4 = some o ∧ (flying [o]).opOf 2 5 = none) ∧
    (let g : GRing := { objF := 0, objD := 1, n := 4, pos := 0, units := 1 }
     let j := { tileJob with tiles := 1, yRing := some g }
     j.ring .streamed = some g ∧ j.mayTest .streamed (j.aim .streamed g) = true ∧ { tileJob with yRing := some g }.mayTest .streamed g = false ∧
      (g.test false).2.holds ((flying []).obj (g.test false).1) = false ∧ (g.test false).2.holds 1 = true) ∧
    (let g : GRing := { objF := 0, objD := 1, n := 4, pos := 0, units := 1 }
     let j := { tileJob with tiles := 1, words := [outWord], ends := [(0, true)], oRing := some g }
     j.ring .output = some g ∧ j.mayTest .output (j.aim .output g) = true ∧ j.mayWrite outWord = false ∧
      { j with oRing := some { g with tested := 1 } }.mayWrite outWord = true ∧ j.endsUnit 0 = true ∧ g.tested ≤ j.wordUnit 0 ∧
      { j with tiles := 2, next := 1 }.endsUnit 0 = false) := by decide +kernel

theorem test_complete_hypotheses :
    (∀ x ∈ [(true, true), (false, false)],
      let o : InFlight := { id := 4, ctx := 1, unit := .sync, cls := 8, started := x.1, results := [.scalar 5 7], objs := [] }
      ((flying [o]).core 2).ops = [] ++ o :: [] ∧ ((flying [o]).core 2).jobDone o = true ∧ (o.started = true ↔ x.2 = true)) ∧
    (∀ i, i < 4 → ((flying []).ctx 2 i).wait = none) ∧
    (∀ j ∈ [Job.plain, .empty, .scatter],
      let e : InFlight := { id := 3, ctx := 1, unit := .tab, cls := 4 }
      let o : InFlight := { id := 4, ctx := 1, unit := .tab, cls := 4, started := true, job := j }
      ((flying [e, o]).core 2).ops = [e] ++ o :: [] ∧ ((flying [e, o]).core 2).jobDone o = true ∧ e.unit = o.unit) ∧
    (((flying []).ctx 2 1).wait = none ∧ ((flying []).ctx 2 1).mode = .run ∧ ((flying []).core 2).fetched 64 = none ∧ ((flying []).ctx 2 0).mode ≠ .run) ∧
    (let late := { stepping ringPart with cores := (7, { ops := [busyOp] }) :: (stepping ringPart).cores }
     (stepping ringPart).boundaryMet 2 = true ∧ late.boundaryMet 2 = false ∧ (late.ctx 2 0).wait = some { kind := .step } ∧ late.wdPaused 2 = false) ∧
    (let s := { waiting with waiters := [(0, [{ core := 2, who := .ctx 1 }])] }
     s.wdPaused 2 = false ∧ (s.ctx 2 1).wait = some { kind := .sync 0 9#32 } ∧ (WaitKind.sync 0 9#32).obj? = some 0 ∧ s.waitMet 0 2 (.ctx 1) = false ∧
      waiting.waitMet 0 2 (.ctx 0) = true ∧ ((stepping ringPart).ctx 2 0).wait = some { kind := .step } ∧ (stepping ringPart).wdPaused 2 = false) ∧
    (let w : Wait := { kind := .sync 0 9#32 }
     let g : GRing := { objF := 0, objD := 1, n := 4, pos := 0, units := 1, waiting := some w }
     let o : InFlight := { id := 4, ctx := 1, unit := .stream 0, cls := 1, started := true, job := .tile { tileJob with yRing := some g } }
     (flying [o]).opOf 2 4 = some o ∧ { tileJob with yRing := some g }.ring .streamed = some g ∧ (flying [o]).wdPaused 2 = false ∧
      (flying [o]).waitMet 0 2 (.ring 4 .streamed) = false) ∧
    (stepping { ringPart with refill := [5] }).wdPaused 2 = true := by decide +kernel

/-- A transaction of core 2's FAB instruction, with a route to module 7 when `up`. -/
def sending (put up failed : Bool) (next : Nat) (live : List OutBurst) : State :=
  { flying [{ id := 4, ctx := 1, unit := .fab, cls := 10, started := true, job := .fab { fabJob with put := put, tag := some 0 } }] with
    fabric := { trans := [(0, { core := 2, id := 4, next := next, live := live, failed := failed })]
                route := if up then [(7, 1)] else [(7, 7)], ports := [(0, 1)], id := 5 } }

/-- A packet to this module (5) from module 7. -/
def pkt (h : Hdr) (payload : List Byte) : Packet := { h with dst := 5, src := 7 }.packet payload

theorem test_requester_hypotheses :
    (∀ x ∈ [(true, true, 0), (true, false, 1), (false, true, 1), (false, false, 0), (true, true, 2)],
      let s := sending x.1 x.2.1 false x.2.2 []
      (s.transOf 0).isSome = true ∧ s.transOf 1 = none ∧ (((s.transOf 0).bind s.fabOf).any fun y => y.2.put == x.1 && y.2.len == 4100) = true ∧
        (4096 * x.2.2 < 4100 ↔ x.2.2 ≤ 1) ∧ (s.inject { cls := clsRdReq, dst := 7, src := 0, tag := 0 } []).isSome = x.2.1 ∧
        (s.readAt 2 (0x400000 + 4096) 4).toOption.isSome = true) ∧
    ((sending true true false 0 []).readAt 2 0x600000 4096).toOption.isSome = false ∧
    (∀ up ∈ [true, false],
      let s := sending true up false 0 []
      let h : Hdr := { cls := clsWr, dst := 7, src := 0, tag := 0, key := 3 }
      ((s.touchAt 2 0x400000 4).sendAll (burstPackets 0 0 h (List.replicate 4 0))).isSome = up) := by decide +kernel

theorem test_response_hypotheses :
    (∀ got ∈ [[], [0]],
      let b : OutBurst := { idx := 0, got := got }
      (sending false true false 1 [b]).transOf 0 = some { core := 2, id := 4, next := 1, live := [b], failed := false } ∧ [b].find? (·.idx == 0) = some b) ∧
    (let s := sending false true false 2 [{ idx := 1, got := [] }]
     let p := pkt { cls := clsRdRsp, dst := 0, src := 0, tag := 0, seq := 16 } (List.replicate 4 0)
     p.bad = false ∧ p.dst = s.fabric.id ∧ p.cls = clsRdRsp ∧ (s.awaited p).isSome = true ∧ p.idx = 0 ∧ p.src = 7 ∧
      (s.writeUpTo 2 (0x400000 + 4096) (p.payload.take 4)).2.isNone = true ∧ (s.writeUpTo 2 0x600000 (p.payload.take 4)).2.isSome = true ∧ (s.awaited (pkt { cls := clsRdRsp, dst := 0, src := 0, tag := 2 } (List.replicate 4 0))).isNone = true) ∧
    (∀ c ∈ [clsWrAck, clsNack], ∀ seq ∈ [0, 16],
      let s := sending true true false 1 [{ idx := 0, got := [] }]
      let p := pkt { cls := c, dst := 0, src := 0, tag := 0, seq := seq, status := if c = clsNack then nackGap else 0 } []
      p.bad = false ∧ p.dst = s.fabric.id ∧ p.cls = c ∧ ((s.awaited p).isSome = true ↔ seq = 0)) ∧
    (pkt { cls := 0, dst := 0, src := 0, tag := 0 } []).bad = true ∧ ((pkt { cls := clsRdReq, dst := 0, src := 0, tag := 0 } []).dst ≠ (0 : Nat)) := by
  decide +kernel

/-- Module 5 with window 9: partition 3's page, or the spill store. -/
def owning (x : Window) : State := { serving with fabric := { id := 5, wins := [(9, x)], route := [(7, 1)], ports := [(0, 1)] } }

def openWin (owner : Nat) : Window :=
  { state := .open, owner := owner, ebase := 0x10000, size := 0x10000, lva := if owner = 3 then 0x5F0000 else 0, key := 3#64, epoch := 1, rd := true, wr := true }

theorem test_owner_hypotheses :
    (∀ x ∈ [(0, 3, 1, 3), (0x10000, 4, 1, 3), (0x10000, 3, 2, 3), (0x1FFFC, 3, 1, 8), (0x1FFFC, 3, 1, 4)],
      let s := owning (openWin 3)
      let p := pkt { cls := clsRdReq, dst := 0, src := 0, tag := 0, offset := x.1, key := x.2.1, epoch := x.2.2.1 } []
      p.bad = false ∧ p.dst = s.fabric.id ∧ p.cls = clsRdReq ∧ p.offset = x.1 ∧ p.key = x.2.1 ∧ p.epoch = x.2.2.1 ∧
        ((s.winAt p.offset).isSome = true ↔ x.1 ≠ 0) ∧ (s.winMapped (openWin 3) 0x1FFFC 4 = true)) ∧
    (∀ m ∈ [MemErr.none, .ue 0x5F0000],
      let s := owning (openWin 3)
      let p := pkt { cls := clsRdReq, dst := 0, src := 0, tag := 0, offset := 0x10000, key := 3, epoch := 1 } []
      let t := s.strike 3 m
      let u := t.setMem 3 ((t.mem 3).touch 0x5F0000 4)
      (match s.checkReq p 4 false with
        | .ok w x => decide (w = 9 ∧ x.owner = 3)
        | .refuse _ _ => false) = true ∧ ((u.check 3 true 0x5F0000 4).isSome = true ↔ m ≠ .none)) ∧
    ({ openWin 3 with lva := 0x600000 } : Window).owner = 3 ∧ (owning { openWin 3 with lva := 0x600000 }).winMapped { openWin 3 with lva := 0x600000 } 0x10000 4 = false ∧
    (∀ owner ∈ [3, 16],
      let s := owning (openWin owner)
      let p := pkt { cls := clsWr, dst := 0, src := 0, tag := 0, offset := 0x10000, key := 3, epoch := 1 } (List.replicate 4 0)
      p.bad = false ∧ p.cls = clsWr ∧ p.seq = 0 ∧ p.last = true ∧ p.payload.length = 4 ∧ s.fabric.bursts = [] ∧ s.win 9 = openWin owner ∧
        (match s.checkReq p 4 true with
          | .ok w x => decide (w = 9 ∧ x = openWin owner)
          | .refuse _ _ => false) = true) ∧
    (∀ gone ∈ [true, false],
      let b : InBurst := { src := 7, tag := 0, idx := 0, win := 9, first := 0x10000, pkts := [(0, [])], last := none, overs := gone }
      let s := { owning (openWin 3) with fabric := { id := 5, bursts := [b] } }
      s.inBurst 7 0 0 = some b ∧ s.inBurst 7 0 1 = none ∧ (pkt { cls := clsWr, dst := 0, src := 0, tag := 0, seq := 1 } (List.replicate 4 0)).idx = 1) := by
  decide +kernel

theorem test_packet_hypotheses :
    (∀ x ∈ [(0, true, 0), (1, true, 0), (7, true, 0), (1, false, 0), (1, true, 30), (9, true, 29)],
      let s : State := { fabric := { id := 5, route := [(6, x.1)], ports := if x.2.1 then [(0, 1)] else [] } }
      let p := { ({ cls := clsWr, dst := 6, src := 7, tag := 0, hops := x.2.2 } : Hdr) with offset := 0 }.packet (List.replicate 4 0)
      p.bad = false ∧ p.hops = x.2.2 ∧ sget 0 s.fabric.route p.dst = x.1 ∧ (s.dirDown (x.1 % 8) = !x.2.1 || x.1 = 7 || x.1 = 0) ∧ p.dst ≠ s.fabric.id) ∧
    (let s : State := { fabric := { id := 6 } }
     sget 0 s.fabric.route 6 % 8 = 0) ∧
    (∀ x ∈ [(0, 0), (1, 0), (1, 7), (1, 8), (2, 0), (2, 1), (2, 2)],
      let s : State := { fabric := { ports := if x.1 = 0 then [] else [(3, x.1)], crc := if x.2 = 0 then [] else [(3, x.2)] } }
      s.vport 3 = x.1 ∧ sget 0 s.fabric.crc 3 = x.2) ∧
    (let s : State := { fabric := { parked := [(6, [(2, { hdr := 0, payload := [] })])] } }
     (sget [] s.fabric.parked (1 * 4 + 2)).length = 1 ∧ sget [] s.fabric.parked (0 * 4 + 2) = []) ∧
    (∀ x ∈ [(true, false), (false, true), (true, true), (false, false)],
      let q : Packet := ({ cls := clsWr, dst := 6, src := 7, tag := 0 } : Hdr).packet (List.replicate 4 0)
      let r : Packet := ({ cls := clsWrAck, dst := 6, src := 7, tag := 0, vc := 2 } : Hdr).packet []
      let s : State := { fabric := { parked := (4, [(0, q)]) :: if x.1 then [(6, [(0, r)])] else [], ports := if x.2 then [(0, 1)] else [] } }
      q.vc = 0 ∧ r.vc = 2 ∧ sget [] s.fabric.parked (1 * 4 + 0) = [(0, q)] ∧ s.mustWait 1 q = true ∧ s.mustWait 2 q = false ∧
        (∀ i, i < 13 → (s.takeWaiting 4 i).isNone = true) ∧ (s.takeWaiting 4 13).isSome = true ∧ (∀ i, i < 14 → (s.takeWaiting 5 i).isNone = true) ∧
        (s.waitingAt (1 * 4 + 2) ≠ [] ↔ x.1 = true) ∧ s.dirDown 1 = !x.2) := by decide +kernel

/-- A park region of die 0 that holds one packet of `n` bytes. -/
def parking (n : Nat) : State := { fabric := { parked := [(4, [(0, { hdr := 0, payload := List.replicate n 0 })])] } }

theorem parking_used (n : Nat) : (parking n).parkUsed 0 = 32 + n := by
  simp [State.parkUsed, packetBytes, parking, List.range, List.range.loop, sget]

/-- An input buffer more than three quarters full, and a park region without room for a packet. -/
theorem test_park_hypotheses (m : Nat) :
    (∀ n, 98304 < n → 98304 < ([(1, ({ hdr := 0, payload := List.replicate n 0 } : Packet))].map fun x : Nat × Packet => 32 + x.2.payload.length).sum) ∧
    ∀ n, 134217728 < n → 134217728 < (parking n).parkUsed 0 + m :=
  ⟨fun n h => by simp; omega, fun n h => by rw [parking_used]; omega⟩

theorem test_health_hypotheses :
    (0x1FF < State.reset.health.secureAt ∧ ({ score := 0x200 } : Health).secureAt ≤ ({ score := 0x200 } : Health).score ∧
      ({ score := 0x200 } : Health).score < State.reset.health.haltAt ∧ State.reset.health.haltAt ≤ 0x3C0) ∧
    (let s := { serving with frames := { ce := [(4, 16)] } }
     s.health.retireAt ≤ sget 0 s.frames.ce (frameKey .H 4) ∧ frameKey .H 4 ∉ s.frames.retired ∧ 5 ≠ 4 ∧ frameKey .H 5 ∉ s.frames.retired ∧
      ¬(s.health.retireAt ≤ sget 0 s.frames.ce (frameKey .H 3) ∨ s.framePoisoned .H 3 = true)) ∧
    ((serving.part 3).mem.units.find? (·.1 == 0x400000) = some (0x400000, {}) ∧ (∀ u ∈ (serving.part 3).mem.units, u.1 ≠ 0x600000)) ∧
    (∀ x ∈ [([], true), ([5], true), ([5, 6], false)],
      let s := withCore { core2 0 {} with sheaf := { splices := if x.1 = [] then [] else [(0, x.1)], failing := [(0, 33)] } }
      (0, 33) ∈ (s.core 2).sheaf.failing ∧ (0, 32) ∉ (s.core 2).sheaf.failing ∧ (s.core 2).failed = false ∧ (s.core 2).ops = [] ∧ ((33 ∉ sget [] (s.core 2).sheaf.splices 0 ∧ (sget [] (s.core 2).sheaf.splices 0).length < 2) ↔ x.2 = true)) ∧
    (serving.part 3).state ≠ .free := by decide +kernel

/-- A unit that may move, one that is pinned, a frame that takes it and one retired, and a place in a spill window held. -/
theorem test_move_hypotheses :
    (∀ x ∈ [(false, Tier.L, 9, true), (true, .L, 9, false), (true, .F, 0, false), (false, .L, 8, false), (false, .H, 100, true), (false, .H, 9, false)],
      let u : Sys2Proof.Machine.PUnit := { pinned := x.1 }
      let s := { serving { ringPart with mem := { units := [(0x400000, u)] } } with frames := { retired := [frameKey .L 8] } }
      (s.part 3).mem.units.find? (·.1 == 0x400000) = some (0x400000, u) ∧ u.lost = false ∧
        ((s.moveBarred u x.2.1 = false ∧ s.placeTakes u x.2.1 0 x.2.2.1 = true) ↔ x.2.2.2 = true)) ∧
    (let u : Sys2Proof.Machine.PUnit := { sub := true }
     let w : RemoteWin := { module := 7, ebase := 0x200000, size := 0x200000 }
     let s := { serving with fabric := { id := 5, imports := [(3, w)] } }
     s.inSpillWin 3 (7 * 2 ^ 29 + 32) u.size = true ∧ s.placeTakes u .F 3 (7 * 2 ^ 29 + 32) = true ∧ s.inSpillWin 3 (7 * 2 ^ 29) u.size = false ∧
      s.moveBarred u .F = false) ∧
    (let s := { serving with frames := { ce := [(frameKey .H 4, 16)] } }
     s.frameTakes .H false 100 = true ∧ s.health.retireAt ≤ sget 0 s.frames.ce (frameKey .H 4) ∧ frameKey .H 4 ∉ s.frames.retired) := by decide +kernel

theorem test_startup_hypotheses :
    (∀ st ∈ [0, 1, 2, 3, 4, 5, 6, 7, 8, 9, 15],
      let s : State := { boot := { stage := st } }
      s.powered = true ∧ s.boot.stage = st ∧ s.flash.repair.parts = [] ∧ s.fuses.lc ≠ .scrap ∧ (s.railsOn = true ↔ st ≠ 15)) ∧
    ({ State.reset with boot := { en := false } } : State).powered = false ∧ ({ State.reset with fuses := { lc := .scrap } } : State).powered = true ∧
    (State.reset.sensor 15).bad = false ∧ ({ State.reset with boot := { refHeld := true } } : State).railsOn = true ∧
    (∀ q ∈ serving.parts, q.2.state = .free ∨ q.2.port ≠ 0) ∧ serving.parts = [(3, serving.part 3)] ∧ (serving.part 3).state = .run ∧
    (serving.part 3).port = 1 := by decide +kernel

theorem test_management_hypotheses :
    State.reset.powered = true ∧ requestedEid [] = none ∧ requestedEid [0, 1, 0, 9] = some 9 ∧ requestedEid [0, 1, 0, 255] = none ∧
    (∀ lc ∈ [LifeState.provision, .field, .scrap], (husk lc).life = lc ∧ (husk lc).powered = true) ∧
    ({ State.reset with boot := { stage := 15, code := fltBootImage } } : State).powered = true ∧
    ({ State.reset with events := [5], mgmt := { receiver := some (1, 9) } } : State).events = 5 :: [] ∧
    (husk .scrap).testAllowed .mandatory = false ∧ State.reset.testAllowed .idcode = true := by decide +kernel

theorem reset_lawful : State.reset.Lawful := by
  refine ⟨?_, ?_, ?_, fun d => ?_, ?_, ?_, ?_⟩
  case refine_4 => exact ⟨Nat.le_of_ble_eq_true rfl, Nat.le_of_ble_eq_true rfl⟩
  all_goals decide +kernel

/-- Lawful states with any command at the front of their queue. -/
theorem test_lawful (c : Instr) : ({ State.reset with pending := [c] } : State).Lawful := reset_lawful
/-! ### Tier F, groups, and what befalls a step -/

theorem test_near_hypotheses : (at' 0).Near 2 0x400000 64 := by
  intro _ p hp
  rw [show (at' 0).partOf 2 = some 3 from by decide +kernel] at hp
  cases hp
  decide +kernel

/-- Partition 3's page in Tier F at module 7, with one access of it noted. -/
def afar (moving : Moving := .idle) : State :=
  { at' 0 with
    parts := [(3, { part3 with mem := { units := [(0x400000, { tier := .F, die := 3, frame := 7 * 2 ^ 29, moving := moving })]
                                        far := [{ base := 0x400000, va := 0x400040, len := 64, put := false }] } })]
    fabric := { id := 5 } }

theorem test_far_hypotheses :
    let s := afar
    s.partOf 2 = some 3 ∧ (s.mem 3).far = [{ base := 0x400000, va := 0x400040, len := 64, put := false }] ∧
      ((s.mem 3).units.find? (·.1 == 0x400000)).isSome = true ∧ s.fabric.trans.length < 8192 ∧ (s.core 2).ops = [] ∧ ((at' 0).mem 3).far = [] ∧
      s.farOfCore 2 ≠ [] ∧ (at' 0).farOfCore 2 = [] := by decide +kernel

/-- Into and out of Tier F: what is due, by how far the move has come. -/
theorem test_far_move_hypotheses :
    (∀ x ∈ [(Moving.idle, some false), (.got, none), (.sent 9, none), (.busy, some false)],
      let s := afar x.1
      let u : Sys2Proof.Machine.PUnit := { tier := .F, die := 3, frame := 7 * 2 ^ 29, moving := x.1 }
      (s.part 3).mem.units.find? (·.1 == 0x400000) = some (0x400000, u) ∧ u.lost = false ∧ s.moveBarred u .H = false ∧ s.placeTakes u .H 0 100 = true ∧
        u.toTransfer .H 100 = x.2) ∧
    (∀ x ∈ [(Moving.idle, true), (.sent (7 * 2 ^ 29 + 32), false), (.sent 5, true)], ∀ wait ∈ [[], [({ job := fabJob, part := 3, base := 0x400000, move := false } : OwnJob)]],
      let u : Sys2Proof.Machine.PUnit := { sub := true, moving := x.1 }
      let w : RemoteWin := { module := 7, ebase := 0x200000, size := 0x200000 }
      let s := { serving with fabric := { id := 5, imports := [(3, w)], waiting := wait } }
      s.placeTakes u .F 3 (7 * 2 ^ 29 + 32) = true ∧ s.moveBarred u .F = false ∧ (u.toTransfer .F (7 * 2 ^ 29 + 32) = some true ↔ x.2 = true) ∧
        s.fabric.waiting = wait) := by decide +kernel

/-- A transfer of the module's own, reading or writing. -/
theorem test_own_transfer_hypotheses :
    ∀ put ∈ [true, false],
      let w : OwnJob := { job := { fabJob with put := put, tierF := true, tag := some 0 }, part := 3, base := 0x400000, move := false }
      let t : Trans := { core := 0, id := 0, next := 0, live := [], failed := false, own := some w }
      let s := { flying [] with fabric := { id := 5, trans := [(0, t)], route := [(7, 1)], ports := [(0, 1)] } }
      s.transOf 0 = some t ∧ s.jobOf t = some w.job ∧ s.fabOf t = none ∧ (s.inject { cls := clsRdReq, dst := 7, src := 0, tag := 0 } []).isSome = true := by
  decide +kernel

/-- DMA.LIN to group 1, which core 5 has joined and core 6 not. -/
theorem test_group_copy_hypotheses :
    let w := wd 0x11 3 1 2 (2 ^ 18 + 5)
    let s := { cores := [(2, core2 w { s := [(1, 0x400000#64), (2, 0x2FFFF8#64), (3, 8#64)] }), (5, { mcast := [(0, 2#32)] })], parts := [(3, part3)] : State }
    s.Accepts 2 1 w 0x11 0 .dma ∧ bits (fImm w) 18 8 = 1 ∧ (s.sA 2 1 w).toNat = 0x400000 ∧ (s.sB 2 1 w).toNat + 8 = 0x300000 ∧
      reachesHole 0x400000 8 = false ∧ (s.struck 2 .none).stopAt 2 true 0x400000 8 = none ∧ s.partOf 2 = some 3 ∧ 5 ∈ (s.part 3).cores ∧
      bit (sget 0 (s.core 5).mcast (1 / 32)).toNat (1 % 32) = true ∧ bit (sget 0 (s.core 6).mcast (1 / 32)).toNat (1 % 32) = false := by decide +kernel

/-- An append whose session has become FREE before it starts. -/
theorem test_gone_append_hypotheses :
    let o : InFlight := { kvOp with job := .kv { desc := BitVec.ofNat 256 (kvDesc 1), fmt := 8, gone := true } }
    ((flying [o]).core 2).ops = [] ++ o :: [] ∧ o.unit = .dma ∧ o.started = false ∧ ([] : List InFlight).any (blocksStart o) = false := by decide +kernel

/-- SESS.ITEM of an item that has ended, and SESS.END of one that had ended when it was named. -/
theorem test_past_item_hypotheses :
    let w := wd 0xA1 0 0 0 1
    let s := { withCore (core2 w { item := { valid := true, req := 0, item := 1, past := true } }) with
      reqs := [(0, req0)], parts := [(3, { part3 with cpl := { ring := { en := true } } })] }
    s.Issues 2 1 w 0xA1 0 ∧ (s.part 3).cplHeld = false ∧ (s.ctx 2 1).item.valid = true ∧ (s.ctx 2 1).item.past = true := by decide +kernel

/-! ### Ports and rings -/

/-- A port that takes part in traffic, one whose PERST_Nn is low, and one in D3hot. -/
theorem test_port_hypotheses :
    serving.portUp 1 = true ∧ serving.portUp 0 = false ∧ ({ serving with ports := [(1, { released := true, d3hot := true })] } : State).portUp 1 = false ∧
    serving.canFetchReq 3 = true ∧ serving.reaches (.port 1 0x30000) = true ∧ serving.reaches (.mgmt 0 0 0) = true ∧ serving.reaches (.port 0 0x30000) = false ∧
    (let s := { serving with ports := [] }
     (s.part 3).cpl.ring.en = true ∧ (s.part 3).cpl.ring.isFull = false ∧ s.portUp (s.part 3).port = false) ∧
    (let b := { ringPart with grant := { part3.grant with reqMax := 0 } }
     (serving b |>.part 3).grant.reqMax ≤ (serving b).inFlight 3) := by decide +kernel

/-- A window bound by partition 3 that another partition holds now. -/
theorem test_lost_binding_hypotheses :
    let s := { serving with fabric := { wins := [(9, { state := .open, owner := 4, size := 0x10000, lva := 0x400000 })] }
                            ports := [(1, { released := true, cxl := some (3, 9) })] }
    s.portUp 1 = true ∧ (s.port 1).cxl = some (3, 9) ∧ (s.win 9).state = .open ∧ (s.win 9).owner ≠ 3 := by decide +kernel

/-! ### Husk, repairs and health -/

theorem test_row_fuse_hypotheses :
    ∀ x ∈ [(0, true), (33 * 2 ^ 11 + 0x7FF, true), (34 * 2 ^ 11, false), (2 ^ 17, false)],
      let s := husk .makerTest
      let B := low 0x56 15 [(8, 3), (0x10, x.1)]
      let t := s.husked (.adm 1) (withTag B 0)
      Low s (.adm 1) 0x56 B [(0x08, 0, 4), (0x10, 0, 64)] ∧ eBits (withTag B 0) 0x08 0 4 = 3 ∧ eBits (withTag B 0) 0x10 0 64 = x.1 ∧ t.life = .makerTest ∧
        ((x.1 < 2 ^ 17 ∧ bits x.1 11 6 < 34) ↔ x.2 = true) ∧ t.fuses.rows = [] := by decide +kernel

/-- A critical command on another port's ring while ZEROISING is 1. -/
theorem test_meanwhile_hypotheses :
    let s := { husk .field with ports := [(1, { released := true, adm := openRing }), (2, { released := true, adm := openRing, acpl := { ring := { en := true } } })] }
    s.canFetchAdm 2 = true ∧ eCode (withTag (low 0x52 2 []) 0) ∈ admRingCodes ∧ (husk .field).canFetchAdm 2 = false := by decide +kernel

/-- What befalls a refill: nothing, another core's failure, the spare's own with and without a further spare. -/
theorem test_refill_hypotheses :
    let s := { withCore (core2 0 {}) with parts := [(3, { part3 with refill := [2], spared := true })] }
    (s.refillFails 3 [2] []).2 = true ∧ (s.refillFails 3 [2] [(5, 2)]).2 = false ∧ (s.refillFails 3 [2] [(2, 2)]).2 = true ∧
      (({ s with spares := [(0, [])] } : State).refillFails 3 [2] [(2, 2)]).2 = false ∧ s.partOf 5 = some 3 ∧ (s.core 5).failed = false ∧
      s.causeHolds 5 2 = true ∧ s.drained 3 = true ∧ s.quiet 3 = true ∧
      ({ s with cores := [(2, { ops := [busyOp] })] } : State).drained 3 = false := by decide +kernel

theorem test_halt_hypotheses :
    (∀ x ∈ [(0x200, 0x3C0), (0x1FF, 0x3FF)],
      let h : Health := { score := x.2 }
      h.secureAt ≤ h.score ∧ x.1 < h.haltAt ∧ h.haltAt ≤ h.score ∧ (x.1 < h.secureAt ↔ x.1 = 0x1FF)) ∧
    (∀ x ∈ [(false, true), (false, false), (true, false)],
      let s := serving { ringPart with prog := { stopping := x.1 }, sec := { en := x.2 } }
      let e := s.event 0x0008 s.health.score s.health.mask s.liveParts
      let halted : State := { e with health := { e.health with halted := true } }
      halted.runParts = [3] ∧ (halted.part 3).prog.stopping = x.1 ∧ (halted.part 3).sec.en = x.2) ∧
    ({ State.reset with health := { sensors := [(71, { last := some 99999 })] } } : State).indicators.service = true := by decide +kernel

/-- An uncorrectable error behind a spill window, and a read of what it poisoned. -/
theorem test_spill_error_hypotheses :
    let s := owning (openWin 16)
    s.spillHeld 0x10000 = true ∧ (s.spillError (.ue 0x10000)).fabric.spillPoison = [0x10000 / 64] ∧ 0x10000 / 64 ∈ unitsOf 0x10000 4 ∧
      s.fabric.spillPoison = [] := by decide +kernel

/-! ### Start-up -/

theorem test_boot_hypotheses :
    (∀ b ∈ [true, false], ({ boot := { stage := 1, sampled := b } } : State).boot.sampled = b) ∧
    (let z : State := { fuses := { zeroising := true }, flash := { zeroing := some (1, { tag := 0, index := 0 }, 2) } }
     z.fuses.zeroising = true ∧ z.zeroise.flash.zeroing = some (1, { tag := 0, index := 0 }, 2)) ∧
    (let s : State := { flash := { bankA := some [1], pending := some false } }
     s.flash.pending = some false ∧ s.boot.straps.toNat.testBit 3 = false ∧ s.fuses.makerKey = false ∧ (s.chooseBank).2 = false) ∧
    ({ husk := { mono := 1 } } : State).flash.gen < ({ husk := { mono := 1 } } : State).husk.mono ∧
    ({ boot := { fromPending := true } } : State).boot.fromPending = true ∧ fltMemtrain ≠ fltBootImage := by decide +kernel

/-- Memories in their canonical form, with any command at the front of the queue. -/
theorem test_canonical (c : Instr) : ({ State.reset with pending := [c] } : State).memoryWf = true := rfl
end Sys2Proof.Machine.Test
end

section
/-! PROOFS. The registers of the cores and of the blocks outside them, as instructions and agents read and write them, and the scalar loads and stores.
First what issue adds to an instruction, then the rules of each register operation with the statements they settle, then what the transfers of
Tier F leave of the state, on which loads and stores rest. -/

namespace Sys2Proof.Machine

/-! ### Issue of a ready word -/

/-- A ready word that spells the instruction issues with the instruction's own effect. -/
theorem issue_of_issues {s X : State} {k c opc sel : Nat} {w : W64} (h : s.Issues k c w opc sel) :
    issue k c w (spells w opc sel) (.go X) s = s.afterIssue k c w X := by
  obtain ⟨hready, hwf, hspells⟩ := h
  rw [hspells]
  exact issue_go hready hwf

/-- A ready word that spells the instruction is refused where its meaning refuses. -/
theorem issue_refuse_of_issues {s : State} {k c opc sel : Nat} {w : W64} {f : FaultCode} (h : s.Issues k c w opc sel) :
    issue k c w (spells w opc sel) (.refuse f) s = s.afterRefusal k c f := by
  obtain ⟨hready, hwf, hspells⟩ := h
  simp [issue, hready, hwf, hspells, State.afterRefusal]

/-- A field that begins at bit 0 is a remainder. -/
theorem bits_low (v n : Nat) : bits v 0 n = v % 2 ^ n := by simp [bits]

/-- The remainder of a power of two as the field it is. -/
theorem mod_eq_bits (m n : Nat) (hm : m = 2 ^ n) (v : Nat) : v % m = bits v 0 n := by rw [hm, bits_low]

theorem ofNat_mod_two_pow (n v : Nat) : BitVec.ofNat n (v % 2 ^ n) = BitVec.ofNat n v :=
  BitVec.eq_of_toNat_eq (by simp)

/-! ### Writes of a core's registers (R7, R10, R311, R380, R540) -/

/-- WD_EXP takes a value of 12 to 30 and ignores any other (R311). -/
theorem Core.writeWatchdog_eq (x : Core) (v : W32) :
    x.writeWatchdog v = { x with wdExp := if 12 ≤ v.toNat % 32 ∧ v.toNat % 32 ≤ 30 then v.toNat % 32 else x.wdExp } := by
  simp only [Core.writeWatchdog, bits, Nat.pow_zero, Nat.div_one, Nat.reducePow]
  split <;> rfl

theorem Core.regWrite_wdExp (x : Core) (v : W32) : x.regWrite 0x0C v = x.writeWatchdog v := rfl

/-- A 1 written to bit 31 of CORE_FAULT clears VALID, a 0 leaves it (R7). -/
theorem Core.regWrite_coreFault (x : Core) (v : W32) :
    x.regWrite 0x10 v = { x with faultValid := x.faultValid && !v.getLsbD 31 } := by
  change (if v.toNat.testBit 31 then { x with faultValid := false } else x) = _
  rw [BitVec.testBit_toNat]
  cases v.getLsbD 31
  · simp
  · simp

/-- Ones written to FMT_FLAGS clear its flags (R7). -/
theorem Core.regWrite_fmtFlags (x : Core) (v : W32) :
    x.regWrite 0x188 v = { x with flgInf := x.flgInf && !v.getLsbD 0, flgNan := x.flgNan && !v.getLsbD 1 } := by
  change x.clearFlags v = _
  simp only [Core.clearFlags, BitVec.testBit_toNat]

theorem Core.regWrite_mcast (x : Core) (m : Nat) (v : W32) (hm : m < 8) :
    x.regWrite (0x340 + 4 * m) v = { x with mcast := sput 0 x.mcast m (if m = 0 then v &&& 0xFFFFFFFE#32 else v) } := by
  have hrng : ¬(0x1400 ≤ 0x340 + 4 * m ∧ 0x340 + 4 * m < 0x1600) := by omega
  have hmcast : 0x340 ≤ 0x340 + 4 * m ∧ 0x340 + 4 * m < 0x360 := by omega
  have hindex : (0x340 + 4 * m - 0x340) / 4 = m := by omega
  simp only [Core.regWrite, if_neg hrng, if_pos hmcast, hindex]

/-- An offset of the random streams' block is a register of one stream. -/
theorem Core.regWrite_rng (x : Core) (n o : Nat) (v : W32) (hn : n < 8) (ho : o < 64) :
    x.regWrite (0x1400 + o + 64 * n) v = x.setRng n ((x.rngOf n).write o v) := by
  have hrng : 0x1400 ≤ 0x1400 + o + 64 * n ∧ 0x1400 + o + 64 * n < 0x1600 := by omega
  have hstream : (0x1400 + o + 64 * n - 0x1400) / 64 = n := by omega
  have hoff : (0x1400 + o + 64 * n - 0x1400) % 64 = o := by omega
  simp only [Core.regWrite, if_pos hrng, hstream, hoff]

/-- A write of a register that only reads changes nothing (R10). -/
theorem Core.regWrite_readOnly (x : Core) (off : Nat) (v : W32) (hwd : off ≠ 0x0C) (hfault : off ≠ 0x10) (hflags : off ≠ 0x188)
    (hmcast : off < 0x340 ∨ 0x360 ≤ off) (hrng : off < 0x1400 ∨ 0x1600 ≤ off) : x.regWrite off v = x := by
  unfold Core.regWrite
  rw [if_neg (by omega), if_neg (by omega)]
  split
  · exact absurd rfl hwd
  · exact absurd rfl hfault
  · exact absurd rfl hflags
  · rfl

theorem exec_sclCsrw (k c : Nat) (w : W64) (s : State) :
    exec (.sclCsrw k c w) s = issue k c w (spells w 0x0E 1)
      (if s.isCoreReg k c (fImm w % 65536) then .go (s.setCore k ((s.core k).regWrite (fImm w % 65536) ((s.sA k c w).truncate 32)))
        else .refuse fltArgRange) s := by
  rw [mod_eq_bits 65536 16 rfl]
  rfl

/-- Settles O9: SCL.CSRW writes the core's register through `Core.regWrite`, whose access codes the lemmas above give one by one. -/
theorem controlRegisterWrites : Obligations.ControlRegisterWrites := by
  intro k c w s off v x hissues hreg
  have hnamed : s.isCoreReg k c off = true := by
    simpa [State.isCoreReg] using hreg
  refine ⟨x.regWrite off v, ?_, ?_, ?_, ?_, ?_, ?_, ?_⟩
  · rw [exec_sclCsrw, if_pos hnamed]
    exact issue_of_issues hissues
  · intro h; rw [h, Core.regWrite_wdExp, Core.writeWatchdog_eq]
  · intro h; rw [h, Core.regWrite_coreFault]
  · intro h; rw [h, Core.regWrite_fmtFlags]
  · intro m hm h; rw [h, Core.regWrite_mcast x m v hm]
  · intro n hn
    refine ⟨?_, ?_, ?_, ?_, ?_, ?_, ?_⟩
    · intro h; rw [h]; exact x.regWrite_rng n 0x00 v hn (by decide)
    · intro h; rw [h]; exact x.regWrite_rng n 0x04 v hn (by decide)
    · intro h; rw [h]; exact x.regWrite_rng n 0x08 v hn (by decide)
    · intro h; rw [h]; exact x.regWrite_rng n 0x0C v hn (by decide)
    · intro h; rw [h]; exact x.regWrite_rng n 0x10 v hn (by decide)
    · intro h; rw [h]; exact x.regWrite_rng n 0x14 v hn (by decide)
    · intro h; rw [h]; exact x.regWrite_rng n 0x18 v hn (by decide)
  · intro h1 h2 h3 h4 h5; exact x.regWrite_readOnly off v h1 h2 h3 h4 h5

/-! ### Effects that stay within one context -/

theorem State.ctx_setCtx (s : State) (k c i : Nat) (y : Ctx) : (s.setCtx k c y).ctx k i = if i = c then y else s.ctx k i := by
  rw [State.ctx, State.core_setCtx, if_pos rfl, Core.ctx_setCtx]
  rfl

/-- The state `u` differs from `s` within context `c` of core `k` alone. -/
def WithinContext (s u : State) (k c : Nat) : Prop := u = { s with cores := u.cores } ∧ SameOtherCores s u k ∧ SameButContext s u k c

theorem WithinContext.refl (s : State) (k c : Nat) : WithinContext s s k c := ⟨rfl, fun _ _ => rfl, rfl, fun _ _ => rfl⟩

theorem WithinContext.setCtx {s u : State} {k c : Nat} (h : WithinContext s u k c) (y : Ctx) : WithinContext s (u.setCtx k c y) k c := by
  obtain ⟨hframe, hother, hcore, hctxs⟩ := h
  refine ⟨?_, fun j hj => ?_, ?_, fun i hi => ?_⟩
  · conv => lhs; rw [hframe]
    rfl
  · rw [State.core_setCtx, if_neg hj, hother j hj]
  · rw [State.core_setCtx, if_pos rfl, hcore]
    rfl
  · rw [State.ctx_setCtx, if_neg hi, hctxs i hi]

/-- A scalar register written within the context: the other scalar registers are those of `s`. -/
theorem Ctx.readS_writeS_of_eq {x y : Ctx} (h : y.s = x.s) (d r : Nat) (v : W64) :
    (y.writeS d v).readS r = if r = 0 then 0 else if r = d then v else x.readS r := by
  rw [Ctx.readS_writeS]
  simp only [Ctx.readS, h]

/-! ### A scalar result and the end of issue -/

/-- Of a context a scalar result changes the scalar registers alone. -/
theorem Ctx.writeS_frame (y : Ctx) (d : Nat) (v : W64) : y.writeS d v = { y with s := (y.writeS d v).s } := by
  unfold Ctx.writeS
  split <;> rfl

/-- An instruction whose effect is that of `u`, which begins no transfer, and one scalar result. -/
theorem afterIssue_putS {s u : State} (k c d : Nat) (w v : W64) (hp : u.parts = s.parts) (hr : u.reqs = s.reqs) :
    ∃ t, s.afterIssue k c w (u.putS k c d v) = .next t ∧ t = { u with cores := t.cores, reqs := s.boundReqs k c } ∧
      t.core k = { (u.core k).dropScalar c d with ctxs := (t.core k).ctxs } ∧
      t.ctx k c = { (u.ctx k c).writeS d v with pc := (s.ctx k c).pc + 8 } ∧
      (∀ i, i ≠ c → t.ctx k i = u.ctx k i) ∧ ∀ j, j ≠ k → t.core j = u.core j := by
  have hcore : (u.putS k c d v).core k = ((u.core k).dropScalar c d).setCtx c ((u.ctx k c).writeS d v) := State.core_setCore_self ..
  have hctx : ∀ i, (u.putS k c d v).ctx k i = if i = c then (u.ctx k c).writeS d v else u.ctx k i := fun i => by
    rw [State.ctx, hcore, Core.ctx_setCtx]
    rfl
  have hfar : s.issued k c w (u.putS k c d v) = (u.putS k c d v).bindItem (s.ctx k c).bind := issued_near (farOfCore_parts hp)
  have hreqs : ((u.putS k c d v).bindItem (s.ctx k c).bind).reqs = s.boundReqs k c := bindItem_reqs_congr _ _ _ hr hp
  obtain ⟨hframe, hthis, hctxThis, hother, hctxs, -⟩ := setPc_any s (u.putS k c d v) k c ((s.ctx k c).pc + 8)
  rw [hctx, if_pos rfl] at hctxThis
  rw [State.afterIssue, hfar]
  refine ⟨_, rfl, ?_, ?_, hctxThis, fun i hi => ?_, fun j hj => ?_⟩
  · rw [hreqs] at hframe
    exact hframe
  · rw [hthis, hcore]
    rfl
  · rw [hctxs i hi, hctx, if_neg hi]
  · rw [hother j hj, State.putS, State.core_setCore, if_neg hj]

/-! ### Reads of a core's registers (R7, R314, R325) -/

/-- SCL.CSRR of an offset that names a register: the value goes to s[D], after the read's own effect. -/
theorem exec_sclCsrr_read {s t : State} {k c v : Nat} {w : W64} (h : s.Issues k c w 0x0E 0)
    (hread : s.coreRead k c (fImm w % 65536) = some (v, t)) :
    exec (.sclCsrr k c w) s = s.afterIssue k c w (t.putS k c (fD w) (BitVec.ofNat 64 v)) := by
  change execSclCsrr k c w s = _
  rw [execSclCsrr, ← mod_eq_bits 65536 16 rfl, hread]
  exact issue_of_issues h

theorem exec_sclCsrr_unnamed {s : State} {k c : Nat} {w : W64} (h : s.Issues k c w 0x0E 0)
    (hread : s.coreRead k c (fImm w % 65536) = none) : exec (.sclCsrr k c w) s = s.afterRefusal k c fltArgRange := by
  change execSclCsrr k c w s = _
  rw [execSclCsrr, ← mod_eq_bits 65536 16 rfl, hread]
  exact issue_refuse_of_issues h

theorem State.coreRead_rc (s : State) (k c : Nat) {off : Nat} (h : off ∈ rcCoreOffsets) : s.coreRead k c off = some (s.rcCoreRead k off) := by
  rw [State.coreRead, if_pos (List.contains_iff_mem.mpr h)]

theorem State.coreRead_other (s : State) (k c : Nat) {off : Nat} (h : off ∉ rcCoreOffsets) :
    s.coreRead k c off = (s.coreReg k c off).map fun v => (v, s.latchHigh k c off) := by
  rw [State.coreRead, if_neg (by simpa using h)]

/-- The low half of TIMEBASE, with its high half latched for the reading context (R314). -/
theorem State.coreRead_timebase (s : State) (k c : Nat) :
    s.coreRead k c 0x20 = some (s.time % 2 ^ 32, s.setCtx k c { s.ctx k c with timeHi := BitVec.ofNat 32 (s.time / 2 ^ 32) }) := by
  have hlow : bits s.timebase.toNat 0 32 = s.time % 2 ^ 32 := by
    simp only [bits, State.timebase, BitVec.toNat_ofNat]; omega
  have hhigh : BitVec.ofNat 32 (bits s.timebase.toNat 32 32) = BitVec.ofNat 32 (s.time / 2 ^ 32) := by
    apply BitVec.eq_of_toNat_eq
    simp only [bits, State.timebase, BitVec.toNat_ofNat]; omega
  rw [s.coreRead_other k c (by decide)]
  change some (bits s.timebase.toNat 0 32, s.setCtx k c { s.ctx k c with timeHi := BitVec.ofNat 32 (bits s.timebase.toNat 32 32) }) = _
  rw [hlow, hhigh]

/-- The low half of CNT_CYCLE, with its high half latched for the reading context (R314). -/
theorem State.coreRead_cycles (s : State) (k c : Nat) :
    s.coreRead k c 0x18 = some ((s.cycles k).toNat % 2 ^ 32,
      s.setCtx k c { s.ctx k c with cycleHi := BitVec.ofNat 32 ((s.cycles k).toNat / 2 ^ 32) }) := by
  have hlow : bits (s.cycles k).toNat 0 32 = (s.cycles k).toNat % 2 ^ 32 := bits_low _ 32
  have hhigh : BitVec.ofNat 32 (bits (s.cycles k).toNat 32 32) = BitVec.ofNat 32 ((s.cycles k).toNat / 2 ^ 32) := by
    apply BitVec.eq_of_toNat_eq
    simp only [bits, BitVec.toNat_ofNat]; omega
  rw [s.coreRead_other k c (by decide)]
  change some (bits (s.cycles k).toNat 0 32, s.setCtx k c { s.ctx k c with cycleHi := BitVec.ofNat 32 (bits (s.cycles k).toNat 32 32) }) = _
  rw [hlow, hhigh]

/-- SCL.CSRR whose read stays within the context and leaves its scalar registers: the result joins what the read has left. -/
theorem csrr_within_context {s u : State} {k c v : Nat} {w : W64} (h : s.Issues k c w 0x0E 0)
    (hread : s.coreRead k c (fImm w % 65536) = some (v, u)) (hu : WithinContext s u k c) (hs : (u.ctx k c).s = (s.ctx k c).s) :
    ∃ t, exec (.sclCsrr k c w) s = .next t ∧ WritesScalar s t k c (fD w) (BitVec.ofNat 64 v) ∧
      t.ctx k c = { u.ctx k c with s := (t.ctx k c).s, pc := (s.ctx k c).pc + 8 } ∧ OnlyContext s t k c := by
  obtain ⟨hframeU, hotherU, hcoreU, hctxsU⟩ := hu
  obtain ⟨t, ht, hframe, hcore, hctx, hctxs, hother⟩ :=
    afterIssue_putS (s := s) (u := u) k c (fD w) w (BitVec.ofNat 64 v) (by rw [hframeU]) (by rw [hframeU])
  refine ⟨t, (exec_sclCsrr_read h hread).trans ht, fun r => ?_, ?_, ?_, fun j hj => ?_, ?_, fun i hi => ?_⟩
  · rw [hctx]
    exact Ctx.readS_writeS_of_eq hs (fD w) r _
  · rw [hctx, Ctx.writeS_frame]
  · rw [hframeU] at hframe
    exact hframe
  · rw [hother j hj, hotherU j hj]
  · rw [hcoreU] at hcore
    rw [hcore]
    rfl
  · rw [hctxs i hi, hctxsU i hi]

/-- SCL.CSRR whose read latches a high half for the context, in `y`. -/
theorem csrr_latches {s : State} {k c v : Nat} {w : W64} {y : Ctx} (h : s.Issues k c w 0x0E 0)
    (hread : s.coreRead k c (fImm w % 65536) = some (v, s.setCtx k c y)) (hs : y.s = (s.ctx k c).s) :
    ∃ t, exec (.sclCsrr k c w) s = .next t ∧ WritesScalar s t k c (fD w) (BitVec.ofNat 64 v) ∧
      t.ctx k c = { y with s := (t.ctx k c).s, pc := (s.ctx k c).pc + 8 } ∧ OnlyContext s t k c := by
  have hy := s.ctx_setCtx_self k c y
  have h' := csrr_within_context h hread ((WithinContext.refl s k c).setCtx y) (by rw [hy, hs])
  rwa [hy] at h'

/-- SCL.CSRR of an RC counter: the counter goes to s[D] and reads 0 from then on (R7). -/
theorem csrr_clears_counter {s : State} {k c : Nat} {w : W64} (h : s.Issues k c w 0x0E 0) (hoff : fImm w % 65536 ∈ rcCoreOffsets) :
    ∃ t, exec (.sclCsrr k c w) s = .next t ∧
      WritesScalar s t k c (fD w) (BitVec.ofNat 64 (sget 0 (s.core k).cnt (fImm w % 65536)).toNat) ∧
      (∀ i, sget 0 (t.core k).cnt i = if i = fImm w % 65536 then 0 else sget 0 (s.core k).cnt i) ∧
      OnlyScalars s t k c ((s.ctx k c).pc + 8) ∧ SameOtherCores s t k ∧ (∀ i, i ≠ c → t.ctx k i = s.ctx k i) ∧
      t.core k = { s.core k with ctxs := (t.core k).ctxs, ops := (t.core k).ops, cnt := (t.core k).cnt } ∧
      t = { s with cores := t.cores, reqs := s.boundReqs k c } := by
  let u := (s.rcCoreRead k (fImm w % 65536)).2
  have hu : u.core k = { s.core k with cnt := sput 0 (s.core k).cnt (fImm w % 65536) 0 } := State.core_setCore_self ..
  have huctx : ∀ i, u.ctx k i = s.ctx k i := fun i => by
    rw [State.ctx, hu]
    rfl
  obtain ⟨t, ht, hframe, hcore, hctx, hctxs, hother⟩ := afterIssue_putS (s := s) (u := u) k c (fD w) w
    (BitVec.ofNat 64 (sget 0 (s.core k).cnt (fImm w % 65536)).toNat) rfl rfl
  rw [hu] at hcore
  rw [huctx] at hctx
  refine ⟨t, (exec_sclCsrr_read h (s.coreRead_rc k c hoff)).trans ht, fun r => ?_, fun i => ?_, ?_, fun j hj => ?_, fun i hi => ?_, ?_,
    hframe⟩
  · rw [hctx]
    exact Ctx.readS_writeS ..
  · rw [hcore]
    exact sget_sput 0 (s.core k).cnt (fImm w % 65536) 0 i
  · rw [OnlyScalars, hctx, Ctx.writeS_frame]
  · rw [hother j hj]
    exact (State.core_setCore ..).trans (if_neg hj)
  · rw [hctxs i hi, huctx]
  · rw [hcore]
    rfl

/-- Settles O8: by the kind of the offset, an RC counter, a register whose low half latches, any other register, or none. -/
theorem controlRegisterReads : Obligations.ControlRegisterReads := by
  intro k c w s v off
  refine ⟨?_, ?_, ?_, ?_, ?_⟩
  · intro h hrc hcycle htime hreg
    have hlatch : s.latchHigh k c off = s := by rw [State.latchHigh, if_neg hcycle, if_neg htime]
    have hread : s.coreRead k c off = some (v, s) := by rw [s.coreRead_other k c hrc, hreg, Option.map_some, hlatch]
    exact csrr_within_context h hread (WithinContext.refl s k c) rfl
  · exact fun h hoff => csrr_clears_counter h hoff
  · intro h hoff
    have hread := (congrArg (s.coreRead k c) hoff).trans (s.coreRead_timebase k c)
    rw [ofNat_mod_two_pow 32]
    exact csrr_latches h hread rfl
  · intro h hoff
    have hread := (congrArg (s.coreRead k c) hoff).trans (s.coreRead_cycles k c)
    exact csrr_latches h hread rfl
  · intro hrc hreg
    refine ⟨fun h => ?_, fun h => ?_⟩
    · exact exec_sclCsrr_unnamed h (by rw [s.coreRead_other k c hrc, hreg]; rfl)
    · have hnamed : ¬s.isCoreReg k c off = true := by
        simp [State.isCoreReg, hreg, hrc]
      rw [exec_sclCsrw, if_neg hnamed]
      exact issue_refuse_of_issues h

/-! ### Registers outside the cores: where an agent's read goes (R471, R472) -/

theorem State.portUp_of_owns {s : State} {n p : Nat} (h : s.owns n p = true) : s.portUp n = true := by
  simp only [State.owns, Bool.and_eq_true] at h
  obtain ⟨⟨hup, -⟩, -⟩ := h
  exact hup

theorem State.locate_part {s : State} {n p off : Nat} (hp : p < 16) (hoff : off < 0x1000) :
    s.locate n (0x10000 + 0x1000 * p + off) = if s.owns n p then some (.part p, off) else none := by
  have hpart : (0x10000 + 0x1000 * p + off - 0x10000) / 0x1000 = p := by omega
  have hrest : (0x10000 + 0x1000 * p + off) % 0x1000 = off := by omega
  rw [State.locate, if_neg (by omega), if_pos (by omega)]
  simp only [hpart, hrest]

theorem State.locate_winnow {s : State} {n p off : Nat} (hp : p < 16) (hoff : off < 0x40) :
    s.locate n (0x21000 + 0x40 * p + off) = if s.owns n p then some (.winnow p, off) else none := by
  have hpart : (0x21000 + 0x40 * p + off - 0x21000) / 0x40 = p := by omega
  have hrest : (0x21000 + 0x40 * p + off) % 0x40 = off := by omega
  rw [State.locate, if_neg (by omega), if_neg (by omega), if_pos (by omega)]
  simp only [hpart, hrest]

theorem State.locate_health (s : State) (n : Nat) {off : Nat} (hoff : off < 0x1000) : s.locate n (0x30000 + off) = some (.health, off) := by
  rw [State.locate, if_neg (by omega), if_neg (by omega), if_neg (by omega), if_pos (by omega), Nat.add_sub_cancel_left]

theorem State.locate_husk (s : State) (n : Nat) {off : Nat} (hoff : off < 0x1000) : s.locate n (0x40000 + off) = some (.husk, off) := by
  rw [State.locate, if_neg (by omega), if_neg (by omega), if_neg (by omega), if_neg (by omega), if_pos (by omega), Nat.add_sub_cancel_left]

theorem State.locate_fab (s : State) (n : Nat) {off : Nat} (hoff : off < 0x20000) : s.locate n (0x80000 + off) = some (.fab, off) := by
  rw [State.locate, if_neg (by omega), if_neg (by omega), if_neg (by omega), if_neg (by omega), if_neg (by omega), if_pos (by omega),
    Nat.add_sub_cancel_left]

theorem State.regRead_port {s : State} {n off o : Nat} {b : RegBlock} (h : s.locate n off = some (b, o)) :
    s.regRead (.port n off) = b.read s n o := by
  simp only [State.regRead, h]

theorem State.regRead_port_none {s : State} {n off : Nat} (h : s.locate n off = none) : s.regRead (.port n off) = (0, s) := by
  simp only [State.regRead, h]

theorem State.regRead_mgmt (s : State) (i b off : Nat) : s.regRead (.mgmt i b off) = (mgmtBlock b).read s (4 + i) off := rfl

/-- The RC fields of a block lie at aligned offsets within it. -/
theorem partCounters_lt : ∀ off ∈ partCounters, off < 0x1000 := by decide

theorem winnowCounters_lt : ∀ off ∈ winnowCounters, off < 0x40 := by decide

theorem healthCounters_aligned : ∀ off ∈ healthCounters, off < 0x1000 ∧ off % 4 = 0 := by decide

theorem fabCounters_aligned : ∀ off ∈ fabCounters, off < 0x20000 ∧ off % 4 = 0 := by decide

/-! ### RC fields: each block's read answers the field and leaves it 0 (R7) -/

theorem RegBlock.part_read_counter (s : State) (r p : Nat) {off : Nat} (h : off ∈ partCounters) :
    (RegBlock.part p).read s r off =
      ((sget 0 (s.part p).cnt off).toNat, s.setPart p { s.part p with cnt := sput 0 (s.part p).cnt off 0 }) := by
  simp only [partCounters, List.mem_cons, List.not_mem_nil, or_false] at h
  rcases h with rfl | rfl | rfl | rfl <;> rfl

theorem RegBlock.winnow_read_counter (s : State) (r p : Nat) {off : Nat} (h : off ∈ winnowCounters) :
    (RegBlock.winnow p).read s r off =
      ((sget 0 (s.part p).cnt (0x1000 + off)).toNat, s.setPart p { s.part p with cnt := sput 0 (s.part p).cnt (0x1000 + off) 0 }) := by
  simp only [winnowCounters, List.mem_cons, List.not_mem_nil, or_false] at h
  rcases h with rfl | rfl | rfl | rfl | rfl | rfl | rfl <;> rfl

theorem RegBlock.health_read_counter (s : State) (r : Nat) {off : Nat} (h : off ∈ healthCounters) :
    RegBlock.health.read s r off =
      ((sget 0 s.health.cnt off).toNat, { s with health := { s.health with cnt := sput 0 s.health.cnt off 0 } }) := by
  have haligned : ¬off % 4 ≠ 0 := fun hodd => hodd (healthCounters_aligned off h).2
  have hc := List.contains_iff_mem.mpr h
  simp only [RegBlock.read, RegBlock.value, RegBlock.afterRead, State.healthReg, if_neg haligned, if_pos hc]

theorem RegBlock.fab_read_counter (s : State) (r : Nat) {off : Nat} (h : off ∈ fabCounters) :
    RegBlock.fab.read s r off =
      ((sget 0 s.fabric.cnt off).toNat, { s with fabric := { s.fabric with cnt := sput 0 s.fabric.cnt off 0 } }) := by
  have haligned : ¬off % 4 ≠ 0 := fun hodd => hodd (fabCounters_aligned off h).2
  have hc := List.contains_iff_mem.mpr h
  simp only [RegBlock.read, RegBlock.value, RegBlock.afterRead, State.fabReg, if_neg haligned, if_pos hc]

theorem RegBlock.husk_read_slotFail (s : State) (r : Nat) :
    RegBlock.husk.read s r 0x18 = (s.husk.cntSlotFail.toNat, { s with husk := { s.husk with cntSlotFail := 0 } }) := rfl

/-- The registers of key slot `n` in the Husk block: LAST_LO, the reader's latch of LAST_HI, and CNT_FAIL (R574). -/
theorem State.huskReg_slot (s : State) (r : Nat) {n : Nat} (h : n < 16) :
    s.huskReg r (0x44 + 0x10 * n) = loWord (s.slot n).last ∧
      s.huskReg r (0x48 + 0x10 * n) = (sget 0 s.husk.latches (r * 16 + n)).toNat ∧
      s.huskReg r (0x4C + 0x10 * n) = (s.slot n).cntFail.toNat := by
  refine ⟨?_, ?_, ?_⟩ <;> unfold State.huskReg <;> rw [if_neg (by omega), if_pos (by omega)]
  · simp only [show (0x44 + 0x10 * n - 0x40) / 16 = n by omega, show (0x44 + 0x10 * n) % 16 = 4 by omega]
  · simp only [show (0x48 + 0x10 * n - 0x40) / 16 = n by omega, show (0x48 + 0x10 * n) % 16 = 8 by omega]
  · simp only [show (0x4C + 0x10 * n - 0x40) / 16 = n by omega, show (0x4C + 0x10 * n) % 16 = 12 by omega]

theorem RegBlock.husk_read_keyFail (s : State) (r : Nat) {n : Nat} (h : n < 16) :
    RegBlock.husk.read s r (0x4C + 0x10 * n) = ((s.slot n).cntFail.toNat, s.setSlot n { s.slot n with cntFail := 0 }) := by
  have hslot : (0x4C + 0x10 * n - 0x40) / 16 = n := by omega
  obtain ⟨-, -, hvalue⟩ := s.huskReg_slot r h
  simp only [RegBlock.read, RegBlock.value, RegBlock.afterRead, hvalue, hslot]
  rw [if_neg (by omega), if_neg (by omega), if_pos (by omega)]

/-- KEY_SLOTn_LAST_LO: the low half of LAST, with the high half latched for the reader (R574). -/
theorem RegBlock.husk_read_lastLo (s : State) (r : Nat) {n : Nat} (h : n < 16) :
    RegBlock.husk.read s r (0x44 + 0x10 * n) = (loWord (s.slot n).last,
      { s with husk := { s.husk with latches := sput 0 s.husk.latches (r * 16 + n) (BitVec.ofNat 32 (hiWord (s.slot n).last)) } }) := by
  have hslot : (0x44 + 0x10 * n - 0x40) / 16 = n := by omega
  obtain ⟨hvalue, -, -⟩ := s.huskReg_slot r h
  simp only [RegBlock.read, RegBlock.value, RegBlock.afterRead, hvalue, hslot]
  rw [if_neg (by omega), if_pos (by omega)]

/-! ### Reads that leave the block as it is -/

theorem RegBlock.health_read_other (s : State) (r : Nat) {off : Nat} (h : off ∉ healthCounters) :
    RegBlock.health.read s r off = (s.healthReg off, s) := by
  simp only [RegBlock.read, RegBlock.value, RegBlock.afterRead, if_neg (mt List.contains_iff_mem.mp h)]

theorem RegBlock.fab_read_other (s : State) (r : Nat) {off : Nat} (h : off ∉ fabCounters) :
    RegBlock.fab.read s r off = (s.fabReg off, s) := by
  simp only [RegBlock.read, RegBlock.value, RegBlock.afterRead, if_neg (mt List.contains_iff_mem.mp h)]

theorem RegBlock.health_read_points (s : State) (r : Nat) {i : Nat} (h : i < 10) :
    RegBlock.health.read s r (0x40 + 4 * i) = (sget 0 s.health.pts i, s) := by
  have hindex : (0x40 + 4 * i - 0x40) / 4 = i := by omega
  have hro : 0x40 + 4 * i ∉ healthCounters := by simp [healthCounters]; omega
  rw [RegBlock.health_read_other s r hro]
  unfold State.healthReg
  rw [if_neg (by omega), if_neg (mt List.contains_iff_mem.mp hro), if_pos (by omega), hindex]

theorem RegBlock.health_read_leanReq (s : State) (r : Nat) {i : Nat} (h : i < 64) :
    RegBlock.health.read s r (0x100 + 4 * i) = (sget 0 s.health.leanReq i, s) := by
  have hindex : (0x100 + 4 * i - 0x100) / 4 = i := by omega
  have hro : 0x100 + 4 * i ∉ healthCounters := by simp [healthCounters]; omega
  rw [RegBlock.health_read_other s r hro]
  unfold State.healthReg
  rw [if_neg (by omega), if_neg (mt List.contains_iff_mem.mp hro), if_neg (by omega), if_neg (by omega), if_pos (by omega), hindex]

theorem RegBlock.health_read_thermCap (s : State) (r : Nat) {i : Nat} (h : i < 4) :
    RegBlock.health.read s r (0x410 + 4 * i) = (s.thermCap i, s) := by
  have hindex : (0x410 + 4 * i - 0x410) / 4 = i := by omega
  have hro : 0x410 + 4 * i ∉ healthCounters := by simp [healthCounters]; omega
  rw [RegBlock.health_read_other s r hro]
  unfold State.healthReg
  rw [if_neg (by omega), if_neg (mt List.contains_iff_mem.mp hro), if_neg (by omega), if_neg (by omega), if_neg (by omega), if_pos (by omega), hindex]

theorem RegBlock.fab_read_port (s : State) (r : Nat) {i : Nat} (h : i < 12) : RegBlock.fab.read s r (0x40 + 4 * i) = (s.vport i, s) := by
  have hindex : (0x40 + 4 * i - 0x40) / 4 = i := by omega
  have hro : 0x40 + 4 * i ∉ fabCounters := by simp [fabCounters]; omega
  rw [RegBlock.fab_read_other s r hro]
  unfold State.fabReg
  rw [if_neg (by omega), if_neg (mt List.contains_iff_mem.mp hro), if_pos (by omega), hindex]

theorem boolNat_mul (b : Bool) (n : Nat) : boolNat b * n = if b = true then n else 0 := by
  cases b
  · exact Nat.zero_mul n
  · exact Nat.one_mul n

/-! ### RC_COUNTER_READ, KEY_LAST_LO_READ and REG_READ -/

/-- An agent that the module answers reads a 32-bit field; the read leaves `t`. -/
theorem exec_rcCounterRead {s t : State} {who : RegAgent} {v : W32} (hreach : s.reaches who = true) (h : s.regRead who = (v.toNat, t)) :
    exec (.rcCounterRead who) s = .next (t.emit (.read v)) := by
  change Host.Outcome.next (if s.reaches who = true then (s.regRead who).2.emit (.read (BitVec.ofNat 32 (s.regRead who).1)) else s) = _
  rw [if_pos hreach, h, BitVec.ofNat_toNat, BitVec.setWidth_eq]

theorem exec_rcCounterRead_unreached {s : State} {who : RegAgent} (hreach : s.reaches who = false) :
    exec (.rcCounterRead who) s = .next s := by
  change Host.Outcome.next (if s.reaches who = true then (s.regRead who).2.emit (.read (BitVec.ofNat 32 (s.regRead who).1)) else s) = _
  rw [if_neg (by rw [hreach]; decide)]

/-- A port and a management interface that reach the same RC field both read it and leave it 0. -/
theorem exec_rcCounterRead_shared {s t : State} {b : RegBlock} {n i m base off : Nat} {v : W32} (hloc : s.locate n base = some (b, off))
    (hmgmt : mgmtBlock m = b) (hread : ∀ r, b.read s r off = (v.toNat, t)) :
    ∀ who ∈ [RegAgent.port n base, .mgmt i m off], s.reaches who = true → exec (.rcCounterRead who) s = .next (t.emit (.read v)) := by
  simp only [List.forall_mem_cons, List.not_mem_nil, false_implies, implies_true, and_true]
  refine ⟨fun hreach => ?_, fun hreach => ?_⟩
  · exact exec_rcCounterRead hreach ((State.regRead_port hloc).trans (hread n))
  · exact exec_rcCounterRead hreach ((State.regRead_mgmt s i m off).trans (hmgmt ▸ hread (4 + i)))

/-- With the module powered, REG_READ answers the value of the block's register; the read leaves `t` (R596). -/
theorem exec_regRead {s t : State} {i block off v : Nat} (hen : s.boot.en = true) (hheld : s.boot.heldOff = false)
    (h : (mgmtBlock block).read s (4 + i) off = (v, t)) :
    exec (.regRead i block off) s = .next (t.emit (.mgmt i (.value (BitVec.ofNat 32 v)))) := by
  change execRegRead i block off s = _
  unfold execRegRead
  rw [if_neg (by simp [hen, hheld]), State.regRead_mgmt, h]

theorem exec_regRead_unpowered {s : State} {i block off : Nat} (h : s.boot.en = false ∨ s.boot.heldOff = true) :
    exec (.regRead i block off) s = .next s := by
  change execRegRead i block off s = _
  unfold execRegRead
  rw [if_pos (by rcases h with h | h <;> simp [h])]

/-- KEY_LAST_LO_READ by a port or a management interface: the low half of LAST, with the high half latched for that reader (R574). -/
theorem exec_keyLastLoRead (s : State) (n i b off : Nat) {word : Nat} (hword : word < 16) :
    ∀ x ∈ [(RegAgent.port n off, n), (RegAgent.mgmt i b off, 4 + i)], s.reaches x.1 = true →
      exec (.keyLastLoRead x.1 word) s = .next ({ s with husk := { s.husk with
        latches := sput 0 s.husk.latches (x.2 * 16 + word) (BitVec.ofNat 32 ((s.slot word).last.toNat / 2 ^ 32)) } }.emit
          (.read (BitVec.ofNat 32 (s.slot word).last.toNat))) := by
  have hlow : BitVec.ofNat 32 (loWord (s.slot word).last) = BitVec.ofNat 32 (s.slot word).last.toNat := by
    rw [loWord, bits_low]
    exact ofNat_mod_two_pow ..
  have hhigh : BitVec.ofNat 32 (hiWord (s.slot word).last) = BitVec.ofNat 32 ((s.slot word).last.toNat / 2 ^ 32) :=
    ofNat_mod_two_pow ..
  have hread := fun reader => RegBlock.husk_read_lastLo s reader hword
  simp only [hhigh] at hread
  simp only [List.forall_mem_cons, List.not_mem_nil, false_implies, implies_true, and_true]
  refine ⟨fun hreach => ?_, fun _ => ?_⟩
  · change execKeyLastLoRead (.port n off) word s = _
    unfold execKeyLastLoRead
    dsimp only
    rw [if_pos hreach, hread, hlow]
  · change execKeyLastLoRead (.mgmt i b off) word s = _
    unfold execKeyLastLoRead
    dsimp only
    rw [hread, hlow]

theorem exec_keyLastLoRead_portDown {s : State} {n off word : Nat} (h : s.portUp n = false) :
    exec (.keyLastLoRead (.port n off) word) s = .next s := by
  change execKeyLastLoRead (.port n off) word s = _
  unfold execKeyLastLoRead
  dsimp only
  rw [if_neg (by simp [State.reaches, h])]

/-- LAST_HI reads, for the reader that latched it, the high half of LAST (R574). -/
theorem State.huskReg_latched {s t : State} {reader word : Nat} (hword : word < 16)
    (h : t.husk.latches = sput 0 s.husk.latches (reader * 16 + word) (BitVec.ofNat 32 ((s.slot word).last.toNat / 2 ^ 32))) :
    t.huskReg reader (0x48 + 0x10 * word) = (s.slot word).last.toNat / 2 ^ 32 := by
  obtain ⟨-, hvalue, -⟩ := t.huskReg_slot reader hword
  have hlt := (s.slot word).last.isLt
  rw [hvalue, h, sget_sput_self, BitVec.toNat_ofNat]
  omega

/-! ### Reads by a context: COUNTER_LO_READ and RNG_OUT_READ -/

/-- One scalar register written, once a read has changed the context alone and left its scalar registers. -/
theorem writeS_within_context {s u : State} {k c : Nat} (hu : WithinContext s u k c) (hs : (u.ctx k c).s = (s.ctx k c).s) (d : Nat) (v : W64) :
    let t := u.setCtx k c ((u.ctx k c).writeS d v)
    WritesScalar s t k c d v ∧ t.ctx k c = { u.ctx k c with s := (t.ctx k c).s } ∧ WithinContext s t k c := by
  intro t
  have hctx : t.ctx k c = (u.ctx k c).writeS d v := State.ctx_setCtx_self ..
  refine ⟨fun r => ?_, ?_, hu.setCtx _⟩
  · rw [hctx]
    exact Ctx.readS_writeS_of_eq hs d r v
  · rw [hctx]
    exact Ctx.writeS_frame ..

theorem exec_counterLoRead {s t : State} {k c v dst : Nat} {tb : Bool} (h : s.coreRead k c (if tb then 0x20 else 0x18) = some (v, t)) :
    exec (.counterLoRead k c tb dst) s = .next (t.setCtx k c ((t.ctx k c).writeS dst (BitVec.ofNat 64 v))) := by
  change execCounterLoRead k c tb dst s = _
  rw [execCounterLoRead, h]

/-- COUNTER_LO_READ: the low half goes to the register, and the context `y` keeps the latched high half (R314). -/
theorem counterLoRead_latches {s : State} {k c v : Nat} {tb : Bool} {y : Ctx} (dst : Nat)
    (h : s.coreRead k c (if tb then 0x20 else 0x18) = some (v, s.setCtx k c y)) (hs : y.s = (s.ctx k c).s) :
    ∃ t, exec (.counterLoRead k c tb dst) s = .next t ∧ WritesScalar s t k c dst (BitVec.ofNat 64 v) ∧
      t.ctx k c = { y with s := (t.ctx k c).s } ∧ WithinContext s t k c := by
  have hy := s.ctx_setCtx_self k c y
  have hw := writeS_within_context ((WithinContext.refl s k c).setCtx y) (by rw [hy, hs]) dst (BitVec.ofNat 64 v)
  refine ⟨_, exec_counterLoRead h, ?_⟩
  rw [hy] at hw ⊢
  exact hw

/-! ### A port's configuration space (R470, R509) -/

theorem exec_rcCounterRead_config (s : State) (n : Nat) (f : ConfigField) :
    exec (.rcCounterRead (.config n f)) s =
      .next (if (s.port n).released = true then s.emit (.read (BitVec.ofNat 32 ((s.port n).config f))) else s) := rfl

/-- What the fields of a port's configuration space read (log 7). -/
theorem Port.config_of_mem {x : Port} {i : Nat} {z : ConfigField × Nat}
    (h : z ∈ [(ConfigField.msixMask i, if i ∈ x.masked then 1 else 0), (.msixPending i, if i ∈ x.pendingVectors then 1 else 0),
      (.completionTimeout, x.timeoutValue), (.powerState, if x.d3hot = true then 3 else 0)]) : x.config z.1 = z.2 := by
  simp only [List.mem_cons, List.not_mem_nil, or_false] at h
  rcases h with rfl | rfl | rfl | rfl
  · simp [Port.config, boolNat]
  · simp [Port.config, boolNat]
  · rfl
  · rfl

/-- Settles O46: each clause is one read through `State.regRead`, of the block that `State.locate` or the message names. -/
theorem registerReadsClearAndLatch : Obligations.RegisterReadsClearAndLatch := by
  intro n i p off k c dst word s b h
  refine ⟨?_, ?_, ?_, ?_, ?_, ?_, ?_, ?_, ?_, ?_, ?_, ?_, ?_, ?_, ?_⟩
  · intro hp howns
    have hup : s.reaches (.port n 0) = true := State.portUp_of_owns howns
    refine ⟨fun hoff => ?_, fun hoff => ?_⟩
    · have hloc : s.locate n (0x10000 + 0x1000 * p + off) = some (.part p, off) := by
        rw [State.locate_part hp (partCounters_lt off hoff), if_pos howns]
      exact exec_rcCounterRead hup ((State.regRead_port hloc).trans (RegBlock.part_read_counter s n p hoff))
    · have hloc : s.locate n (0x21000 + 0x40 * p + off) = some (.winnow p, off) := by
        rw [State.locate_winnow hp (winnowCounters_lt off hoff), if_pos howns]
      exact exec_rcCounterRead hup ((State.regRead_port hloc).trans (RegBlock.winnow_read_counter s n p hoff))
  · exact fun hdown => ⟨exec_rcCounterRead_unreached hdown, exec_keyLastLoRead_portDown hdown⟩
  · intro hp hup howns
    refine ⟨fun hoff => ?_, fun hoff => ?_⟩
    · have hloc : s.locate n (0x10000 + 0x1000 * p + off) = none := by
        rw [State.locate_part hp hoff, howns]; rfl
      exact exec_rcCounterRead (v := 0) hup (State.regRead_port_none hloc)
    · have hloc : s.locate n (0x21000 + 0x40 * p + off) = none := by
        rw [State.locate_winnow hp hoff, howns]; rfl
      exact exec_rcCounterRead (v := 0) hup (State.regRead_port_none hloc)
  · intro hoff
    obtain ⟨hlt, -⟩ := healthCounters_aligned off hoff
    exact exec_rcCounterRead_shared (s.locate_health n hlt) rfl fun r => RegBlock.health_read_counter s r hoff
  · intro hoff
    obtain ⟨hlt, -⟩ := fabCounters_aligned off hoff
    exact exec_rcCounterRead_shared (s.locate_fab n hlt) rfl fun r => RegBlock.fab_read_counter s r hoff
  · exact exec_rcCounterRead_shared (s.locate_husk n (off := 0x18) (by decide)) rfl fun r => RegBlock.husk_read_slotFail s r
  · intro hword
    have hloc : s.locate n (0x4004C + 0x10 * word) = some (.husk, 0x4C + 0x10 * word) := by
      rw [← s.locate_husk n (off := 0x4C + 0x10 * word) (by omega), ← Nat.add_assoc]
    exact exec_rcCounterRead_shared hloc rfl fun r => RegBlock.husk_read_keyFail s r hword
  · intro hoff
    refine exec_rcCounterRead (who := .core k c off) rfl ?_
    change (s.coreRead k c off).getD (0, s) = _
    rw [s.coreRead_rc k c hoff]
    rfl
  · exact counterLoRead_latches dst (tb := true) (s.coreRead_timebase k c) rfl
  · exact counterLoRead_latches dst (tb := false) (s.coreRead_cycles k c) rfl
  · intro hword x hx hreach
    exact ⟨exec_keyLastLoRead s n i c off hword x hx hreach, fun t ht => State.huskReg_latched hword ht⟩
  · exact ⟨_, rfl, writeS_within_context (WithinContext.refl s k c) rfl dst _⟩
  · intro hen hheld answers
    have hanswers : ∀ {block o value}, (mgmtBlock block).read s (4 + i) o = (value, s) → answers block o value :=
      fun hread => exec_regRead hen hheld hread
    refine ⟨fun hoff => ?_, fun hoff => ?_, hanswers ?_, hanswers rfl, hanswers rfl, fun hoff => ?_, fun hoff => ?_, hanswers rfl,
      hanswers rfl, hanswers rfl, fun hoff => ?_, hanswers ?_, hanswers rfl, fun hoff => ?_, hanswers ?_, hanswers rfl⟩
    · rw [exec_regRead (block := 0) hen hheld (RegBlock.health_read_counter s (4 + i) hoff), BitVec.ofNat_toNat, BitVec.setWidth_eq]
    · rw [exec_regRead (block := 1) hen hheld (RegBlock.fab_read_counter s (4 + i) hoff), BitVec.ofNat_toNat, BitVec.setWidth_eq]
    · rw [← boolNat_mul]
      rfl
    · exact hanswers (RegBlock.health_read_points s (4 + i) hoff)
    · exact hanswers (RegBlock.health_read_leanReq s (4 + i) hoff)
    · exact hanswers (RegBlock.health_read_thermCap s (4 + i) hoff)
    · rw [← boolNat_mul]
      rfl
    · exact hanswers (RegBlock.fab_read_port s (4 + i) hoff)
    · rw [← bits_low]
      rfl
  · intro z hz
    rw [exec_rcCounterRead_config, Port.config_of_mem hz]
  · exact exec_regRead_unpowered

/-! ### Writes of the port and partition blocks (R471 to R475, R533) -/

/-- A write that reaches a port block. -/
theorem exec_registerWrite_port {s : State} {n off o m : Nat} {v : W32} (hup : s.portUp n = true) (hloc : s.locate n off = some (.port m, o)) :
    exec (.registerWrite (.port n off) v) s = .next (s.setPort m ((s.port m).write o v)) := by
  change execRegisterWrite (.port n off) v s = _
  unfold execRegisterWrite
  rw [if_neg (by simp [State.reaches, hup])]
  simp only [hloc]

/-- A write that reaches a partition block. -/
theorem exec_registerWrite_part {s : State} {n off o p : Nat} {v : W32} (hup : s.portUp n = true) (hloc : s.locate n off = some (.part p, o)) :
    exec (.registerWrite (.port n off) v) s = .next (s.setPart p ((s.part p).write o v)) := by
  change execRegisterWrite (.port n off) v s = _
  unfold execRegisterWrite
  rw [if_neg (by simp [State.reaches, hup])]
  simp only [hloc]

/-- A write that reaches no block changes nothing, nor does one of an agent that the module does not answer. -/
theorem exec_registerWrite_nowhere {s : State} {n off : Nat} {v : W32} (hloc : s.locate n off = none) :
    exec (.registerWrite (.port n off) v) s = .next s := by
  change execRegisterWrite (.port n off) v s = _
  unfold execRegisterWrite
  simp only [hloc, ite_self]

theorem exec_registerWrite_unreached {s : State} {who : RegAgent} {v : W32} (h : s.reaches who = false) :
    exec (.registerWrite who v) s = .next s := by
  change execRegisterWrite who v s = _
  unfold execRegisterWrite
  rw [if_pos (by rw [h]; rfl)]

theorem exec_registerWrite_config {s : State} {n : Nat} {f : ConfigField} {v : W32} (h : (s.port n).released = true) :
    exec (.registerWrite (.config n f) v) s = .next (s.writeConfig n f v) := by
  change execRegisterWrite (.config n f) v s = _
  unfold execRegisterWrite
  rw [if_neg (by simp [State.reaches, h])]

theorem State.locate_port (s : State) (n : Nat) {off : Nat} (hoff : off < 0x10000) : s.locate n off = some (.port n, off) := by
  rw [State.locate, if_pos hoff]

/-- SIZE takes a LOG2 of 6 to 16 while the ring is disabled, and ignores any other (R474). -/
theorem HostRing.write_size {r : HostRing} (hen : r.en = false) (v : W32) :
    r.write 2 v = if 6 ≤ v.toNat % 32 ∧ v.toNat % 32 ≤ 16 then { r with log2 := v.toNat % 32 } else r := by
  unfold HostRing.write
  rw [if_neg (by rw [hen]; decide)]
  rw [mod_eq_bits 32 5 rfl]
  rfl

theorem HostRing.write_baseLo {r : HostRing} (hen : r.en = false) (v : W32) :
    r.write 0 v = { r with base := setHalf r.base false (v &&& 0xFFFFF000#32) } := by
  unfold HostRing.write
  rw [if_neg (by rw [hen]; decide)]
  rfl

theorem HostRing.write_enabled {r : HostRing} (hen : r.en = true) (i : Nat) (v : W32) : r.write i v = r := by
  unfold HostRing.write
  rw [if_pos hen]

theorem PartBlock.write_irq (b : PartBlock) (v : W32) :
    b.write 0x68 v = { b with cpl := { b.cpl with irqCount := v.toNat % 256, irqUs := v.toNat / 256 % 65536 } } := by
  rw [mod_eq_bits 256 8 rfl]
  rfl

/-- From 0x104 on a partition block holds the SEC fields, which are written while the partition is READY (R533). -/
theorem PartBlock.write_sec (b : PartBlock) {off : Nat} (v : W32) (h : off % 4 = 0) (hlo : 0x104 ≤ off) :
    b.write off v = if b.state = .ready then { b with sec := b.sec.write off v } else b := by
  unfold PartBlock.write
  rw [if_neg (by omega), if_neg (by omega), if_neg (by omega), if_neg (by omega), if_neg (by omega)]

theorem Sec.write_mem (x : Sec) {i : Nat} (hi : i < 4) (v : W32) :
    x.write (0x120 + 8 * i) v = { x with mem := sput 0 x.mem (2 * i) (v.toNat % 2 ^ 27) } := by
  have hindex : (0x120 + 8 * i - 0x120) / 4 = 2 * i := by omega
  unfold Sec.write
  split
  · omega
  · omega
  · omega
  · omega
  · rw [if_pos (by omega)]
    simp only [hindex, Nat.mul_mod_right, if_true, bits_low]

/-! ### Writes of a port's configuration space (R509; log 7, log 66) -/

theorem sinsert_sinsert_self {α : Type} (m : Sparse α) (k : Nat) (v w : α) : sinsert (sinsert m k v) k w = sinsert m k w := by
  induction m with
  | nil => simp [sinsert]
  | cons e m ih =>
    obtain ⟨j, x⟩ := e
    by_cases hlt : k < j
    · simp [sinsert, hlt]
    · by_cases heq : k = j
      · simp [sinsert, heq]
      · simp [sinsert, hlt, heq, ih]

theorem filter_ne_sinsert {α : Type} (m : Sparse α) (k : Nat) (v : α) :
    (sinsert m k v).filter (fun e => decide (e.1 ≠ k)) = m.filter fun e => decide (e.1 ≠ k) := by
  induction m with
  | nil => simp [sinsert]
  | cons e m ih =>
    obtain ⟨j, x⟩ := e
    by_cases hlt : k < j
    · simp [sinsert, hlt]
    · by_cases heq : k = j
      · simp [sinsert, heq]
      · simp only [sinsert, hlt, heq, if_false, List.filter_cons, ih]

/-- A second write of a key decides, where the first has listed a value. -/
theorem sput_sput_self {α : Type} [DecidableEq α] (d : α) (m : Sparse α) (k : Nat) {v w : α} (hv : v ≠ d) :
    sput d (sput d m k v) k w = sput d m k w := by
  have hinsert : sput d m k v = sinsert m k v := if_neg hv
  rw [hinsert]
  unfold sput
  split
  · exact filter_ne_sinsert m k v
  · exact sinsert_sinsert_self m k v w

theorem State.setPort_setPort (s : State) (n : Nat) {x : Port} (y : Port) (hx : x.released = true) :
    (s.setPort n x).setPort n y = s.setPort n y := by
  have hlisted : x ≠ {} := fun h => by rw [h] at hx; exact absurd hx (by decide)
  simp only [State.setPort, sput_sput_self {} s.ports n hlisted]

/-- Once a port is out of D3hot, its pending vectors that the host does not mask are sent, and the masked ones stay (R509). -/
theorem State.sendPending_setPort (s : State) (n : Nat) {x : Port} (hr : x.released = true) (hd : x.d3hot = false) :
    (s.setPort n x).sendPending n = (x.pendingVectors.filter (!x.masked.contains ·)).foldl (fun t j => t.emit (.msix n j))
      (s.setPort n { x with pendingVectors := x.pendingVectors.filter x.masked.contains }) := by
  unfold State.sendPending
  simp only [State.port_setPort_self, hd, Bool.false_eq_true, if_false, List.partition_eq_filter_filter, s.setPort_setPort n _ hr]
  rfl

theorem State.sendPending_setPort_d3hot (s : State) (n : Nat) {x : Port} (hd : x.d3hot = true) :
    (s.setPort n x).sendPending n = s.setPort n x := by
  unfold State.sendPending
  simp only [State.port_setPort_self, hd, if_true]

/-- The mask of a vector: bit 0 of the write, and what is pending and free to go is sent (R509). -/
theorem State.writeConfig_msixMask (s : State) (n i : Nat) (v : W32) :
    let x := s.port n
    let masked := if v.getLsbD 0 = true then i :: x.masked.filter (· != i) else x.masked.filter (· != i)
    s.writeConfig n (.msixMask i) v = (s.setPort n { x with masked := masked }).sendPending n := by
  intro x masked
  simp only [masked]
  rw [← BitVec.testBit_toNat]
  rfl

theorem State.writeConfig_completionTimeout (s : State) (n : Nat) (v : W32) :
    s.writeConfig n .completionTimeout v = s.setPort n { s.port n with timeoutValue := v.toNat % 16 } := by
  rw [mod_eq_bits 16 4 rfl]
  rfl

/-- The device state: 0 is D0, 3 is D3hot, any other value is none of the two. -/
theorem State.writeConfig_powerState (s : State) (n : Nat) (v : W32) :
    s.writeConfig n .powerState v = if v.toNat % 4 = 0 then ((s.setPort n { s.port n with d3hot := false }).sendPending n).portBack n
      else if v.toNat % 4 = 3 then s.setPort n { s.port n with d3hot := true } else s := by
  rw [mod_eq_bits 4 2 rfl]
  rfl

/-! ### SEC_CFG (R533, log 65) -/

/-- What SEC_CFG comes to: the slots and their reservation kept, EN cleared, EN set with another partition as destination, or EN set with a reservation
of Tier L that there is room for or not. -/
theorem PartBlock.secCfg_eq (b : PartBlock) (v : Nat) (room : Bool) :
    let y := { b.sec with dest := bit v 1, every := v / 4 % 2 ^ 16, waitMs := v / 2 ^ 18 % 2 ^ 10 }
    let fresh := { y with a := none, b := none, store := [] }
    let z := { b with secPages := 0 }
    b.secCfg v room =
      if b.sec.en = true ∧ v.testBit 0 = true ∧ b.sec.dest = v.testBit 1 ∧ (b.sec.dest = true ∨ b.secPages = b.sec.slotMib) then
        { b with sec := y }
      else if v.testBit 0 = false then { z with sec := { fresh with en := false } }
      else if v.testBit 1 = true then { z with sec := { fresh with en := true, noRoom := false } }
      else if room = true ∧ z.memUse + b.sec.slotMib ≤ b.grant.memQuota then
        { z with secPages := b.sec.slotMib, sec := { fresh with en := true, noRoom := false } }
      else { z with sec := { fresh with en := false, noRoom := true } } := by
  unfold PartBlock.secCfg
  simp only [Bool.and_eq_true, Bool.or_eq_true, beq_iff_eq, decide_eq_true_eq, Bool.not_eq_true', and_assoc, bit]
  rfl

theorem exec_secCfgWrite {s : State} {n p : Nat} (howns : s.owns n p = true) (hready : (s.part p).state = .ready) (v : W32) (room : Bool) :
    exec (.secCfgWrite n p v room) s =
      .next (s.setPart p ((s.part p).secCfg v.toNat (room && decide ((s.part p).sec.slotMib ≤ s.freeL + (s.part p).secPages)))) := by
  change execSecCfgWrite n p v room s = _
  unfold execSecCfgWrite
  rw [if_pos (by simp [howns, hready])]

theorem exec_secCfgWrite_ignored {s : State} {n p : Nat} (h : s.owns n p = false ∨ (s.part p).state ≠ .ready) (v : W32) (room : Bool) :
    exec (.secCfgWrite n p v room) s = .next s := by
  change execSecCfgWrite n p v room s = _
  unfold execSecCfgWrite
  rw [if_neg (by rcases h with h | h <;> simp [h])]

/-! ### LEAN_REQ (R548) -/

/-- One function applied to each core of a range changes those cores and nothing else. -/
theorem State.foldl_setCore_range' (f : Core → Core) (a len : Nat) (s : State) :
    let t := (List.range' a len).foldl (fun s k => s.setCore k (f (s.core k))) s
    t = { s with cores := t.cores } ∧ ∀ j, t.core j = if a ≤ j ∧ j < a + len then f (s.core j) else s.core j := by
  induction len generalizing a s with
  | zero => exact ⟨rfl, fun j => (if_neg (by omega)).symm⟩
  | succ len ih =>
    obtain ⟨hframe, hcore⟩ := ih (a + 1) (s.setCore a (f (s.core a)))
    rw [List.range'_succ, List.foldl_cons]
    refine ⟨hframe, fun j => ?_⟩
    rw [hcore, State.core_setCore]
    by_cases hj : j = a
    · rw [if_neg (by omega), if_pos hj, if_pos (by omega), hj]
    · rw [if_neg hj]
      by_cases hin : a + 1 ≤ j ∧ j < a + 1 + len
      · rw [if_pos hin, if_pos (by omega)]
      · rw [if_neg hin, if_neg (by omega)]

/-- A LEAN_REQ written: the request of the group, and the offset of each of its eight cores. -/
theorem State.writeLean_spec (s : State) {g : Nat} (hg : g < 64) (v : W32) :
    let r := min 6 (v.toNat % 8)
    let t := s.writeLean g v
    t = { s with cores := t.cores, health := { s.health with leanReq := sput 0 s.health.leanReq g r } } ∧
    ∀ j, t.core j = if j < 512 ∧ groupOf j = g then { s.core j with island := { (s.core j).island with
      offset := if sget 0 s.health.leanReq g = 0 then r else min (s.core j).island.offset r } } else s.core j := by
  obtain ⟨hframe, hcore⟩ := State.foldl_setCore_range'
    (fun x => { x with island := { x.island with
      offset := if sget 0 s.health.leanReq g = 0 then min 6 (bits v.toNat 0 3) else min x.island.offset (min 6 (bits v.toNat 0 3)) } })
    (g / 16 * 128 + g % 16 * 8) 8 { s with health := { s.health with leanReq := sput 0 s.health.leanReq g (min 6 (bits v.toNat 0 3)) } }
  intro r t
  rw [show r = min 6 (bits v.toNat 0 3) from congrArg (min 6) (mod_eq_bits 8 3 rfl _)]
  refine ⟨hframe, fun j => (hcore j).trans ?_⟩
  have hrange : (g / 16 * 128 + g % 16 * 8 ≤ j ∧ j < g / 16 * 128 + g % 16 * 8 + 8) ↔ (j < 512 ∧ groupOf j = g) := by
    unfold groupOf
    omega
  simp only [hrange]
  rfl

/-! ### Frequencies (R308, R606) -/

/-- A group at its frequency in force: its setting stands, and no other group and no other part of the state changes. -/
theorem State.applyFreq_spec (s : State) (g : Nat) :
    let t := s.applyFreq g
    t = { s with groups := t.groups } ∧ (∀ j, j ≠ g → t.groupAt j = s.groupAt j) ∧ (t.groupAt g).hostMhz = (s.groupAt g).hostMhz ∧
      (t.groupAt g).mhz = s.freqOf g := by
  intro t
  by_cases h : s.freqOf g = (s.groupAt g).mhz
  · have ht : t = s := if_pos h
    rw [ht]
    exact ⟨rfl, fun _ _ => rfl, rfl, h.symm⟩
  · have ht : t = { s with groups := sput {} s.groups g { s.groupAt g with
      mhz := s.freqOf g, milliCycles := (s.groupAt g).milliCycles + (s.time - (s.groupAt g).since) * (s.groupAt g).mhz, since := s.time } } := if_neg h
    rw [ht]
    refine ⟨rfl, fun j hj => sget_sput_ne hj, ?_, ?_⟩
    · simp only [State.groupAt, sget_sput_self]
    · simp only [State.groupAt, sget_sput_self]

theorem exec_freqSet {s : State} {n g mhz p : Nat} (hp : s.partOfGroup g = some p) (howns : s.owns n p = true) (hlo : 800 ≤ mhz) (hhi : mhz ≤ 2200)
    (hstep : mhz % 25 = 0) : exec (.freqSet n (g / 16) (g % 16) mhz) s =
      .next ({ s with groups := sput {} s.groups g { s.groupAt g with hostMhz := mhz } }.applyFreq g) := by
  have hg : g / 16 * 16 + g % 16 = g := by omega
  change execFreqSet n (g / 16) (g % 16) mhz s = _
  unfold execFreqSet
  simp only [hg, hp, howns]
  rw [if_neg (by simp; omega)]

theorem exec_freqSet_ignored {s : State} {n g mhz : Nat}
    (h : ∀ p, s.partOfGroup g = some p → s.owns n p = false ∨ mhz < 800 ∨ 2200 < mhz ∨ mhz % 25 ≠ 0) :
    exec (.freqSet n (g / 16) (g % 16) mhz) s = .next s := by
  have hg : g / 16 * 16 + g % 16 = g := by omega
  change execFreqSet n (g / 16) (g % 16) mhz s = _
  unfold execFreqSet
  simp only [hg]
  cases hp : s.partOfGroup g with
  | none => rfl
  | some p => exact if_pos (h p hp)

/-! ### Management writes (R532, R596) -/

/-- SECURE_AT and HALT_AT take a level that keeps SECURE_AT at or below HALT_AT (R532). -/
theorem Health.writeLevel_secure (h : Health) (v : W32) :
    h.writeLevel false v = { h with secureAt := if v.toNat % 1024 ≤ h.haltAt then v.toNat % 1024 else h.secureAt } := by
  rw [mod_eq_bits 1024 10 rfl]
  simp only [Health.writeLevel, Bool.false_eq_true, if_false]
  split <;> rfl

theorem Health.writeLevel_halt (h : Health) (v : W32) :
    h.writeLevel true v = { h with haltAt := if h.secureAt ≤ v.toNat % 1024 then v.toNat % 1024 else h.haltAt } := by
  rw [mod_eq_bits 1024 10 rfl]
  simp only [Health.writeLevel, if_true]
  split <;> rfl

theorem exec_healthLevelWrite (s : State) (i : Nat) (halt : Bool) (v : W32) :
    exec (.healthLevelWrite i halt v) s = .next (if s.boot.stage = 9 then { s with health := s.health.writeLevel halt v } else s) := rfl

theorem exec_leanReqWrite (s : State) (i g : Nat) (v : W32) :
    exec (.leanReqWrite i (g / 16) (g % 16) v) s = .next (if s.boot.stage = 9 then s.writeLean g v else s) := by
  have hg : g / 16 * 16 + g % 16 = g := by omega
  change execLeanReqWrite i (g / 16) (g % 16) v s = _
  rw [execLeanReqWrite, hg]

theorem exec_regWrite_error {s : State} {i block off : Nat} (v : W32) (hen : s.boot.en = true) (hheld : s.boot.heldOff = false)
    (h : s.boot.stage ≠ 9 ∨ mgmtWritable block off = false) : exec (.regWrite i block off v) s = .next (s.emit (.mgmt i .error)) := by
  change execRegWrite i block off v s = _
  unfold execRegWrite
  rw [if_neg (by simp [hen, hheld]), if_neg (by rcases h with h | h <;> simp [h])]

/-- In STAGE 9 a write of an RW field is done, with the field as `State.mgmtWrite` leaves it. -/
theorem exec_regWrite_done {s t : State} {i block off : Nat} {v : W32} (hen : s.boot.en = true) (hheld : s.boot.heldOff = false)
    (hstage : s.boot.stage = 9) (hrw : mgmtWritable block off = true) (ht : s.mgmtWrite block off v = t) :
    exec (.regWrite i block off v) s = .next (t.emit (.mgmt i .done)) := by
  change execRegWrite i block off v s = _
  unfold execRegWrite
  rw [if_neg (by simp [hen, hheld]), if_pos ⟨hstage, hrw⟩, ht]

/-- The fields of the health block that REG_WRITE reaches beside LEAN_REQ. -/
theorem State.mgmtWrite_health (s : State) (v : W32) :
    s.mgmtWrite 0 0x04 v = { s with health := s.health.writeLevel false v } ∧ s.mgmtWrite 0 0x08 v = { s with health := s.health.writeLevel true v } ∧
    s.mgmtWrite 0 0x0C v = { s with health := { s.health with flowNom := v.toNat % 65536 } } ∧
    s.mgmtWrite 0 0x10 v = { s with health := { s.health with retireAt := v.toNat % 256 } } ∧
    s.mgmtWrite 0 0x404 v = { s with health := { s.health with
      pwrLimit := if 1000 ≤ v.toNat % 4096 ∧ v.toNat % 4096 ≤ 4000 then v.toNat % 4096 else s.health.pwrLimit } } := by
  refine ⟨rfl, rfl, ?_, ?_, ?_⟩
  · rw [mod_eq_bits 65536 16 rfl]
    rfl
  · rw [mod_eq_bits 256 8 rfl]
    rfl
  · rw [mod_eq_bits 4096 12 rfl]
    change (if 1000 ≤ bits v.toNat 0 12 ∧ bits v.toNat 0 12 ≤ 4000 then
      { s with health := { s.health with pwrLimit := bits v.toNat 0 12 } } else s) = _
    split <;> rfl

/-- FAB_RSP_TO takes a value of its range, PLACE_RATE any but 0 (15, "Registers"; log 68). -/
theorem State.mgmtWrite_fab (s : State) (v : W32) :
    s.mgmtWrite 1 0x0C v = { s with fabric := { s.fabric with
      rspUs := if 100 ≤ v.toNat % 2 ^ 24 ∧ v.toNat % 2 ^ 24 ≤ 10000000 then v.toNat % 2 ^ 24 else s.fabric.rspUs } } ∧
    s.mgmtWrite 1 0x08 v = { s with fabric := { s.fabric with
      placeRate := if v.toNat % 1024 = 0 then s.fabric.placeRate else v.toNat % 1024 } } := by
  refine ⟨?_, ?_⟩
  · rw [← bits_low]
    change (if 100 ≤ bits v.toNat 0 24 ∧ bits v.toNat 0 24 ≤ 10000000 then
      { s with fabric := { s.fabric with rspUs := bits v.toNat 0 24 } } else s) = _
    split <;> rfl
  · rw [mod_eq_bits 1024 10 rfl]
    change (if bits v.toNat 0 10 = 0 then s else { s with fabric := { s.fabric with placeRate := bits v.toNat 0 10 } }) = _
    split <;> rfl

/-! ### The clauses of O47, by the command that writes -/

/-- The admin ring of a port: BASE and SIZE while it is disabled (R474). -/
theorem registerWrite_adminRing {s : State} {n : Nat} (v : W32) (hup : s.portUp n = true) :
    let x := s.port n
    (x.adm.en = true → exec (.registerWrite (.port n 0x10) v) s = .next (s.setPort n x)) ∧
    (x.adm.en = false → exec (.registerWrite (.port n 0x10) v) s =
        .next (s.setPort n { x with adm := { x.adm with base := setHalf x.adm.base false (v &&& 0xFFFFF000#32) } }) ∧
      (6 ≤ v.toNat % 32 → v.toNat % 32 ≤ 16 → exec (.registerWrite (.port n 0x18) v) s =
        .next (s.setPort n { x with adm := { x.adm with log2 := v.toNat % 32 } })) ∧
      (v.toNat % 32 < 6 ∨ 16 < v.toNat % 32 → exec (.registerWrite (.port n 0x18) v) s = .next (s.setPort n x))) := by
  intro x
  have hbase : exec (.registerWrite (.port n 0x10) v) s = .next (s.setPort n { x with adm := x.adm.write 0 v }) :=
    exec_registerWrite_port hup (s.locate_port n (by decide))
  have hsize : exec (.registerWrite (.port n 0x18) v) s = .next (s.setPort n { x with adm := x.adm.write 2 v }) :=
    exec_registerWrite_port hup (s.locate_port n (by decide))
  refine ⟨fun hen => ?_, fun hen => ⟨?_, fun hlo hhi => ?_, fun hout => ?_⟩⟩
  · rw [hbase, HostRing.write_enabled hen]
  · rw [hbase, HostRing.write_baseLo hen]
  · rw [hsize, HostRing.write_size hen, if_pos ⟨hlo, hhi⟩]
  · rw [hsize, HostRing.write_size hen, if_neg (by omega)]

/-- A partition's block, by its owner: IRQ moderation, and the SEC fields of a READY partition (R509, R533). -/
theorem registerWrite_part {s : State} {n p : Nat} (off : Nat) (v : W32) (hp : p < 16) (howns : s.owns n p = true) :
    let b := s.part p
    let at' := fun o => RegAgent.port n (0x10000 + 0x1000 * p + o)
    exec (.registerWrite (at' 0x68) v) s =
      .next (s.setPart p { b with cpl := { b.cpl with irqCount := v.toNat % 256, irqUs := v.toNat / 256 % 65536 } }) ∧
    (b.state = .ready → exec (.registerWrite (at' 0x104) v) s = .next (s.setPart p { b with sec := { b.sec with slotMib := v.toNat % 65536 } }) ∧
      exec (.registerWrite (at' 0x108) v) s = .next (s.setPart p { b with sec := { b.sec with rwin := v.toNat % 4096 } }) ∧
      exec (.registerWrite (at' 0x10C) v) s = .next (s.setPart p { b with sec := { b.sec with cur := setHalf b.sec.cur false v } }) ∧
      (off < 4 → exec (.registerWrite (at' (0x120 + 8 * off)) v) s =
        .next (s.setPart p { b with sec := { b.sec with mem := sput 0 b.sec.mem (2 * off) (v.toNat % 2 ^ 27) } }))) ∧
    (b.state ≠ .ready → ∀ o ∈ [0x104, 0x108, 0x10C, 0x110, 0x120, 0x13C], exec (.registerWrite (at' o) v) s = .next (s.setPart p b)) := by
  intro b at'
  have hwrite : ∀ o, o < 0x1000 → exec (.registerWrite (at' o) v) s = .next (s.setPart p (b.write o v)) := fun o ho =>
    exec_registerWrite_part (State.portUp_of_owns howns) (by rw [State.locate_part hp ho, if_pos howns])
  refine ⟨?_, fun hready => ⟨?_, ?_, ?_, fun hoff => ?_⟩, fun hready o ho => ?_⟩
  · rw [hwrite _ (by decide), PartBlock.write_irq]
  · rw [hwrite _ (by decide), PartBlock.write_sec b v (by decide) (by decide), if_pos hready,
      mod_eq_bits 65536 16 rfl]
    rfl
  · rw [hwrite _ (by decide), PartBlock.write_sec b v (by decide) (by decide), if_pos hready,
      mod_eq_bits 4096 12 rfl]
    rfl
  · rw [hwrite _ (by decide), PartBlock.write_sec b v (by decide) (by decide), if_pos hready]
    rfl
  · rw [hwrite _ (by omega), PartBlock.write_sec b v (by omega) (by omega), if_pos hready, Sec.write_mem b.sec hoff]
  · have hfield : o < 0x1000 ∧ o % 4 = 0 ∧ 0x104 ≤ o := by revert ho; revert o; decide
    obtain ⟨hlt, haligned, hlo⟩ := hfield
    rw [hwrite o hlt, PartBlock.write_sec b v haligned hlo, if_neg hready]

/-- A port's configuration space: the MSI-X masks, the Completion Timeout value and the device state (R509; log 7, log 66). -/
theorem registerWrite_config {s : State} {n : Nat} (i : Nat) (v : W32) (hr : (s.port n).released = true) :
    let x := s.port n
    let masked := if v.getLsbD 0 = true then i :: x.masked.filter (· != i) else x.masked.filter (· != i)
    (x.d3hot = true → exec (.registerWrite (.config n (.msixMask i)) v) s = .next (s.setPort n { x with masked := masked })) ∧
    (x.d3hot = false → exec (.registerWrite (.config n (.msixMask i)) v) s = .next ((x.pendingVectors.filter (!masked.contains ·)).foldl
      (fun t j => t.emit (.msix n j)) (s.setPort n { x with masked := masked, pendingVectors := x.pendingVectors.filter masked.contains }))) ∧
    exec (.registerWrite (.config n .completionTimeout) v) s = .next (s.setPort n { x with timeoutValue := v.toNat % 16 }) ∧
    (v.toNat % 4 = 3 → exec (.registerWrite (.config n .powerState) v) s = .next (s.setPort n { x with d3hot := true })) ∧
    (v.toNat % 4 = 0 → exec (.registerWrite (.config n .powerState) v) s =
      .next (((x.pendingVectors.filter (!x.masked.contains ·)).foldl (fun t j => t.emit (.msix n j))
        (s.setPort n { x with d3hot := false, pendingVectors := x.pendingVectors.filter x.masked.contains })).portBack n)) ∧
    (v.toNat % 4 = 1 ∨ v.toNat % 4 = 2 → exec (.registerWrite (.config n .powerState) v) s = .next s) := by
  intro x masked
  refine ⟨fun hd => ?_, fun hd => ?_, ?_, fun h3 => ?_, fun h0 => ?_, fun hother => ?_⟩
  · rw [exec_registerWrite_config hr, State.writeConfig_msixMask]
    exact congrArg Host.Outcome.next (s.sendPending_setPort_d3hot n hd)
  · rw [exec_registerWrite_config hr, State.writeConfig_msixMask]
    exact congrArg Host.Outcome.next (s.sendPending_setPort n hr hd)
  · rw [exec_registerWrite_config hr, State.writeConfig_completionTimeout]
  · rw [exec_registerWrite_config hr, State.writeConfig_powerState, if_neg (by omega), if_pos h3]
  · rw [exec_registerWrite_config hr, State.writeConfig_powerState, if_pos h0]
    exact congrArg (fun t : State => Host.Outcome.next (t.portBack n)) (s.sendPending_setPort n hr rfl)
  · rw [exec_registerWrite_config hr, State.writeConfig_powerState, if_neg (by omega), if_neg (by omega)]

/-- SEC_CFG_WRITE of a READY partition by its owner (R533; log 65). -/
theorem secCfgWrite_cases {s : State} {n p : Nat} (v : W32) (room : Bool) (howns : s.owns n p = true) (hready : (s.part p).state = .ready) :
    let b := s.part p
    let y := { b.sec with dest := bit v.toNat 1, every := v.toNat / 4 % 2 ^ 16, waitMs := v.toNat / 2 ^ 18 % 2 ^ 10 }
    let fresh := { y with a := none, b := none, store := [] }
    (b.sec.en = true → v.toNat.testBit 0 = true → b.sec.dest = v.toNat.testBit 1 → (b.sec.dest = true ∨ b.secPages = b.sec.slotMib) →
      exec (.secCfgWrite n p v room) s = .next (s.setPart p { b with sec := y })) ∧
    (v.toNat.testBit 0 = false → exec (.secCfgWrite n p v room) s = .next (s.setPart p { b with secPages := 0, sec := { fresh with en := false } })) ∧
    (v.toNat.testBit 0 = true → v.toNat.testBit 1 = true → ¬(b.sec.en = true ∧ b.sec.dest = true) →
      exec (.secCfgWrite n p v room) s = .next (s.setPart p { b with secPages := 0, sec := { fresh with en := true, noRoom := false } })) ∧
    (v.toNat.testBit 0 = true → v.toNat.testBit 1 = false → ¬(b.sec.en = true ∧ b.sec.dest = false ∧ b.secPages = b.sec.slotMib) →
      let z := { b with secPages := 0 }
      (room = true → b.sec.slotMib ≤ s.freeL + b.secPages → z.memUse + b.sec.slotMib ≤ b.grant.memQuota →
        exec (.secCfgWrite n p v room) s = .next (s.setPart p { b with secPages := b.sec.slotMib, sec := { fresh with en := true, noRoom := false } })) ∧
      (room = false ∨ s.freeL + b.secPages < b.sec.slotMib ∨ b.grant.memQuota < z.memUse + b.sec.slotMib →
        exec (.secCfgWrite n p v room) s = .next (s.setPart p { z with sec := { fresh with en := false, noRoom := true } }))) := by
  intro b y fresh
  rw [exec_secCfgWrite howns hready, PartBlock.secCfg_eq]
  refine ⟨fun hen h0 hdest hpages => ?_, fun h0 => ?_, fun h0 h1 hfresh => ?_, fun h0 h1 hfresh => ?_⟩
  · rw [if_pos ⟨hen, h0, hdest, hpages⟩]
  · rw [if_neg (by simp [h0]), if_pos h0]
  · rw [if_neg (fun ⟨hen, _, hdest, _⟩ => hfresh ⟨hen, hdest.trans h1⟩), if_neg (by simp [h0]), if_pos h1]
  have hnew : ¬(b.sec.en = true ∧ v.toNat.testBit 0 = true ∧ b.sec.dest = v.toNat.testBit 1 ∧
      (b.sec.dest = true ∨ b.secPages = b.sec.slotMib)) := by
    rintro ⟨hen, -, hdest, hpages⟩
    have hnone : b.sec.dest = false := hdest.trans h1
    exact hfresh ⟨hen, hnone, hpages.resolve_left (by simp [hnone])⟩
  refine ⟨fun hroom hfree hquota => ?_, fun hno => ?_⟩
  · have hz : ({ b with secPages := 0 } : PartBlock).memUse + b.sec.slotMib ≤ b.grant.memQuota := hquota
    rw [if_neg hnew, if_neg (by simp [h0]), if_neg (by simp [h1]), if_pos ⟨by simp [hroom, b, hfree], hz⟩]
  · rw [if_neg hnew, if_neg (by simp [h0]), if_neg (by simp [h1]), if_neg (fun hfits => ?_)]
    obtain ⟨hfree, hquota⟩ := hfits
    simp only [Bool.and_eq_true, decide_eq_true_eq] at hfree
    obtain ⟨hroom, hfree⟩ := hfree
    rcases hno with hno | hno | hno
    · exact absurd hroom (by simp [hno])
    · exact absurd hfree (Nat.not_le.mpr hno)
    · exact absurd hquota (Nat.not_le.mpr hno)

/-- Settles O47: each clause is one command, whose cases the lemmas above give. -/
theorem registerWritesTakeValuesInRange : Obligations.RegisterWritesTakeValuesInRange := by
  intro n i p off k c g v room s b h x at'
  refine ⟨fun hdown => exec_registerWrite_unreached hdown, fun _ hup => registerWrite_adminRing v hup, fun hp howns hoff => ?_,
    fun hp howns => registerWrite_part off v hp howns, rfl, fun hr f => exec_registerWrite_unreached hr, fun hr => registerWrite_config i v hr,
    fun hignored => exec_secCfgWrite_ignored hignored v room, fun howns hready => secCfgWrite_cases v room howns hready, ?_,
    ⟨fun hstage u => ?_, fun hstage => ⟨?_, ?_⟩⟩, fun hstage => ?_, fun hstage hg => ?_, exec_freqSet_ignored,
    fun q hq howns hlo hhi hstep => ?_, fun hen hheld => ⟨exec_regWrite_error v hen hheld, fun hstage => ?_⟩⟩
  · exact exec_registerWrite_nowhere (by rw [State.locate_part hp hoff, howns]; rfl)
  · exact congrArg (fun y => Host.Outcome.next (s.setCore k y)) ((s.core k).writeWatchdog_eq v)
  · rw [exec_healthLevelWrite, if_neg hstage]
  · rw [exec_healthLevelWrite, if_pos hstage, Health.writeLevel_secure]
  · rw [exec_healthLevelWrite, if_pos hstage, Health.writeLevel_halt]
  · rw [exec_leanReqWrite, if_neg hstage]
  · obtain ⟨hframe, hcore⟩ := s.writeLean_spec hg v
    exact ⟨_, by rw [exec_leanReqWrite, if_pos hstage], hframe, hcore⟩
  · obtain ⟨hframe, hother, hhost, hmhz⟩ :=
      State.applyFreq_spec { s with groups := sput {} s.groups g { s.groupAt g with hostMhz := off } } g
    refine ⟨_, exec_freqSet hq howns hlo hhi hstep, hframe, fun j hj => (hother j hj).trans (sget_sput_ne hj), ?_, ?_⟩
    · rw [hhost]
      simp only [State.groupAt, sget_sput_self]
    · rw [hmhz]
      simp only [State.freqOf, State.groupAt, sget_sput_self]
      rfl
  · obtain ⟨hsecure, hhalt, hflow, hretire, hpower⟩ := s.mgmtWrite_health v
    obtain ⟨hresponse, hplace⟩ := s.mgmtWrite_fab v
    rw [Health.writeLevel_secure] at hsecure
    rw [Health.writeLevel_halt] at hhalt
    exact ⟨⟨exec_regWrite_done hen hheld hstage rfl hsecure, exec_regWrite_done hen hheld hstage rfl hhalt⟩,
      exec_regWrite_done hen hheld hstage rfl hflow, exec_regWrite_done hen hheld hstage rfl hretire,
      exec_regWrite_done hen hheld hstage rfl hpower, exec_regWrite_done hen hheld hstage rfl hresponse,
      exec_regWrite_done hen hheld hstage rfl hplace⟩

/-! ### What the transfers of Tier F leave of the cores and the fabric (R447, R448, R464) -/

/-- A core without what a transfer that begins can change: what is in flight and the turn of its TAGs. -/
def Core.offFar (x : Core) : Core := { x with ops := [], nextId := 0, tagBit := false }

theorem Core.of_offFar {x y : Core} (h : y.offFar = x.offFar) : y = { x with ops := y.ops, nextId := y.nextId, tagBit := y.tagBit } := by
  cases x; cases y
  simp only [Core.offFar, Core.mk.injEq] at h ⊢
  simp [h]

/-- The cores and the fabric without what a transfer for core `k` that begins can change. -/
def State.coresOffFar (s : State) (k : Nat) : (Nat → Core) × Fabric :=
  (fun j => if j = k then (s.core j).offFar else s.core j, { s.fabric with trans := [] })

theorem State.of_coresOffFar {s t : State} {k : Nat} (h : t.coresOffFar k = s.coresOffFar k) :
    t.fabric = { s.fabric with trans := t.fabric.trans } ∧
      t.core k = { s.core k with ops := (t.core k).ops, nextId := (t.core k).nextId, tagBit := (t.core k).tagBit } ∧
      ∀ j, j ≠ k → t.core j = s.core j := by
  obtain ⟨hcores, hfabric⟩ := Prod.mk.inj h
  refine ⟨?_, ?_, fun j hj => ?_⟩
  · have hwith : { ({ t.fabric with trans := [] } : Fabric) with trans := t.fabric.trans } = { s.fabric with trans := t.fabric.trans } := by
      rw [hfabric]
    exact hwith
  · have hk := congrFun hcores k
    rw [if_pos rfl, if_pos rfl] at hk
    exact Core.of_offFar hk
  · have hj' := congrFun hcores j
    rwa [if_neg hj, if_neg hj] at hj'

theorem State.setCore_coresOffFar {s : State} {k : Nat} {x : Core} (h : x.offFar = (s.core k).offFar) :
    (s.setCore k x).coresOffFar k = s.coresOffFar k := by
  refine Prod.ext (funext fun j => ?_) rfl
  change (if j = k then ((s.setCore k x).core j).offFar else (s.setCore k x).core j) = if j = k then (s.core j).offFar else s.core j
  by_cases hj : j = k
  · rw [if_pos hj, if_pos hj, hj, State.core_setCore_self, h]
  · rw [if_neg hj, if_neg hj, State.core_setCore, if_neg hj]

theorem State.startFab_coresOffFar {s t : State} {k : Nat} {o : InFlight} {j : FabJob} (h : s.startFab k o j = some t) :
    t.coresOffFar k = s.coresOffFar k := by
  unfold State.startFab at h
  dsimp only at h
  split at h
  · cases h
    exact State.setCore_coresOffFar rfl
  · split at h
    · cases h
    · cases h
      exact State.setCore_coresOffFar (s := s) rfl

theorem State.launchFar_coresOffFar (s : State) (k c cls : Nat) (b : Option (Nat × Nat)) (j : FabJob) :
    (s.launchFar k c cls b j).coresOffFar k = s.coresOffFar k := by
  unfold State.launchFar
  dsimp only
  split
  · exact State.setCore_coresOffFar rfl
  · generalize hq : State.startFab _ _ _ _ = q
    cases q with
    | none => exact State.setCore_coresOffFar rfl
    | some t => exact (State.startFab_coresOffFar hq).trans (State.setCore_coresOffFar rfl)

/-- Of the cores and the fabric, the transfers for an instruction of core `k` change its list of what is in flight, the turn of its TAGs and the
transactions. -/
theorem State.startFar_coresOffFar (s : State) (k c cls : Nat) (b : Option (Nat × Nat)) (owner : Option Nat) :
    (s.startFar k c cls b owner).coresOffFar k = s.coresOffFar k := by
  unfold State.startFar
  split
  · rfl
  · split
    · rfl
    · exact foldl_keeps _ (fun t : State => t.coresOffFar k) (fun t _ => State.launchFar_coresOffFar t ..) _ _

/-! ### An instruction that accesses memory, after issue -/

/-- The state `t` follows an instruction of context `c` of core `k` that issues in `s` with the effect `X`: its item is bound, the transfers for what it
has accessed in Tier F have begun, its program counter has moved; and where nothing new of Tier F is noted, no transfer begins. -/
structure FollowsEffect (s X t : State) (k c : Nat) : Prop where
  frame : t = { X with cores := t.cores, reqs := (X.bindItem (s.ctx k c).bind).reqs, parts := t.parts, fabric := t.fabric }
  fabric : t.fabric = { X.fabric with trans := t.fabric.trans }
  core : t.core k = { X.core k with ctxs := (t.core k).ctxs, ops := (t.core k).ops, nextId := (t.core k).nextId, tagBit := (t.core k).tagBit }
  ctx : t.ctx k c = { X.ctx k c with pc := (s.ctx k c).pc + 8 }
  otherCtxs : ∀ i, i ≠ c → t.ctx k i = X.ctx k i
  otherCores : ∀ j, j ≠ k → t.core j = X.core j
  parts : t.parts = X.parts ∨ ∃ p, X.partOf k = some p ∧ t.parts = (X.setMem p { X.mem p with far := [] }).parts
  near : X.farOfCore k = s.farOfCore k →
    t.fabric = X.fabric ∧ (t.core k).ops = (X.core k).ops ∧ (t.core k).nextId = (X.core k).nextId ∧ (t.core k).tagBit = (X.core k).tagBit

/-- After issue the instruction's effect stands, with its item bound, and then with the transfers that begin where Tier F has been noted anew. -/
theorem State.issued_cases (s X : State) (k c : Nat) (w : W64) :
    s.issued k c w X = X.bindItem (s.ctx k c).bind ∨
      X.farOfCore k ≠ s.farOfCore k ∧ ∃ cls owner, s.issued k c w X = (X.bindItem (s.ctx k c).bind).startFar k c cls (s.ctx k c).bind owner := by
  by_cases h : X.farOfCore k = s.farOfCore k
  · exact .inl (issued_near h)
  · exact .inr ⟨h, _, _, if_neg h⟩

/-- Binding the item leaves the cores, the fabric and the partitions. -/
theorem State.bindItem_coresOffFar (X : State) (b : Option (Nat × Nat)) (k : Nat) : (X.bindItem b).coresOffFar k = X.coresOffFar k := by
  rw [State.bindItem_frame]
  rfl

theorem State.issued_coresOffFar (s X : State) (k c : Nat) (w : W64) : (s.issued k c w X).coresOffFar k = X.coresOffFar k := by
  obtain h | ⟨-, cls, owner, h⟩ := s.issued_cases X k c w
  · rw [h, State.bindItem_coresOffFar]
  · rw [h, State.startFar_coresOffFar, State.bindItem_coresOffFar]

theorem State.issued_offFar (s X : State) (k c : Nat) (w : W64) : (s.issued k c w X).offFar = (X.bindItem (s.ctx k c).bind).offFar := by
  obtain h | ⟨-, cls, owner, h⟩ := s.issued_cases X k c w
  · rw [h]
  · rw [h, State.startFar_offFar]

theorem State.issued_parts (s X : State) (k c : Nat) (w : W64) :
    (s.issued k c w X).parts = X.parts ∨
      ∃ p, X.partOf k = some p ∧ (s.issued k c w X).parts = (X.setMem p { X.mem p with far := [] }).parts := by
  have hbind := State.bindItem_frame X (s.ctx k c).bind
  obtain h | ⟨-, cls, owner, h⟩ := s.issued_cases X k c w
  · rw [h, hbind]
    exact .inl rfl
  · have hparts := State.startFar_parts (X.bindItem (s.ctx k c).bind) k c cls (s.ctx k c).bind owner
    rw [← h, hbind] at hparts
    exact hparts

/-- Issue binds the item, begins the transfers and moves the program counter, in this order. -/
theorem afterIssue_follows (s X : State) (k c : Nat) (w : W64) : ∃ t, s.afterIssue k c w X = .next t ∧ FollowsEffect s X t k c := by
  let I := s.issued k c w X
  let t := I.setPc k c ((s.ctx k c).pc + 8)
  obtain ⟨hfabric, hcore, hother⟩ := State.of_coresOffFar (s.issued_coresOffFar X k c w)
  have hctx : ∀ i, I.ctx k i = X.ctx k i := fun i => by
    rw [State.ctx, hcore]
    rfl
  have htcore : t.core k = (I.core k).setCtx c { I.ctx k c with pc := (s.ctx k c).pc + 8 } := State.core_setCore_self ..
  have htctx : ∀ i, t.ctx k i = if i = c then { I.ctx k c with pc := (s.ctx k c).pc + 8 } else I.ctx k i := fun i => State.ctx_setCtx ..
  refine ⟨t, rfl, ?_, hfabric, ?_, ?_, fun i hi => ?_, fun j hj => ?_, s.issued_parts X k c w, fun hnear => ?_⟩
  · have hoff : t.offFar = (X.bindItem (s.ctx k c).bind).offFar := s.issued_offFar X k c w
    exact (State.of_offFar hoff).trans
      (congrArg (fun v : State => { v with cores := t.cores, parts := t.parts, fabric := t.fabric }) (State.bindItem_frame X (s.ctx k c).bind))
  · rw [htcore, hcore]
    rfl
  · rw [htctx, if_pos rfl, hctx]
  · rw [htctx, if_neg hi, hctx]
  · exact (State.core_setCtx ..).trans ((if_neg hj).trans (hother j hj))
  · have hI : I = X.bindItem (s.ctx k c).bind := issued_near hnear
    rw [htcore, hI, bindItem_core]
    refine ⟨?_, rfl, rfl, rfl⟩
    change I.fabric = X.fabric
    rw [hI, State.bindItem_frame]

/-! ### Notes of Tier F (R393, R464) -/

/-- Whether a part of an access falls into a unit of Tier F does not depend on its direction. -/
theorem farPart_put_none {va n : Nat} {e : Nat × PUnit} (put : Bool) (h : farPart va n false e = none) : farPart va n put e = none := by
  unfold farPart at h ⊢
  split at h
  · cases h
  · rw [if_neg ‹_›]

/-- An access that falls into no unit of Tier F notes nothing. -/
theorem Mem.touch_far {m : Mem} {va n : Nat} {put : Bool} (h : ∀ e ∈ m.units, farPart va n put e = none) : (m.touch va n put).far = m.far := by
  change (m.units.filterMap (farPart va n put)).foldl addFar m.far = m.far
  rw [List.filterMap_eq_nil_iff.mpr h]
  rfl

theorem State.part_setMem (s : State) (p q : Nat) (m : Mem) : (s.setMem p m).part q = { s.part q with mem := if q = p then m else (s.part q).mem } := by
  rw [State.setMem, State.part_setPart]
  by_cases h : q = p
  · rw [if_pos h, if_pos h, h]
  · rw [if_neg h, if_neg h]

/-- Which partition holds a core depends on the partitions' states and grants alone. -/
theorem State.partOf_setMem (s : State) (p k : Nat) (m : Mem) : (s.setMem p m).partOf k = s.partOf k := by
  unfold State.partOf
  simp only [State.part_setMem]

/-- A partition's memory replaced by one with the same notes: nothing new of Tier F is noted. -/
theorem State.farOfCore_setMem {s : State} {p k : Nat} {m : Mem} (hp : s.partOf k = some p) (hm : m.far = (s.mem p).far) :
    (s.setMem p m).farOfCore k = s.farOfCore k := by
  unfold State.farOfCore
  simp only [State.partOf_setMem, hp, State.mem_setMem_self, hm]

/-- A read that is near notes nothing of Tier F. -/
theorem State.farOfCore_touchAt {s : State} {k va n : Nat} (h : s.Near k va n) : (s.touchAt k va n).farOfCore k = s.farOfCore k := by
  unfold State.touchAt
  split
  · rfl
  · split
    · rfl
    · rename_i hva p hp
      exact State.farOfCore_setMem hp (Mem.touch_far (h (by omega) p hp))

/-- A write that is near notes nothing of Tier F. -/
theorem State.farOfCore_writeAt {s : State} {k va n : Nat} {bs : List Byte} (hlen : bs.length = n) (h : s.Near k va n) :
    (s.writeAt k va bs).farOfCore k = s.farOfCore k := by
  subst hlen
  unfold State.writeAt
  split
  · exact farOfCore_parts rfl
  · split
    · rfl
    · rename_i hva p hp
      exact State.farOfCore_setMem hp (Mem.touch_far fun e he => farPart_put_none true (h (by omega) p hp e he))

/-! ### The partitions after an instruction that accesses memory -/

theorem FollowsEffect.part {s X t : State} {k c : Nat} (h : FollowsEffect s X t k c) (q : Nat) :
    t.part q = X.part q ∨ X.partOf k = some q ∧ t.part q = { X.part q with mem := { X.mem q with far := [] } } := by
  obtain hparts | ⟨p, hp, hparts⟩ := h.parts
  · exact .inl (by rw [State.part, State.part, hparts])
  · have hq : t.part q = (X.setMem p { X.mem p with far := [] }).part q := by rw [State.part, State.part, hparts]
    rw [hq, State.part_setMem]
    by_cases hqp : q = p
    · subst hqp
      exact .inr ⟨hp, by rw [if_pos rfl]⟩
    · exact .inl (by rw [if_neg hqp])

theorem FollowsEffect.sameParts {s X t : State} {k c : Nat} (h : FollowsEffect s X t k c) (hX : SameParts s X) : SameParts s t := by
  intro q
  obtain hq | ⟨-, hq⟩ := h.part q
  · rw [hq]
    exact hX q
  · rw [hq]
    conv => lhs; rw [hX q]
    simp only [State.mem]
    conv => lhs; rw [hX q]

theorem FollowsEffect.partOf {s X t : State} {k c : Nat} (h : FollowsEffect s X t k c) (j : Nat) : t.partOf j = X.partOf j := by
  have hsame : ∀ q, (t.part q).state = (X.part q).state ∧ (t.part q).grant = (X.part q).grant := fun q => by
    obtain hq | ⟨-, hq⟩ := h.part q
    · rw [hq]
      exact ⟨rfl, rfl⟩
    · rw [hq]
      exact ⟨rfl, rfl⟩
  unfold State.partOf
  simp only [hsame]

/-- The core sees the bytes that the instruction's own effect has left: a transfer of Tier F changes none (R390). -/
theorem FollowsEffect.byteAt {s X t : State} {k c : Nat} (h : FollowsEffect s X t k c) (a : Nat) : t.byteAt k a = X.byteAt k a := by
  have hbytes : ∀ q, (t.mem q).bytes = (X.mem q).bytes := fun q => by
    obtain hq | ⟨-, hq⟩ := h.part q
    · rw [State.mem, State.mem, hq]
    · rw [State.mem, hq]
  have hscratch : (t.core k).scratch = (X.core k).scratch := by rw [h.core]
  unfold State.byteAt
  simp only [h.partOf, hbytes, hscratch]

/-! ### Scalar loads (R299, R300, R320) -/

theorem badAddr_eq_false {va n : Nat} (halign : va % n = 0) (hhole : reachesHole va n = false) : badAddr va n n = false := by
  simp [badAddr, halign, hhole]

/-- An operand that reaches no address without a name lies in the scratchpad or above it, whole. -/
theorem within_region {va n : Nat} (hn : 0 < n) (hhole : reachesHole va n = false) : va < 0x300000 ∧ va + n ≤ 0x300000 ∨ 0x400000 ≤ va := by
  simp only [reachesHole, Bool.and_eq_false_iff, decide_eq_false_iff_not] at hhole
  omega

/-- The bytes read are those that the core sees at their addresses. -/
theorem State.readAt_bytes {s : State} {k va n : Nat} {bs : List Byte} (hn : 0 < n) (hhole : reachesHole va n = false) (h : s.readAt k va n = .ok bs) :
    bs = (List.range n).map fun i => s.byteAt k (va + i) := by
  unfold State.readAt at h
  obtain ⟨hlo, hend⟩ | hhi := within_region hn hhole
  · rw [if_pos hlo] at h
    obtain rfl := Except.ok.inj h
    refine List.map_congr_left fun i hi => ?_
    rw [State.byteAt, if_pos (by have := List.mem_range.mp hi; omega)]
  · rw [if_neg (by omega)] at h
    cases hp : s.partOf k with
    | none => simp only [hp] at h; cases h
    | some p =>
      simp only [hp] at h
      split at h
      · cases h
      · obtain rfl := Except.ok.inj h
        refine List.map_congr_left fun i _ => ?_
        rw [State.byteAt, if_neg (by omega)]
        simp only [hp]

theorem sclLoad_go {s : State} {k c n : Nat} {w : W64} {bs : List Byte} (halign : (s.sA k c w + sextImm w).toNat % n = 0)
    (hhole : reachesHole (s.sA k c w + sextImm w).toNat n = false) (hread : s.readAt k (s.sA k c w + sextImm w).toNat n = .ok bs) :
    sclLoad k c w n s = .go ((s.touchAt k (s.sA k c w + sextImm w).toNat n).putS k c (fD w) (BitVec.ofNat 64 (leNat bs))) := by
  have hva : addrOf (s.ctx k c) w = (s.sA k c w + sextImm w).toNat := rfl
  unfold sclLoad
  simp only [hva, badAddr_eq_false halign hhole, hread, Bool.false_eq_true, if_false]

/-- A scalar load of `n` bytes that can be read. -/
theorem scalarLoad_spec {s : State} {k c opc n : Nat} {w : W64} {bs : List Byte} (hissues : s.Issues k c w opc 0)
    (hn : 0 < n) (halign : (s.sA k c w + sextImm w).toNat % n = 0) (hhole : reachesHole (s.sA k c w + sextImm w).toNat n = false)
    (hread : s.readAt k (s.sA k c w + sextImm w).toNat n = .ok bs) :
    let va := (s.sA k c w + sextImm w).toNat
    ∃ t, issue k c w (spells w opc 0) (sclLoad k c w n s) s = .next t ∧
      WritesScalar s t k c (fD w) (BitVec.ofNat 64 (leNat ((List.range n).map fun i => s.byteAt k (va + i)))) ∧
      OnlyScalars s t k c ((s.ctx k c).pc + 8) ∧
      t = { s with cores := t.cores, reqs := s.boundReqs k c, parts := t.parts, fabric := t.fabric } ∧ FarChanges s t k va n ∧
      SameParts s t ∧ SameOtherCores s t k ∧ (∀ i, i ≠ c → t.ctx k i = s.ctx k i) ∧
      t.core k = { s.core k with ctxs := (t.core k).ctxs, ops := (t.core k).ops, nextId := (t.core k).nextId, tagBit := (t.core k).tagBit } ∧
      (s.Near k va n → (t.core k).ops = ((s.core k).dropScalar c (fD w)).ops) := by
  intro va
  let v := BitVec.ofNat 64 (leNat bs)
  let X := (s.touchAt k va n).putS k c (fD w) v
  obtain ⟨t, ht, hfollows⟩ := afterIssue_follows s X k c w
  have hcore : X.core k = ((s.core k).dropScalar c (fD w)).setCtx c ((s.ctx k c).writeS (fD w) v) := by
    refine (State.core_setCore_self ..).trans ?_
    rw [core_touchAt]
    rfl
  have hctx : ∀ i, X.ctx k i = if i = c then (s.ctx k c).writeS (fD w) v else s.ctx k i := fun i => by
    rw [State.ctx, hcore, Core.ctx_setCtx]
    rfl
  have hctxT : t.ctx k c = { (s.ctx k c).writeS (fD w) v with pc := (s.ctx k c).pc + 8 } := by
    rw [hfollows.ctx, hctx, if_pos rfl]
  have hreqs : (X.bindItem (s.ctx k c).bind).reqs = s.boundReqs k c :=
    (bindItem_reqs_congr (s.touchAt k va n) X _ rfl rfl).trans (boundReqs_touchAt s k c k va n)
  have hfabric : X.fabric = s.fabric := by
    change (s.touchAt k va n).fabric = s.fabric
    rw [State.touchAt_frame]
  have hfar : s.Near k va n → X.farOfCore k = s.farOfCore k := fun h => (farOfCore_parts rfl).trans (State.farOfCore_touchAt h)
  refine ⟨t, ?_, fun r => ?_, ?_, ?_, ⟨?_, fun hnear => ?_⟩, ?_, fun j hj => ?_, fun i hi => ?_, ?_, fun hnear => ?_⟩
  · rw [sclLoad_go halign hhole hread, issue_of_issues hissues, ht]
  · rw [hctxT, ← State.readAt_bytes hn hhole hread]
    exact Ctx.readS_writeS ..
  · rw [OnlyScalars, hctxT, Ctx.writeS_frame]
  · refine hfollows.frame.trans ?_
    rw [hreqs]
    exact congrArg (fun u : State => { u with cores := t.cores, reqs := s.boundReqs k c, parts := t.parts, fabric := t.fabric })
      (State.touchAt_frame s k va n)
  · rw [← hfabric]
    exact hfollows.fabric
  · obtain ⟨hf, -, hid, htag⟩ := hfollows.near (hfar hnear)
    rw [hf, hid, htag, hcore, hfabric]
    exact ⟨rfl, rfl, rfl⟩
  · exact hfollows.sameParts (sameParts_touchAt s k va n)
  · rw [hfollows.otherCores j hj]
    refine (State.core_setCore ..).trans ?_
    rw [if_neg hj, core_touchAt]
  · rw [hfollows.otherCtxs i hi, hctx, if_neg hi]
  · have h := hfollows.core
    rw [hcore] at h
    rw [h]
    rfl
  · obtain ⟨-, hops, -, -⟩ := hfollows.near (hfar hnear)
    rw [hops, hcore]
    rfl

/-- Settles O4: both loads are `sclLoad`, of 8 and of 4 bytes. -/
theorem scalarLoadsReadLittleEndian : Obligations.ScalarLoadsReadLittleEndian := by
  intro row hrow k c w s bs va n
  simp only [List.mem_cons, List.not_mem_nil, or_false] at hrow
  rcases hrow with rfl | rfl
  · exact fun hissues halign hhole hread => scalarLoad_spec hissues (by decide) halign hhole hread
  · exact fun hissues halign hhole hread => scalarLoad_spec hissues (by decide) halign hhole hread

/-! ### Scalar stores (R299, R300, R320) -/

/-- A byte of little-endian bytes (R5). -/
theorem leBytes_getD {n i : Nat} (v : Nat) (h : i < n) : (leBytes n v).getD i 0 = BitVec.ofNat 8 (v / 256 ^ i) := by
  simp [leBytes, List.getD, h]

/-- Where a write can be made, it goes to the core's scratchpad or to the memory of the core's partition. -/
theorem State.writeAt_region {s : State} {k va n : Nat} (hn : 0 < n) (hhole : reachesHole va n = false) (hw : s.writableAt k va n = none)
    (bs : List Byte) :
    va + n ≤ 0x300000 ∧ s.writeAt k va bs = s.setCore k { s.core k with scratch := writeBytes (s.core k).scratch va bs } ∨
      ∃ p, 0x400000 ≤ va ∧ s.partOf k = some p ∧ s.writeAt k va bs = s.setMem p ((s.mem p).store va bs) := by
  unfold State.writeAt
  obtain ⟨hlo, hend⟩ | hhi := within_region hn hhole
  · exact .inl ⟨hend, if_pos hlo⟩
  · unfold State.writableAt at hw
    rw [if_neg (by omega)] at hw ⊢
    cases hp : s.partOf k with
    | none => simp only [hp] at hw; cases hw
    | some p => exact .inr ⟨p, hhi, rfl, rfl⟩

/-- The core then sees the bytes written, and every other byte as before. -/
theorem State.byteAt_writeAt {s : State} {k va n : Nat} {bs : List Byte} (hn : 0 < n) (hlen : bs.length = n) (hhole : reachesHole va n = false)
    (hw : s.writableAt k va n = none) :
    (∀ i, i < n → (s.writeAt k va bs).byteAt k (va + i) = bs.getD i 0) ∧
      ∀ a, (a < va ∨ va + n ≤ a) → (s.writeAt k va bs).byteAt k a = s.byteAt k a := by
  subst hlen
  unfold State.byteAt
  obtain ⟨hend, hX⟩ | ⟨p, hhi, hp, hX⟩ := State.writeAt_region hn hhole hw bs
  · rw [hX]
    refine ⟨fun i hi => ?_, fun a ha => ?_⟩
    · rw [if_pos (by omega), State.core_setCore_self]
      exact sget_writeBytes_inside bs _ va i hi
    · rw [State.core_setCore_self, sget_writeBytes_outside bs _ va a ha]
      rfl
  · rw [hX]
    simp only [State.partOf_setMem, hp, State.mem_setMem_self]
    refine ⟨fun i hi => ?_, fun a ha => ?_⟩
    · rw [if_neg (by omega)]
      exact Mem.store_inside _ va i bs hi
    · rw [Mem.store_outside _ va a bs ha]
      rfl

/-- A write changes of the cores the scratchpad of `k`, and of the partitions that of `k`. -/
theorem State.writeAt_effect {s : State} {k va n : Nat} {bs : List Byte} (hn : 0 < n) (hhole : reachesHole va n = false)
    (hw : s.writableAt k va n = none) :
    let X := s.writeAt k va bs
    X.core k = { s.core k with scratch := (X.core k).scratch } ∧ (∀ j, j ≠ k → X.core j = s.core j) ∧
      (∀ p, some p ≠ s.partOf k → X.part p = s.part p) ∧ X.partOf k = s.partOf k := by
  intro X
  obtain ⟨hend, hX⟩ | ⟨p, hhi, hp, hX⟩ := State.writeAt_region hn hhole hw bs
  · refine ⟨?_, fun j hj => ?_, fun p _ => ?_, ?_⟩
    · rw [show X = _ from hX, State.core_setCore_self]
    · rw [show X = _ from hX, State.core_setCore, if_neg hj]
    · rw [show X = _ from hX]
      rfl
    · rw [show X = _ from hX]
      rfl
  · refine ⟨?_, fun j _ => ?_, fun q hq => ?_, ?_⟩
    · rw [show X = _ from hX]
      rfl
    · rw [show X = _ from hX]
      rfl
    · rw [show X = _ from hX, State.part_setMem, if_neg (fun h => hq (by rw [hp, h]))]
    · rw [show X = _ from hX, State.partOf_setMem]

theorem sclStore_go {s : State} {k c n : Nat} {w : W64} (halign : (s.sA k c w + sextImm w).toNat % n = 0)
    (hhole : reachesHole (s.sA k c w + sextImm w).toNat n = false) (hw : s.writableAt k (s.sA k c w + sextImm w).toNat n = none) :
    sclStore k c w n s = .go (s.writeAt k (s.sA k c w + sextImm w).toNat (leBytes n (s.sB k c w).toNat)) := by
  have hva : addrOf (s.ctx k c) w = (s.sA k c w + sextImm w).toNat := rfl
  unfold sclStore
  simp only [hva, badAddr_eq_false halign hhole, hw, Bool.false_eq_true, if_false]
  rfl

/-- A scalar store of `n` bytes that can be written. -/
theorem scalarStore_spec {s : State} {k c opc n : Nat} {w : W64} (hissues : s.Issues k c w opc 0) (hn : 0 < n)
    (halign : (s.sA k c w + sextImm w).toNat % n = 0) (hhole : reachesHole (s.sA k c w + sextImm w).toNat n = false)
    (hw : s.writableAt k (s.sA k c w + sextImm w).toNat n = none) :
    let va := (s.sA k c w + sextImm w).toNat
    ∃ t, issue k c w (spells w opc 0) (sclStore k c w n s) s = .next t ∧
      (∀ i, i < n → t.byteAt k (va + i) = BitVec.ofNat 8 ((s.sB k c w).toNat / 256 ^ i)) ∧ SameBytesOutside s t k va n ∧
      t.ctx k c = { s.ctx k c with pc := (s.ctx k c).pc + 8 } ∧ (∀ i, i ≠ c → t.ctx k i = s.ctx k i) ∧ SameOtherCores s t k ∧
      t.core k = { s.core k with ctxs := (t.core k).ctxs, scratch := (t.core k).scratch, ops := (t.core k).ops, nextId := (t.core k).nextId,
                                 tagBit := (t.core k).tagBit } ∧
      (s.Near k va n → (t.core k).ops = (s.core k).ops) ∧ (∀ p, some p ≠ s.partOf k → t.part p = s.part p) ∧
      t = { s with cores := t.cores, reqs := t.reqs, parts := t.parts, fabric := t.fabric } ∧ FarChanges s t k va n := by
  intro va
  let bs := leBytes n (s.sB k c w).toNat
  let X := s.writeAt k va bs
  have hlen : bs.length = n := leBytes_length ..
  obtain ⟨t, ht, hfollows⟩ := afterIssue_follows s X k c w
  obtain ⟨hinside, houtside⟩ := State.byteAt_writeAt (bs := bs) hn hlen hhole hw
  obtain ⟨hcore, hcores, hparts, hpartOf⟩ := State.writeAt_effect (bs := bs) hn hhole hw
  have hctx : ∀ i, X.ctx k i = s.ctx k i := fun i => by
    rw [State.ctx, hcore]
    rfl
  have hfabric : X.fabric = s.fabric := by
    change (s.writeAt k va bs).fabric = s.fabric
    rw [State.writeAt_frame]
  have hnear : s.Near k va n → t.fabric = s.fabric ∧ (t.core k).ops = (s.core k).ops ∧ (t.core k).nextId = (s.core k).nextId ∧
      (t.core k).tagBit = (s.core k).tagBit := fun h => by
    obtain ⟨hf, hops, hid, htag⟩ := hfollows.near (State.farOfCore_writeAt hlen h)
    rw [hf, hops, hid, htag, hcore]
    exact ⟨hfabric, rfl, rfl, rfl⟩
  refine ⟨t, ?_, fun i hi => ?_, fun a ha => ?_, ?_, fun i hi => ?_, fun j hj => ?_, ?_, fun h => ?_, fun p hp => ?_, ?_, ?_, fun h => ?_⟩
  · rw [sclStore_go halign hhole hw, issue_of_issues hissues, ht]
  · rw [hfollows.byteAt, hinside i hi, leBytes_getD _ hi]
  · rw [hfollows.byteAt, houtside a ha]
  · rw [hfollows.ctx, hctx]
  · rw [hfollows.otherCtxs i hi, hctx]
  · rw [hfollows.otherCores j hj, hcores j hj]
  · have h := hfollows.core
    rw [hcore] at h
    rw [h]
  · obtain ⟨-, hops, -, -⟩ := hnear h
    exact hops
  · obtain h | ⟨h, -⟩ := hfollows.part p
    · rw [h, hparts p hp]
    · exact absurd (h.symm.trans hpartOf) hp
  · have hreqs : t.reqs = (X.bindItem (s.ctx k c).bind).reqs := by rw [hfollows.frame]
    refine hfollows.frame.trans ?_
    rw [hreqs]
    exact congrArg (fun u : State => { u with cores := t.cores, reqs := (X.bindItem (s.ctx k c).bind).reqs, parts := t.parts, fabric := t.fabric })
      (State.writeAt_frame s k va bs)
  · rw [← hfabric]
    exact hfollows.fabric
  · obtain ⟨hf, -, hid, htag⟩ := hnear h
    exact ⟨hf, hid, htag⟩

/-- Settles O5: both stores are `sclStore`, of 8 and of 4 bytes. -/
theorem scalarStoresWriteLittleEndian : Obligations.ScalarStoresWriteLittleEndian := by
  intro row hrow k c w s va n
  simp only [List.mem_cons, List.not_mem_nil, or_false] at hrow
  rcases hrow with rfl | rfl
  · exact fun hissues halign hhole hw => scalarStore_spec hissues (by decide) halign hhole hw
  · exact fun hissues halign hhole hw => scalarStore_spec hissues (by decide) halign hhole hw

end Sys2Proof.Machine
end

section
/-! PROOFS. Held contexts, illegal words, and what a fault leaves of the contexts. First that every instruction of a word acts through `issue`, then
what `issue` answers while a context is held, for an illegal word and for one that names LOG4, then what a fault changes of a context. -/

namespace Sys2Proof.Machine

/-! ### Every instruction of a word issues (R286) -/

/-- The constructor acts through `issue`, whatever the word spells and whatever the instruction's own effect is. -/
def ActsByIssue (mk : Nat → Nat → W64 → Instr) : Prop :=
  ∀ (k c : Nat) (w : W64) (s : State), ∃ mine meaning, exec (mk k c w) s = issue k c w mine meaning s

theorem actsByIssue_aluRows : ∀ row ∈ aluRows, ActsByIssue row.make := by
  simp only [aluRows, List.forall_mem_append, List.forall_mem_cons, List.not_mem_nil, false_implies, implies_true, and_true]
  and_intros
  all_goals exact fun _ _ _ _ => ⟨_, .go _, rfl⟩

theorem actsByIssue_sclCmp : ActsByIssue .sclCmp := fun _ _ _ _ => ⟨_, .go _, rfl⟩

theorem actsByIssue_sclJr : ActsByIssue .sclJr := fun _ _ _ _ => ⟨_, .jump _ _, rfl⟩

theorem actsByIssue_sclIflush : ActsByIssue .sclIflush := fun _ _ _ _ => ⟨_, .go _, rfl⟩

theorem actsByIssue_sessStep : ActsByIssue .sessStep := fun _ _ _ _ => ⟨_, .go _, rfl⟩

/-- The instructions above always go on; each of the others tests something of the state before it answers. -/
theorem actsByIssue_wordInstrs (m : MemErr) (ps : List (Nat × Nat × Nat)) : ∀ mk ∈ wordInstrs m ps, ActsByIssue mk := by
  simp only [wordInstrs, List.forall_mem_append, List.forall_mem_map, List.forall_mem_cons, List.not_mem_nil, false_implies, implies_true, and_true,
    actsByIssue_sclCmp, actsByIssue_sclJr, actsByIssue_sclIflush, actsByIssue_sessStep, true_and]
  and_intros
  · exact actsByIssue_aluRows
  all_goals exact fun _ _ _ _ => ⟨_, _, rfl⟩

/-! ### What issue answers (R22, R278, R316) -/

/-- A held context issues nothing (R286, R287). -/
theorem issue_held {k c : Nat} {w : W64} {s : State} (h : s.ready k c w = false) (mine : Bool) (r : Issued) :
    issue k c w mine r s = .next s := by
  simp [issue, h]

/-- An illegal word that does not name LOG4 puts its context in FAULT, whichever instruction it was sent as. -/
theorem issue_illegal {k c : Nat} {w : W64} {s : State} (hready : s.ready k c w = true) (hwf : wellFormedWord w = false)
    (hlog : s.namesLog4 k c w = false) (mine : Bool) (r : Issued) : issue k c w mine r s = .next (s.ctxFault k c fltIllegalOp) := by
  simp [issue, hready, hwf, hlog]

/-- An instruction that is refused as naming LOG4 is so whether its word is legal or not. -/
theorem issue_namesLog4 {k c : Nat} {w : W64} {s : State} (hready : s.ready k c w = true) (hlog : s.namesLog4 k c w = true) :
    issue k c w true (.refuse fltFmtRole) s = s.afterRefusal k c fltFmtRole := by
  cases hwf : wellFormedWord w
  · simp [issue, hready, hwf, hlog, State.afterRefusal]
  · simp [issue, hready, hwf, State.afterRefusal]

/-- Only the OPC of ARR.STREAM names LOG4 (R22). -/
theorem State.namesLog4_of_fOpc_ne {w : W64} (h : fOpc w ≠ 0x20) (s : State) (k c : Nat) : s.namesLog4 k c w = false := by
  simp [State.namesLog4, h]

theorem unitIssue_of_room {s : State} {k : Nat} {u : UnitId} (h : (s.core k).queueFull u = false) (r : Issued) : unitIssue s k u r = r := by
  simp [unitIssue, h]

/-- LOG4 is the first refusal of ARR.STREAM (R22). -/
theorem arrIssue_namesLog4 {k c : Nat} {w : W64} {s : State} (h : s.namesLog4 k c w = true) (ps : List (Nat × Nat × Nat)) :
    arrIssue k c w ps s = .refuse fltFmtRole := by
  simp [arrIssue, h]

theorem exec_arrStream (k c : Nat) (w : W64) (ps : List (Nat × Nat × Nat)) (s : State) :
    exec (.arrStream k c w ps) s = issue k c w (spells w 0x20 0) (unitIssue s k (.stream (tStream w)) (arrIssue k c w ps s)) s := rfl

/-! ### What a fault leaves of a context (R294, R295, R296) -/

/-- A relation between the entries of a table and those of its image under a map that keeps the keys. -/
theorem sget_map_rel {α : Type} {R : α → α → Prop} {d : α} {g : Nat × α → Nat × α} (hd : R d d) (hkey : ∀ e, (g e).1 = e.1)
    (hval : ∀ e, R e.2 (g e).2) (m : Sparse α) (k : Nat) : R (sget d m k) (sget d (m.map g) k) := by
  induction m with
  | nil => exact hd
  | cons e m ih =>
    simp only [List.map_cons, sget, hkey]
    split
    · exact hval e
    · exact ih

/-- The context `y` is `x` but for the FAILED mark of its item. -/
def Ctx.SameButMark (x y : Ctx) : Prop := y = { x with item := { x.item with failed := y.item.failed } }

theorem Ctx.SameButMark.refl (x : Ctx) : x.SameButMark x := rfl

theorem Ctx.SameButMark.pc {x y : Ctx} (h : x.SameButMark y) : y.pc = x.pc := (congrArg Ctx.pc h :)

/-- An item that fails shows in the mark of each context that names it (R294, R499). -/
theorem Core.ctx_markFailed (x : Core) (r i j : Nat) : (x.ctx j).SameButMark ((x.markFailed r i).ctx j) := by
  refine sget_map_rel (Ctx.SameButMark.refl _) (fun e => ?_) (fun e => ?_) x.ctxs j
  · exact iteProp_keeps (π := Prod.fst) rfl rfl
  · split
    · rfl
    · rfl

theorem State.ctx_markFailed (s : State) (r i k j : Nat) : (s.ctx k j).SameButMark ((s.markFailed r i).ctx k j) :=
  sget_map_rel (R := fun x y : Core => (x.ctx j).SameButMark (y.ctx j)) (g := fun e => (e.1, e.2.markFailed r i)) (Ctx.SameButMark.refl _) (fun _ => rfl)
    (fun e => e.2.ctx_markFailed r i j) s.cores k

theorem State.ctx_failItem (s : State) (r i : Nat) (f : FaultCode) (k j : Nat) : (s.ctx k j).SameButMark ((s.failItem r i f).ctx k j) := by
  unfold State.failItem
  split
  · rfl
  · exact State.ctx_markFailed (s.setRequest r _) r i k j

theorem State.ctx_event (s : State) (code d d2 : Nat) (ps : List Nat) (k j : Nat) : (s.event code d d2 ps).ctx k j = s.ctx k j :=
  (congrArg (State.ctx · k j) (State.event_offEvent s code d d2 ps) :)

theorem State.ctx_setCore_of_ctxs {s : State} {k : Nat} {y : Core} (h : y.ctxs = (s.core k).ctxs) (j i : Nat) : (s.setCore k y).ctx j i = s.ctx j i := by
  rw [State.ctx, State.core_setCore]
  split
  case isTrue hj => rw [hj, Core.ctx, h]; rfl
  case isFalse => rfl

/-- A fault without an item shows in CORE_FAULT, and in no context (R296). -/
theorem State.ctx_coreFault (s : State) (k c : Nat) (f : FaultCode) (j i : Nat) : (s.coreFault k c f).ctx j i = s.ctx j i :=
  (State.ctx_event ..).trans (ite_keeps (π := (State.ctx · j i)) rfl (State.ctx_setCore_of_ctxs (by rfl) j i))

/-- A fault changes nothing of a context but the FAILED mark of its item. -/
theorem State.ctx_faultAt (s : State) (k c : Nat) (b : Option (Nat × Nat)) (f : FaultCode) (j i : Nat) :
    (s.ctx j i).SameButMark ((s.faultAt k c b f).ctx j i) := by
  have hcore : (s.ctx j i).SameButMark ((s.coreFault k c f).ctx j i) := by
    rw [State.ctx_coreFault]
    exact Ctx.SameButMark.refl _
  unfold State.faultAt
  split
  · split
    · exact State.ctx_failItem ..
    · exact hcore
  · exact hcore

/-- A context that enters FAULT is as the fault leaves it, in state FAULT (R295). -/
theorem State.ctx_ctxFault (s : State) (k c : Nat) (f : FaultCode) :
    (s.ctxFault k c f).ctx k c = { (s.faultAt k c (s.ctx k c).bind f).ctx k c with mode := .fault } := by
  unfold State.ctxFault
  dsimp only
  split
  · rw [State.ctx_setCtx_self]
  · exact State.ctx_setCtx_self ..

/-- Settles O10: every instruction of a word acts through `issue`, which answers for held contexts and illegal words before the instruction's own
effect is asked for; ARR.STREAM looks for LOG4 first. -/
theorem heldAndIllegalWords : Obligations.HeldAndIllegalWords := by
  intro m ps k c w s
  refine ⟨fun mk hmk => ?_, fun hopc => State.namesLog4_of_fOpc_ne hopc s k c, fun hready hspells hlog hroom => ?_⟩
  · obtain ⟨mine, meaning, hexec⟩ := actsByIssue_wordInstrs m ps mk hmk k c w s
    rw [hexec]
    refine ⟨fun hheld => issue_held hheld mine meaning, fun hready hwf hlog => ⟨_, issue_illegal hready hwf hlog mine meaning, rfl, ?_, ?_⟩⟩
    · rw [State.ctx_ctxFault]
    · rw [State.ctx_ctxFault]
      exact (State.ctx_faultAt ..).pc
  · rw [exec_arrStream, unitIssue_of_room hroom, arrIssue_namesLog4 hlog, hspells, issue_namesLog4 hready hlog]

end Sys2Proof.Machine
end

section
/-! PROOFS. ARR.STREAM: descriptors that fit raise no refusal; what the core's sheaf takes at issue (its split, the tags of the slots, the splits that
the streams show); the rows that fail their parity check at a swap; and the instruction's entry in its stream's queue. -/

namespace Sys2Proof.Machine

/-! ### The refusals of ARR.STREAM (R22, R57, R64, R84, R114, R142, R180, R221, R375) -/

/-- The slots of the arrays all hold the tag: every comparison of R114 passes. -/
theorem Sheaf.tagsMatch_of_forall {sh : Sheaf} {arrays : List Nat} {st : Nat} {tag : SlotTag}
    (h : ∀ a ∈ arrays, sget {} sh.tags (4 * a + st) = tag) :
    sh.tagsMatch arrays st tag = true :=
  List.all_eq_true.2 fun a ha => by rw [Nat.mul_comm, h a ha, beq_self_eq_true]

/-- An ARR.STREAM that fits is not refused: each of its five tests, in the order of log 39, is one that StreamFits rules out. -/
theorem arrRefusal_of_fits {sh : Sheaf} {w : W64} {t : TileIssue} {xt yt : Tensor} {spx spy : SpDesc} {e : EpiDesc} {tm : TermDesc}
    (h : StreamFits sh w t xt yt spx spy e tm) : arrRefusal sh w t e tm xt yt spx spy = none := by
  obtain ⟨⟨hrole, hrolex, hroley, hfmt⟩, ⟨hst, hsplit⟩, ⟨hxelem, hyelem, hxbad, hybad, htop⟩, hconv, hpack, horder, hspx, hspy, hepi,
    ⟨htm, het, hdrain, hsel⟩, hring, ⟨haxisx, haxisy⟩, htag⟩ := h
  refine (if_neg ?roles).trans <| (if_neg ?epilogue).trans <| (if_neg ?ranges).trans <| (if_neg ?axes).trans (if_neg ?tags)
  case roles => simp [hrole, hrolex, hroley]
  case epilogue =>
    cases hlast : t.d.arrays.getLast? <;> rw [hlast] at hepi <;> exact fun h => nomatch hepi.symm.trans h
  case ranges =>
    have hact : (t.d.mode == 1) = decide (t.d.mode = 1) := rfl
    have htop' : topPlanes yt.fmt t.d.ptop ≠ none := Option.isSome_iff_ne_none.1 htop
    have hsel' := forall_and.1 fun h => and_assoc.2 (hsel h)
    have hmode := And.intro hsplit (And.intro hconv (And.intro (fun hp hm => hpack hm hp) horder))
    have hterm := And.intro het (And.intro hdrain hsel')
    cases hlast : t.d.arrays.getLast? <;> cases hyr : t.use.yRing
    all_goals
      simp only [hlast, hyr, Option.map_none, Option.map_some, Option.getD_none, Option.getD_some] at hepi hybad hring
      simpa [hfmt, hst, hxelem, hyelem, hxbad, hybad, htop', hspx, hspy, hepi, htm, hring, hact, and_assoc]
        using And.intro hmode hterm
  case axes => simpa [and_imp] using ⟨haxisx, haxisy⟩
  case tags =>
    cases hstart : tStart w
    · obtain ⟨hsplit', htags⟩ := htag hstart
      simp [hsplit', Sheaf.tagsMatch_of_forall htags]
    · simp

/-! ### What the core's sheaf takes (R86, R112, R114) -/

/-- One value written at a list of keys: each of them holds it, and every other key what it held. -/
theorem sget_foldl_sput {α ι : Type} [DecidableEq α] (d v : α) (key : ι → Nat) (l : List ι) (m : Sparse α) (i : Nat) :
    sget d (l.foldl (fun m a => sput d m (key a) v) m) i = if ∃ a ∈ l, key a = i then v else sget d m i := by
  induction l generalizing m with
  | nil => simp
  | cons a l ih =>
    rw [List.foldl_cons, ih, sget_sput]
    by_cases ha : i = key a <;> simp [ha, eq_comm]

theorem tStream_lt (w : W64) : tStream w < 4 := Nat.mod_lt _ (by decide)

/-- The slots' tags after a write for some arrays of a stream. -/
theorem Sheaf.tags_writeTags (sh : Sheaf) (arrays : List Nat) (tag : SlotTag) {st i : Nat} (hst : st < 4) (hi : i < 4) (a : Nat) :
    sget {} (sh.writeTags arrays st tag).tags (4 * a + i) = if a ∈ arrays ∧ i = st then tag else sget {} sh.tags (4 * a + i) := by
  have hkey : (∃ b ∈ arrays, b * 4 + st = 4 * a + i) ↔ a ∈ arrays ∧ i = st := by
    refine ⟨fun ⟨b, hb, h⟩ => ?_, fun ⟨ha, h⟩ => ⟨a, ha, by omega⟩⟩
    obtain ⟨rfl, rfl⟩ : b = a ∧ i = st := by omega
    exact ⟨hb, rfl⟩
  simp [Sheaf.writeTags, sget_foldl_sput, hkey]

/-- The streams in use under a split show it. -/
theorem Sheaf.sget_showSplit (sh : Sheaf) (split i : Nat) :
    sget 0 (sh.showSplit split) i = if i < streamsOf split then split else sget 0 sh.lastSplit i :=
  (sget_foldl_sput 0 split id (List.range (streamsOf split)) sh.lastSplit i).trans (by simp)

/-- Taking a split changes the split, the tags and the splits shown; and the table unit's tag stays valid where the split was in force. -/
theorem Core.setSplit_frame (x : Core) (n : Nat) :
    x.setSplit n = { x with sheaf := { x.sheaf with split := n, tags := (x.setSplit n).sheaf.tags, lastSplit := (x.setSplit n).sheaf.lastSplit }
                            tab := { x.tab with tag := { x.tab.tag with valid := x.tab.tag.valid && decide (n = x.sheaf.split) } } } := by
  unfold Core.setSplit
  split
  case isTrue h => simp [← h]
  case isFalse h => simp [Ne.symm h]

theorem Core.tags_setSplit (x : Core) (n i : Nat) :
    sget {} (x.setSplit n).sheaf.tags i = if n = x.sheaf.split then sget {} x.sheaf.tags i else {} := by
  unfold Core.setSplit
  simp only [eq_comm (a := n)]
  split <;> rfl

theorem Core.lastSplit_setSplit (x : Core) (n i : Nat) :
    sget 0 (x.setSplit n).sheaf.lastSplit i = if n ≠ x.sheaf.split ∧ i < streamsOf n then n else sget 0 x.sheaf.lastSplit i := by
  unfold Core.setSplit
  split
  case isTrue h => simp [h]
  case isFalse h => simp [Ne.symm h, Sheaf.sget_showSplit]

/-- The core as an ARR.STREAM that has tiles to run leaves it: the split taken, and with START the tag in the slots of its arrays. -/
def Core.takeStream (x : Core) (w : W64) (d : TileDesc) (tag : SlotTag) : Core :=
  if tStart w then { x.setSplit d.split with sheaf := (x.setSplit d.split).sheaf.writeTags d.arrays (tStream w) tag } else x.setSplit d.split

theorem Core.takeStream_frame (x : Core) (w : W64) (d : TileDesc) (tag : SlotTag) :
    let y := x.takeStream w d tag
    y = { x with sheaf := { x.sheaf with split := d.split, tags := y.sheaf.tags, lastSplit := y.sheaf.lastSplit }
                 tab := { x.tab with tag := { x.tab.tag with valid := x.tab.tag.valid && decide (d.split = x.sheaf.split) } } } := by
  dsimp only [Core.takeStream]
  split
  · conv => lhs; rw [Core.setSplit_frame]
    rfl
  · exact x.setSplit_frame d.split

theorem Core.tags_takeStream (x : Core) (w : W64) (d : TileDesc) (tag : SlotTag) (a : Nat) {i : Nat} (hi : i < 4) :
    sget {} (x.takeStream w d tag).sheaf.tags (4 * a + i) =
      if tStart w ∧ a ∈ d.arrays ∧ i = tStream w then tag else if d.split = x.sheaf.split then sget {} x.sheaf.tags (4 * a + i) else {} := by
  unfold Core.takeStream
  cases tStart w
  · simp [Core.tags_setSplit]
  · simp [Sheaf.tags_writeTags _ _ _ (tStream_lt w) hi, Core.tags_setSplit]

theorem Core.lastSplit_takeStream (x : Core) (w : W64) (d : TileDesc) (tag : SlotTag) (i : Nat) :
    sget 0 (x.takeStream w d tag).sheaf.lastSplit i =
      if d.split ≠ x.sheaf.split ∧ i < streamsOf d.split then d.split else sget 0 x.sheaf.lastSplit i := by
  rw [← Core.lastSplit_setSplit]
  unfold Core.takeStream
  split <;> rfl

/-! ### Rows that fail their parity check (R87, R88, R511) -/

theorem State.parityFails_nil (s : State) (k : Nat) (o : InFlight) : s.parityFails k o [] = s := rfl

/-- The failing rows of a core's sheaf after a swap at which `rows` fail their check. -/
def Core.keepFailing (x : Core) (rows : List (Nat × Nat)) : Core :=
  { x with sheaf := { x.sheaf with failing := (x.sheaf.failing ++ rows.map fun p => (p.1, physRow (sget [] x.sheaf.splices p.1) p.2)).eraseDups } }

theorem State.parityFails_of_ne_nil {rows : List (Nat × Nat)} (h : rows ≠ []) (s : State) (k : Nat) (o : InFlight) :
    s.parityFails k o rows = (s.setCore k ((s.core k).keepFailing rows)).opFault k o fltArrParity :=
  if_neg (by simpa using h)

theorem Core.mem_failing_keepFailing (x : Core) (rows : List (Nat × Nat)) (a r : Nat) :
    (a, r) ∈ (x.keepFailing rows).sheaf.failing ↔
      (a, r) ∈ x.sheaf.failing ∨ ∃ p ∈ rows, a = p.1 ∧ r = physRow (sget [] x.sheaf.splices p.1) p.2 := by
  simp [Core.keepFailing, eq_comm]

/-! ### Issue -/

/-- An ARR.STREAM that its unit accepts and that goes on has its own effect, as issue completes it. -/
theorem exec_arrStream_of_go {k c : Nat} {w : W64} {ps : List (Nat × Nat × Nat)} {s X : State} (h : s.Accepts k c w 0x20 0 (.stream (tStream w)))
    (hgo : arrIssue k c w ps s = .go X) : exec (.arrStream k c w ps) s = s.afterIssue k c w X := by
  obtain ⟨hissues, hroom⟩ := h
  rw [exec_arrStream, unitIssue_of_room hroom, hgo, issue_of_issues hissues]

/-- Settles O18: a fitting ARR.STREAM goes on at issue, with nothing but its entry where it has no tile, else with the core that takes its split and
tags; and the rows that fail at a swap join the failing rows before the item fails. -/
theorem arrayProductTakesSplitTagAndQueue : Obligations.ArrayProductTakesSplitTagAndQueue := by
  refine ⟨fun k c w ps s t => ?_, fun k s o rows => ?_⟩
  · dsimp only
    intro haccepts hlog htile hfits hepi hsel
    have hrefusal := arrRefusal_of_fits hfits
    have hguard : ((termOf w t.aux.toNat).sel && (s.core k).guarding) = false := by simpa using hsel
    refine ⟨fun hempty => exec_arrStream_of_go haccepts ?_, fun hempty hhole hsplit => ?_⟩
    · simp only [arrIssue, hlog, htile, hrefusal, hempty, hepi, hguard, Bool.not_true, Bool.false_and, Bool.or_false,
        Bool.false_eq_true, if_false, if_true]
    · have hwait : (t.d.split != (s.core k).sheaf.split && (s.core k).tilesInFlight) = false := by
        rcases hsplit with h | h <;> simp [h]
      refine ⟨(s.core k).takeStream w t.d _, exec_arrStream_of_go haccepts ?_, Core.takeStream_frame ..,
        fun a i hi => Core.tags_takeStream _ _ _ _ a hi, fun i => Core.lastSplit_takeStream ..⟩
      simp only [arrIssue, hlog, htile, hrefusal, hempty, hepi, hguard, hhole, hwait, core_touchAt, Core.takeStream,
        Bool.not_false, Bool.true_and, Bool.or_false, Bool.false_eq_true, if_false]
  · exact ⟨State.parityFails_nil s k o, fun hrows => ⟨_, State.parityFails_of_ne_nil hrows s k o, rfl,
      fun a r => Core.mem_failing_keepFailing ..⟩⟩

end Sys2Proof.Machine
end

section
/-! PROOFS. The units' own steps: which instruction of a queue starts, and with what; the words and the ends of a tile that has started; its
repeat; and the tests of its guarded rings. -/

namespace Sys2Proof.Machine

/-! ### The head of a unit's queue (R287) -/

theorem beforeFirst_eq_none {p : InFlight → Bool} {l : List InFlight} (h : ∀ o ∈ l, p o = false) : beforeFirst p l = none := by
  induction l with
  | nil => rfl
  | cons o os ih =>
    obtain ⟨ho, hos⟩ := List.forall_mem_cons.mp h
    simp [beforeFirst, ho, ih hos]

theorem beforeFirst_append {p : InFlight → Bool} {es rest : List InFlight} {o : InFlight} (hes : ∀ e ∈ es, p e = false) (ho : p o = true) :
    beforeFirst p (es ++ o :: rest) = some (es, o) := by
  induction es with
  | nil => simp [beforeFirst, ho]
  | cons e es ih =>
    obtain ⟨he, hes⟩ := List.forall_mem_cons.mp hes
    simp [beforeFirst, he, ih hes]

/-- The instruction of a unit that stands first among those of its queue that have not started, with every instruction in flight before it. -/
def Core.nextToStart (x : Core) (u : UnitId) : Option (List InFlight × InFlight) :=
  beforeFirst (fun o => o.unit == u && !o.started) x.ops

theorem Core.nextToStart_eq_none {x : Core} {u : UnitId} (h : ∀ o ∈ x.ops, o.unit = u → o.started = true) : x.nextToStart u = none :=
  beforeFirst_eq_none fun o ho => by simpa using h o ho

theorem Core.nextToStart_eq_some {x : Core} {u : UnitId} {es rest : List InFlight} {o : InFlight} (hops : x.ops = es ++ o :: rest)
    (hunit : o.unit = u) (hwaits : o.started = false) (hes : ∀ e ∈ es, e.unit = u → e.started = true) : x.nextToStart u = some (es, o) := by
  rw [Core.nextToStart, hops]
  exact beforeFirst_append (fun e he => by simpa using hes e he) (by simp [hunit, hwaits])

theorem exec_unitStart (k : Nat) (u : UnitId) (s : State) : exec (.unitStart k u) s = execUnitStart k u s := rfl

theorem exec_unitStart_of_none {s : State} {k : Nat} {u : UnitId} (h : (s.core k).nextToStart u = none) :
    exec (.unitStart k u) s = .next s := by
  unfold Core.nextToStart at h
  rw [exec_unitStart, execUnitStart, h]

theorem exec_unitStart_blocked {s : State} {k : Nat} {u : UnitId} {es : List InFlight} {o : InFlight}
    (h : (s.core k).nextToStart u = some (es, o)) (hblocks : es.any (blocksStart o) = true) : exec (.unitStart k u) s = .next s := by
  unfold Core.nextToStart at h
  simp only [exec_unitStart, execUnitStart, h, hblocks, if_true]

/-! ### What the head's job brings at its start (R79, R249, R373) -/

/-- The idle and skipped counts of a stream after both begin anew. -/
theorem sget_sput_zero_zero (m : Sparse W32) (a b i : Nat) : sget 0 (sput 0 (sput 0 m a 0) b 0) i = if i = a ∨ i = b then 0 else sget 0 m i := by
  rw [sget_sput, sget_sput]
  by_cases hb : i = b <;> simp [hb]

section
variable {s : State} {k : Nat} {u : UnitId} {es : List InFlight} {o : InFlight} (h : (s.core k).nextToStart u = some (es, o))
  (hfree : es.any (blocksStart o) = false)
include h hfree

theorem exec_unitStart_plain (hjob : o.job = .plain ∨ (∃ i, o.job = .epiLoad i) ∨ ∃ l, o.job = .list l) :
    exec (.unitStart k u) s = .next (s.setCore k ((s.core k).modOp o.id fun o => { o with started := true })) := by
  unfold Core.nextToStart at h
  obtain hjob | ⟨i, hjob⟩ | ⟨l, hjob⟩ := hjob <;>
    simp only [exec_unitStart, execUnitStart, h, hfree, hjob, Bool.false_eq_true, if_false]

theorem exec_unitStart_kv {j : KvJob} (hjob : o.job = .kv j) :
    exec (.unitStart k u) s = .next ((s.setCore k ((s.core k).modOp o.id fun o => { o with started := true })).runKv k o j) := by
  unfold Core.nextToStart at h
  simp only [exec_unitStart, execUnitStart, h, hfree, hjob, Bool.false_eq_true, if_false]

theorem exec_unitStart_tile {j : TileJob} (hjob : o.job = .tile j) : exec (.unitStart k u) s = .next (s.startTile k o j) := by
  unfold Core.nextToStart at h
  simp only [exec_unitStart, execUnitStart, h, hfree, hjob, Bool.false_eq_true, if_false]

theorem exec_unitStart_fab {j : FabJob} (hjob : o.job = .fab j) : exec (.unitStart k u) s = .next ((s.startFab k o j).getD s) := by
  unfold Core.nextToStart at h
  simp only [exec_unitStart, execUnitStart, h, hfree, hjob, Bool.false_eq_true, if_false]

theorem exec_unitStart_scatter {st : Nat} (hjob : o.job = .scatter) (hunit : o.unit = .stream st) :
    let begun := (s.core k).modOp o.id fun o => { o with started := true }
    ∃ y, exec (.unitStart k u) s = .next (s.setCore k y) ∧ y = { begun with cnt := y.cnt } ∧
      ∀ i, sget 0 y.cnt i = if i = 0x220 + 0x10 * st ∨ i = 0x224 + 0x10 * st then 0 else sget 0 (s.core k).cnt i := by
  unfold Core.nextToStart at h
  exact ⟨_, by simp only [exec_unitStart, execUnitStart, h, hfree, hjob, hunit, Bool.false_eq_true, if_false]; rfl, rfl,
    sget_sput_zero_zero _ _ _⟩

end

/-- What a tile instruction's start leaves of its core, before its tiles are streamed (R93, R135, R287). -/
theorem State.startTile_spec (s : State) (k : Nat) (o : InFlight) (j : TileJob) :
    let x := s.core k
    let n := 0x220 + 0x10 * tStream j.word
    ∃ y, s.startTile k o j = ((s.setCore k y).loadAll k).advance (j.tiles + 1) k o.id ∧
      y = { x with ops := y.ops, cnt := y.cnt, sheaf := y.sheaf } ∧
      y.ops = x.ops.map (fun e => if e.id = o.id then { e with started := true, job := .tile (j.readOnce k x.scratch) } else e) ∧
      (∀ i, sget 0 y.cnt i = if i = n ∨ i = n + 4 then 0 else sget 0 x.cnt i) ∧
      y.sheaf = { x.sheaf with
        mode := sput 0 x.sheaf.mode (tStream j.word) (if j.kind = .stream then bits j.desc.toNat 0 2 else 0),
        nextSlot := sput 0 x.sheaf.nextSlot (tStream j.word) (tSlot j.word) } := by
  refine ⟨_, rfl, rfl, rfl, fun i => ?_, rfl⟩
  rw [show 0x220 + 0x10 * tStream j.word + 4 = 0x224 + 0x10 * tStream j.word by omega]
  exact sget_sput_zero_zero _ _ _ i

/-! ### The TAG of a FAB instruction (R447, R448; log 22) -/

/-- The first `n` TAGs of a parity are taken only while there are at least `n` transactions: each takes one away that no other has. -/
theorem le_length_of_tags_taken {trans : List (Nat × Trans)} {b : Nat} (n : Nat) (h : ∀ i, i < n → ∃ e ∈ trans, e.1 = 2 * i + b) :
    n ≤ trans.length := by
  induction n generalizing trans with
  | zero => exact Nat.zero_le _
  | succ n ih =>
    obtain ⟨e, he, htag⟩ := h n (Nat.lt_succ_self n)
    have hrest : n ≤ (trans.filter fun e => e.1 != 2 * n + b).length := ih fun i hi => by
      obtain ⟨e', he', htag'⟩ := h i (Nat.lt_succ_of_lt hi)
      have hne : e'.1 ≠ 2 * n + b := by omega
      exact ⟨e', List.mem_filter.mpr ⟨he', bne_iff_ne.mpr hne⟩, htag'⟩
    have hless : (trans.filter fun e => e.1 != 2 * n + b).length < trans.length :=
      List.length_filter_lt_length_iff_exists.mpr ⟨e, he, fun hne => bne_iff_ne.mp hne htag⟩
    omega

/-- A TAG below which every TAG of its parity is taken stands among the first of that parity. -/
theorem half_tag_le_length {trans : List (Nat × Trans)} {tag : Nat} (h : ∀ i, i < tag → i % 2 = tag % 2 → ∃ e ∈ trans, e.1 = i) :
    tag / 2 ≤ trans.length :=
  le_length_of_tags_taken (tag / 2) fun i hi => h (2 * i + tag % 2) (by omega) (by omega)

theorem State.freeTag_of_full {s : State} (h : 8192 ≤ s.fabric.trans.length) (parity : Option Nat) : s.freeTag parity = none := if_pos h

theorem State.freeTag_of_lowest {s : State} {tag : Nat} (hroom : s.fabric.trans.length < 8192) (hfree : ∀ e ∈ s.fabric.trans, e.1 ≠ tag)
    (hlow : ∀ i, i < tag → i % 2 = tag % 2 → ∃ e ∈ s.fabric.trans, e.1 = i) : s.freeTag (some (tag % 2)) = some tag := by
  have hhalf := half_tag_le_length hlow
  have hfind : (List.range 8193).find? ((fun t => !s.fabric.trans.any (·.1 == t)) ∘ fun i => 2 * i + tag % 2) = some (tag / 2) := by
    refine List.find?_range_eq_some.mpr ⟨?_, List.mem_range.mpr (by omega), fun i hi => ?_⟩
    · simpa [Nat.div_add_mod] using hfree
    · obtain ⟨e, he, heq⟩ := hlow (2 * i + tag % 2) (by omega) (by omega)
      simpa using ⟨e.2, heq ▸ he⟩
  rw [State.freeTag, if_neg (by omega), List.find?_map, hfind]
  exact congrArg some (Nat.div_add_mod tag 2)

theorem State.startFab_of_full {s : State} {j : FabJob} (hdone : j.done = false) (h : 8192 ≤ s.fabric.trans.length) (k : Nat) (o : InFlight) :
    s.startFab k o j = none := by
  simp only [State.startFab, hdone, State.freeTag_of_full h, Bool.false_eq_true, if_false]

theorem State.startFab_spec {s : State} {k tag : Nat} {o : InFlight} {j : FabJob} (hdone : j.done = false)
    (htag : s.freeTag (some (if (s.core k).tagBit then 1 else 0)) = some tag) :
    ∃ t, s.startFab k o j = some t ∧ t = { s with cores := t.cores, fabric := t.fabric } ∧ (t.core k).tagBit = !(s.core k).tagBit ∧
      t.fabric = { s.fabric with trans := s.fabric.trans ++ [(tag, { core := k, id := o.id, next := 0, live := [], failed := false })] } ∧
      SameOtherCores s t k := by
  refine ⟨_, by simp only [State.startFab, hdone, htag, Bool.false_eq_true, if_false]; rfl, rfl, ?_, rfl, fun i hi => ?_⟩
  · exact congrArg Core.tagBit (State.core_setCore_self ..)
  · exact (State.core_setCore ..).trans (if_neg hi)

/-! ### Steps of a tile instruction that has started (R97, R127, R140) -/

theorem exec_outputWordWrite (k id : Nat) (s : State) : exec (.outputWordWrite k id) s = execOutputWordWrite k id s := rfl

theorem exec_tileDone (k id : Nat) (s : State) : exec (.tileDone k id) s = execTileDone k id s := rfl

theorem exec_accRepeat (k : Nat) (r : RepeatOp) (s : State) : exec (.accRepeat k r) s = execAccRepeat k r s := rfl

theorem exec_guardedRingUnit (k id : Nat) (r : RingId) (s : State) : exec (.guardedRingUnit k id r) s = execGuardedRingUnit k id r s := rfl

/-- Instruction `id` of core `k` is `o`, a tile instruction that has started, with `j` as its job. -/
structure State.RunsTile (s : State) (k id : Nat) (o : InFlight) (j : TileJob) : Prop where
  found : s.opOf k id = some o
  job : o.job = .tile j
  started : o.started = true

section
variable {s : State} {k id : Nat} {o : InFlight} {j : TileJob} (h : s.RunsTile k id o j)
include h

theorem exec_outputWordWrite_nil (hwords : j.words = []) : exec (.outputWordWrite k id) s = .next s := by
  simp only [exec_outputWordWrite, execOutputWordWrite, h.found, h.job, h.started, hwords]

theorem exec_outputWordWrite_cons {w : OutWord} {ws : List OutWord} (hwords : j.words = w :: ws) :
    exec (.outputWordWrite k id) s =
      .next (if j.mayWrite w = true then ((s.writeWord k o j w).setTile k id { j with words := ws }).advanceAll k else s) := by
  simp only [exec_outputWordWrite, execOutputWordWrite, h.found, h.job, h.started, hwords]
  split <;> rfl

theorem exec_tileDone_nil (hends : j.ends = []) : exec (.tileDone k id) s = .next s := by
  simp only [exec_tileDone, execTileDone, h.found, h.job, h.started, hends]

theorem exec_tileDone_cons {n : Nat} {good : Bool} {rest : List (Nat × Bool)} (hends : j.ends = (n, good) :: rest) :
    exec (.tileDone k id) s = .next (if j.mayEnd n good = true then s.endTile k id j n good rest else s) := by
  simp only [exec_tileDone, execTileDone, h.found, h.job, h.started, hends]
  split <;> rfl

theorem exec_accRepeat_none (hover : j.overflow = none) (l : List (Nat × Nat)) : exec (.accRepeat k { op := id, parity := l }) s = .next s := by
  simp only [exec_accRepeat, execAccRepeat, h.found, h.job, h.started, hover]

theorem exec_accRepeat_some {v : Overflow} (hover : j.overflow = some v) (l : List (Nat × Nat)) :
    let T := j.ctx k v.tile
    let rows := l.filter fun p => T.d.arrays.contains p.1 && T.rows.contains p.2 && !(j.lost v.tile).contains p.1
    let i := { j with overflow := none, parity := j.parity ++ rows.map fun p => (p.1, p.2, v.tile) }
    let t := (s.coreCount k 0x2A0 1).charge o.bind fun y => { y with halvings := y.halvings + 1 }
    exec (.accRepeat k { op := id, parity := l }) s =
      .next ((((t.setTile k id i).parityFails k o rows).runTile k { o with job := .tile i } i v.tile (some v)).advanceAll k) := by
  simp only [exec_accRepeat, execAccRepeat, h.found, h.job, h.started, hover]

end

/-- The test of TILE_DONE: the tile's words are written, and the unit of a guarded output ring that it would fill has been tested (R373). -/
theorem TileJob.mayEnd_iff {j : TileJob} {n : Nat} {good : Bool} :
    j.mayEnd n good = true ↔ (∀ w ∈ j.words, n < w.tile) ∧
      ∀ g, j.oRing = some g → good = false ∨ j.endsUnit n = false ∨ j.wordUnit n < g.tested := by
  unfold TileJob.mayEnd
  cases j.oRing with
  | none => simp
  | some g => cases good <;> simp

theorem State.obj_setCore (s : State) (k : Nat) (x : Core) (a : Nat) : (s.setCore k x).obj a = s.obj a := rfl

theorem State.obj_setTile (s : State) (k id : Nat) (j : TileJob) (a : Nat) : (s.setTile k id j).obj a = s.obj a := rfl

/-- With no guarded ring, a tile's end gives 1 to its tile object, if it ends well, and to no other. -/
theorem State.obj_endTile {j : TileJob} (hy : j.yRing = none) (hc : j.cRing = none) (hs : j.sRing = none) (ho : j.oRing = none)
    (s : State) (k id n : Nat) (good : Bool) (rest : List (Nat × Bool)) (a : Nat) :
    (s.endTile k id j n good rest).obj a = if j.objTile = some a ∧ good = true then s.obj a + 1 else s.obj a := by
  simp only [State.endTile, hy, hc, hs, ho, State.releaseUnit, ite_self, State.obj_setTile, State.obj_setCore]
  cases j.objTile with
  | none => simp
  | some m =>
    cases good with
    | false => simp
    | true => by_cases ha : a = m <;> simp [State.obj_signal, ha, Ne.symm]

/-! ### Guarded rings (R373) -/

theorem TileJob.aim_of_ne {r : RingId} (h : r ≠ .output) (j : TileJob) (g : GRing) : j.aim r g = g := if_neg h

section
variable {s : State} {k id : Nat} {o : InFlight} {j : TileJob} {r : RingId} {g : GRing} (h : s.RunsTile k id o j) (hring : j.ring r = some g)
include h hring

theorem exec_guardedRingUnit_early (htest : j.mayTest r (j.aim r g) = false) : exec (.guardedRingUnit k id r) s = .next s := by
  simp only [exec_guardedRingUnit, execGuardedRingUnit, h.found, h.job, h.started, hring, htest, Bool.false_eq_true, if_false]

theorem exec_guardedRingUnit_tests (htest : j.mayTest r (j.aim r g) = true) :
    let g := j.aim r g
    let w := g.test (r == .output)
    exec (.guardedRingUnit k id r) s = .next (if w.2.holds (s.obj w.1) = true
      then (s.setTile k id (j.setRing r (some { g with tested := g.tested + 1 }))).advanceAll k
      else (s.setTile k id (j.setRing r (some { g with waiting := some { kind := w.2, wdExp := (s.core k).wdExp } }))).addWaiter w.1
        { core := k, who := .ring id r }) := by
  simp only [exec_guardedRingUnit, execGuardedRingUnit, h.found, h.job, h.started, hring, htest, if_true]
  split <;> rfl

end

/-! ### What is no started tile instruction takes none of these steps -/

theorem exec_tileSteps_of_no_tile {s : State} {k id : Nat} (r : RingId)
    (h : ∀ o, s.opOf k id = some o → o.started = false ∨ ∀ j, o.job ≠ .tile j) :
    ∀ c ∈ [Instr.outputWordWrite k id, .tileDone k id, .accRepeat k { op := id, parity := [] }, .guardedRingUnit k id r], exec c s = .next s := by
  simp only [List.forall_mem_cons, exec_outputWordWrite, exec_tileDone, exec_accRepeat, exec_guardedRingUnit, execOutputWordWrite, execTileDone,
    execAccRepeat, execGuardedRingUnit]
  cases hop : s.opOf k id with
  | none => simp
  | some o =>
    obtain ⟨i, ctx, unit, cls, b, started, faulted, objs, results, job⟩ := o
    cases job with
    | tile j =>
      obtain rfl : started = false := (h _ hop).resolve_right fun hjob => hjob j rfl
      exact ⟨rfl, rfl, rfl, rfl, List.forall_mem_nil _⟩
    | _ => exact ⟨rfl, rfl, rfl, rfl, List.forall_mem_nil _⟩

/-- Settles O48: UNIT_START by the head of the unit's queue and its job; the steps of a started tile instruction one by one; and what is no such
instruction, which every one of them leaves alone. -/
theorem tilesRunInOrder : Obligations.TilesRunInOrder := by
  intro k id u r s
  refine ⟨fun hall => exec_unitStart_of_none (Core.nextToStart_eq_none hall), fun es o rest hops hunit hwaits hes => ?_,
    fun o j hfound hjob hstarted => ?_, exec_tileSteps_of_no_tile r⟩
  · have hhead := Core.nextToStart_eq_some hops hunit hwaits hes
    refine ⟨exec_unitStart_blocked hhead, fun hfree => ?_⟩
    refine ⟨exec_unitStart_plain hhead hfree, fun j hkv => exec_unitStart_kv hhead hfree hkv,
      fun st hscatter hstream => exec_unitStart_scatter hhead hfree hscatter (hunit.trans hstream), fun j htile => ?_,
      fun j tag hfab hdone hroom hparity hunused hlow => ?_, fun j hfab hdone hfull => ?_⟩
    · obtain ⟨y, heq, hspec⟩ := s.startTile_spec k o j
      exact ⟨y, by rw [exec_unitStart_tile hhead hfree htile, heq], hspec⟩
    · have htag := State.freeTag_of_lowest hroom hunused hlow
      rw [hparity] at htag
      obtain ⟨t, heq, hspec⟩ := State.startFab_spec (o := o) hdone htag
      exact ⟨t, by rw [exec_unitStart_fab hhead hfree hfab, heq, Option.getD_some], hspec⟩
    · rw [exec_unitStart_fab hhead hfree hfab, State.startFab_of_full hdone hfull, Option.getD_none]
  · have h : s.RunsTile k id o j := ⟨hfound, hjob, hstarted⟩
    refine ⟨exec_outputWordWrite_nil h, fun w ws => exec_outputWordWrite_cons h, exec_tileDone_nil h, fun n good rest hends => ?_,
      fun l hover => exec_accRepeat_none h hover l, fun v l hover => exec_accRepeat_some h hover l, fun g hring => ?_⟩
    · rw [exec_tileDone_cons h hends]
      refine ⟨fun ⟨w, hw, hle⟩ => ?_, fun g hring hgood hends htested => ?_, fun hwords hunits => ⟨?_, ?_⟩⟩
      · rw [if_neg fun hmay => absurd ((TileJob.mayEnd_iff.mp hmay).1 w hw) (by omega)]
      · rw [if_neg fun hmay => ?_]
        have hor := (TileJob.mayEnd_iff.mp hmay).2 g hring
        simp only [hgood, hends, Bool.true_eq_false, false_or] at hor
        omega
      · rw [if_pos (TileJob.mayEnd_iff.mpr ⟨hwords, hunits⟩)]
      · exact fun hy hc hs ho => State.obj_endTile hy hc hs ho s k id n good rest
    · refine ⟨fun hr => TileJob.aim_of_ne hr j g, exec_guardedRingUnit_early h hring, fun htest => ?_⟩
      have heq := exec_guardedRingUnit_tests h hring htest
      exact ⟨fun hholds => by rw [heq, if_pos hholds], fun hholds => by rw [heq, if_neg (by simp [hholds])]⟩

end Sys2Proof.Machine
end

section
/-! PROOFS. The epilogue descriptors and the scatter accumulator, as the EPI instructions and the banks' adds change them. -/

namespace Sys2Proof.Machine

/-- An instruction that its unit accepts and whose meaning goes on has its own effect, as issue completes it. -/
theorem issue_of_accepts {s X : State} {k c opc sel : Nat} {w : W64} {u : UnitId} {r : Issued} (h : s.Accepts k c w opc sel u) (hgo : r = .go X) :
    issue k c w (spells w opc sel) (unitIssue s k u r) s = s.afterIssue k c w X := by
  obtain ⟨hissues, hroom⟩ := h
  rw [unitIssue_of_room hroom, hgo, issue_of_issues hissues]

/-! ### A window of the accumulator (R212) -/

/-- A table without the entries of some keys reads as the default at those keys, and every other key as before. -/
theorem sget_filter_key {α : Type} (d : α) (m : Sparse α) (drop : Nat → Bool) (i : Nat) :
    sget d (m.filter fun e => !drop e.1) i = if drop i = true then d else sget d m i := by
  induction m with
  | nil => simp [sget]
  | cons e m ih =>
    obtain ⟨j, x⟩ := e
    rw [List.filter_cons]
    by_cases hji : j = i
    · subst hji
      cases hdrop : drop j <;> simp [hdrop, ih, sget]
    · cases drop j <;> simp [ih, sget, hji]

/-- The accumulator with the `ne` entries from `e0` on, modulo 65,536, at +0.0. -/
def clearWindow (acc : Sparse W32) (e0 ne : Nat) : Sparse W32 := acc.filter fun e => !decide ((e.1 + 65536 - e0) % 65536 < ne)

theorem sget_clearWindow (acc : Sparse W32) (e0 ne i : Nat) :
    sget 0 (clearWindow acc e0 ne) i = if (i + 65536 - e0) % 65536 < ne then 0 else sget 0 acc i := by
  simpa only [clearWindow, decide_eq_true_eq] using sget_filter_key 0 acc (fun j => decide ((j + 65536 - e0) % 65536 < ne)) i

/-- A count of whole words that fit the accumulator is not refused. -/
theorem windowCount_ok {ne : Nat} (hwords : ne % 32 = 0) (hmax : ne ≤ 65536) : (ne % 32 != 0 || decide (65536 < ne)) = false := by
  simp [hwords, hmax]

theorem bits_readS_fA (s : State) (k c : Nat) (w : W64) : bits ((s.ctx k c).readS (fA w)).toNat 0 16 = (s.sA k c w).toNat % 65536 := bits_low ..

/-! ### EPI.LOAD (R330) -/

theorem State.readNatAt_of_readAt {s : State} {k va n : Nat} {bs : List Byte} (h : s.readAt k va n = .ok bs) : s.readNatAt k va n = .ok (leNat bs) := by
  rw [State.readNatAt, h]

theorem exec_epiLoad {s : State} {k c : Nat} {w : W64} {bs : List Byte} (h : s.Accepts k c w 0x30 0 .epi) (halign : (s.sA k c w).toNat % 64 = 0)
    (hhole : reachesHole (s.sA k c w).toNat 64 = false) (hread : s.readAt k (s.sA k c w).toNat 64 = .ok bs) :
    exec (.epiLoad k c w) s = s.afterIssue k c w
      (((s.touchAt k (s.sA k c w).toNat 64).setCore k
        { s.core k with sheaf := { (s.core k).sheaf with epi := sput 0 (s.core k).sheaf.epi (fImm w % 4) (BitVec.ofNat 512 (leNat bs)) } }).launch k c
          .epi 2 [] [] (.epiLoad (fImm w % 4))) := by
  have hva : (s.ctx k c).readS (fA w) = s.sA k c w := rfl
  have hstream : bits (fImm w) 0 2 = fImm w % 4 := bits_low ..
  refine issue_of_accepts h ?_
  simp only [hva, badAddr_eq_false halign hhole, State.readNatAt_of_readAt hread, hstream, core_touchAt, Bool.false_eq_true, if_false]

/-! ### EPI.SZERO (R212, R213, R319) -/

section
variable {s : State} {k c : Nat} {w : W64} (h : s.Accepts k c w 0x31 0 .epi)
include h

theorem exec_epiSzero_empty (hne : fImm w % 2 ^ 17 = 0) :
    exec (.epiSzero k c w) s = s.afterIssue k c w (s.launch k c .epi 2 (complObj (s.sB k c w)) [] .empty) := by
  refine issue_of_accepts h ?_
  simp only [bits_low, hne]
  rfl

theorem exec_epiSzero_clears (hne : fImm w % 2 ^ 17 ≠ 0) (hwords : fImm w % 2 ^ 17 % 32 = 0) (hmax : fImm w % 2 ^ 17 ≤ 65536)
    (hidle : (s.core k).scat.idle = true) :
    exec (.epiSzero k c w) s = s.afterIssue k c w
      ((s.setCore k { s.core k with scat := { (s.core k).scat with
        acc := clearWindow (s.core k).scat.acc ((s.sA k c w).toNat % 65536) (fImm w % 2 ^ 17) } }).launch k c
          .epi 2 (complObj (s.sB k c w)) [] .plain) := by
  refine issue_of_accepts h ?_
  simp only [bits_low _ 17, bits_readS_fA, windowCount_ok hwords hmax, hne, hidle, Bool.not_true, Bool.false_eq_true, if_false]
  rfl

end

/-! ### SCATTER_ADD_ISSUE (R209, R211) -/

theorem Core.count_scat (x : Core) (off n : Nat) : (x.count off n).scat = x.scat := by
  unfold Core.count
  split <;> rfl

/-- The core after the head `a` of a bank's queue has issued and left `rest`. -/
def Core.issueAdd (x : Core) (bank : Nat) (waited : Bool) (a : ScatAdd) (rest : List ScatAdd) : Core :=
  let r := addFlag { v := sget 0 x.scat.acc a.entry } a.value
  let y : Scatter := { x.scat with acc := sput 0 x.scat.acc a.entry r.v, queues := sput [] x.scat.queues bank rest }
  ({ x with scat := y.present [] }.setFlags r.inf r.nan).count 0x2CC (if waited then 1 else 0)

theorem Core.sget_acc_issueAdd (x : Core) (bank : Nat) (waited : Bool) (a : ScatAdd) (rest : List ScatAdd) (e : Nat) :
    sget 0 (x.issueAdd bank waited a rest).scat.acc e =
      if e = a.entry then toF32 ((f32 (sget 0 x.scat.acc e)).add (f32 a.value)) else sget 0 x.scat.acc e := by
  rw [Core.issueAdd, Core.count_scat]
  refine (sget_sput ..).trans ?_
  split
  · subst e
    rfl
  · rfl

theorem Core.cnt_issueAdd (x : Core) (bank : Nat) (waited : Bool) (a : ScatAdd) (rest : List ScatAdd) :
    (x.issueAdd bank waited a rest).cnt = if waited = true then (x.count 0x2CC 1).cnt else x.cnt := by
  cases waited <;> rfl

section
variable {s : State} {k bank : Nat} (waited : Bool)

theorem exec_scatterAddIssue_nil (h : sget [] (s.core k).scat.queues bank = []) : exec (.scatterAddIssue k bank waited) s = .next s := by
  change execScatterAddIssue k bank waited s = _
  simp only [execScatterAddIssue, h]

theorem exec_scatterAddIssue_cons {a : ScatAdd} {rest : List ScatAdd} (h : sget [] (s.core k).scat.queues bank = a :: rest) :
    exec (.scatterAddIssue k bank waited) s = .next (s.setCore k ((s.core k).issueAdd bank waited a rest)) := by
  change execScatterAddIssue k bank waited s = _
  simp only [execScatterAddIssue, h, Core.issueAdd]

end

/-! ### EPI.SDRAIN (R212, R213, R319, R331) -/

theorem Core.observe_ctxs (x : Core) (n : Nat) (o : Obs) : (x.observe n o).ctxs = x.ctxs :=
  ite_keeps (π := Core.ctxs) rfl rfl

theorem Core.count_ctxs (x : Core) (off n : Nat) : (x.count off n).ctxs = x.ctxs := by
  unfold Core.count
  split <;> rfl

theorem State.ctx_charge (s : State) (b : Option (Nat × Nat)) (f : ItemInfo → ItemInfo) (k i : Nat) : (s.charge b f).ctx k i = s.ctx k i :=
  (congrArg (State.ctx · k i) (State.charge_frame s b f) :)

theorem State.ctx_convEffects (s : State) (k : Nat) (b : Option (Nat × Nat)) (cs : List Conv) (j i : Nat) :
    (s.convEffects k b cs).ctx j i = s.ctx j i := by
  have hcounts (inf nan : Bool) :
      (s.setCore k ((((s.core k).count 0x180 (convClips cs)).count 0x184 (convNans cs)).setFlags inf nan)).ctx j i = s.ctx j i := by
    refine State.ctx_setCore_of_ctxs ?_ j i
    change (((s.core k).count 0x180 (convClips cs)).count 0x184 (convNans cs)).ctxs = _
    rw [Core.count_ctxs, Core.count_ctxs]
  unfold State.convEffects
  split
  · exact hcounts ..
  · exact (State.ctx_charge ..).trans (hcounts ..)

theorem State.ctx_observe (s : State) (k : Nat) (trk : Option Nat) (os : List Obs) (j i : Nat) : (s.observe k trk os).ctx j i = s.ctx j i := by
  cases trk with
  | none => rfl
  | some n => exact State.ctx_setCore_of_ctxs (foldl_keeps _ Core.ctxs (fun x o => Core.observe_ctxs x n o) os _) j i

/-- A word through the epilogue changes no context. -/
theorem State.ctx_writeWord (s : State) (k : Nat) (o : InFlight) (t : TileJob) (v : OutWord) (j i : Nat) : (s.writeWord k o t v).ctx j i = s.ctx j i :=
  (State.ctx_observe ..).trans ((State.ctx_convEffects ..).trans (State.ctx_setCore_of_ctxs (by rfl) j i))

/-- A drained word passes the epilogue for item `b`. -/
def State.drainWord (s : State) (k c : Nat) (b : Option (Nat × Nat)) (t : TileJob) (v : OutWord) : State :=
  s.writeWord k { id := 0, ctx := c, unit := .epi, cls := 2, bind := b } t v

/-- The item is the same before every word: no word changes what the context binds. -/
theorem State.foldl_drainWord_bind (k c : Nat) (t : TileJob) (words : List OutWord) (s : State) :
    words.foldl (fun u v => u.drainWord k c (u.ctx k c).bind t v) s = words.foldl (fun u v => u.drainWord k c (s.ctx k c).bind t v) s := by
  induction words generalizing s with
  | nil => rfl
  | cons v words ih =>
    have hctx : (s.drainWord k c (s.ctx k c).bind t v).ctx k c = s.ctx k c := State.ctx_writeWord ..
    simp only [List.foldl_cons, ih, hctx]

/-- The epilogue descriptor of the stream that an EPI.SDRAIN names. -/
def State.drainEpi (s : State) (k : Nat) (w : W64) : BitVec 512 := sget 0 (s.core k).sheaf.epi (fImm w / 2 ^ 18 % 4)

/-- The state once the drained words have passed the epilogue. -/
def State.afterDrain (s : State) (k c : Nat) (w : W64) : State :=
  let job : TileJob := { kind := .stream, word := 0, desc := 0, y0 := 0, xt := 0, yt := 0, aux := 0, epi := s.drainEpi k w }
  (drainWords (s.core k) (readEpi (s.drainEpi k w).toNat) ((s.sA k c w).toNat % 65536) (fImm w % 2 ^ 17)).foldl
    (fun u v => u.drainWord k c (s.ctx k c).bind job v) s

/-- An accumulator whose window has been drained: cleared where the clear bit is set. -/
def drainAcc (acc : Sparse W32) (w : W64) (e0 : Nat) : Sparse W32 := if bit (fImm w) 17 then clearWindow acc e0 (fImm w % 2 ^ 17) else acc

theorem sget_drainAcc (acc : Sparse W32) (w : W64) (e0 i : Nat) :
    sget 0 (drainAcc acc w e0) i = if bit (fImm w) 17 = true ∧ (i + 65536 - e0) % 65536 < fImm w % 2 ^ 17 then 0 else sget 0 acc i := by
  unfold drainAcc
  cases hclear : bit (fImm w) 17 with
  | true => simp only [if_true, true_and, sget_clearWindow]
  | false => simp only [Bool.false_eq_true, false_and, if_false]

section
variable {s : State} {k c : Nat} {w : W64} (h : s.Accepts k c w 0x32 0 .epi)
  (hrefusal : (readEpi (s.drainEpi k w).toNat).refusal 1 true 128 = none) (hcorr : (readEpi (s.drainEpi k w).toNat).corr = false)
include h hrefusal hcorr

theorem exec_epiSdrain_empty (hne : fImm w % 2 ^ 17 = 0) :
    exec (.epiSdrain k c w) s = s.afterIssue k c w (s.launch k c .epi 2 (complObj (s.sB k c w)) [] .empty) := by
  have hepi : sget 0 (s.core k).sheaf.epi (bits (fImm w) 18 2) = s.drainEpi k w := rfl
  refine issue_of_accepts h ?_
  simp only [hepi, hrefusal, hcorr, bits_low _ 17, hne]
  rfl

theorem exec_epiSdrain_drains (hne : fImm w % 2 ^ 17 ≠ 0) (hwords : fImm w % 2 ^ 17 % 32 = 0) (hmax : fImm w % 2 ^ 17 ≤ 65536)
    (hidle : (s.core k).scat.idle = true) :
    let s1 := s.afterDrain k c w
    exec (.epiSdrain k c w) s = s.afterIssue k c w
      ((s1.setCore k { s1.core k with scat := { (s1.core k).scat with acc := drainAcc (s1.core k).scat.acc w ((s.sA k c w).toNat % 65536) } }).launch k c
        .epi 2 (complObj (s.sB k c w)) [] .plain) := by
  have hepi : sget 0 (s.core k).sheaf.epi (bits (fImm w) 18 2) = s.drainEpi k w := rfl
  refine issue_of_accepts h ?_
  simp only [hepi, hrefusal, hcorr, bits_low _ 17, bits_readS_fA, Bool.false_or, windowCount_ok hwords hmax, hne, hidle, Bool.not_true,
    Bool.false_eq_true, if_false]
  rfl

end

/-- Settles O21: each instruction by the rule of its case, with the accumulator that the rule names. The statement reads the item of a drained word
from the state before that word, the model from the state at issue: no word changes it. -/
theorem epilogueLoadAndScatterAccumulator : Obligations.EpilogueLoadAndScatterAccumulator := by
  refine ⟨fun k c w s => ⟨fun bs h halign hhole hread => exec_epiLoad h halign hhole hread,
    ⟨fun h hne => exec_epiSzero_empty h hne, fun h hne hwords hmax hidle => ?_⟩, fun bank waited a rest hhead => ?_,
    fun bank waited hnil => exec_scatterAddIssue_nil waited hnil⟩, fun k c w s => ?_⟩
  · exact ⟨_, exec_epiSzero_clears h hne hwords hmax hidle, fun e _ => sget_clearWindow ..⟩
  · refine ⟨_, exec_scatterAddIssue_cons waited hhead, ?_, fun j hj => ?_, rfl, ?_⟩
    · rw [State.core_setCore_self]
      exact Core.sget_acc_issueAdd _ bank waited a rest
    · rw [State.core_setCore, if_neg hj]
    · rw [State.core_setCore_self]
      exact Core.cnt_issueAdd ..
  · intro x e0 ne epi e job s1 h hrefusal hcorr hwords hmax
    have hs1 : s1 = s.afterDrain k c w := State.foldl_drainWord_bind k c job (drainWords x e e0 ne) s
    clear_value s1
    subst hs1
    exact ⟨fun hne => exec_epiSdrain_empty h hrefusal hcorr hne,
      fun hne hidle => ⟨_, exec_epiSdrain_drains h hrefusal hcorr hne hwords hmax hidle, fun i _ => sget_drainAcc ..⟩⟩

end Sys2Proof.Machine
end

section
/-! PROOFS. The QUANT instructions: first how they issue, then what a history reads after slots are emptied and the trackers after an update of each
of a mask, then the effect of each instruction. -/

namespace Sys2Proof.Machine

/-! ### Issue into the quantisation queue (R157, R287) -/

/-- With no observer of its trackers in flight and room in its queue, a QUANT instruction does not wait. -/
theorem quantIssue_of_free {s : State} {k : Nat} {names : Nat → Bool} (h : s.QuantFree k names) (r : Issued) : quantIssue s k names r = r := by
  obtain ⟨hobs, hroom⟩ := h
  have hany : ((s.core k).ops.any fun o => (List.range 64).any fun n => names n && o.observes n) = false := by
    simp only [List.any_eq_false, List.any_eq_true, List.mem_range, Bool.and_eq_true, not_exists, not_and, Bool.not_eq_true]
    exact fun o ho n hn => hobs o ho n hn
  rw [quantIssue, hany, unitIssue_of_room hroom]
  rfl

/-- A QUANT instruction that does not wait and whose meaning goes on has its own effect, as issue completes it. -/
theorem quantIssue_go {s X : State} {k c opc : Nat} {w : W64} {names : Nat → Bool} {r : Issued} (h : s.Issues k c w opc 0)
    (hfree : s.QuantFree k names) (hgo : r = .go X) : issue k c w (spells w opc 0) (quantIssue s k names r) s = s.afterIssue k c w X := by
  rw [quantIssue_of_free hfree, hgo, issue_of_issues h]

/-- One that does not wait and whose meaning refuses is refused. -/
theorem quantIssue_refuse {s : State} {k c opc : Nat} {w : W64} {names : Nat → Bool} {r : Issued} {f : FaultCode} (h : s.Issues k c w opc 0)
    (hfree : s.QuantFree k names) (hrefuse : r = .refuse f) :
    issue k c w (spells w opc 0) (quantIssue s k names r) s = s.afterRefusal k c f := by
  rw [quantIssue_of_free hfree, hrefuse, issue_refuse_of_issues h]

/-- The tracker that an instruction of one tracker names. -/
theorem trackerField_eq (w : W64) : bits (fImm w) 0 6 = fImm w % 64 := bits_low ..

/-! ### Trackers and their history slots (R152) -/

/-- A write leaves every other key as it was, whatever value an unlisted key reads as. -/
theorem sget_sput_other {α : Type} [DecidableEq α] {k i : Nat} (h : i ≠ k) (d d' v : α) (m : Sparse α) : sget d (sput d' m k v) i = sget d m i := by
  unfold sput
  split
  · rw [sget_filter_ne, if_neg h]
  · rw [sget_sinsert, if_neg h]

theorem Core.tracker_setTracker (x : Core) (n m : Nat) (t : Tracker) : (x.setTracker n t).tracker m = if m = n then t else x.tracker m := by
  by_cases h : m = n
  · subst h; rw [if_pos rfl]; exact sget_sput_self ..
  · rw [if_neg h]; exact sget_sput_other h ..

/-- The history entry `i` is that of one of the slots `slots` of a channel of tracker `t`. -/
def Tracker.HasEntry (t : Tracker) (slots : List Nat) (i : Nat) : Prop := ∃ ch, ch ≤ t.cm1 ∧ ∃ j ∈ slots, t.tbase + ch * (t.nm1 + 2) + j = i

/-- The history entries of the slots `slots` in every channel of tracker `t`. -/
def Tracker.entries (t : Tracker) (slots : List Nat) : List Nat :=
  (List.range (t.cm1 + 1)).flatMap fun ch => slots.map fun j => t.tbase + ch * (t.nm1 + 2) + j

theorem Tracker.exists_mem_entries_eq (t : Tracker) (slots : List Nat) (i : Nat) : (∃ a ∈ t.entries slots, a = i) ↔ t.HasEntry slots i := by
  constructor
  · rintro ⟨_, hentry, rfl⟩
    obtain ⟨ch, hch, hslot⟩ := List.mem_flatMap.mp hentry
    exact ⟨ch, Nat.le_of_lt_succ (List.mem_range.mp hch), List.mem_map.mp hslot⟩
  · rintro ⟨ch, hch, hslot⟩
    exact ⟨i, List.mem_flatMap.mpr ⟨ch, List.mem_range.mpr (Nat.lt_succ_of_le hch), List.mem_map.mpr hslot⟩, rfl⟩

theorem Core.history_emptySlots (x : Core) (t : Tracker) (slots : List Nat) :
    (x.emptySlots t slots).history = (t.entries slots).foldl (fun m a => sput emptySlot m a emptySlot) x.history := by
  simp only [Core.emptySlots, Tracker.entries, List.foldl_flatMap, List.foldl_map]

open Classical in
theorem Core.sget_emptySlots (x : Core) (t : Tracker) (slots : List Nat) (i : Nat) :
    sget emptySlot (x.emptySlots t slots).history i = if t.HasEntry slots i then emptySlot else sget emptySlot x.history i := by
  rw [Core.history_emptySlots, sget_foldl_sput]
  exact ite_congr (propext (t.exists_mem_entries_eq slots i)) (fun _ => rfl) (fun _ => rfl)

/-- All the slots of all the channels are the range of entries of R155. -/
theorem Tracker.hasEntry_all (t : Tracker) (i : Nat) :
    t.HasEntry (List.range (t.nm1 + 2)) i ↔ t.tbase ≤ i ∧ i < t.tbase + (t.cm1 + 1) * (t.nm1 + 2) := by
  constructor
  · rintro ⟨ch, hch, j, hj, rfl⟩
    have hblock : (ch + 1) * (t.nm1 + 2) ≤ (t.cm1 + 1) * (t.nm1 + 2) := Nat.mul_le_mul_right _ (by omega)
    rw [List.mem_range] at hj
    rw [Nat.add_one_mul] at hblock
    omega
  · rintro ⟨hlo, hhi⟩
    have hpos : 0 < t.nm1 + 2 := Nat.succ_pos _
    have hch : (i - t.tbase) / (t.nm1 + 2) < t.cm1 + 1 := (Nat.div_lt_iff_lt_mul hpos).mpr (by omega)
    have hdiv := Nat.div_add_mod' (i - t.tbase) (t.nm1 + 2)
    exact ⟨_, Nat.lt_succ_iff.mp hch, _, List.mem_range.mpr (Nat.mod_lt (i - t.tbase) hpos), by omega⟩

theorem Core.sget_emptySlots_all (x : Core) (t : Tracker) (i : Nat) :
    sget emptySlot (x.emptySlots t (List.range (t.nm1 + 2))).history i =
      if t.tbase ≤ i ∧ i < t.tbase + (t.cm1 + 1) * (t.nm1 + 2) then emptySlot else sget emptySlot x.history i := by
  classical exact (Core.sget_emptySlots ..).trans (ite_congr (propext (t.hasEntry_all i)) (fun _ => rfl) (fun _ => rfl))

/-! ### An update of each tracker of a mask (R158, R169) -/

/-- The trackers after a fold of updates, each of its own tracker: those of the list updated, the others as they were. -/
theorem Core.tracker_foldl {f : Core → Nat → Core} {g : Tracker → Tracker}
    (hf : ∀ x n m, (f x n).tracker m = if m = n then g (x.tracker n) else x.tracker m)
    {l : List Nat} (hl : l.Nodup) (x : Core) (m : Nat) : (l.foldl f x).tracker m = if m ∈ l then g (x.tracker m) else x.tracker m := by
  induction l generalizing x with
  | nil => simp
  | cons n l ih =>
    obtain ⟨hn, hl⟩ := List.nodup_cons.mp hl
    rw [List.foldl_cons, ih hl, hf]
    by_cases hm : m = n
    · subst hm; simp [hn]
    · simp [hm]

/-- The trackers that a mask names. -/
def maskTrackers (mask : Nat) : List Nat := (List.range 64).filter (bit mask)

theorem maskTrackers_nodup (mask : Nat) : (maskTrackers mask).Nodup := List.nodup_range.filter _

theorem mem_maskTrackers {mask n : Nat} : n ∈ maskTrackers mask ↔ n < 64 ∧ bit mask n = true := by simp [maskTrackers]

/-- The core without its trackers and history, which are what QUANT.STEP and QUANT.CLR change. -/
def Core.offQuant (x : Core) : Core := { x with trackers := [], history := [] }

theorem Core.of_offQuant {x y : Core} (h : y.offQuant = x.offQuant) : y = { x with trackers := y.trackers, history := y.history } := by
  cases x; cases y
  simp only [Core.offQuant, Core.mk.injEq] at h ⊢
  simp [h]

/-! ### QUANT.CFG (R154) -/

/-- A descriptor gives the fields of its tracker; the position and the statistics are those of a tracker with nothing observed. -/
theorem readTracker_unobserved {v : Nat} {d : Tracker} (h : readTracker v = some d) :
    d.filled = 0 ∧ d.ptr = 0 ∧ d.curMax = 0xFF800000#32 ∧ d.curMin = 0x7F800000#32 ∧ d.sse = 0 ∧ d.count = 0 ∧ d.clip = 0 ∧ d.nonfin = 0 := by
  unfold readTracker at h
  dsimp only at h
  split at h
  · cases h
  · cases h
    exact ⟨rfl, rfl, rfl, rfl, rfl, rfl, rfl, rfl⟩

theorem inScratch_of_le {a n : Nat} (h : a + n ≤ 0x300000) : inScratch a n = true := decide_eq_true h

theorem exec_quantCfg {s : State} {k c : Nat} {w : W64} {d : Tracker} (h : s.Issues k c w 0x60 0) (hfree : s.QuantFree k (· == fImm w % 64))
    (halign : (s.sA k c w).toNat % 16 = 0) (hend : (s.sA k c w).toNat + 16 ≤ 0x300000)
    (hread : readTracker (readNat (s.core k).scratch (s.sA k c w).toNat 16) = some d) :
    exec (.quantCfg k c w) s =
      s.quantDone k c w (((s.core k).emptySlots d (List.range (d.nm1 + 2))).setTracker (fImm w % 64) d) [] [] := by
  have ha : (s.ctx k c).readS (fA w) = s.sA k c w := rfl
  rw [← trackerField_eq] at hfree ⊢
  refine quantIssue_go h hfree ?_
  simp only [ha, halign, inScratch_of_le hend, hread, bne_self_eq_false, Bool.not_true, Bool.or_self, Bool.false_eq_true, if_false]

/-! ### QUANT.STEP (R158) -/

/-- The tracker with its step closed. -/
def Tracker.closed (t : Tracker) : Tracker :=
  { t with ptr := (t.ptr + 1) % (t.nm1 + 2), filled := min (t.filled + 1) (t.nm1 + 1), curMax := 0xFF800000#32, curMin := 0x7F800000#32
           sse := 0, count := 0, clip := 0, nonfin := 0 }

theorem Core.tracker_closeStep (x : Core) (n m : Nat) : (x.closeStep n).tracker m = if m = n then (x.tracker n).closed else x.tracker m :=
  Core.tracker_setTracker ..

/-- The entry of tracker `t` that a step opens: the present slot of a channel once PTR has moved on. -/
def Tracker.Opens (t : Tracker) (i : Nat) : Prop := t.HasEntry [(t.ptr + 1) % (t.nm1 + 2)] i

open Classical in
theorem Core.sget_closeStep (x : Core) (n i : Nat) :
    sget emptySlot (x.closeStep n).history i = if (x.tracker n).Opens i then emptySlot else sget emptySlot x.history i :=
  Core.sget_emptySlots ..

open Classical in
/-- The history after the steps of several trackers: what they open is empty, the rest as it was. -/
theorem Core.sget_foldl_closeStep {l : List Nat} (hl : l.Nodup) (x : Core) (i : Nat) :
    sget emptySlot (l.foldl Core.closeStep x).history i =
      if ∃ n ∈ l, (x.tracker n).Opens i then emptySlot else sget emptySlot x.history i := by
  induction l generalizing x with
  | nil => simp
  | cons n l ih =>
    obtain ⟨hn, hl⟩ := List.nodup_cons.mp hl
    have hlater : (∃ m ∈ l, ((x.closeStep n).tracker m).Opens i) ↔ ∃ m ∈ l, (x.tracker m).Opens i :=
      exists_congr fun m => and_congr_right fun hm => by rw [Core.tracker_closeStep, if_neg (ne_of_mem_of_not_mem hm hn)]
    rw [List.foldl_cons, ih hl, Core.sget_closeStep]
    simp only [hlater, List.mem_cons, exists_eq_or_imp]
    by_cases hopen : (x.tracker n).Opens i <;> simp [hopen]

theorem exec_quantStep {s : State} {k c : Nat} {w : W64} (h : s.Issues k c w 0x61 0) (hfree : s.QuantFree k (bit (s.sA k c w).toNat)) :
    exec (.quantStep k c w) s = s.quantDone k c w ((maskTrackers (s.sA k c w).toNat).foldl Core.closeStep (s.core k)) [] []
      (if (s.sA k c w).toNat = 0 then .empty else .plain) := quantIssue_go h hfree rfl

/-! ### QUANT.CLR (R169) -/

/-- The tracker with its four counts at 0. -/
def Tracker.cleared (t : Tracker) : Tracker := { t with sse := 0, count := 0, clip := 0, nonfin := 0 }

/-- QUANT.CLR's effect on one tracker. -/
def Core.clearCounts (x : Core) (n : Nat) : Core := x.setTracker n (x.tracker n).cleared

theorem Core.tracker_clearCounts (x : Core) (n m : Nat) : (x.clearCounts n).tracker m = if m = n then (x.tracker n).cleared else x.tracker m :=
  Core.tracker_setTracker ..

theorem exec_quantClr {s : State} {k c : Nat} {w : W64} (h : s.Issues k c w 0x62 0) (hfree : s.QuantFree k (bit (s.sA k c w).toNat)) :
    exec (.quantClr k c w) s = s.quantDone k c w ((maskTrackers (s.sA k c w).toNat).foldl Core.clearCounts (s.core k)) [] []
      (if (s.sA k c w).toNat = 0 then .empty else .plain) := quantIssue_go h hfree rfl

/-! ### QUANT.CHECK (R167, R168) -/

theorem mseBound_eq (s : State) (k c : Nat) (w : W64) :
    BitVec.ofNat 32 (bits ((s.ctx k c).readS (fA w)).toNat 0 32) = (s.sA k c w).truncate 32 :=
  BitVec.eq_of_toNat_eq (by simp [bits, State.sA])

section
variable {s : State} {k c : Nat} {w : W64} (h : s.Issues k c w 0x63 0) (hfree : s.QuantFree k (· == fImm w % 64))
include h hfree

theorem exec_quantCheck (hfinite : (f32 ((s.sA k c w).truncate 32)).isFinite = true) (hsign : (f32 ((s.sA k c w).truncate 32)).lt FV.zero = false) :
    exec (.quantCheck k c w) s = s.quantDone k c w ((s.core k).dropPred c (fD w)) []
      [.pred (fD w) (((s.core k).tracker (fImm w % 64)).passes (f32 ((s.sA k c w).truncate 32)) ((s.sA k c w).toNat / 2 ^ 32))] := by
  have hlimit : bits ((s.ctx k c).readS (fA w)).toNat 32 32 = (s.sA k c w).toNat / 2 ^ 32 :=
    Nat.mod_eq_of_lt (Nat.div_lt_of_lt_mul (s.sA k c w).isLt)
  rw [← trackerField_eq] at hfree ⊢
  refine quantIssue_go h hfree ?_
  simp only [mseBound_eq, hlimit, hfinite, hsign, Bool.not_true, Bool.or_self, Bool.false_eq_true, if_false]

theorem exec_quantCheck_refuses (hbad : (f32 ((s.sA k c w).truncate 32)).isFinite = false ∨ (f32 ((s.sA k c w).truncate 32)).lt FV.zero = true) :
    exec (.quantCheck k c w) s = s.afterRefusal k c fltArgRange := by
  rw [← trackerField_eq] at hfree
  refine quantIssue_refuse h hfree ?_
  rcases hbad with hbad | hbad <;> simp [mseBound_eq, hbad]

end

/-! ### QUANT.PROPOSE (R162) -/

theorem length_flatMap_range {α : Type} {f : Nat → List α} {len : Nat} (hlen : ∀ b, (f b).length = len) (count : Nat) :
    ((List.range count).flatMap f).length = count * len := by
  induction count with
  | zero => rw [Nat.zero_mul]; rfl
  | succ count ih => rw [List.range_succ, List.flatMap_append, List.flatMap_singleton, List.length_append, ih, hlen, Nat.add_one_mul]

/-- Blocks of one length, one after another: the place of a byte of a block. -/
theorem getD_flatMap_range {α : Type} {f : Nat → List α} {len : Nat} (hlen : ∀ b, (f b).length = len) {count b i : Nat} (hb : b < count) (hi : i < len)
    (d : α) : ((List.range count).flatMap f).getD (b * len + i) d = (f b).getD i d := by
  induction count with
  | zero => omega
  | succ count ih =>
    have htotal := length_flatMap_range hlen count
    rw [List.range_succ, List.flatMap_append, List.flatMap_singleton, List.getD_eq_getElem?_getD]
    obtain hlt | rfl := Nat.lt_succ_iff_lt_or_eq.mp hb
    · have hbefore : (b + 1) * len ≤ count * len := Nat.mul_le_mul_right _ hlt
      rw [Nat.add_one_mul] at hbefore
      rw [List.getElem?_append_left (by omega), ← List.getD_eq_getElem?_getD, ih hlt]
    · rw [List.getElem?_append_right (by omega), htotal, Nat.add_sub_cancel_left, List.getD_eq_getElem?_getD]

/-- The bytes of a tracker's proposed entries, in the order of its channels. -/
def Core.proposedBytes (x : Core) (t : Tracker) : List Byte :=
  (List.range (t.cm1 + 1)).flatMap fun ch => leBytes (entryBytes t.psfmt) (x.proposal t ch)

theorem Core.proposedBytes_length (x : Core) (t : Tracker) : (x.proposedBytes t).length = (t.cm1 + 1) * entryBytes t.psfmt :=
  length_flatMap_range (fun _ => leBytes_length ..) _

theorem Core.proposedBytes_getD (x : Core) (t : Tracker) {ch i : Nat} (hch : ch ≤ t.cm1) (hi : i < entryBytes t.psfmt) :
    (x.proposedBytes t).getD (ch * entryBytes t.psfmt + i) 0 = BitVec.ofNat 8 (x.proposal t ch / 256 ^ i) := by
  rw [Core.proposedBytes, getD_flatMap_range (fun _ => leBytes_length ..) (Nat.lt_succ_iff.mpr hch) hi, leBytes_getD _ hi]

theorem exec_quantPropose {s : State} {k c : Nat} {w : W64} (h : s.Issues k c w 0x64 0) (hfree : s.QuantFree k (· == fImm w % 64))
    (hfmt : ((s.core k).tracker (fImm w % 64)).tfmt ∉ [10, 12, 13])
    (halign : (s.sA k c w).toNat % entryBytes ((s.core k).tracker (fImm w % 64)).psfmt = 0)
    (hend : (s.sA k c w).toNat + (((s.core k).tracker (fImm w % 64)).cm1 + 1) * entryBytes ((s.core k).tracker (fImm w % 64)).psfmt ≤ 0x300000) :
    exec (.quantPropose k c w) s = s.quantDone k c w
      { s.core k with scratch := writeBytes (s.core k).scratch (s.sA k c w).toNat ((s.core k).proposedBytes ((s.core k).tracker (fImm w % 64))) }
      (complObj (s.sB k c w)) [] := by
  have ha : (s.ctx k c).readS (fA w) = s.sA k c w := rfl
  rw [← trackerField_eq] at hfree hfmt halign hend ⊢
  simp only [List.mem_cons, List.not_mem_nil, or_false, not_or] at hfmt
  obtain ⟨hmxfp4, hbf16, hfp16⟩ := hfmt
  refine quantIssue_go h hfree ?_
  simp only [ha, hmxfp4, hbf16, hfp16, halign, inScratch_of_le hend, bne_self_eq_false, decide_false, Bool.not_true, Bool.or_self,
    Bool.false_eq_true, if_false]
  rfl

/-- Settles O14: each instruction by the rule of its case, with the trackers and the history that the rule names. -/
theorem quantInstructions : Obligations.QuantInstructions := by
  refine ⟨fun k c w s => ⟨fun d h hfree halign hend hread => ?cfg, fun h hfree => ?step, fun h hfree => ?clr⟩,
    fun k c w s hfree => ⟨fun h hfinite hsign => exec_quantCheck h hfree hfinite hsign, fun h hbad => exec_quantCheck_refuses h hfree hbad,
      fun h hfmt halign hend => ?propose⟩⟩
  case cfg =>
    obtain ⟨hfilled, hptr, hmax, hmin, hsse, hcount, hclip, hnonfin⟩ := readTracker_unobserved hread
    refine ⟨_, exec_quantCfg h hfree halign hend hread, hfilled, hptr, hmax, hmin, hsse, hcount, hclip, hnonfin, fun i => ?_⟩
    exact Core.sget_emptySlots_all ..
  case step =>
    have hnodup := maskTrackers_nodup (s.sA k c w).toNat
    refine ⟨_, exec_quantStep h hfree, Core.of_offQuant (foldl_keeps Core.closeStep Core.offQuant (fun _ _ => rfl) _ _), fun n hn => ?_, fun i => ?_,
      fun n ch hn hbit hch => ?_⟩
    · rw [Core.tracker_foldl Core.tracker_closeStep hnodup]
      simp only [mem_maskTrackers, hn, true_and]
      rfl
    · rw [Core.sget_foldl_closeStep hnodup]
      split
      · exact .inr rfl
      · exact .inl rfl
    · rw [Core.sget_foldl_closeStep hnodup, if_pos ⟨n, mem_maskTrackers.mpr ⟨hn, hbit⟩, ch, hch, _, List.mem_singleton_self _, rfl⟩]
  case clr =>
    refine ⟨_, exec_quantClr h hfree, ?_, fun n hn => ?_⟩
    · have hhistory := foldl_keeps Core.clearCounts Core.history (fun _ _ => rfl) (maskTrackers (s.sA k c w).toNat) (s.core k)
      have hframe := Core.of_offQuant (foldl_keeps Core.clearCounts Core.offQuant (fun _ _ => rfl) (maskTrackers (s.sA k c w).toNat) (s.core k))
      rwa [hhistory] at hframe
    · rw [Core.tracker_foldl Core.tracker_clearCounts (maskTrackers_nodup _)]
      simp only [mem_maskTrackers, hn, true_and]
      rfl
  case propose =>
    have hlen := Core.proposedBytes_length (s.core k) ((s.core k).tracker (fImm w % 64))
    refine ⟨_, exec_quantPropose h hfree hfmt halign hend, fun ch i hch hi => ?_, fun b hb => sget_writeBytes_outside _ _ _ _ (by rw [hlen]; exact hb)⟩
    have hblock : (ch + 1) * entryBytes ((s.core k).tracker (fImm w % 64)).psfmt ≤ _ := Nat.mul_le_mul_right _ (Nat.add_le_add_right hch 1)
    rw [Nat.add_one_mul] at hblock
    rw [Nat.add_assoc, sget_writeBytes_inside _ _ _ _ (by rw [hlen]; omega), Core.proposedBytes_getD _ _ hch hi]

end Sys2Proof.Machine
end

section
/-! PROOFS. The state after reset: no table of the module lists an entry, so each of them reads as its default, which holds the reset values that the
spec states. First the registers that these values show in, then the tables after reset. -/

namespace Sys2Proof.Machine

/-! ### The registers read (R10, R311) -/

theorem State.coreReg_wdExp (s : State) (k c : Nat) : s.coreReg k c 0x0C = some (s.core k).wdExp := by simp [State.coreReg, roCoreCounters]

theorem State.coreReg_mhz (s : State) (k c : Nat) : s.coreReg k c 0x08 = some (s.groupAt (groupOf k)).mhz := by
  simp [State.coreReg, roCoreCounters]

theorem State.coreReg_arrayLat (s : State) (k c : Nat) : s.coreReg k c 0x200 = some (arrayLat (sget [] (s.core k).sheaf.splices 0)) := by
  simp [State.coreReg, roCoreCounters]

/-! ### The tables after reset -/

theorem State.reset_core (k : Nat) : State.reset.core k = {} := rfl

theorem State.reset_ctx (k c : Nat) : State.reset.ctx k c = {} := rfl

theorem State.reset_groupAt (g : Nat) : State.reset.groupAt g = {} := rfl

theorem State.reset_thermCap (die : Nat) : State.reset.thermCap die = 2200 := rfl

/-- Every scalar register of a context with none listed reads 0, s0 as every other. -/
theorem Ctx.readS_empty (r : Nat) : ({} : Ctx).readS r = 0 := by
  rw [Ctx.readS]
  exact ite_self 0

/-- A core that lists no tracker has each at its reset value (R156). -/
theorem State.reset_tracker (k n : Nat) : (State.reset.core k).tracker n = Tracker.reset n := rfl

/-- The defaults of R156 as QT_CFG0, QT_CFG1, QT_MARGIN and the two extremes show them: C = 1, N = 8, TBASE = 9n, INT8, BF16 entries, margin 1. -/
theorem Tracker.reg_reset (n : Nat) :
    (Tracker.reset n).reg 0x00 = some (9 * n + 7 * 2 ^ 24 + 5 * 2 ^ 28) ∧ (Tracker.reset n).reg 0x04 = some 4 ∧
      (Tracker.reset n).reg 0x08 = some 0x3F800000 ∧ (Tracker.reset n).reg 0x10 = some 0xFF800000 ∧ (Tracker.reset n).reg 0x14 = some 0x7F800000 :=
  ⟨by simp only [Tracker.reg, Tracker.reset, Nat.zero_mul, Nat.add_zero], rfl, rfl, rfl, rfl⟩

/-- Each register with a rule on its values holds an allowed one, and no debug level is set. -/
theorem State.reset_lawful : State.reset.Lawful := by
  refine ⟨?secureBelowHalt, ?pwrLimit, ?pwrCap, fun die => ?thermCap, ?rspUs, ?placeRate, .inl rfl⟩
  case thermCap => rw [State.reset_thermCap]; decide
  all_goals decide

/-- Settles O60: the registers by the field that each shows, the tables by their defaults. -/
theorem resetLeavesTheStatedValues : Obligations.ResetLeavesTheStatedValues := by
  refine ⟨State.reset_lawful, State.reset_memoryWf, rfl, rfl, rfl, fun k c => ⟨?watchdog, ?frequency, ?latency, rfl, fun r => ?scalar, rfl, fun _ => rfl⟩,
    fun k n => ?tracker, rfl, rfl, rfl, rfl, rfl, rfl, rfl, rfl, fun _ => ⟨rfl, rfl⟩, fun _ => rfl, fun _ => rfl, fun _ => rfl⟩
  case watchdog => rw [State.coreReg_wdExp, State.reset_core]
  case frequency => rw [State.coreReg_mhz, State.reset_groupAt]
  case latency => rw [State.coreReg_arrayLat, State.reset_core]; rfl
  case scalar => rw [State.reset_ctx, Ctx.readS_empty]
  case tracker => rw [State.reset_tracker]; exact Tracker.reg_reset n

end Sys2Proof.Machine
end

section
/-! PROOFS. DMA.COPY where an instruction in flight has a number that the core has still to give: a transfer of Winnow that the copy begins takes that
number, and at its start the other instruction counts as started too. -/

namespace Sys2Proof.Machine

/-! ### A copy whose descriptor lies in Tier F, beside an instruction with the transfer's number (R287, R464) -/

/-- DMA.COPY with its descriptor at s0 + 0x400000. -/
def farCopyWord : W64 := 0x1000000000400000#64

/-- An instruction that waits in the SYNC queue, with number 1. -/
def strayOp : InFlight := { id := 1, ctx := 0, unit := .sync, cls := 8 }

/-- Core 2 is about to give number 0, to a DMA.COPY of one INT8 element in element layout onto itself. Its tensor descriptor lies at 0 of the scratchpad, its
DMA descriptor, with NROWS = 1, in the partition's page, which is in Tier F and has a route to its owner. -/
def strayState : State :=
  { cores := [(2, { ctxs := [(1, { mode := .run })], icache := [(0, farCopyWord.zeroExtend 512)], ops := [strayOp], nextId := 0
                    scratch := [(6, 5#8), (7, 2#8), (8, 1#8), (12, 1#8)] })]
    parts := [(3, { state := .run, grant := { groups := 1#64 }, mem := { units := [(0x400000, { tier := .F })], bytes := [(0x400014, 1#8)] } })]
    fabric := { ports := [(0, 1)], route := [(0, 1)] } }

/-- The bytes of the DMA descriptor. -/
def farDescriptor : List Byte := readBytes [(0x400014, 1#8)] 0x400000 64

theorem strayState_accepts : strayState.Accepts 2 1 farCopyWord 0x10 0 .dma := by decide +kernel

theorem strayState_reads :
    (strayState.struck 2 .none).readAt 2 (strayState.sA 2 1 farCopyWord + sextImm farCopyWord).toNat 64 = .ok farDescriptor := rfl

/-- Whether a copy is refused. -/
def DmaAnswer.refused : DmaAnswer → Bool
  | .refuse _ => true
  | _ => false

/-- What the copy comes to in that state. -/
def strayCopy : DmaAnswer :=
  let d := readDma (leNat farDescriptor) (strayState.sB 2 1 farCopyWord).toNat
  (strayState.struck 2 .none).dmaCopy
    { k := 2, ctx := 1, bind := (strayState.ctx 2 1).bind, targets := strayState.dmaTargets 2 d.mcg } (BitVec.ofNat 512 (leNat farDescriptor)) d

theorem strayCopy_runs : strayCopy.refused = false := by decide +kernel

/-- Whether the first instruction in flight in core 2 has started, in the state that a command leads to. -/
def firstStarted : Host.Outcome State Fault Refusal → Option Bool
  | .next t => (t.core 2).ops.head?.map InFlight.started
  | _ => none

/-- The transfer for the descriptor's page starts with number 1, and the waiting instruction with it. -/
theorem strayOp_starts : firstStarted (exec (.dmaCopy 2 1 farCopyWord .none) strayState) = some true := by decide +kernel

/-- Refutes O17: a DMA.COPY that runs need not leave what was in flight as it was, with itself and its transfers behind. The statement allows a core with an
instruction in flight whose number it has still to give, where the start of a transfer (`State.startFab`) marks both instructions of that number;
that the numbers in flight lie below the core's next excludes such a core. -/
theorem not_copyListAndAppendEnterTheEngine : ¬ Obligations.CopyListAndAppendEnterTheEngine := by
  intro ⟨hcopy, _⟩
  obtain ⟨-, hjoins, -⟩ :=
    hcopy 2 1 farCopyWord .none strayState farDescriptor strayState_accepts (by decide +kernel) (by decide +kernel) strayState_reads
  obtain ⟨u, hexec, ⟨o, more, ⟨hops, -⟩, -⟩, -⟩ :=
    hjoins fun f hrefuse => nomatch strayCopy_runs.symm.trans (congrArg DmaAnswer.refused hrefuse)
  have hstarts := strayOp_starts
  rw [hexec, firstStarted, hops] at hstarts
  exact nomatch hstarts

end Sys2Proof.Machine
end

section
/-! PROOFS. ARR.CAM: the entries that its adds name, the order in which the banks hold the adds of one source, and what its issue leaves. -/

namespace Sys2Proof.Machine

/-! ### The adds of a product (R204, R208) -/

/-- Every add names an entry of the accumulator (R208). -/
def CamOut.AddsFit (o : CamOut) : Prop := ∀ a ∈ o.adds, a.1 < 65536

theorem CamOut.adds_drops (o : CamOut) (room : Option Nat) (range order : Nat) : (o.drops room range order).adds = o.adds := by
  unfold CamOut.drops
  split
  · exact iteProp_keeps (π := CamOut.adds) rfl rfl
  · rfl

theorem CamOut.adds_pass (o : CamOut) (n : Nat) : (o.pass n).adds = o.adds := ite_keeps (π := CamOut.adds) rfl rfl

theorem CamOut.AddsFit.of_adds {o u : CamOut} (h : o.AddsFit) (hadds : u.adds = o.adds) : u.AddsFit := by
  rwa [CamOut.AddsFit, hadds]

theorem CamOut.AddsFit.form {o : CamOut} (h : o.AddsFit) {adds : List (Nat × Flagged)} (hadds : ∀ a ∈ adds, a.1 < 65536) :
    (o.form adds).AddsFit :=
  fun a ha => (List.mem_append.mp ha).elim (h a) (hadds a)

section
variable (s : State) (k : Nat) (x y : CRow) (d : TileDesc) (room : Option Nat)

theorem CamOut.AddsFit.camProbe {o : CamOut} (h : o.AddsFit) : (s.camProbe k x y d room o).AddsFit := by
  refine List.foldlRecOn _ _ h fun o h j _ => ?_
  split
  · exact h
  · split
    · exact h
    case h_2 r _ =>
      have hread : (o.drops room r.range r.order).AddsFit := h.of_adds (o.adds_drops ..)
      dsimp only
      split
      · exact hread
      · split
        · exact hread.of_adds (CamOut.adds_pass ..)
        · refine CamOut.AddsFit.form (hread.of_adds ?_) fun a ha => ?_
          · exact CamOut.adds_pass ..
          · obtain ⟨term, -, rfl⟩ := List.mem_map.mp ha
            exact Nat.mod_lt _ (by decide)

theorem CamOut.AddsFit.camLoad {o : CamOut} (h : o.AddsFit) : (s.camLoad k x y d room o).AddsFit := by
  unfold State.camLoad
  split
  · exact h
  · exact (h.of_adds (o.adds_pass _)).camProbe s k x y d room

theorem CamOut.AddsFit.camNext {o : CamOut} (h : o.AddsFit) : (s.camNext k x y d room o).AddsFit := by
  unfold State.camNext
  split
  · exact h
  · exact h.camLoad s k x y d room

theorem CamOut.AddsFit.camKeyRow {o : CamOut} (h : o.AddsFit) (kr : Nat) : (s.camKeyRow k x y d room kr o).AddsFit := by
  have hnext := h.camNext s k x y d room
  unfold State.camKeyRow
  dsimp only
  split
  · exact hnext
  · split
    · exact hnext
    · refine List.foldlRecOn _ _ hnext fun u hu e _ => ?_
      have hu := CamOut.AddsFit.camNext s k x y d room hu
      split
      · exact hu
      · cases e with
        | keep i c => exact hu
        | range => exact hu.of_adds (CamOut.adds_drops ..)
        | order => exact hu.of_adds (CamOut.adds_drops ..)

theorem State.camRun_addsFit : (s.camRun k x y d room).AddsFit := by
  have hempty : ({} : CamOut).AddsFit := fun _ h => nomatch h
  have hrows := List.foldlRecOn (List.range d.krows) (fun o kr => s.camKeyRow k x y d room kr o) hempty fun o ho kr _ =>
    CamOut.AddsFit.camKeyRow s k x y d room ho kr
  unfold State.camRun
  split
  · exact hempty
  · dsimp only
    split
    · exact hrows
    · exact hrows.camLoad s k x y d room

end

/-! ### The order of the adds of one source (R209, R210) -/

/-- The adds of a source that wait for a bank: those in its queue, then those that a full queue holds back. -/
def addsWaiting (src bank : Nat) (queues : Sparse (List ScatAdd)) (held : List ScatAdd) : List ScatAdd :=
  (sget [] queues bank ++ held.filter fun a => a.entry % 16 == bank).filter fun a => a.src == src

/-- Those of some adds that a source has for a bank. -/
def addsFor (src bank : Nat) (adds : List ScatAdd) : List ScatAdd := (adds.filter fun a => a.entry % 16 == bank).filter fun a => a.src == src

theorem addsFor_cons (src bank : Nat) (a : ScatAdd) (adds : List ScatAdd) :
    addsFor src bank (a :: adds) = addsFor src bank [a] ++ addsFor src bank adds := by
  rw [addsFor, ← List.singleton_append, List.filter_append, List.filter_append]
  rfl

theorem addsWaiting_hold (src bank : Nat) (queues : Sparse (List ScatAdd)) (held : List ScatAdd) (a : ScatAdd) :
    addsWaiting src bank queues (held ++ [a]) = addsWaiting src bank queues held ++ addsFor src bank [a] := by
  simp only [addsWaiting, addsFor, List.filter_append, List.append_assoc]

/-- An add enters its bank's queue before what is held back, of which nothing is its source's. -/
theorem addsWaiting_enter (src bank : Nat) (queues : Sparse (List ScatAdd)) {held : List ScatAdd} {a : ScatAdd} (h : ∀ b ∈ held, b.src ≠ a.src) :
    addsWaiting src bank (sput [] queues (a.entry % 16) (sget [] queues (a.entry % 16) ++ [a])) held =
      addsWaiting src bank queues held ++ addsFor src bank [a] := by
  unfold addsWaiting addsFor
  rw [sget_sput]
  by_cases hbank : bank = a.entry % 16
  · subst hbank
    by_cases hsrc : a.src = src
    · have hnone : (held.filter fun b => b.entry % 16 == a.entry % 16).filter (fun b => b.src == src) = [] := by
        refine List.filter_eq_nil_iff.mpr fun b hb => ?_
        simpa [← hsrc] using h b (List.mem_filter.mp hb).1
      simp [List.filter_cons, hnone]
    · simp [List.filter_append, hsrc]
  · simp [hbank, Ne.symm hbank]

/-- Adds that reach the banks keep their order within each source and bank: once an add of a source is held back, so are its later ones (R210). -/
theorem addsWaiting_fillQueues (src bank : Nat) (adds : List ScatAdd) (queues : Sparse (List ScatAdd)) (blocked : List Nat) (kept : List ScatAdd)
    (h : ∀ a ∈ kept, a.src ∈ blocked) :
    addsWaiting src bank (fillQueues queues blocked adds kept).1 (fillQueues queues blocked adds kept).2 =
      addsWaiting src bank queues kept ++ addsFor src bank adds := by
  induction adds generalizing queues blocked kept with
  | nil => exact (List.append_nil _).symm
  | cons a adds ih =>
    rw [addsFor_cons, ← List.append_assoc]
    unfold fillQueues
    dsimp only
    split
    · rw [ih, addsWaiting_hold]
      intro b hb
      obtain hb | hb := List.mem_append.mp hb
      · exact List.mem_cons_of_mem _ (h b hb)
      · rw [List.mem_singleton.mp hb]
        exact List.mem_cons_self
    case isFalse hfree =>
      rw [ih _ _ _ h, addsWaiting_enter]
      intro b hb hsrc
      have hblocked : a.src ∈ blocked := hsrc ▸ h b hb
      simp [hblocked] at hfree

/-- What is presented to the banks comes behind what waits, source by source. -/
theorem Scatter.addsWaiting_present (x : Scatter) (adds : List ScatAdd) (src bank : Nat) :
    addsWaiting src bank (x.present adds).queues (x.present adds).stalled = addsWaiting src bank x.queues x.stalled ++ addsFor src bank adds := by
  refine (addsWaiting_fillQueues src bank (x.stalled ++ adds) x.queues [] [] (fun _ h => nomatch h)).trans ?_
  simp only [addsWaiting, addsFor, List.filter_append, List.filter_nil, List.append_nil, List.append_assoc]

/-- The adds of an ARR.CAM that go to a bank, as stream 0 presents them. -/
theorem addsFor_stream (bank id : Nat) (adds : List (Nat × Flagged)) :
    addsFor 0 bank (adds.map fun a => { entry := a.1, value := a.2.v, src := 0, id := id }) =
      (adds.filter fun a => a.1 % 16 == bank).map fun a => { entry := a.1, value := a.2.v, src := 0, id := id } := by
  rw [addsFor, List.filter_map, List.filter_map]
  simp [Function.comp_def]

/-! ### Issue of ARR.CAM -/

theorem State.core_touchAll (s : State) (k : Nat) (rs : List (Nat × Nat)) (j : Nat) : (s.touchAll k rs).core j = s.core j :=
  foldl_keeps _ (fun t : State => t.core j) (fun t (r : Nat × Nat) => core_touchAt t k r.1 r.2 j) rs s

theorem State.core_charge (s : State) (b : Option (Nat × Nat)) (f : ItemInfo → ItemInfo) (k : Nat) : (s.charge b f).core k = s.core k := by
  rw [State.charge_frame]
  rfl

theorem State.scat_coreCount (s : State) (k off n : Nat) : ((s.coreCount k off n).core k).scat = (s.core k).scat := by
  rw [State.coreCount, State.core_setCore_self, Core.count_scat]

theorem State.scat_chaff (s : State) (k : Nat) (b : Option (Nat × Nat)) (overs range order : Nat) :
    ((s.chaff k b overs range order).1.core k).scat = (s.core k).scat := by
  have hcounts : ((s.setCore k ((((s.core k).count 0x2C0 overs).count 0x2C4 range).count 0x2C8 order)).core k).scat = (s.core k).scat := by
    rw [State.core_setCore_self, Core.count_scat, Core.count_scat, Core.count_scat]
  unfold State.chaff
  dsimp only
  split
  · exact hcounts
  · exact (congrArg Core.scat (State.core_charge ..)).trans hcounts

theorem State.scat_launch (s : State) (k c : Nat) (u : UnitId) (cls : Nat) (objs : List Nat) (results : List Result) (job : Job) :
    ((s.launch k c u cls objs results job).core k).scat = (s.core k).scat := by
  rw [State.launch, State.core_setCore_self]

/-- The core once the adds of instruction `id` have been presented, with the flags that their values raise. -/
def Core.presents (x : Core) (adds : List (Nat × Flagged)) (id : Nat) : Core :=
  { x with scat := x.scat.present (adds.map fun a => { entry := a.1, value := a.2.v, src := 0, id := id })
           flgInf := x.flgInf || adds.any (·.2.inf), flgNan := x.flgNan || adds.any (·.2.nan) }

/-- The accesses and the counts of an ARR.CAM (R207, R218, R395). -/
def State.camCounted (s : State) (k : Nat) (b : Option (Nat × Nat)) (d : TileDesc) (o : CamOut) : State :=
  let read := ((s.touchAt k d.xdesc 64).touchAt k d.ydesc 64).touchAll k o.reads
  ((read.chaff k b 0 o.range o.order).1.coreCount k 0x2A4 o.skews).coreCount k 0x228 o.stall

/-- The instruction in flight, and its adds presented. -/
def State.camPresented (s : State) (k c : Nat) (t : TileIssue) (o : CamOut) : State :=
  let s1 := s.camCounted k (s.ctx k c).bind t.d o
  let s2 := s1.launch k c (.stream 0) 1 t.use.objDone.toList [] (if t.d.rowsN = 0 then .empty else .scatter)
  s2.setCore k ((s2.core k).presents o.adds (s1.core k).nextId)

/-- The item failed where a row was left out (R198). -/
def State.camSkewed (s : State) (k c : Nat) (t : TileIssue) (o : CamOut) : State :=
  if o.skews = 0 then s.camPresented k c t o else ((s.camPresented k c t o).faultAt k c (s.ctx k c).bind fltScaleSkew).faultLast k

/-- The item failed with the fault at which the product stops (R200, R219). -/
def State.camDone (s : State) (k c : Nat) (t : TileIssue) (o : CamOut) : State :=
  match o.stop with
  | some f => ((s.camSkewed k c t o).faultAt k c (s.ctx k c).bind f).faultLast k
  | none => s.camSkewed k c t o

theorem State.scat_camCounted (s : State) (k : Nat) (b : Option (Nat × Nat)) (d : TileDesc) (o : CamOut) :
    ((s.camCounted k b d o).core k).scat = (s.core k).scat := by
  rw [State.camCounted, State.scat_coreCount, State.scat_coreCount, State.scat_chaff, State.core_touchAll, core_touchAt, core_touchAt]

theorem State.scat_camPresented (s : State) (k c : Nat) (t : TileIssue) (o : CamOut) :
    ((s.camPresented k c t o).core k).scat = (s.core k).scat.present
      (o.adds.map fun a => { entry := a.1, value := a.2.v, src := 0, id := ((s.camCounted k (s.ctx k c).bind t.d o).core k).nextId }) := by
  rw [State.camPresented, State.core_setCore_self, Core.presents, State.scat_launch, State.scat_camCounted]

section
variable {s : State} {k c : Nat} {w : W64} {t : TileIssue} (hissue : s.tileIssue k c w .cam = .ok t)
  (hfits : CamFits (s.core k) w t (readCRow t.xt.toNat) (readCRow t.yt.toNat))
  (hhole : s.camHole k (readCRow t.xt.toNat) (readCRow t.yt.toNat) t.d = false)
include hissue hfits hhole

theorem camIssue_of_fits :
    let o := s.camRun k (readCRow t.xt.toNat) (readCRow t.yt.toNat) t.d (s.chaffRoom k (s.ctx k c).bind)
    camIssue k c w s = .go (s.camDone k c t o) := by
  intro o
  obtain ⟨hx, hy, hrows, hmax, hsheaf, hsplit, hcols, hfmt, hstream, hd, hring, hout⟩ := hfits
  have hrefuse : (t.d.krows == 0) = false := beq_false_of_ne (by omega)
  unfold camIssue
  simp only [hissue, hx, hy, hrefuse, Nat.not_lt.mpr hmax, hsheaf, hsplit, hcols, hfmt, hstream, hd, hring, hout, hhole, bne_self_eq_false, decide_false,
    Option.isSome_none, Bool.or_self, Bool.false_eq_true, if_false, Nat.pos_iff_ne_zero, ite_not]
  rfl

theorem exec_arrCam_of_fits (h : s.Accepts k c w 0x21 0 (.stream 0)) :
    let o := s.camRun k (readCRow t.xt.toNat) (readCRow t.yt.toNat) t.d (s.chaffRoom k (s.ctx k c).bind)
    exec (.arrCam k c w) s = s.afterIssue k c w (s.camDone k c t o) := by
  have hstream : tStream w = 0 := by
    obtain ⟨-, -, -, -, -, -, -, -, hstream, -⟩ := hfits
    exact hstream
  change issue k c w (spells w 0x21 0) (unitIssue s k (.stream (tStream w)) (camIssue k c w s)) s = _
  rw [hstream]
  exact issue_of_accepts h (camIssue_of_fits hissue hfits hhole)

end

/-- Settles O20: ARR.CAM issues with the counts, the entry in flight, the adds and the faults that the statement lists; its adds name entries of the
accumulator at every step of the product, and the banks keep the order of a source because a held add holds back the later ones of its source. -/
theorem sparseProductPresentsItsAdds : Obligations.SparseProductPresentsItsAdds := by
  intro k c w s t xr yr b o h hissue hfits hhole s1 s1' s2 y s3 s4
  have hexec := exec_arrCam_of_fits hissue hfits hhole h
  have ho : s.camRun k (readCRow t.xt.toNat) (readCRow t.yt.toNat) t.d (s.chaffRoom k (s.ctx k c).bind) = o := rfl
  simp only [ho, State.camDone] at hexec
  refine ⟨fun hstop => ?_, fun f hstop => ?_, fun hrows => if_pos hrows, State.camRun_addsFit s k xr yr t.d _, fun bank => ?_⟩
  · rw [hstop] at hexec
    exact hexec
  · rw [hstop] at hexec
    exact hexec
  · have hscat : (s3.core k).scat = _ := State.scat_camPresented s k c t o
    dsimp only
    rw [hscat]
    exact (Scatter.addsWaiting_present ..).trans (congrArg _ (addsFor_stream ..))

end Sys2Proof.Machine
end

section
/-! PROOFS. GUARD.SEL: the K highest of a list of keys, the widening to granules, the bits of a bitmap's bytes, and the bitmap that the instruction writes. -/

namespace Sys2Proof.Machine

/-! ### The K highest keys (R237) -/

theorem scoreKey_lt (f c : Nat) : scoreKey f c < 2 ^ 17 := by
  unfold scoreKey
  split
  · unfold signedOf
    split <;> omega
  · dsimp only
    split
    · omega
    · split <;> omega

/-- The threshold found is reached by as many keys as asked, where the one that the search starts from is. -/
theorem le_count_topThreshold {keys : List Nat} {n : Nat} (b t : Nat) (h : n ≤ (keys.filter fun k => decide (t ≤ k)).length) :
    n ≤ (keys.filter fun k => decide (topThreshold keys n b t ≤ k)).length := by
  induction b generalizing t with
  | zero => exact h
  | succ b ih =>
    rw [topThreshold]
    split
    case isTrue hreach => exact ih _ hreach
    case isFalse => exact ih _ h

/-- Fewer keys than asked lie above the threshold found, where fewer reach the end of the range searched. -/
theorem count_topThreshold_lt {keys : List Nat} {n : Nat} (b t : Nat) (h : (keys.filter fun k => decide (t + 2 ^ b ≤ k)).length < n) :
    (keys.filter fun k => decide (topThreshold keys n b t < k)).length < n := by
  induction b generalizing t with
  | zero => exact h
  | succ b ih =>
    rw [topThreshold]
    split
    case isTrue => exact ih _ (by rwa [Nat.add_assoc, ← Nat.two_mul, ← Nat.pow_succ'])
    case isFalse hreach => exact ih _ (Nat.not_le.mp hreach)

/-- The first key is marked above the threshold, and at it while some may still be; a key at it takes one of those. -/
theorem markTop_cons (t k : Nat) (ks : List Nat) (n : Nat) :
    markTop t (k :: ks) n = (decide (t < k) || (k == t && decide (0 < n))) :: markTop t ks (if k == t then n - 1 else n) := by
  rw [markTop]
  obtain habove | hat | hbelow := Nat.lt_trichotomy t k
  case inl => simp [habove, Nat.ne_of_gt habove]
  case inr.inl => cases n <;> simp [hat]
  case inr.inr => simp [Nat.lt_asymm hbelow, Nat.ne_of_lt hbelow]

theorem markTop_length (t : Nat) (keys : List Nat) (n : Nat) : (markTop t keys n).length = keys.length := by
  induction keys generalizing n with
  | nil => rfl
  | cons k ks ih => rw [markTop_cons, List.length_cons, ih, List.length_cons]

/-- A key is marked where it lies above the threshold, or equals it with fewer than `n` equal ones before it. -/
theorem markTop_getD (t : Nat) {keys : List Nat} (n : Nat) {i : Nat} (hi : i < keys.length) :
    (markTop t keys n).getD i false = (decide (t < keys[i]) || (keys[i] == t && decide ((keys.take i).countP (· == t) < n))) := by
  induction keys generalizing n i with
  | nil => cases hi
  | cons k ks ih =>
    rw [markTop_cons]
    cases i with
    | zero => rfl
    | succ i =>
      have hleft : (ks.take i).countP (· == t) < (if k == t then n - 1 else n) ↔ ((k :: ks).take (i + 1)).countP (· == t) < n := by
        rw [List.take_succ_cons, List.countP_cons]
        split <;> omega
      rw [List.getD_cons_succ, ih _ (Nat.lt_of_succ_lt_succ hi), List.getElem_cons_succ, decide_eq_decide.mpr hleft]

/-- How many of `nn` neurons rank before neuron `i`: those with a higher key, and those of a lower index with the same. -/
def ranksBefore (key : Nat → Nat) (nn i : Nat) : Nat :=
  ((List.range nn).filter fun j => decide (key i < key j) || (key j == key i && decide (j < i))).length

theorem ranksBefore_eq_countP (key : Nat → Nat) (nn i : Nat) :
    ranksBefore key nn i = (List.range nn).countP fun j => decide (key i < key j) || (key j == key i && decide (j < i)) :=
  List.countP_eq_length_filter.symm

theorem countP_lt_countP {p q : Nat → Bool} {l : List Nat} {i : Nat} (himp : ∀ j ∈ l, p j = true → q j = true) (hi : i ∈ l) (hp : p i = false)
    (hq : q i = true) : l.countP p < l.countP q := by
  obtain ⟨before, after, rfl⟩ := List.append_of_mem hi
  have hbefore : before.countP p ≤ before.countP q := List.countP_mono_left fun j hj => himp j (by simp [hj])
  have hafter : after.countP p ≤ after.countP q := List.countP_mono_left fun j hj => himp j (by simp [hj])
  rw [List.countP_append, List.countP_append, List.countP_cons, List.countP_cons, if_pos hq, if_neg (ne_true_of_eq_false hp)]
  omega

/-- Those above a threshold and the first `i` at it, counted apart. -/
theorem countP_above_or_earlier (key : Nat → Nat) (t i nn : Nat) :
    ((List.range nn).countP fun j => decide (t < key j) || (key j == t && decide (j < i))) =
      ((List.range nn).countP fun j => decide (t < key j)) + (List.range (min i nn)).countP fun j => key j == t := by
  induction nn with
  | zero => rw [Nat.min_zero]; rfl
  | succ nn ih =>
    rw [List.range_succ, List.countP_append, List.countP_append, ih, List.countP_singleton, List.countP_singleton]
    by_cases hlt : nn < i
    · have hexcl : ¬(t < key nn ∧ key nn = t) := by omega
      rw [Nat.min_eq_right (Nat.le_of_lt hlt), Nat.min_eq_right hlt, List.range_succ, List.countP_append, List.countP_singleton]
      by_cases habove : t < key nn <;> by_cases hat : key nn = t <;> simp [habove, hat, hlt] <;> omega
    · rw [Nat.min_eq_left (Nat.le_of_not_lt hlt), Nat.min_eq_left (Nat.le_succ_of_le (Nat.le_of_not_lt hlt))]
      rw [decide_eq_false hlt, Bool.and_false, Bool.or_false]
      omega

/-- The neurons that rank before one at the threshold: those above it, and the earlier ones at it. -/
theorem ranksBefore_at {key : Nat → Nat} {nn i t : Nat} (hi : i < nn) (hkey : key i = t) :
    ranksBefore key nn i =
      ((List.range nn).countP fun j => decide (t < key j)) + (List.range i).countP fun j => key j == t := by
  rw [ranksBefore_eq_countP, hkey, countP_above_or_earlier, Nat.min_eq_left (Nat.le_of_lt hi)]

/-- The threshold of the `kk` highest keys of `nn` neurons. -/
def keyThreshold (key : Nat → Nat) (nn kk : Nat) : Nat := topThreshold ((List.range nn).map key) kk 17 0

theorem length_filter_keys (key : Nat → Nat) (p : Nat → Bool) (nn : Nat) :
    (((List.range nn).map key).filter p).length = (List.range nn).countP fun j => p (key j) := by
  rw [← List.countP_eq_length_filter, List.countP_map]
  rfl

theorem le_countP_reach_keyThreshold (key : Nat → Nat) {nn kk : Nat} (hmax : kk ≤ nn) :
    kk ≤ (List.range nn).countP fun j => decide (keyThreshold key nn kk ≤ key j) := by
  have hall : ((List.range nn).countP fun j => decide (0 ≤ key j)) = nn := by simp
  rw [← length_filter_keys key fun v => decide (keyThreshold key nn kk ≤ v)]
  exact le_count_topThreshold 17 0 (by rwa [length_filter_keys, hall])

theorem countP_above_keyThreshold_lt {key : Nat → Nat} {kk : Nat} (nn : Nat) (hkeys : ∀ j, key j < 2 ^ 17) (hpos : 0 < kk) :
    ((List.range nn).countP fun j => decide (keyThreshold key nn kk < key j)) < kk := by
  have hnone : ((List.range nn).countP fun j => decide (0 + 2 ^ 17 ≤ key j)) = 0 :=
    List.countP_eq_zero.mpr fun j _ => by
      have := hkeys j
      rw [decide_eq_true_eq]
      omega
  rw [← length_filter_keys key fun v => decide (keyThreshold key nn kk < v)]
  exact count_topThreshold_lt 17 0 (by rwa [length_filter_keys, hnone])

/-- Neuron `i` is marked above the threshold, and at it while those above and the earlier ones at it leave a place. -/
theorem topK_getD (key : Nat → Nat) {nn i : Nat} (kk : Nat) (hi : i < nn) :
    let t := keyThreshold key nn kk
    (topK ((List.range nn).map key) kk).getD i false = (decide (t < key i) ||
      (key i == t && decide (((List.range i).countP fun j => key j == t) < kk - (List.range nn).countP fun j => decide (t < key j)))) := by
  intro t
  have hearlier : (((List.range nn).map key).take i).countP (· == t) = (List.range i).countP fun j => key j == t := by
    rw [← List.map_take, List.take_range, Nat.min_eq_left (Nat.le_of_lt hi), List.countP_map]
    rfl
  rw [topK, markTop_getD _ _ (by simpa using hi), ← hearlier, ← length_filter_keys key fun v => decide (t < v), List.getElem_map, List.getElem_range]
  rfl

/-- The marked keys are those that fewer than `kk` others rank before: a key above the threshold ranks before the last of those above it, one below
it after all that reach it, and those at it fill up in order. -/
theorem topK_getD_eq_ranksBefore_lt {key : Nat → Nat} {nn kk i : Nat} (hkeys : ∀ j, key j < 2 ^ 17) (hpos : 0 < kk) (hmax : kk ≤ nn) (hi : i < nn) :
    (topK ((List.range nn).map key) kk).getD i false = decide (ranksBefore key nn i < kk) := by
  have hreach := le_countP_reach_keyThreshold key hmax
  have habove := countP_above_keyThreshold_lt nn hkeys hpos
  rw [topK_getD key kk hi]
  generalize keyThreshold key nn kk = t at hreach habove ⊢
  obtain hlt | heq | hgt := Nat.lt_trichotomy (key i) t
  case inl =>
    have hrank : kk ≤ ranksBefore key nn i := by
      rw [ranksBefore_eq_countP]
      refine Nat.le_trans hreach (List.countP_mono_left fun j _ hj => ?_)
      rw [decide_eq_true (Nat.lt_of_lt_of_le hlt (of_decide_eq_true hj)), Bool.true_or]
    rw [decide_eq_false (Nat.lt_asymm hlt), beq_false_of_ne (Nat.ne_of_lt hlt), decide_eq_false (Nat.not_lt.mpr hrank), Bool.false_and, Bool.or_self]
  case inr.inl =>
    rw [ranksBefore_at hi heq, heq, beq_self_eq_true, Bool.true_and, decide_eq_false (Nat.lt_irrefl t), Bool.false_or]
    exact decide_eq_decide.mpr (by omega)
  case inr.inr =>
    have hrank : ranksBefore key nn i < (List.range nn).countP fun j => decide (t < key j) := by
      rw [ranksBefore_eq_countP]
      refine countP_lt_countP (fun j _ hj => decide_eq_true ?_) (List.mem_range.mpr hi) ?_ (decide_eq_true hgt)
      · simp only [Bool.or_eq_true, decide_eq_true_eq, Bool.and_eq_true, beq_iff_eq] at hj
        omega
      · simp only [Nat.lt_irrefl, decide_false, Bool.and_false, Bool.or_self]
    rw [decide_eq_true hgt, decide_eq_true (Nat.lt_trans hrank habove), Bool.true_or]

/-! ### Granules (R237) -/

theorem any_take_eq_any_range (bs : List Bool) (n : Nat) : (bs.take n).any id = (List.range n).any fun u => bs.getD u false := by
  induction bs generalizing n with
  | nil => simp
  | cons b bs ih =>
    cases n with
    | zero => rfl
    | succ n => rw [List.take_succ_cons, List.any_cons, ih, List.range_succ_eq_map, List.any_cons, List.any_map]; rfl

theorem widen_length (bs : List Bool) : (widen bs).length = bs.length / 8 * 8 :=
  length_flatMap_range (fun _ => List.length_replicate) _

/-- Bit `i` of the widened bits: any bit of `i`'s granule, up to the last whole one. -/
theorem widen_getD (bs : List Bool) {i : Nat} (hi : i < bs.length / 8 * 8) :
    (widen bs).getD i false = (List.range 8).any fun u => bs.getD (i / 8 * 8 + u) false := by
  have hblock : i / 8 * 8 + i % 8 = i := by omega
  have h := getD_flatMap_range (f := fun u => List.replicate 8 (((bs.drop (8 * u)).take 8).any id)) (fun _ => List.length_replicate)
    (show i / 8 < bs.length / 8 by omega) (show i % 8 < 8 by omega) false
  rw [hblock] at h
  rw [widen, h, List.getD_eq_getElem?_getD, List.getElem?_replicate_of_lt (Nat.mod_lt i (by decide)), Option.getD_some, any_take_eq_any_range]
  simp only [List.getD_eq_getElem?_getD, List.getElem?_drop, Nat.mul_comm 8]

/-! ### The bytes of a bitmap -/

/-- The sum of powers of two at the places of the true bits. -/
theorem testBit_foldl_bits (l : List Bool) {a n acc u : Nat} (hacc : acc < 2 ^ a) (hu : u < a + n) :
    (((List.range' a n).zip l).foldl (fun acc (u, b) => if b then acc + 2 ^ u else acc) acc).testBit u =
      if u < a then acc.testBit u else l.getD (u - a) false := by
  induction n generalizing l a acc with
  | zero => simp [show u < a by omega]
  | succ n ih =>
    cases l with
    | nil =>
      have hhigh : ¬u < a → acc.testBit u = false := fun h =>
        Nat.testBit_lt_two_pow (Nat.lt_of_lt_of_le hacc (Nat.pow_le_pow_right Nat.two_pos (Nat.not_lt.mp h)))
      by_cases hlt : u < a <;> simp [hlt, hhigh]
    | cons b l =>
      have hnext : (if b = true then acc + 2 ^ a else acc) < 2 ^ (a + 1) := by
        rw [Nat.pow_succ]
        split <;> omega
      rw [List.range'_succ, List.zip_cons_cons, List.foldl_cons, ih l hnext (by omega)]
      obtain hlt | rfl | hgt := Nat.lt_trichotomy u a
      · cases b <;> simp [hlt, Nat.lt_succ_of_lt hlt, Nat.add_comm acc, Nat.testBit_two_pow_add_gt hlt]
      · cases b <;> simp [Nat.add_comm acc, Nat.testBit_two_pow_add_eq, Nat.testBit_lt_two_pow hacc]
      · rw [if_neg (by omega), if_neg (by omega), show u - a = u - (a + 1) + 1 by omega, List.getD_cons_succ]

theorem bitmapBytes_length (bs : List Bool) : (bitmapBytes bs).length = (bs.length + 31) / 32 * 4 := by simp [bitmapBytes, ceilDiv]

/-- Bit `u` of byte `b` of a bitmap (R234); the bits behind the list are 0. -/
theorem bitmapBytes_getD (bs : List Bool) {b u : Nat} (hb : b < (bs.length + 31) / 32 * 4) (hu : u < 8) :
    ((bitmapBytes bs).getD b 0).getLsbD u = bs.getD (8 * b + u) false := by
  have hb' : b < (bitmapBytes bs).length := by rwa [bitmapBytes_length]
  rw [← List.getElem_eq_getD 0 (h := hb')]
  simp only [bitmapBytes, List.getElem_map, List.range_eq_range']
  rw [BitVec.getLsbD_ofNat, testBit_foldl_bits _ (by decide) (by omega)]
  simp [hu, List.getElem?_drop]

/-! ### GUARD.SEL (R237, R238) -/

theorem toInt_ofNat_eq_signedOf (b c : Nat) (hb : 0 < b) : (BitVec.ofNat b c).toInt = signedOf b c := by
  obtain ⟨b, rfl⟩ := Nat.exists_eq_add_of_lt hb
  rw [BitVec.toInt_eq_toNat_cond, BitVec.toNat_ofNat, signedOf]
  simp only [Nat.zero_add, Nat.add_sub_cancel, Nat.pow_succ']
  split <;> split <;> omega

theorem truncate_eq_ofNat (v : W64) : v.truncate 32 = BitVec.ofNat 32 v.toNat := BitVec.eq_of_toNat_eq (by simp)

theorem truncate_eq_ofNat_bits (v : W64) : BitVec.ofNat 32 (bits v.toNat 0 32) = v.truncate 32 := by
  rw [bits_low, ofNat_mod_two_pow, truncate_eq_ofNat]

/-- Where GUARD.SEL reads its scores. -/
def State.selScores (s : State) (k c : Nat) (w : W64) : Nat := (s.sA k c w).toNat % 2 ^ 22

/-- Where it writes its bitmap. -/
def State.selBitmap (s : State) (k c : Nat) (w : W64) : Nat := (s.sA k c w).toNat / 2 ^ 32 % 2 ^ 22

/-- The number of its neurons, NN. -/
def selCount (w : W64) : Nat := fImm w % 2 ^ 17

/-- The number of neurons that TOPK selects, K. -/
def State.selFill (s : State) (k c : Nat) (w : W64) : Nat := (s.sB k c w).toNat / 2 ^ 32 % 2 ^ 17

/-- What the spec asks of a GUARD.SEL that executes (R237, R238, R300, R350): INT16 or BF16 scores of whole granules, at most 65,536; in TOPK mode a K
that they can fill; a BF16 threshold that is a number; aligned addresses, and regions in the scratchpad. -/
structure State.GuardSelFits (s : State) (k c : Nat) (w : W64) : Prop where
  format : fFmt w = 7 ∨ fFmt w = 12
  granules : selCount w % 8 = 0
  most : selCount w ≤ 65536
  fills : bit (fImm w) 17 = true → selCount w ≠ 0 → 0 < s.selFill k c w ∧ s.selFill k c w ≤ selCount w
  number : fFmt w = 12 → (f32 ((s.sB k c w).truncate 32)).isNaN = false
  scoresAligned : s.selScores k c w % 2 = 0
  bitmapAligned : s.selBitmap k c w % 4 = 0
  scoresEnd : s.selScores k c w + 2 * selCount w ≤ 0x300000
  bitmapEnd : s.selBitmap k c w + (selCount w + 31) / 32 * 4 ≤ 0x300000

/-- The code of a neuron's score. -/
def State.selScore (s : State) (k c : Nat) (w : W64) (i : Nat) : Nat := readNat (s.core k).scratch (s.selScores k c w + 2 * i) 2

/-- Whether GUARD.SEL selects neuron `i`, before the widening (R237). -/
def State.selects (s : State) (k c : Nat) (w : W64) (i : Nat) : Bool :=
  if bit (fImm w) 17 then decide (ranksBefore (fun j => scoreKey (fFmt w) (s.selScore k c w j)) (selCount w) i < s.selFill k c w)
  else if fFmt w = 7 then decide (BitVec.toInt ((s.sB k c w).truncate 32) < (BitVec.ofNat 16 (s.selScore k c w i)).toInt)
  else (f32 ((s.sB k c w).truncate 32)).lt (elemValue 12 (s.selScore k c w i))

/-- The selection as the instruction computes it. -/
def State.selection (s : State) (k c : Nat) (w : W64) : List Bool :=
  let scores := (List.range (selCount w)).map (s.selScore k c w)
  let t := (s.sB k c w).toNat
  if bit (fImm w) 17 then topK (scores.map (scoreKey (fFmt w))) (s.selFill k c w)
  else scores.map fun score =>
    if fFmt w = 7 then decide (signedOf 32 t < signedOf 16 score) else (f32 ((s.sB k c w).truncate 32)).lt (elemValue 12 score)

/-- The core with the selection's bitmap written, widened to whole granules. -/
def State.selected (s : State) (k c : Nat) (w : W64) : Core :=
  { s.core k with scratch := writeBytes (s.core k).scratch (s.selBitmap k c w) (bitmapBytes (widen (s.selection k c w))) }

section
variable {s : State} {k c : Nat} {w : W64}

/-- The selection as computed is the one of R237. -/
theorem State.GuardSelFits.selection_getD (h : s.GuardSelFits k c w) {i : Nat} (hi : i < selCount w) :
    (s.selection k c w).getD i false = s.selects k c w i := by
  unfold State.selection State.selects
  dsimp only
  split
  case isTrue htop =>
    obtain ⟨hpos, hmax⟩ := h.fills htop (Nat.ne_zero_of_lt hi)
    rw [List.map_map]
    exact topK_getD_eq_ranksBefore_lt (fun j => scoreKey_lt ..) hpos hmax hi
  case isFalse =>
    rw [truncate_eq_ofNat, toInt_ofNat_eq_signedOf 32 _ (by decide), toInt_ofNat_eq_signedOf 16 _ (by decide)]
    simp [hi]

theorem State.selection_length : (s.selection k c w).length = selCount w := by
  unfold State.selection
  split <;> simp [topK, markTop_length]

theorem State.GuardSelFits.widened_length (h : s.GuardSelFits k c w) : (widen (s.selection k c w)).length = selCount w := by
  rw [widen_length, State.selection_length, Nat.div_mul_cancel (Nat.dvd_of_mod_eq_zero h.granules)]

theorem State.GuardSelFits.bitmap_length (h : s.GuardSelFits k c w) :
    (bitmapBytes (widen (s.selection k c w))).length = (selCount w + 31) / 32 * 4 := by
  rw [bitmapBytes_length, h.widened_length]

/-- Bit `i` of the bitmap: any neuron of `i`'s granule selected; 0 behind the last neuron (R237). -/
theorem State.GuardSelFits.bitmap_getLsbD (h : s.GuardSelFits k c w) {i : Nat} (hi : i < (selCount w + 31) / 32 * 32) :
    ((bitmapBytes (widen (s.selection k c w))).getD (i / 8) 0).getLsbD (i % 8) =
      (decide (i < selCount w) && (List.range 8).any fun u => s.selects k c w (i / 8 * 8 + u)) := by
  rw [bitmapBytes_getD _ (by rw [h.widened_length]; omega) (Nat.mod_lt i (by decide)), Nat.div_add_mod]
  have hgranules := h.granules
  by_cases hin : i < selCount w
  · rw [widen_getD _ (by rw [State.selection_length]; omega), decide_eq_true hin, Bool.true_and]
    have hselects : ∀ u < 8, (s.selection k c w).getD (i / 8 * 8 + u) false = s.selects k c w (i / 8 * 8 + u) := fun u hu =>
      h.selection_getD (by omega)
    rw [Bool.eq_iff_iff, List.any_eq_true, List.any_eq_true]
    exact exists_congr fun u => and_congr_right fun hu => by rw [hselects u (List.mem_range.mp hu)]
  · rw [List.getD_eq_getElem?_getD, List.getElem?_eq_none (by rw [h.widened_length]; omega), Option.getD_none, decide_eq_false hin, Bool.false_and]

theorem State.GuardSelFits.bit_of_bitmap (h : s.GuardSelFits k c w) {i : Nat} (hi : i < (selCount w + 31) / 32 * 32) :
    (sget 0 (s.selected k c w).scratch (s.selBitmap k c w + i / 8)).getLsbD (i % 8) =
      (decide (i < selCount w) && (List.range 8).any fun u => s.selects k c w (i / 8 * 8 + u)) := by
  rw [← h.bitmap_getLsbD hi, State.selected, sget_writeBytes_inside _ _ _ _ (by rw [h.bitmap_length]; omega)]

theorem State.GuardSelFits.outside_bitmap (h : s.GuardSelFits k c w) {b : Nat}
    (hb : b < s.selBitmap k c w ∨ s.selBitmap k c w + (selCount w + 31) / 32 * 4 ≤ b) :
    sget 0 (s.selected k c w).scratch b = sget 0 (s.core k).scratch b :=
  sget_writeBytes_outside _ _ _ _ (by rwa [h.bitmap_length])

/-- What a GUARD.SEL that is not refused answers. -/
def State.selIssued (s : State) (k c : Nat) (w : W64) : Issued :=
  if selCount w = 0 then .go (s.launch k c .guard 6 [] [] .empty)
  else if (s.core k).arraysBusy || (s.core k).vecStalled then .hold
  else .go ((s.setCore k (s.selected k c w)).launch k c .guard 6 [] [] .plain)

/-- A GUARD.SEL that the spec lets execute is not refused. -/
theorem State.GuardSelFits.exec_of_go (h : s.GuardSelFits k c w) (haccepts : s.Accepts k c w 0x70 0 .guard) {X : State}
    (hgo : s.selIssued k c w = .go X) : exec (.guardSel k c w) s = s.afterIssue k c w X := by
  obtain ⟨hformat, hgranules, hmost, hfills, hnumber, hscores, hbitmap, hscoresEnd, hbitmapEnd⟩ := h
  have hcount : bits (fImm w) 0 17 = selCount w := bits_low ..
  have hsa : bits ((s.ctx k c).readS (fA w)).toNat 0 22 = s.selScores k c w := bits_low ..
  have hba : bits ((s.ctx k c).readS (fA w)).toNat 32 22 = s.selBitmap k c w := rfl
  have hfill : bits ((s.ctx k c).readS (fB w)).toNat 32 17 = s.selFill k c w := rfl
  have hthreshold : BitVec.ofNat 32 (bits ((s.ctx k c).readS (fB w)).toNat 0 32) = (s.sB k c w).truncate 32 := truncate_eq_ofNat_bits _
  have hrole : (fFmt w == 7 || fFmt w == 12) = true := by simpa using hformat
  have htop : (bit (fImm w) 17 && selCount w != 0 && (s.selFill k c w == 0 || decide (selCount w < s.selFill k c w))) = false := by
    simpa [and_imp, Nat.pos_iff_ne_zero] using hfills
  have hend : inScratch (s.selBitmap k c w) (ceilDiv (selCount w) 32 * 4) = true := inScratch_of_le hbitmapEnd
  have hnan : (fFmt w == 12 && isNaN32 ((s.sB k c w).truncate 32)) = false := by simpa [isNaN32] using hnumber
  refine issue_of_accepts haccepts (Eq.trans ?_ hgo)
  simp only [hcount, hsa, hba, hfill, hthreshold, hrole, htop, hnan, hgranules, hscores, hbitmap, Nat.not_lt.mpr hmost, inScratch_of_le hscoresEnd,
    hend, bne_self_eq_false, decide_false, Bool.not_true, Bool.or_self, Bool.false_eq_true, if_false]
  rfl

theorem State.GuardSelFits.exec_empty (h : s.GuardSelFits k c w) (haccepts : s.Accepts k c w 0x70 0 .guard) (hnone : selCount w = 0) :
    exec (.guardSel k c w) s = s.afterIssue k c w (s.launch k c .guard 6 [] [] .empty) :=
  h.exec_of_go haccepts (if_pos hnone)

theorem State.GuardSelFits.exec_selects (h : s.GuardSelFits k c w) (haccepts : s.Accepts k c w 0x70 0 .guard) (hsome : selCount w ≠ 0)
    (harrays : (s.core k).arraysBusy = false) (hvec : (s.core k).vecStalled = false) :
    exec (.guardSel k c w) s = s.afterIssue k c w ((s.setCore k (s.selected k c w)).launch k c .guard 6 [] [] .plain) :=
  h.exec_of_go haccepts (by simp [State.selIssued, hsome, harrays, hvec])

end

/-- Settles O15: a GUARD.SEL that fits writes the bytes of the widened selection, whose bits the lemmas on bitmaps, granules and the K highest keys
read. -/
theorem guardSelectWritesItsBitmap : Obligations.GuardSelectWritesItsBitmap := by
  intro k c w s x sa ba nn top kk f score threshold key chosen hissues hroom hformat hgranules hmost hfills hnumber hscores hbitmap hscoresEnd hbitmapEnd
  have hfits : s.GuardSelFits k c w := ⟨hformat, hgranules, hmost, hfills, hnumber, hscores, hbitmap, hscoresEnd, hbitmapEnd⟩
  have haccepts : s.Accepts k c w 0x70 0 .guard := ⟨hissues, hroom⟩
  exact ⟨fun hnone => hfits.exec_empty haccepts hnone, fun hsome harrays hvec => ⟨(s.selected k c w).scratch,
    hfits.exec_selects haccepts hsome harrays hvec, fun i hi => hfits.bit_of_bitmap hi, fun b hb => hfits.outside_bitmap hb⟩⟩

end Sys2Proof.Machine
end

section
/-! PROOFS. GUARD.RUN and the TAB instructions: descriptors that fit raise no refusal, and the instruction enters its unit's queue. -/

namespace Sys2Proof.Machine

/-! ### GUARD.RUN (R239, R240) -/

/-- A GUARD.RUN that fits is not refused: neither for a format nor for a field. -/
theorem guardRefusal_of_fits {w : W64} {t : TileIssue} {tm : TermDesc} {xt yt : Tensor} (h : GuardFits w t tm xt yt) :
    guardRefusal w t tm xt yt = none := by
  obtain ⟨hroles, hx, hy, hplanes, hless, htrans, htd, hfmt, hstream, hsplit, hxelem, hyelem, hxbad, hybad, htm, hsel, hmiss, hyring, horing⟩ := h
  refine (if_neg ?roles).trans (if_neg ?ranges)
  case roles => simpa using hroles
  case ranges =>
    have hnone : (bits (fImm w) 22 4 == 0) = false := beq_false_of_ne (Nat.ne_of_gt hplanes)
    simp only [hx, hy, hnone, Nat.not_le.mpr hless, htrans, htd, hfmt, hstream, hsplit, hxelem, hyelem, hxbad, hybad, htm, hsel, hmiss, hyring, horing,
      bne_self_eq_false, decide_false, Option.isSome_none, Bool.not_true, Bool.or_self, Bool.false_eq_true, not_false_eq_true]

/-- The pass that a GUARD.RUN puts in flight, with the latch rows of its arrays that fail their parity check (R88). -/
def guardJob (w : W64) (t : TileIssue) (ps : List (Nat × Nat × Nat)) : TileJob :=
  { mkJob .guard w t 0 t.d.nb 0 with parity := ps.filter fun p => t.d.arrays.contains p.1 }

/-- A product of a tile instruction with nothing to compute (R58, R319). -/
def TileIssue.noWork (t : TileIssue) : Bool :=
  (readTensor t.xt.toNat).isEmpty || (readTensor t.yt.toNat).isEmpty || t.d.nb == 0 || t.d.kb == 0

/-- The state once both tensor descriptors have been read (R395). -/
def State.readDescs (s : State) (k : Nat) (d : TileDesc) : State := (s.touchAt k d.xdesc 64).touchAt k d.ydesc 64

section
variable {s : State} {k c : Nat} {w : W64} {t : TileIssue} (ps : List (Nat × Nat × Nat)) (haccepts : s.Accepts k c w 0x71 0 .guard)
  (htile : s.tileIssue k c w .guard = .ok t) (hfits : GuardFits w t (termOf w t.aux.toNat) (readTensor t.xt.toNat) (readTensor t.yt.toNat))
  (hguard : (s.core k).guarding = false)
include haccepts htile hfits hguard

theorem exec_guardRun_empty (hempty : t.noWork = true) :
    exec (.guardRun k c { word := w, parity := ps }) s =
      s.afterIssue k c w ((s.readDescs k t.d).launch k c .guard 6 t.use.objDone.toList [] .empty) := by
  unfold TileIssue.noWork at hempty
  refine issue_of_accepts haccepts ?_
  simp only [guardIssue, htile, guardRefusal_of_fits hfits, hguard, hempty, Bool.not_true, Bool.false_and, Bool.or_self, Bool.false_eq_true, if_false,
    if_true]
  rfl

theorem exec_guardRun_pass (hwork : t.noWork = false) (hhole : s.tileHole ((guardJob w t ps).ctx k 0) t.d.nb = false)
    (hsplit : (s.core k).sheaf.split = 0 ∨ (s.core k).tilesInFlight = false) :
    exec (.guardRun k c { word := w, parity := ps }) s = s.afterIssue k c w
      (((s.readDescs k t.d).setCore k ((s.core k).setSplit 0)).launch k c .guard 6 t.use.objDone.toList [] (.tile (guardJob w t ps))) := by
  have hwait : ((s.core k).sheaf.split != 0 && (s.core k).tilesInFlight) = false := by
    obtain h | h := hsplit <;> simp [h]
  unfold TileIssue.noWork at hwork
  unfold guardJob at hhole ⊢
  refine issue_of_accepts haccepts ?_
  simp only [guardIssue, htile, guardRefusal_of_fits hfits, hguard, hwork, hhole, hwait, core_touchAt, Bool.not_false, Bool.true_and, Bool.or_self,
    Bool.false_eq_true, if_false]
  rfl

end

/-! ### TAB.STREAM and TAB.LOG (R247 to R250, R253, R259) -/

/-- A TAB instruction that fits is not refused: neither for a role, nor for a field, nor for the unit's tag. -/
theorem tabRefusal_of_fits {x : Core} {log : Bool} {w : W64} {t : TileIssue} {e : EpiDesc} {xt yt : Tensor} (h : TabFits x log w t e xt yt) :
    tabRefusal x log w t e xt yt = none := by
  obtain ⟨hyrole, hfmt, hxrole, hxscale, hepi, hstream, hsheaf, hsplit, hpack, hconv, horder, hcorr, hxbad, hybad, hyelem, hring, htag⟩ := h
  have hxelem : (xt.fmt == 14 && !xt.elem) = false := by
    obtain h | h | ⟨-, h⟩ := hxrole <;> simp [h]
  have hxok : (xt.fmt == 12 || xt.fmt == 13 || xt.fmt == 14) = true := by
    obtain h | h | ⟨h, -⟩ := hxrole <;> simp [h]
  refine (if_neg ?roles).trans <| (if_neg ?epilogue).trans <| (if_neg ?ranges).trans (if_neg ?tag)
  case roles =>
    cases log
    · obtain ⟨hint, hzero⟩ : yt.fmt ≤ 2 ∧ (yt.sfmt = 3 → yt.fmt ≠ 0) := hyrole
      simpa [tabRoleBad, hxelem, hxok, hxscale, hfmt, hint] using hzero
    · obtain ⟨hlog, hscale⟩ : yt.fmt = 11 ∧ (yt.sfmt = 0 ∨ yt.sfmt = 2) := hyrole
      simpa [tabRoleBad, hxelem, hxok, hxscale, hfmt, hlog] using hscale.resolve_left
  case epilogue => simp [hepi]
  case ranges => simp [hfmt, hstream, hsheaf, hsplit, hpack, hconv, horder, hcorr, hxbad, hybad, hyelem, hepi, hring]
  case tag =>
    cases hstart : tStart w
    · simp [htag hstart]
    · simp

/-- The product that a TAB instruction puts in flight. -/
def Core.tabJob (x : Core) (log : Bool) (w : W64) (t : TileIssue) : TileJob :=
  mkJob (if log then .log else .table) w t (sget 0 x.sheaf.epi 0) t.d.nb (ceilDiv t.d.nb 32)

/-- The core with the table unit's tag written by START, and its path shown. -/
def Core.takeTab (x : Core) (log : Bool) (w : W64) (t : TileIssue) : Core :=
  { x with tab := { x.tab with
      tag := if tStart w then { valid := true, kind := 1, fx := (readTensor t.xt.toNat).fmt, fy := (readTensor t.yt.toNat).fmt } else x.tab.tag
      path := if log then 1 else 0 } }

section
variable {s : State} {k c : Nat} {w : W64} {t : TileIssue} {log : Bool} (htile : s.tileIssue k c w .table = .ok t)
  (hfits : TabFits (s.core k) log w t (readEpi (sget 0 (s.core k).sheaf.epi 0).toNat) (readTensor t.xt.toNat) (readTensor t.yt.toNat))
  (hfree : ∀ o ∈ (s.core k).ops, o.unit ≠ .tab) (hepi : (s.core k).epiLoading 0 = false)
include htile hfits hfree hepi

theorem tabIssue_empty (hempty : t.noWork = true) :
    tabIssue log k c w s = .go (s.launch k c .tab 4 t.use.objDone.toList [] .empty) := by
  have hwait : ((s.core k).ops.any fun o => o.unit == .tab) = false := by simpa using hfree
  unfold TileIssue.noWork at hempty
  simp only [tabIssue, htile, tabRefusal_of_fits hfits, hwait, hepi, hempty, Bool.not_true, Bool.false_and, Bool.or_self, Bool.false_eq_true, if_false,
    if_true]

theorem tabIssue_product (hwork : t.noWork = false) (hhole : s.tileHole (((s.core k).tabJob log w t).ctx k 0) t.d.nb = false) :
    tabIssue log k c w s = .go (((s.setCore k ((s.core k).takeTab log w t)).readDescs k t.d).launch k c .tab 4 t.use.objDone.toList []
      (.tile ((s.core k).tabJob log w t))) := by
  have hwait : ((s.core k).ops.any fun o => o.unit == .tab) = false := by simpa using hfree
  unfold TileIssue.noWork at hwork
  unfold Core.tabJob at hhole ⊢
  simp only [tabIssue, htile, tabRefusal_of_fits hfits, hwait, hepi, hwork, hhole, Bool.not_false, Bool.true_and, Bool.or_self, Bool.false_eq_true,
    if_false]
  rfl

end

/-- The two TAB instructions, each with its opcode and whether it is the logarithmic one. -/
def tabRows : List ((Nat × Bool) × (Nat → Nat → W64 → Instr)) := [((0x50, false), .tabStream), ((0x51, true), .tabLog)]

theorem exec_tabRow {row : (Nat × Bool) × (Nat → Nat → W64 → Instr)} (hrow : row ∈ tabRows) (k c : Nat) (w : W64) (s : State) :
    exec (row.2 k c w) s = issue k c w (spells w row.1.1 0) (unitIssue s k .tab (tabIssue row.1.2 k c w s)) s := by
  obtain rfl | rfl : row = ((0x50, false), Instr.tabStream) ∨ row = ((0x51, true), Instr.tabLog) := by simpa [tabRows] using hrow
  · rfl
  · rfl

/-- Settles O19: a GUARD.RUN and a TAB instruction that fit are not refused; each enters its unit's queue, with nothing but its entry where it has
nothing to compute. -/
theorem guardPassAndTableProductsEnterTheirUnits : Obligations.GuardPassAndTableProductsEnterTheirUnits := by
  intro k c w ps s t
  refine ⟨fun haccepts htile hfits hguard => ⟨fun hempty => exec_guardRun_empty ps haccepts htile hfits hguard hempty,
    fun hwork hhole hsplit => exec_guardRun_pass ps haccepts htile hfits hguard hwork hhole hsplit⟩,
    fun row hrow haccepts htile hfits hfree hepi => ⟨fun hempty => ?_, fun hwork hhole => ?_⟩⟩
  · rw [exec_tabRow hrow]
    exact issue_of_accepts haccepts (tabIssue_empty htile hfits hfree hepi hempty)
  · rw [exec_tabRow hrow]
    exact ⟨(s.core k).takeTab row.1.2 w t, rfl, rfl, issue_of_accepts haccepts (tabIssue_product htile hfits hfree hepi hwork hhole)⟩

end Sys2Proof.Machine
end

section
/-! PROOFS. The exact unit's VEC instructions: what each writes into the lanes of v[D] or into s[D], the fixed tree of a reduction, the table that
VEC.TLOAD loads, and the adds that VEC.SADD presents. -/

namespace Sys2Proof.Machine

/-! ### Issue behind a VEC.SADD (R339) -/

/-- Behind a VEC.SADD that stalls, a VEC instruction waits. -/
theorem vecIssue_stalled {s : State} {k c opc sel : Nat} {w : W64} (h : s.Issues k c w opc sel) (hstalled : (s.core k).vecStalled = true) (r : Issued) :
    issue k c w (spells w opc sel) (vecIssue s k r) s = .next s := by
  obtain ⟨hready, hwf, hspells⟩ := h
  simp only [issue, vecIssue, hready, hwf, hspells, hstalled, if_true]

theorem vecIssue_free {s : State} {k : Nat} (hfree : (s.core k).vecStalled = false) (r : Issued) : vecIssue s k r = r := by
  rw [vecIssue, hfree, if_neg Bool.false_ne_true]

/-- With no VEC.SADD that stalls, it issues with its own effect. -/
theorem vecIssue_go {s X : State} {k c opc sel : Nat} {w : W64} (h : s.Issues k c w opc sel) (hfree : (s.core k).vecStalled = false) :
    issue k c w (spells w opc sel) (vecIssue s k (.go X)) s = s.afterIssue k c w X := by
  rw [vecIssue_free hfree]
  exact issue_of_issues h

/-! ### Lanes written (R274) -/

theorem sget_writeLanes (m : Sparse W32) (key : Nat) (vs : List W32) (i : Nat) :
    sget 0 (writeLanes m key vs) i = if key ≤ i ∧ i < key + vs.length then vs.getD (i - key) 0 else sget 0 m i := by
  induction vs generalizing m key with
  | nil => rw [writeLanes, List.length_nil, if_neg (by omega)]
  | cons v vs ih =>
    rw [writeLanes, ih, sget_sput, List.length_cons]
    obtain hlt | rfl | hgt := Nat.lt_trichotomy i key
    · rw [if_neg (by omega), if_neg (by omega), if_neg (by omega)]
    · rw [if_neg (by omega), if_pos rfl, if_pos (by omega), Nat.sub_self, List.getD_cons_zero]
    · obtain ⟨j, rfl⟩ := Nat.exists_eq_add_of_lt hgt
      have hindex : key + j + 1 - key = j + 1 := by omega
      have hafter : key + j + 1 - (key + 1) = j := by omega
      have hrange : (key + 1 ≤ key + j + 1 ∧ key + j + 1 < key + 1 + vs.length) ↔ key ≤ key + j + 1 ∧ key + j + 1 < key + (vs.length + 1) := by
        omega
      simp only [hindex, hafter, hrange, List.getD_cons_succ, if_neg (Nat.ne_of_gt hgt)]

/-- A vector register written: each of its 64 lanes holds its entry, every other register what it held. -/
theorem Ctx.readLane_writeV (x : Ctx) (d r : Nat) {vs : List W32} {l : Nat} (hvs : vs.length = 64) (hl : l < 64) :
    (x.writeV d vs).readLane r l = if r = d then vs.getD l 0 else x.readLane r l := by
  have hrange : (64 * d ≤ 64 * r + l ∧ 64 * r + l < 64 * d + vs.length) ↔ r = d := by omega
  simp only [Ctx.readLane, Ctx.writeV, sget_writeLanes, hrange]
  split
  case isTrue h => rw [h, Nat.add_sub_cancel_left]
  case isFalse => rfl

/-- An instruction whose own effect is the 64 lanes of one vector register. -/
theorem afterIssue_putV (s : State) (k c d : Nat) (w : W64) {vs : List W32} (hvs : vs.length = 64) :
    ∃ t, s.afterIssue k c w (s.putV k c d vs) = .next t ∧ WritesLanes s t k c d vs ∧
      t.ctx k c = { s.ctx k c with v := (t.ctx k c).v, pc := (s.ctx k c).pc + 8 } ∧ OnlyContext s t k c ∧ (t.core k).ops = (s.core k).ops := by
  obtain ⟨hframe, hother, hctxs⟩ := (WithinContext.refl s k c).setCtx ((s.ctx k c).writeV d vs)
  obtain ⟨hctx, honly, hops⟩ := setPc_only s (s.putV k c d vs) k c ((s.ctx k c).pc + 8) hframe hother hctxs
  have hput : (s.putV k c d vs).ctx k c = (s.ctx k c).writeV d vs := s.ctx_setCtx_self k c _
  have hputOps : ((s.putV k c d vs).core k).ops = (s.core k).ops := by
    rw [State.putV, State.core_setCtx, if_pos rfl]
    rfl
  rw [hput] at hctx
  rw [State.afterIssue, issued_near (farOfCore_parts (State.putV_parts ..))]
  refine ⟨_, rfl, fun r l hl => ?_, ?_, honly, hops.trans hputOps⟩
  · rw [hctx]
    exact (s.ctx k c).readLane_writeV d r hvs hl
  · rw [hctx]
    rfl

/-! ### The functions of the lanes (R267, R269, R270, R332 to R334) -/

/-- The second operand, lane by lane. -/
theorem operandB_eq_map (x : Ctx) (w : W64) : operandB x w = (List.range 64).map (laneB x w) := by
  unfold operandB laneB Ctx.readV
  cases bit (fImm w) 3
  · rfl
  · simp only [if_true, List.map_const', List.length_range]

theorem vecOp2_lanes (k c : Nat) (w : W64) (n : Nat) (f : W32 → W32 → W32) (s : State) :
    vecOp2 k c w n f s = issue k c w (spells w 0x40 n) (vecIssue s k (.go (s.putV k c (fD w)
      ((List.range 64).map fun l => f (laneA (s.ctx k c) w l) (laneB (s.ctx k c) w l))))) s := by
  rw [vecOp2, operandB_eq_map, Ctx.readV, List.zip_map', List.map_map]
  rfl

theorem vecFn_lanes (k c : Nat) (w : W64) (n : Nat) (f : W32 → W32) (s : State) :
    vecFn k c w n f s = issue k c w (spells w 0x43 n) (vecIssue s k (.go (s.putV k c (fD w)
      ((List.range 64).map fun l => f (laneA (s.ctx k c) w l))))) s := by
  rw [vecFn, Ctx.readV, List.map_map]
  rfl

theorem minF_eq (a b : W32) : minF a b = if (f32 a).isNaN ∨ (f32 b).isNaN then nan32 else if belowF b a then b else a := by
  simp only [minF, isNaN32, Bool.or_eq_true]

theorem maxF_eq (a b : W32) : maxF a b = if (f32 a).isNaN ∨ (f32 b).isNaN then nan32 else if belowF a b then b else a := by
  simp only [maxF, isNaN32, Bool.or_eq_true]

/-- A lane row's instruction writes the row's function of each lane into v[D]. -/
def LaneRow.Computes (row : LaneRow) : Prop :=
  ∀ (k c : Nat) (w : W64) (s : State), exec (row.make k c w) s = issue k c w (spells w row.opc row.sel)
    (vecIssue s k (.go (s.putV k c (fD w) ((List.range 64).map (row.result (s.core k) (s.ctx k c) w))))) s

theorem laneRows_compute : ∀ row ∈ laneRows, row.Computes := by
  simp only [laneRows, List.cons_append, List.nil_append, List.forall_mem_cons, List.not_mem_nil, false_implies, implies_true, and_true]
  refine ⟨?add, ?sub, ?mul, ?min, ?max, ?fma, ?cmp, ?exp2, ?log2, ?rcp, ?rsqrt, ?act, ?dact, ?bcast⟩
  case add => exact fun k c w s => vecOp2_lanes k c w 0 addF s
  case sub => exact fun k c w s => vecOp2_lanes k c w 1 subF s
  case mul => exact fun k c w s => vecOp2_lanes k c w 2 mulF s
  case min =>
    intro k c w s
    simp only [← minF_eq]
    exact vecOp2_lanes k c w 3 minF s
  case max =>
    intro k c w s
    simp only [← maxF_eq]
    exact vecOp2_lanes k c w 4 maxF s
  case fma =>
    intro k c w s
    change execVecFma k c w s = _
    rw [execVecFma, operandB_eq_map, Ctx.readV, Ctx.readV, List.zip_map', List.zip_map', List.map_map]
    rfl
  case cmp =>
    intro k c w s
    change execVecCmp k c w s = _
    rw [execVecCmp, operandB_eq_map, Ctx.readV, List.zip_map', List.map_map, bits_low]
    rfl
  case exp2 => exact fun k c w s => vecFn_lanes k c w 0 exp2F s
  case log2 => exact fun k c w s => vecFn_lanes k c w 1 log2F s
  case rcp => exact fun k c w s => vecFn_lanes k c w 2 rcpF s
  case rsqrt => exact fun k c w s => vecFn_lanes k c w 3 rsqrtF s
  case act =>
    intro k c w s
    change execVecAct k c w s = _
    rw [execVecAct, Ctx.readV, List.map_map]
    rfl
  case dact =>
    intro k c w s
    change execVecDact k c w s = _
    rw [execVecDact, Ctx.readV, Ctx.readV, List.zip_map', List.map_map]
    rfl
  case bcast =>
    intro k c w s
    change execVecBcast k c w s = _
    rw [execVecBcast, List.map_const', List.length_range]

/-! ### The fixed tree (R268, R334) -/

/-- One level of the tree over an even number of lanes. -/
theorem pairLevel_map_range (f : W32 → W32 → W32) (v : Nat → W32) (n : Nat) :
    pairLevel f ((List.range (2 * n)).map v) = (List.range n).map (halve f v) := by
  induction n generalizing v with
  | zero => rfl
  | succ n ih =>
    have htail := ih fun u => v (u + 2)
    rw [Nat.mul_succ, List.range_succ_eq_map, List.range_succ_eq_map, List.range_succ_eq_map]
    simp only [List.map_cons, List.map_map, pairLevel]
    exact congrArg _ htail

/-- `m` levels of the tree. -/
def levels (f : W32 → W32 → W32) (v : Nat → W32) : Nat → Nat → W32
  | 0 => v
  | m + 1 => halve f (levels f v m)

/-- `m` levels of the tree, over 2^m lanes for each of the `n` that are left. -/
theorem foldl_pairLevel (f : W32 → W32 → W32) (v : Nat → W32) (m n : Nat) :
    (List.range m).foldl (fun l _ => pairLevel f l) ((List.range (2 ^ m * n)).map v) = (List.range n).map (levels f v m) := by
  induction m generalizing n with
  | zero => rw [Nat.pow_zero, Nat.one_mul]; rfl
  | succ m ih =>
    rw [List.range_succ, List.foldl_append, List.foldl_cons, List.foldl_nil, Nat.pow_succ, Nat.mul_assoc, ih, pairLevel_map_range, levels]

theorem reduceTree_readV (f : W32 → W32 → W32) (x : Ctx) (r : Nat) : reduceTree f (x.readV r) = sixLevels f (x.readLane r) :=
  congrArg (·.headD 0) (foldl_pairLevel f (x.readLane r) 6 1)

/-- A reduction that issues: its result is the one scalar register that it writes. -/
theorem vecRed_writes {s : State} {k c n : Nat} {w : W64} (f : W32 → W32 → W32) (h : s.Issues k c w 0x46 n) (hfree : (s.core k).vecStalled = false) :
    ∃ t, vecRed k c w n f s = .next t ∧
      WritesScalar s t k c (fD w) (BitVec.ofNat 64 (sixLevels f ((s.ctx k c).readLane (fA w))).toNat) ∧
      OnlyScalars s t k c ((s.ctx k c).pc + 8) ∧ OnlyContext s t k c := by
  obtain ⟨hwrites, hscalars, honly, -⟩ := put_only s k c (fD w) ((sixLevels f ((s.ctx k c).readLane (fA w))).zeroExtend 64) ((s.ctx k c).pc + 8)
  rw [vecRed, vecIssue_go h hfree, reduceTree_readV, State.afterIssue, issued_near (farOfCore_parts (State.putS_parts ..)), BitVec.ofNat_toNat]
  exact ⟨_, rfl, hwrites, hscalars, honly⟩

/-- Settles O11: each lane row computes its function lane by lane, and a reduction's six levels are the halvings of its lanes. -/
theorem laneInstructionsAndReductions : Obligations.LaneInstructionsAndReductions := by
  refine ⟨fun row hrow k c w s hissues => ?_, fun row hrow k c w s hissues hfree => ?_⟩
  · rw [laneRows_compute row hrow]
    refine ⟨fun hstalled => vecIssue_stalled hissues hstalled _, fun hfree => ?_⟩
    rw [vecIssue_go hissues hfree]
    exact afterIssue_putV s k c (fD w) w (by rw [List.length_map, List.length_range])
  · obtain rfl | rfl : row = ((0, addF), Instr.vecRsum) ∨ row = ((1, maxF), Instr.vecRmax) := by simpa using hrow
    · exact vecRed_writes addF hissues hfree
    · exact vecRed_writes maxF hissues hfree

/-! ### The tables of the exact unit (R269, R271) -/

theorem leNat_lt_pow (bs : List Byte) : leNat bs < 256 ^ bs.length := by
  induction bs with
  | nil => exact Nat.one_pos
  | cons b bs ih =>
    have hb := b.isLt
    rw [leNat, List.length_cons, Nat.pow_succ]
    omega

theorem leNat_append (xs ys : List Byte) : leNat (xs ++ ys) = leNat xs + 256 ^ xs.length * leNat ys := by
  induction xs with
  | nil => rw [List.nil_append, leNat, List.length_nil, Nat.pow_zero, Nat.one_mul, Nat.zero_add]
  | cons b xs ih =>
    rw [List.cons_append, leNat, leNat, ih, List.length_cons, Nat.pow_succ', Nat.mul_add, Nat.mul_assoc, Nat.add_assoc]

theorem readNat_lt (m : Sparse Byte) (a n : Nat) : readNat m a n < 256 ^ n := by
  have h := leNat_lt_pow (readBytes m a n)
  rwa [readBytes_length] at h

/-- A number read in two pieces, the low one first. -/
theorem readNat_add (m : Sparse Byte) (a i j : Nat) : readNat m a (i + j) = readNat m a i + 256 ^ i * readNat m (a + i) j := by
  have hbytes : readBytes m a (i + j) = readBytes m a i ++ readBytes m (a + i) j := by
    simp only [readBytes, List.range_add, List.map_append, List.map_map, Function.comp_def, Nat.add_assoc]
  rw [readNat, hbytes, leNat_append, readBytes_length]
  rfl

/-- The two halves of an entry of 8 bytes: the word at its address, and the word behind it. -/
theorem halves_readNat (m : Sparse Byte) (a : Nat) :
    (BitVec.ofNat 64 (readNat m a 8)).extractLsb' 0 32 = BitVec.ofNat 32 (readNat m a 4) ∧
    (BitVec.ofNat 64 (readNat m a 8)).extractLsb' 32 32 = BitVec.ofNat 32 (readNat m (a + 4) 4) := by
  have hsum : readNat m a 8 = readNat m a 4 + 256 ^ 4 * readNat m (a + 4) 4 := readNat_add m a 4 4
  have hlow := readNat_lt m a 4
  have hhigh := readNat_lt m (a + 4) 4
  constructor <;>
  · apply BitVec.eq_of_toNat_eq
    simp only [BitVec.extractLsb'_toNat, BitVec.toNat_ofNat, Nat.shiftRight_eq_div_pow]
    omega

/-- A run of keys written, each with a value of its own. -/
theorem sget_foldl_sput_run {α : Type} [DecidableEq α] (d : α) (base : Nat) (val : Nat → α) (n : Nat) (m : Sparse α) (j : Nat) :
    sget d ((List.range n).foldl (fun m i => sput d m (base + i) (val i)) m) j = if base ≤ j ∧ j < base + n then val (j - base) else sget d m j := by
  induction n with
  | zero => rw [List.range_zero, List.foldl_nil, if_neg (by omega)]
  | succ n ih =>
    rw [List.range_succ, List.foldl_append, List.foldl_cons, List.foldl_nil, sget_sput, ih]
    by_cases hj : j = base + n
    · rw [if_pos hj, if_pos (by omega), hj, Nat.add_sub_cancel_left]
    · have hrun : (base ≤ j ∧ j < base + (n + 1)) ↔ base ≤ j ∧ j < base + n := by omega
      simp only [if_neg hj, hrun]

/-- Where ACT and DER begin in the unit's entries. -/
def tableBase (der : Bool) : Nat := if der then 256 else 0

/-- The entries once the 256 pairs at `a` of the scratchpad `m` stand in one table. -/
def loadedEntries (entries : Sparse W64) (m : Sparse Byte) (a base : Nat) : Sparse W64 :=
  (List.range 256).foldl (fun es i => sput 0 es (base + i) (BitVec.ofNat 64 (readNat m (a + 8 * i) 8))) entries

/-- The tables once VEC.TLOAD has loaded the one that it names, with its XMIN and INV_W. -/
def ExactTables.loaded (t : ExactTables) (m : Sparse Byte) (a : Nat) (xmin invw : W32) (der : Bool) : ExactTables :=
  { (if der then { t with derXmin := xmin, derInvw := invw } else { t with actXmin := xmin, actInvw := invw } : ExactTables) with
    entries := loadedEntries t.entries m a (tableBase der) }

section
variable (t : ExactTables) (m : Sparse Byte) (a : Nat) (xmin invw : W32) (der : Bool) {i : Nat}

theorem ExactTables.entries_loaded : (t.loaded m a xmin invw der).entries = loadedEntries t.entries m a (tableBase der) := by
  rw [ExactTables.loaded]

theorem ExactTables.entry_loaded (hi : i < 256) : (t.loaded m a xmin invw der).entry (tableBase der) i =
    (BitVec.ofNat 32 (readNat m (a + 8 * i) 4), BitVec.ofNat 32 (readNat m (a + 8 * i + 4) 4)) := by
  have hread : sget 0 (t.loaded m a xmin invw der).entries (tableBase der + i) = BitVec.ofNat 64 (readNat m (a + 8 * i) 8) := by
    rw [t.entries_loaded, loadedEntries, sget_foldl_sput_run, if_pos ⟨Nat.le_add_right .., Nat.add_lt_add_left hi _⟩, Nat.add_sub_cancel_left]
  obtain ⟨hy, hd⟩ := halves_readNat m (a + 8 * i)
  rw [ExactTables.entry, hread, hy, hd]

theorem ExactTables.entry_loaded_other (hi : i < 256) : (t.loaded m a xmin invw der).entry (tableBase !der) i = t.entry (tableBase !der) i := by
  have hbefore : ¬(tableBase der ≤ tableBase (!der) + i ∧ tableBase (!der) + i < tableBase der + 256) := by
    cases der
    · simp only [tableBase, Bool.not_false, Bool.false_eq_true, if_false, if_true]; omega
    · simp only [tableBase, Bool.not_true, Bool.false_eq_true, if_false, if_true]; omega
  rw [ExactTables.entry, t.entries_loaded, loadedEntries, sget_foldl_sput_run, if_neg hbefore]
  rfl

end

theorem exec_vecTload {s : State} {k c : Nat} {w : W64} (h : s.Issues k c w 0x4A 0) (hfree : (s.core k).vecStalled = false)
    (halign : (s.sA k c w).toNat % 8 = 0) (hend : (s.sA k c w).toNat + 2048 ≤ 0x300000) (hxmin : (f32 ((s.sB k c w).extractLsb' 0 32)).isFinite = true)
    (hinvw : ((f32 ((s.sB k c w).extractLsb' 32 32)).isFinite && FV.zero.lt (f32 ((s.sB k c w).extractLsb' 32 32))) = true) :
    exec (.vecTload k c w) s = s.afterIssue k c w (s.setCore k { s.core k with
      exact := (s.core k).exact.loaded (s.core k).scratch (s.sA k c w).toNat ((s.sB k c w).extractLsb' 0 32) ((s.sB k c w).extractLsb' 32 32)
        (bit (fImm w) 0) }) := by
  change execVecTload k c w s = _
  rw [State.sA] at halign hend
  rw [State.sB] at hxmin hinvw
  rw [← vecIssue_go h hfree]
  simp only [execVecTload, halign, inScratch_of_le hend, hxmin, hinvw, bne_self_eq_false, Bool.not_true, Bool.or_self, Bool.false_eq_true, if_false]
  cases bit (fImm w) 0 <;> rfl

/-! ### VEC.SADD (R209, R339) -/

/-- The adds of a VEC.SADD, one for each lane. -/
theorem exec_vecSadd {s : State} {k c : Nat} {w : W64} (h : s.Issues k c w 0x4B 0) (hfree : (s.core k).vecStalled = false) :
    exec (.vecSadd k c w) s = s.afterIssue k c w ((s.setCore k { s.core k with
      scat := (s.core k).scat.present ((List.range 64).map fun l =>
        { entry := ((s.ctx k c).readLane (fB w) l).toNat % 65536, value := (s.ctx k c).readLane (fA w) l, src := 4, id := (s.core k).nextId })
      }).launch k c .vec 3 [] [] .scatter) := by
  change execVecSadd k c w s = _
  rw [execVecSadd, vecIssue_go h hfree, Ctx.readV, Ctx.readV, List.zip_map', List.map_map]
  rfl

/-- Settles O13: the table loaded reads as the pairs of the scratchpad, the other as before; the adds of VEC.SADD are those of its lanes in order. -/
theorem tableLoadAndScatterAdds : Obligations.TableLoadAndScatterAdds := by
  intro k c w s hfree
  refine ⟨?_, fun hissues => exec_vecSadd hissues hfree⟩
  intro a xmin invw der hissues halign hend hxmin hinvw
  have hder : bit (fImm w) 0 = der := Nat.testBit_zero _
  let loaded := (s.core k).exact.loaded (s.core k).scratch a xmin invw der
  refine ⟨loaded, ?_, fun i hi => ExactTables.entry_loaded _ _ a xmin invw der hi, fun i hi => ?_, ?_⟩
  · rw [exec_vecTload hissues hfree halign hend hxmin hinvw, hder]
  · have hother : (if der then 0 else 256) = tableBase !der := by cases der <;> rfl
    rw [hother]
    exact ExactTables.entry_loaded_other _ _ a xmin invw der hi
  · cases hd : der <;> simp only [loaded, ExactTables.loaded, hd, Bool.false_eq_true, if_false, if_true, and_self]

end Sys2Proof.Machine
end

section
/-! PROOFS. Waits of a context for its core's own earlier work: SCL.FENCE and SCL.HALT at issue, the items that SESS names and ends, and the look at a
waiting context that lets it go on. -/

namespace Sys2Proof.Machine

/-! ### SCL.FENCE and SCL.HALT (R289, R303) -/

theorem Core.inClasses_iff (x : Core) (c mask : Nat) : x.inClasses c mask = true ↔ ∃ o ∈ x.ops, o.ctx = c ∧ mask.testBit o.cls = true := by
  simp [Core.inClasses]

theorem Core.any_ctx_iff (x : Core) (c : Nat) : x.ops.any (·.ctx == c) = true ↔ ∃ o ∈ x.ops, o.ctx = c := by simp

theorem exec_sclFence {s : State} {k c : Nat} {w : W64} (h : s.Issues k c w 0x0F 0) :
    exec (.sclFence k c w) s = s.afterIssue k c w
      (if (s.core k).inClasses c (fImm w % 2048) then s.enterWait k c (.fence (fImm w % 2048)) else s) := by
  change execSclFence k c w s = _
  rw [execSclFence, ← mod_eq_bits 2048 11 rfl, ← apply_ite Issued.go, issue_of_issues h]

theorem exec_sclHalt {s : State} {k c : Nat} {w : W64} (h : s.Issues k c w 0x0F 1) :
    exec (.sclHalt k c w) s = s.afterIssue k c w
      (if (s.core k).ops.any (·.ctx == c) then s.enterWait k c .halt else s.setCtx k c { s.ctx k c with mode := .halted }) := by
  change execSclHalt k c w s = _
  rw [execSclHalt, ← apply_ite Issued.go, issue_of_issues h]

/-- Settles O7: each instruction goes on or waits by whether an instruction in flight of its context is one that it waits for. -/
theorem fenceAndHaltWaitForEarlierWork : Obligations.FenceAndHaltWaitForEarlierWork := by
  intro k c w s mask
  refine ⟨fun hissues hnone => ?_, fun hissues hsome => ?_, fun hissues hnone => ?_, fun hissues hsome => ?_⟩
  · have hfree : ¬(s.core k).inClasses c mask = true := fun h => by
      obtain ⟨o, ho, hctx, hcls⟩ := (Core.inClasses_iff ..).mp h
      exact nomatch (hnone o ho hctx).symm.trans hcls
    rw [exec_sclFence hissues, if_neg hfree]
  · rw [exec_sclFence hissues, if_pos ((Core.inClasses_iff ..).mpr hsome)]
    rfl
  · have hfree : ¬(s.core k).ops.any (·.ctx == c) = true := fun h => by
      obtain ⟨o, ho, hctx⟩ := (Core.any_ctx_iff ..).mp h
      exact hnone o ho hctx
    rw [exec_sclHalt hissues, if_neg hfree]
  · rw [exec_sclHalt hissues, if_pos ((Core.any_ctx_iff ..).mpr hsome)]
    rfl

/-! ### SESS.ITEM (R356) -/

section
variable {s : State} {k c : Nat} {w : W64}

/-- The request and the item that SESS.ITEM names are fields of s[A]. -/
theorem exec_sessItem (h : s.Issues k c w 0xA0 0) (hname : bit (fImm w) 0 = true) {q : Request}
    (hreq : s.request ((s.sA k c w).toNat % 2 ^ 14) = some q) :
    let r := (s.sA k c w).toNat % 2 ^ 14
    let i := (s.sA k c w).toNat / 2 ^ 32 % 2 ^ 32
    exec (.sessItem k c w) s =
      if some q.part = s.partOf k ∧ i < q.count then
        s.afterIssue k c w (s.setCtx k c { s.ctx k c with
          item := { valid := true, failed := (q.item i).isFailed, req := r, item := i, past := (q.item i).status != .open } })
      else s.afterRefusal k c fltArgRange := by
  intro r i
  change execSessItem k c w s = _
  unfold State.sA at hreq
  simp only [execSessItem, bits_low, hname, hreq, if_true]
  split
  next hitem => exact (issue_of_issues h).trans (if_pos hitem).symm
  next hitem => exact (issue_refuse_of_issues h).trans (if_neg hitem).symm

theorem exec_sessItem_unknown (h : s.Issues k c w 0xA0 0) (hname : bit (fImm w) 0 = true)
    (hreq : s.request ((s.sA k c w).toNat % 2 ^ 14) = none) : exec (.sessItem k c w) s = s.afterRefusal k c fltArgRange := by
  change execSessItem k c w s = _
  unfold State.sA at hreq
  simp only [execSessItem, bits_low, hname, hreq, if_true]
  exact issue_refuse_of_issues h

theorem exec_sessItem_none (h : s.Issues k c w 0xA0 0) (hname : bit (fImm w) 0 = false) :
    exec (.sessItem k c w) s = s.afterIssue k c w (s.setCtx k c { s.ctx k c with item := { (s.ctx k c).item with valid := false } }) := by
  change execSessItem k c w s = _
  simp only [execSessItem, hname, Bool.false_eq_true, if_false]
  exact issue_of_issues h

/-! ### SESS.END (R357, R358, R507) -/

theorem Ctx.bind_of_names {x : Ctx} (hvalid : x.item.valid = true) (hpast : x.item.past = false) : x.bind = some (x.item.req, x.item.item) := by
  simp [Ctx.bind, hvalid, hpast]

theorem Core.mem_opsBound (x : Core) (r i n : Nat) : n ∈ x.opsBound r i ↔ ∃ o ∈ x.ops, o.id = n ∧ o.bind = some (r, i) := by
  simp only [Core.opsBound, List.mem_map, List.mem_filter, beq_iff_eq, and_assoc, and_comm (a := _ = n)]

theorem Core.mem_waitsBound (x : Core) (r i n : Nat) :
    n ∈ x.waitsBound r i ↔ n < 4 ∧ ∃ y, (x.ctx n).wait = some y ∧ y.bind = some (r, i) := by
  simp [Core.waitsBound, Option.any_eq_true]

/-- Something of the core that SESS.END waits for: an instruction in flight, or a wait, that is bound to the item. -/
def Core.ItemBusy (x : Core) (name : Option (Nat × Nat)) : Prop :=
  (∃ o ∈ x.ops, o.bind = name) ∨ ∃ n, n < 4 ∧ ∃ y, (x.ctx n).wait = some y ∧ y.bind = name

theorem Core.itemBusy_iff (x : Core) (r i : Nat) : x.ItemBusy (some (r, i)) ↔ x.opsBound r i ≠ [] ∨ x.waitsBound r i ≠ [] := by
  simp only [ne_eq, List.eq_nil_iff_forall_not_mem, not_forall, not_not, Core.mem_opsBound, Core.mem_waitsBound]
  constructor
  · rintro (⟨o, ho, hbind⟩ | hwait)
    · exact .inl ⟨o.id, o, ho, rfl, hbind⟩
    · exact .inr hwait
  · rintro (⟨-, o, ho, -, hbind⟩ | hwait)
    · exact .inl ⟨o, ho, hbind⟩
    · exact .inr hwait

theorem exec_sessEnd_drop (h : s.Issues k c w 0xA1 0) (hfinal : bit (fImm w) 0 = false) (hvalid : (s.ctx k c).item.valid = true) :
    exec (.sessEnd k c w) s = s.afterIssue k c w (s.setCtx k c { s.ctx k c with item := { (s.ctx k c).item with valid := false } }) := by
  change execSessEnd k c w s = _
  simp only [execSessEnd, hfinal, hvalid, Bool.false_and, Bool.not_true, Bool.not_false, Bool.false_eq_true, if_false, if_true]
  exact issue_of_issues h

section Final
variable {p : Nat} (h : s.Issues k c w 0xA1 0) (hfinal : bit (fImm w) 0 = true) (hpart : s.partOf k = some p)
include h hfinal hpart

theorem exec_sessEnd_held (hheld : (s.part p).cplHeld = true) : exec (.sessEnd k c w) s = .next s := by
  obtain ⟨hready, hwf, hspells⟩ := h
  change execSessEnd k c w s = _
  simp only [execSessEnd, hfinal, hpart, hheld, Bool.and_self, if_true]
  simp [issue, hready, hwf, hspells]

variable (hheld : (s.part p).cplHeld = false)
include hheld

theorem exec_sessEnd_unnamed (hnone : (s.ctx k c).item.valid = false ∨ (s.ctx k c).item.past = true) :
    exec (.sessEnd k c w) s = s.afterIssue k c w s := by
  change execSessEnd k c w s = _
  simp only [execSessEnd, hfinal, hpart, hheld, Bool.and_false, Bool.not_true, Bool.false_eq_true, if_false]
  cases hvalid : (s.ctx k c).item.valid
  · exact issue_of_issues h
  · obtain hno | hpast := hnone
    · exact nomatch hvalid.symm.trans hno
    · simp only [hpast, Bool.not_true, Bool.false_eq_true, if_false, if_true]
      exact issue_of_issues h

variable (hvalid : (s.ctx k c).item.valid = true) (hpast : (s.ctx k c).item.past = false)
include hvalid hpast

/-- SESS.END of an item that is not past: the context waits for what is bound to it, or ends the item. -/
theorem exec_sessEnd_named :
    let r := (s.ctx k c).item.req
    let i := (s.ctx k c).item.item
    exec (.sessEnd k c w) s = s.afterIssue k c w
      (if (s.core k).opsBound r i ≠ [] ∨ (s.core k).waitsBound r i ≠ [] then
        s.enterWait k c (.sessEnd ((s.core k).opsBound r i) ((s.core k).waitsBound r i))
       else s.finishItem k r i) := by
  intro r i
  change execSessEnd k c w s = _
  simp only [execSessEnd, hfinal, hpart, hheld, hvalid, hpast, Bool.and_false, Bool.not_true, Bool.false_eq_true, if_false]
  rw [← apply_ite Issued.go, issue_of_issues h]

theorem exec_sessEnd_waits (hbusy : (s.core k).ItemBusy (some ((s.ctx k c).item.req, (s.ctx k c).item.item))) :
    let r := (s.ctx k c).item.req
    let i := (s.ctx k c).item.item
    exec (.sessEnd k c w) s = s.afterIssue k c w (s.setCtx k c { s.ctx k c with
      mode := .wait
      wait := some { kind := .sessEnd ((s.core k).opsBound r i) ((s.core k).waitsBound r i), wdExp := (s.core k).wdExp, bind := some (r, i) } }) := by
  intro r i
  rw [exec_sessEnd_named h hfinal hpart hheld hvalid hpast, if_pos ((Core.itemBusy_iff ..).mp hbusy), State.enterWait, Ctx.bind_of_names hvalid hpast]

theorem exec_sessEnd_finishes (hidle : ¬(s.core k).ItemBusy (some ((s.ctx k c).item.req, (s.ctx k c).item.item))) :
    exec (.sessEnd k c w) s = s.afterIssue k c w (s.finishItem k (s.ctx k c).item.req (s.ctx k c).item.item) := by
  rw [exec_sessEnd_named h hfinal hpart hheld hvalid hpast, if_neg fun hbound => hidle ((Core.itemBusy_iff ..).mpr hbound)]

end Final

end

theorem State.finishItem_over {s : State} {k r i : Nat} (hover : s.itemOpen r i = false) : s.finishItem k r i = s := by
  simp [State.finishItem, hover]

/-- An open item that the program ends: DONE, or FAILED with the fault that it has taken. -/
theorem State.finishItem_open {s : State} {k r i : Nat} {q : Request} (hreq : s.request r = some q) (hcount : i < q.count)
    (hopen : (q.item i).status = .open) :
    s.finishItem k r i = (s.setCore k ((s.core k).clearItem r i)).endItem r i (if (q.item i).fault = 0 then .done else .failed) (q.item i).fault := by
  have hitem : s.itemOpen r i = true := by simp [State.itemOpen, hreq, hcount, hopen]
  simp only [State.finishItem, hitem, hreq, if_true]

/-! ### SESS.STEP (R304) -/

theorem exec_sessStep {s : State} {k c : Nat} {w : W64} (h : s.Issues k c w 0xA2 0) :
    exec (.sessStep k c w) s = s.afterIssue k c w (s.enterWait k c .step) := issue_of_issues h

/-! ### The end of a wait (R357) -/

/-- A table with a function applied to each entry, where the function keeps the default. -/
theorem sget_map {α : Type} {d : α} {f : α → α} (hd : f d = d) (m : Sparse α) (k : Nat) :
    sget d (m.map fun e => (e.1, f e.2)) k = f (sget d m k) :=
  sget_map_rel (R := fun x y => y = f x) (g := fun e => (e.1, f e.2)) hd.symm (fun _ => rfl) (fun _ => rfl) m k

/-- A wait that waits for context `c` no longer. -/
def Wait.without (c : Nat) (y : Wait) : Wait :=
  match y.kind with
  | .sessEnd ids cs => { y with kind := .sessEnd ids (cs.filter (· != c)) }
  | _ => y

/-- A context in whose waits `c` counts no longer. -/
def Ctx.without (c : Nat) (y : Ctx) : Ctx := { y with wait := y.wait.map (Wait.without c) }

theorem Core.endWait_eq (x : Core) (c : Nat) (m : CtxMode) :
    x.endWait c m = { x with ctxs := (x.setCtx c { x.ctx c with mode := m, wait := none }).ctxs.map fun e => (e.1, e.2.without c) } := rfl

/-- The context goes on, and the other waits of its core do so without it. -/
theorem Core.ctx_endWait (x : Core) (c : Nat) (m : CtxMode) (n : Nat) :
    (x.endWait c m).ctx n = if n = c then { x.ctx c with mode := m, wait := none } else (x.ctx n).without c := by
  rw [Core.endWait_eq]
  refine (sget_map rfl _ n).trans ?_
  change (Core.ctx (x.setCtx c _) n).without c = _
  rw [Core.ctx_setCtx]
  split
  · rfl
  · rfl

theorem State.ctx_endWait (s : State) (k c : Nat) (m : CtxMode) (n : Nat) :
    (s.endWait k c m).ctx k n = if n = c then { s.ctx k c with mode := m, wait := none } else (s.ctx k n).without c := by
  rw [State.endWait, State.ctx, State.core_setCore_self, Core.ctx_endWait]
  rfl

/-! ### A context looked at again (R357) -/

section
variable {s : State} {k c e : Nat} {ids cs : List Nat} {b : Option (Nat × Nat)}
  (hwait : (s.ctx k c).wait = some { kind := .sessEnd ids cs, wdExp := e, bind := b })
include hwait

theorem State.recheck_sessEnd :
    s.recheck k c = if (!cs.isEmpty || (s.core k).ops.any fun o => ids.contains o.id) = true then s
      else (b.elim s fun name => s.finishItem k name.1 name.2).endWait k c .run := by
  unfold State.ctx at hwait
  simp only [State.recheck, hwait]
  cases b <;> rfl

theorem State.recheck_sessEnd_busy (hbusy : cs ≠ [] ∨ ∃ o ∈ (s.core k).ops, o.id ∈ ids) : s.recheck k c = s := by
  rw [State.recheck_sessEnd hwait]
  exact if_pos (by simpa [List.isEmpty_iff] using hbusy)

theorem State.recheck_sessEnd_idle (hcs : cs = []) (hids : ∀ o ∈ (s.core k).ops, o.id ∉ ids) :
    s.recheck k c = (b.elim s fun name => s.finishItem k name.1 name.2).endWait k c .run := by
  rw [State.recheck_sessEnd hwait, if_neg (by simpa [hcs] using hids)]

end

/-- Settles O24: SESS.ITEM by what s[A] names, SESS.END by what the context's item is and what is bound to it, and the end of a SESS.END's wait by what is
left of its lists. -/
theorem contextsNameAndEndItems : Obligations.ContextsNameAndEndItems := by
  intro k c w s x r i name bound
  refine ⟨fun hissues hname => ⟨fun q hreq hpart hcount => ?_, fun q hreq hbad => ?_, fun hreq => ?_⟩, fun hissues hname => ?_,
    fun hissues hfinal hvalid => ?_, fun p hissues hfinal hpart => ?_, fun hissues => ?_, fun m n => ?_, fun ids cs e b hwait => ?_⟩
  · rw [exec_sessItem hissues hname hreq]
    exact if_pos ⟨hpart, hcount⟩
  · rw [exec_sessItem hissues hname hreq]
    exact if_neg fun ⟨hpart, hcount⟩ => hbad.elim (· hpart) (by omega)
  · exact exec_sessItem_unknown hissues hname hreq
  · exact exec_sessItem_none hissues hname
  · exact exec_sessEnd_drop hissues hfinal hvalid
  · refine ⟨exec_sessEnd_held hissues hfinal hpart, fun hheld hvalid => ?_, fun hheld _ hpast => ?_, fun hheld hvalid hpast hbound => ?_,
      fun hheld hvalid hpast hidle hover => ?_, fun q hheld hvalid hpast hidle hreq hcount hopen => ?_⟩
    · exact exec_sessEnd_unnamed hissues hfinal hpart hheld (.inl hvalid)
    · exact exec_sessEnd_unnamed hissues hfinal hpart hheld (.inr hpast)
    · exact ⟨_, _, exec_sessEnd_waits hissues hfinal hpart hheld hvalid hpast hbound, Core.mem_opsBound _ _ _, Core.mem_waitsBound _ _ _⟩
    · rw [exec_sessEnd_finishes hissues hfinal hpart hheld hvalid hpast hidle, State.finishItem_over hover]
    · rw [exec_sessEnd_finishes hissues hfinal hpart hheld hvalid hpast hidle, State.finishItem_open hreq hcount hopen]
  · exact exec_sessStep hissues
  · rw [State.ctx_endWait]
    split
    · rfl
    · rfl
  · refine ⟨State.recheck_sessEnd_busy hwait, fun hcs hids => ⟨fun r i hname => ?_, fun hname => ?_⟩⟩
    · subst hname
      exact State.recheck_sessEnd_idle hwait hcs hids
    · subst hname
      exact State.recheck_sessEnd_idle hwait hcs hids

end Sys2Proof.Machine
end

section
/-! PROOFS. SCL.TLD, SCL.IFLUSH and the line fills of the instruction cache: the word that a line holds at a program counter, and what the transfers of
the module's own leave. -/

namespace Sys2Proof.Machine

/-! ### SCL.TLD and SCL.IFLUSH (R282, R326) -/

theorem exec_sclTld {s : State} {k c : Nat} {w : W64} (h : s.Issues k c w 0x0D 0) (halign : (s.sA k c w + sextImm w).toNat % 64 = 0)
    (hend : (s.sA k c w + sextImm w).toNat + 64 ≤ 0x300000) :
    exec (.sclTld k c w) s = s.afterIssue k c w (s.setCtx k c ((s.ctx k c).writeT (fD w)
      (BitVec.ofNat 512 (readNat (s.core k).scratch (s.sA k c w + sextImm w).toNat 64)))) := by
  have hva : addrOf (s.ctx k c) w = (s.sA k c w + sextImm w).toNat := rfl
  change execSclTld k c w s = _
  simp only [execSclTld, hva]
  rw [if_neg (by omega), issue_of_issues h]

/-- A tile register written: after issue the context is as before but for that register, at the next word. -/
theorem afterIssue_writeT (s : State) (k c d : Nat) (w : W64) (v : BitVec 512) :
    ∃ t, s.afterIssue k c w (s.setCtx k c ((s.ctx k c).writeT d v)) = .next t ∧
      (∀ r, (t.ctx k c).readT r = if r = d then v else (s.ctx k c).readT r) ∧
      t.ctx k c = { s.ctx k c with t := (t.ctx k c).t, pc := (s.ctx k c).pc + 8 } ∧ OnlyContext s t k c ∧ (t.core k).ops = (s.core k).ops := by
  let X := s.setCtx k c ((s.ctx k c).writeT d v)
  obtain ⟨hframe, hother, hcore⟩ := (WithinContext.refl s k c).setCtx ((s.ctx k c).writeT d v)
  obtain ⟨hctx, honly, hops⟩ := setPc_only s X k c ((s.ctx k c).pc + 8) hframe hother hcore
  rw [State.ctx_setCtx_self] at hctx
  rw [State.core_setCtx, if_pos rfl] at hops
  have hissued : s.issued k c w X = X.bindItem (s.ctx k c).bind := issued_near (farOfCore_parts rfl)
  rw [State.afterIssue, hissued]
  refine ⟨_, rfl, fun r => ?_, ?_, honly, hops⟩
  · rw [hctx]
    exact Ctx.readT_writeT ..
  · rw [hctx]
    rfl

/-! ### The word in a line (R5, R301) -/

/-- A number read out of a longer one. -/
theorem readNat_piece {m : Sparse Byte} {a i n len : Nat} (h : i + n ≤ len) : readNat m a len / 256 ^ i % 256 ^ n = readNat m (a + i) n := by
  obtain ⟨rest, rfl⟩ := Nat.exists_eq_add_of_le h
  rw [Nat.add_assoc, readNat_add, readNat_add m (a + i), Nat.add_mul_div_left _ _ (by positivity), Nat.div_eq_of_lt (readNat_lt ..), Nat.zero_add,
    Nat.add_mul_mod_self_left, Nat.mod_eq_of_lt (readNat_lt ..)]

theorem two_pow_bytes (n : Nat) : 2 ^ (8 * n) = 256 ^ n := Nat.pow_mul 2 8 n

/-- Bits of a number that its vector holds whole. -/
theorem extractLsb'_ofNat {width v : Nat} (h : v < 2 ^ width) (i n : Nat) :
    (BitVec.ofNat width v).extractLsb' i n = BitVec.ofNat n (v / 2 ^ i) := by
  apply BitVec.eq_of_toNat_eq
  rw [BitVec.extractLsb'_toNat, BitVec.toNat_ofNat, BitVec.toNat_ofNat, Nat.mod_eq_of_lt h, Nat.shiftRight_eq_div_pow]

/-- The word of a line at an address within it. -/
theorem word_of_lineOf {m : Mem} {a : Nat} (h : a % 8 = 0) :
    (lineOf m (a / 64)).extractLsb' (8 * (a % 64)) 64 = BitVec.ofNat 64 (readNat m.bytes a 8) := by
  have hline : readNat m.bytes (64 * (a / 64)) 64 < 2 ^ (8 * 64) := (readNat_lt ..).trans_eq (two_pow_bytes 64).symm
  have hpiece : readNat m.bytes (64 * (a / 64)) 64 / 256 ^ (a % 64) % 2 ^ 64 = readNat m.bytes a 8 := by
    rw [show 2 ^ 64 = 256 ^ 8 from two_pow_bytes 8, readNat_piece (by omega), Nat.div_add_mod]
  rw [lineOf, extractLsb'_ofNat hline, two_pow_bytes, ← hpiece, ofNat_mod_two_pow]

/-- The instruction cache with a line filled. -/
def Core.filled (x : Core) (n : Nat) (line : BitVec 512) : Core := { x with icache := ((n, line) :: x.icache).take icacheLines }

theorem Core.fetched_filled (x : Core) {pc : W64} (halign : pc.toNat % 8 = 0) (line : BitVec 512) :
    (x.filled (pc.toNat / 64) line).fetched pc = some (line.extractLsb' (8 * (pc.toNat % 64)) 64) := by
  simp [Core.fetched, Core.filled, halign, icacheLines]

/-! ### Transfers of the module's own (R464) -/

/-- The state without what a transfer of the module's own that begins can change. -/
def State.offOwn (s : State) : State := { s with parts := [], fabric := { s.fabric with trans := [], waiting := [] } }

theorem State.of_offOwn {s t : State} (h : t.offOwn = s.offOwn) :
    t = { s with parts := t.parts, fabric := { s.fabric with trans := t.fabric.trans, waiting := t.fabric.waiting } } := by
  have hwith : ({ t.offOwn with parts := t.parts, fabric := { t.offOwn.fabric with trans := t.fabric.trans, waiting := t.fabric.waiting } } : State) =
      { s.offOwn with parts := t.parts, fabric := { s.offOwn.fabric with trans := t.fabric.trans, waiting := t.fabric.waiting } } := by rw [h]
  exact hwith

theorem State.startOwn_offOwn (s : State) (w : OwnJob) : (s.startOwn w).offOwn = s.offOwn := by
  unfold State.startOwn
  split <;> rfl

theorem State.startFarOwn_offOwn (s : State) (p : Nat) : (s.startFarOwn p).offOwn = s.offOwn := by
  unfold State.startFarOwn
  split
  · rfl
  · exact foldl_keeps _ State.offOwn (fun t _ => State.startOwn_offOwn t _) _ _

/-- Of the partitions, their notes of Tier F alone are forgotten. -/
theorem State.sameParts_startFarOwn {s t : State} (h : SameParts s t) (p : Nat) : SameParts s (t.startFarOwn p) := by
  intro q
  obtain hparts | hparts := t.startFarOwn_parts p
  · have hq : (t.startFarOwn p).part q = t.part q := by rw [State.part, State.part, hparts]
    rw [hq]
    exact h q
  · have hq : (t.startFarOwn p).part q = (t.setMem p { t.mem p with far := [] }).part q := by rw [State.part, State.part, hparts]
    rw [hq, State.part_setMem]
    by_cases hqp : q = p
    · subst hqp
      rw [if_pos rfl]
      conv => lhs; rw [h q]
      simp only [State.mem]
      conv => lhs; rw [h q]
    · rw [if_neg hqp]
      exact h q

theorem State.startFarOwn_of_near {s : State} {p : Nat} (h : (s.mem p).far = []) : s.startFarOwn p = s := by
  rw [State.startFarOwn, h]
  rfl

theorem State.partOf_touchAt (s : State) (k va n j : Nat) : (s.touchAt k va n).partOf j = s.partOf j := by
  unfold State.touchAt
  split
  · rfl
  · split
    · rfl
    · exact State.partOf_setMem ..

/-! ### ICACHE_LINE_FILL (R295, R301) -/

section
variable {s : State} {k : Nat} {pc : W64}

theorem State.fetchFault_of_bad (h : pc.toNat % 8 ≠ 0 ∨ pc.toNat < 0x400000) : s.fetchFault k pc = some fltIfetch := if_pos h

theorem State.fetchFault_of_unmapped {p : Nat} (halign : pc.toNat % 8 = 0) (hlow : 0x400000 ≤ pc.toNat) (hpart : s.partOf k = some p)
    (hunit : (s.mem p).unitAt (64 * (pc.toNat / 64)) = none) : s.fetchFault k pc = some fltIfetch := by
  have hfail : s.failOf p true (pc.toNat / 64) = some .unmapped := by simp [State.failOf, Mem.failOf, hunit]
  rw [State.fetchFault, if_neg (by omega)]
  simp only [hpart, hfail]

/-- A fetch that meets nothing is aligned, above the addresses that name no memory, and of a core that a partition holds. -/
theorem State.fetchFault_eq_none (h : s.fetchFault k pc = none) :
    pc.toNat % 8 = 0 ∧ 0x400000 ≤ pc.toNat ∧ ∃ p, s.partOf k = some p := by
  unfold State.fetchFault at h
  split at h
  · cases h
  · split at h
    · cases h
    · exact ⟨by omega, by omega, _, ‹_›⟩

end

section
variable {s : State} {k c : Nat} (hk : k < 512) (hc : c < 4) (hrun : (s.ctx k c).mode = .run) (hmiss : (s.core k).misses (s.ctx k c).pc = true)
include hk hc hrun hmiss

theorem exec_icacheLineFill :
    exec (.icacheLineFill k c false) s = match s.fetchFault k (s.ctx k c).pc with
      | some f => .next (s.ctxFault k c f)
      | none => match s.partOf k with
        | none => .next s
        | some p => .next (((s.setCore k ((s.core k).filled ((s.ctx k c).pc.toNat / 64) (lineOf (s.mem p) ((s.ctx k c).pc.toNat / 64)))).touchAt k
            (64 * ((s.ctx k c).pc.toNat / 64)) 64).startFarOwn p) := by
  change execIcacheLineFill k c false s = _
  unfold execIcacheLineFill
  cases hpart : s.partOf k with
  | none =>
    simp only [hpart]
    exact if_pos ⟨hk, hc, hrun, hmiss⟩
  | some p =>
    simp only [hpart, Bool.false_eq_true, if_false]
    exact if_pos ⟨hk, hc, hrun, hmiss⟩

theorem exec_icacheLineFill_faults {f : FaultCode} (hfault : s.fetchFault k (s.ctx k c).pc = some f) :
    exec (.icacheLineFill k c false) s = .next (s.ctxFault k c f) := by
  rw [exec_icacheLineFill hk hc hrun hmiss, hfault]

theorem exec_icacheLineFill_fills {p : Nat} (hfetch : s.fetchFault k (s.ctx k c).pc = none) (hpart : s.partOf k = some p) :
    exec (.icacheLineFill k c false) s =
      .next (((s.setCore k ((s.core k).filled ((s.ctx k c).pc.toNat / 64) (lineOf (s.mem p) ((s.ctx k c).pc.toNat / 64)))).touchAt k
        (64 * ((s.ctx k c).pc.toNat / 64)) 64).startFarOwn p) := by
  rw [exec_icacheLineFill hk hc hrun hmiss, hfetch, hpart]

end

/-- What a line fill leaves: the core with the line, the access counted, and the transfers that begin where the line lies in Tier F. -/
theorem lineFill_spec (s : State) {k p : Nat} (x : Core) (va n : Nat) (hpart : s.partOf k = some p) :
    let t := ((s.setCore k x).touchAt k va n).startFarOwn p
    t.core k = x ∧ SameOtherCores s t k ∧ SameParts s t ∧
      t = { s with cores := t.cores, parts := t.parts, fabric := { s.fabric with trans := t.fabric.trans, waiting := t.fabric.waiting } } ∧
      (s.farOfCore k = [] → s.Near k va n → t.fabric = s.fabric) := by
  intro t
  let u := s.setCore k x
  let v := u.touchAt k va n
  have hown : t = { v with parts := t.parts, fabric := { v.fabric with trans := t.fabric.trans, waiting := t.fabric.waiting } } :=
    State.of_offOwn (v.startFarOwn_offOwn p)
  have hv : v = { u with parts := v.parts } := State.touchAt_frame ..
  have hcore : ∀ j, t.core j = u.core j := fun j => by
    rw [hown]
    exact core_touchAt ..
  refine ⟨?_, fun j hj => ?_, ?_, ?_, fun hfar hnear => ?_⟩
  · rw [hcore]
    exact State.core_setCore_self ..
  · rw [hcore]
    exact (State.core_setCore ..).trans (if_neg hj)
  · exact State.sameParts_startFarOwn (sameParts_touchAt u k va n) p
  · have hcores : t.cores = u.cores := by rw [hown, hv]
    rw [hcores]
    conv => lhs; rw [hown, hv]
    rfl
  · have hvpart : v.partOf k = some p := (u.partOf_touchAt k va n k).trans hpart
    have hvfar : v.farOfCore k = [] := (State.farOfCore_touchAt (s := u) hnear).trans hfar
    have hnone : (v.mem p).far = [] := by simpa only [State.farOfCore, hvpart] using hvfar
    have ht : t = v := State.startFarOwn_of_near hnone
    rw [ht, hv]
    rfl

/-- Settles O36: SCL.TLD and SCL.IFLUSH by their own effects; a line fill by what the fetch of the program counter meets. -/
theorem tileLoadCacheFlushAndLineFill : Obligations.TileLoadCacheFlushAndLineFill := by
  refine ⟨fun k c w s => ⟨fun hissues halign hend => ?_, fun hissues => issue_of_issues hissues⟩, fun k c s => ?_⟩
  · rw [exec_sclTld hissues halign hend]
    exact afterIssue_writeT ..
  · intro x pc hk hc hrun hmiss
    refine ⟨fun hfetch => ?_, fun hbad => ?_, fun p halign hlow hpart hunit => ?_⟩
    · obtain ⟨halign, -, p, hpart⟩ := State.fetchFault_eq_none hfetch
      let line := lineOf (s.mem p) (pc.toNat / 64)
      obtain ⟨hcore, hrest⟩ := lineFill_spec s (x.filled (pc.toNat / 64) line) (64 * (pc.toNat / 64)) 64 hpart
      refine ⟨_, p, exec_icacheLineFill_fills hk hc hrun hmiss hfetch hpart, hpart, ?_, ?_, hrest⟩
      · rw [hcore, Core.fetched_filled x halign, word_of_lineOf halign]
      · rw [hcore]
        rfl
    · exact exec_icacheLineFill_faults hk hc hrun hmiss (State.fetchFault_of_bad hbad)
    · exact exec_icacheLineFill_faults hk hc hrun hmiss (State.fetchFault_of_unmapped halign hlow hpart hunit)

end Sys2Proof.Machine
end

section
/-! PROOFS. Programs: what START and STOP leave, the step boundary and the end of a program. First how a command of a ring ends by the answer of its own
effect, and what a pass over a partition's cores leaves. -/

namespace Sys2Proof.Machine

/-! ### A ring command by its answer (R478, R480) -/

section
variable {s u : State} {p code : Nat} {e : Entry} {body : List (Nat × Nat × Nat)} {f : Owed → State → CmdRes} (h : s.Fetches p code e body)
include h

theorem partCmd_of_fail {c : FaultCode} (hf : f (s.cmdOwed p e) (s.takeCmd p) = .fail u c) : partCmd p code e body s f = s.cmdFails p e u c := by
  rw [partCmd_go h, hf]

theorem partCmd_of_done {r : Nat} (hf : f (s.cmdOwed p e) (s.takeCmd p) = .done u r) : partCmd p code e body s f = s.cmdIsDone p e u r := by
  rw [partCmd_go h, hf]

theorem partCmd_of_owes (hf : f (s.cmdOwed p e) (s.takeCmd p) = .owes u) : partCmd p code e body s f = .next u := by
  rw [partCmd_go h, hf]

end

theorem State.part_takeCmd (s : State) (p : Nat) : (s.takeCmd p).part p = { s.part p with cmd := (s.part p).cmd.advance } :=
  State.part_setPart_self ..

theorem State.part_takeCmd_ne (s : State) {p q : Nat} (h : q ≠ p) : (s.takeCmd p).part q = s.part q :=
  (State.part_setPart ..).trans (if_neg h)

theorem State.setPart_setPart (s : State) (p : Nat) {x : PartBlock} (y : PartBlock) (hx : x.state ≠ .free) :
    (s.setPart p x).setPart p y = s.setPart p y := by
  have hlisted : x ≠ {} := fun h => hx (congrArg PartBlock.state h)
  simp only [State.setPart, sput_sput_self {} s.parts p hlisted]

/-! ### A pass over cores -/

theorem PartBlock.cores_nodup (b : PartBlock) : b.cores.Nodup := by
  unfold PartBlock.cores
  split
  · exact List.nodup_nil
  · exact List.nodup_range.filter _

/-- A pass over cores of which each step changes one core, by what that core is. -/
theorem State.foldl_core {g : State → Nat → State} {f : Nat → Core → Core} (hframe : ∀ s k, g s k = { s with cores := (g s k).cores })
    (hcore : ∀ s k j, (g s k).core j = if j = k then f k (s.core k) else s.core j) {l : List Nat} (hl : l.Nodup) (s : State) :
    l.foldl g s = { s with cores := (l.foldl g s).cores } ∧ ∀ j, (l.foldl g s).core j = if j ∈ l then f j (s.core j) else s.core j := by
  induction l generalizing s with
  | nil => exact ⟨rfl, fun j => rfl⟩
  | cons k l ih =>
    obtain ⟨hk, hl⟩ := List.nodup_cons.mp hl
    obtain ⟨hfold, hcores⟩ := ih hl (g s k)
    rw [List.foldl_cons]
    refine ⟨?_, fun j => ?_⟩
    · exact hfold.trans (congrArg (fun t : State => { t with cores := (l.foldl g (g s k)).cores }) (hframe s k))
    · rw [hcores, hcore]
      by_cases hj : j = k
      · rw [hj, if_neg hk, if_pos rfl, if_pos List.mem_cons_self]
      · simp only [List.mem_cons, hj, if_false, false_or]

/-! ### Contexts at their entry (R302) -/

/-- The state with the cores of a partition as START leaves them. -/
def State.startCores (s : State) (b : PartBlock) (entry args n : Nat) : State :=
  b.cores.foldl (fun u k => u.setCore k ((u.core k).start n (startCtx b k entry args n))) s

theorem State.startCores_spec (s : State) (b : PartBlock) (entry args n : Nat) :
    s.startCores b entry args n = { s with cores := (s.startCores b entry args n).cores } ∧
      ∀ j, (s.startCores b entry args n).core j = if j ∈ b.cores then (s.core j).start n (startCtx b j entry args n) else s.core j :=
  State.foldl_core (f := fun k x => x.start n (startCtx b k entry args n)) (fun _ _ => rfl) (fun s k j => State.core_setCore s k j _) b.cores_nodup s

/-- A table that lists a function's values at the keys of a list. -/
theorem sget_map_graph {α : Type} (d : α) (f : Nat → α) {l : List Nat} {i : Nat} (h : i ∈ l) : sget d (l.map fun j => (j, f j)) i = f i := by
  induction l with
  | nil => cases h
  | cons j l ih =>
    rw [List.map_cons, sget]
    split
    next hj => rw [hj]
    next hj => exact ih ((List.mem_cons.mp h).resolve_left (Ne.symm hj))

theorem Core.ctx_start (x : Core) {n c : Nat} (f : Nat → Ctx) (h : c < n) : (x.start n f).ctx c = f c :=
  sget_map_graph (α := Ctx) {} f (List.mem_range.mpr h)

/-- s1 to s6 hold the context's place in the program, every other scalar register 0. -/
theorem startCtx_readS (b : PartBlock) (k entry args n c r : Nat) :
    (startCtx b k entry args n c).readS r = match r with
      | 1 => BitVec.ofNat 64 (b.rank k)
      | 2 => BitVec.ofNat 64 b.cores.length
      | 3 => BitVec.ofNat 64 c
      | 4 => BitVec.ofNat 64 n
      | 5 => BitVec.ofNat 64 args
      | 6 => BitVec.ofNat 64 (coordOf k)
      | _ => 0 := by
  simp only [startCtx, Ctx.readS, List.foldl_cons, List.foldl_nil, sget_sput, sget_nil]
  match r with
  | 0 | 1 | 2 | 3 | 4 | 5 | 6 => rfl
  | r + 7 => rfl

/-! ### A record to restore (R543, R544) -/

section
variable {s : State} {p n : Nat} {slots : List RecSrc} {cur : CursorArg}

theorem State.restore_of_none (h : chooseRecord slots = none) : s.restore p n slots cur = .error fltRestoreDigest := by
  simp only [State.restore, h]

theorem State.restore_of_mismatch {r : RecSrc} (h : chooseRecord slots = some r) (hbad : r.mismatch p n (s.part p) = true) :
    s.restore p n slots cur = .error fltRestoreMismatch := by
  simp only [State.restore, h, hbad, if_true]

/-- What a restore has restored is the record chosen. -/
theorem State.record_of_restore {r r' : RecSrc} {u : State} (h : chooseRecord slots = some r) (hok : s.restore p n slots cur = .ok (u, r')) :
    r' = r := by
  simp only [State.restore, h] at hok
  split at hok
  · cases hok
  · split at hok
    · cases hok
    · exact (congrArg Prod.snd (Except.ok.inj hok)).symm

end

/-! ### START (R302, R486, R491, R547) -/

/-- START's fields ENTRY and NCTX are refused. -/
abbrev startBad (e : Entry) : Prop :=
  eBits e 0x08 0 48 % 8 ≠ 0 ∨ eBits e 0x08 0 48 < 0x400000 ∨ (eBits e 0x18 0 3 ≠ 1 ∧ eBits e 0x18 0 3 ≠ 2 ∧ eBits e 0x18 0 3 ≠ 4)

/-- The cursor that START gives its restore. -/
def startCursor (e : Entry) : CursorArg := { en := eBits e 0x40 1 1 = 1, force := eBits e 0x40 2 1 = 1, value := eBits e 0x48 0 64 }

/-- The contexts of the partition at their entry, in the state in which the START entry is taken. -/
def State.startsAll (s : State) (p : Nat) (e : Entry) : State :=
  (s.takeCmd p).startCores ((s.takeCmd p).part p) (eBits e 0x08 0 48) (eBits e 0x10 0 48) (eBits e 0x18 0 3)

/-- The partition runs, and the record of START is owed (R491). -/
def State.startsRunning (s u : State) (p : Nat) (e : Entry) (kept : Option (Nat × List (Nat × Window))) : State :=
  u.running p (eBits e 0x08 0 48) (eBits e 0x10 0 48) (eBits e 0x18 0 3) (s.cmdOwed p e) kept

/-- Taking the entry moves the ring's head, on which no context's place depends. -/
theorem State.startsAll_eq (s : State) (p : Nat) (e : Entry) :
    s.startsAll p e = (s.takeCmd p).startCores (s.part p) (eBits e 0x08 0 48) (eBits e 0x10 0 48) (eBits e 0x18 0 3) := by
  rw [State.startsAll, State.part_takeCmd]
  rfl

section
variable {s : State} {p : Nat} {e : Entry} {f : Option FabFault} (h : s.Fetches p 0x03 e startBody)
include h

theorem exec_start_badFields (hbad : startBad e) : exec (.start p e f) s = s.cmdFails p e (s.takeCmd p) fltArgRange := by
  change execStart p e f s = _
  exact partCmd_of_fail h (if_pos hbad)

variable (hgood : ¬startBad e)
include hgood

theorem exec_start_notReady (hstate : (s.part p).state ≠ .ready) : exec (.start p e f) s = s.cmdFails p e (s.takeCmd p) fltPartState := by
  change execStart p e f s = _
  refine partCmd_of_fail h ((if_neg hgood).trans ?_)
  rw [State.part_takeCmd]
  exact if_pos hstate

variable (hstate : (s.part p).state = .ready)
include hstate

theorem exec_start_halted (hhalted : s.health.halted = true) : exec (.start p e f) s = s.cmdFails p e (s.takeCmd p) fltHealthHalt := by
  change execStart p e f s = _
  refine partCmd_of_fail h ((if_neg hgood).trans ?_)
  rw [State.part_takeCmd]
  exact (if_neg (not_not_intro hstate)).trans (if_pos hhalted)

variable (hhealthy : s.health.halted = false)
include hhealthy

theorem exec_start_failedCore (hfailed : ∃ k ∈ (s.part p).cores, (s.core k).failed = true) :
    exec (.start p e f) s = s.cmdFails p e (s.takeCmd p) fltNoSpare := by
  change execStart p e f s = _
  refine partCmd_of_fail h ((if_neg hgood).trans ?_)
  rw [State.part_takeCmd]
  exact (if_neg (not_not_intro hstate)).trans ((if_neg (ne_true_of_eq_false hhealthy)).trans (if_pos (List.any_eq_true.mpr hfailed)))

variable (hwhole : ∀ k ∈ (s.part p).cores, (s.core k).failed = false)
include hwhole

omit h in
/-- Where no check of START refuses it, what follows the checks decides. -/
theorem start_passes_checks {α : Type} {a b c d x : α} :
    (if startBad e then a
      else if ((s.takeCmd p).part p).state ≠ .ready then b
      else if (s.takeCmd p).health.halted = true then c
      else if (((s.takeCmd p).part p).cores.any fun k => ((s.takeCmd p).core k).failed) = true then d
      else x) = x := by
  have hspared : ¬((s.part p).cores.any fun k => (s.core k).failed) = true := by simpa using hwhole
  rw [State.part_takeCmd]
  exact (if_neg hgood).trans ((if_neg (not_not_intro hstate)).trans ((if_neg (ne_true_of_eq_false hhealthy)).trans (if_neg hspared)))

theorem exec_start_fresh (hnone : eBits e 0x40 0 1 = 0) :
    exec (.start p e f) s = .next (s.startsRunning (s.startsAll p e) p e none) := by
  change execStart p e f s = _
  exact partCmd_of_owes h ((start_passes_checks hgood hstate hhealthy hwhole).trans (if_pos hnone))

variable (hrecord : eBits e 0x40 0 1 = 1)
include hrecord

theorem exec_start_noSlots {g : FaultCode} (hslots : (s.takeCmd p).startSlots p (eBits e 0x40 4 12) (eBits e 0x40 16 16) = .error g) :
    exec (.start p e f) s = s.cmdFails p e (s.takeCmd p) g := by
  change execStart p e f s = _
  refine partCmd_of_fail h ((start_passes_checks hgood hstate hhealthy hwhole).trans ?_)
  simp only [hrecord, hslots, Nat.one_ne_zero, if_false]

variable {slots : List RecSrc} (hslots : (s.takeCmd p).startSlots p (eBits e 0x40 4 12) (eBits e 0x40 16 16) = .ok slots)
include hslots

theorem exec_start_unreadable {g : FabFault} : exec (.start p e (some g)) s = s.cmdFails p e (s.takeCmd p) (fabCode g) := by
  change execStart p e (some g) s = _
  refine partCmd_of_fail h ((start_passes_checks hgood hstate hhealthy hwhole).trans ?_)
  simp only [hrecord, hslots, Nat.one_ne_zero, if_false]

theorem exec_start_restoreFails {g : FaultCode} (hrestore : (s.startsAll p e).restore p (eBits e 0x18 0 3) slots (startCursor e) = .error g) :
    exec (.start p e none) s = s.cmdFails p e (s.takeCmd p) g := by
  change execStart p e none s = _
  refine partCmd_of_fail h ((start_passes_checks hgood hstate hhealthy hwhole).trans ?_)
  unfold State.startsAll State.startCores startCursor at hrestore
  simp only [hrecord, hslots, hrestore, Nat.one_ne_zero, if_false]

theorem exec_start_restores {u : State} {r : RecSrc}
    (hrestore : (s.startsAll p e).restore p (eBits e 0x18 0 3) slots (startCursor e) = .ok (u, r)) :
    exec (.start p e none) s = .next (s.startsRunning u p e (some r.windows)) := by
  change execStart p e none s = _
  refine partCmd_of_owes h ((start_passes_checks hgood hstate hhealthy hwhole).trans ?_)
  unfold State.startsAll State.startCores startCursor at hrestore
  simp only [hrecord, hslots, hrestore, Nat.one_ne_zero, if_false]
  rfl

end

/-- A program that starts without a record: its partition runs, and its cores' contexts are at their entry. -/
theorem startsFresh_spec (s : State) (p : Nat) (e : Entry) :
    let b := s.part p
    let n := eBits e 0x18 0 3
    let t := s.startsRunning (s.startsAll p e) p e none
    t = { s with cores := t.cores, parts := t.parts } ∧
      t.part p = { b with cmd := b.cmd.advance, state := .run, kept := none, prog :=
        { entry := eBits e 0x08 0 48, args := eBits e 0x10 0 48, nctx := n, step := b.prog.step, start := some (s.cmdOwed p e), faults := b.prog.faults } } ∧
      (∀ q, q ≠ p → t.part q = s.part q) ∧
      ∀ k, t.core k = if k ∈ b.cores then (s.core k).start n (startCtx b k (eBits e 0x08 0 48) (eBits e 0x10 0 48) n) else s.core k := by
  intro b n t
  obtain ⟨hframe, hcore⟩ := State.startCores_spec (s.takeCmd p) b (eBits e 0x08 0 48) (eBits e 0x10 0 48) n
  rw [← State.startsAll_eq] at hframe hcore
  have hparts : ∀ q, (s.startsAll p e).part q = (s.takeCmd p).part q := fun q => by rw [hframe]; rfl
  refine ⟨?_, ?_, fun q hq => ?_, hcore⟩
  · exact congrArg (fun u : State => { u with parts := t.parts }) hframe
  · refine (State.part_setPart_self ..).trans ?_
    rw [hparts, State.part_takeCmd]
  · refine (State.part_setPart ..).trans ((if_neg hq).trans ?_)
    rw [hparts, State.part_takeCmd_ne s hq]

/-! ### STOP (R492) -/

section
variable {s : State} {p : Nat} {e : Entry} (h : s.Fetches p 0x04 e [])
include h

theorem exec_stop_idle (hstate : (s.part p).state ≠ .run) : exec (.stop p e) s = s.cmdIsDone p e (s.takeCmd p) 0 := by
  change execStop p e s = _
  refine partCmd_of_done h ?_
  simp only [State.part_takeCmd]
  exact if_pos hstate

theorem exec_stop_running (hstate : (s.part p).state = .run) :
    exec (.stop p e) s = .next (s.setPart p { (s.part p) with
      cmd := (s.part p).cmd.advance, refill := [], failing := [], repairing := false, halting := false
      prog := { (s.part p).prog with stopping := true, stops := (s.part p).prog.stops ++ [s.cmdOwed p e] } }) := by
  change execStop p e s = _
  refine partCmd_of_owes h ?_
  simp only [State.part_takeCmd]
  rw [if_neg (not_not_intro hstate), State.takeCmd, State.setPart_setPart _ _ _ (by rw [hstate]; decide)]
  rfl

end

/-- Settles O34: START by the first check that refuses it, else by the record that it is to restore; STOP by the partition's state. -/
theorem startPutsContextsAtTheirEntry : Obligations.StartPutsContextsAtTheirEntry := by
  intro p e f s b entry n
  refine ⟨fun hfetch halign hlow hn => ?_, fun hfetch hbad => exec_start_badFields hfetch hbad,
    fun hfetch => ⟨exec_stop_idle hfetch, exec_stop_running hfetch⟩⟩
  have hgood : ¬startBad e := by
    rintro (hbad | hbad | ⟨h1, h2, h4⟩)
    · exact hbad halign
    · exact absurd hlow (by omega)
    · exact hn.elim h1 (·.elim h2 h4)
  refine ⟨exec_start_notReady hfetch hgood, exec_start_halted hfetch hgood, exec_start_failedCore hfetch hgood,
    fun hstate hhealthy hwhole hnone => ?_, fun hstate hhealthy hwhole hrecord => ?_⟩
  · obtain ⟨hframe, hpart, hparts, hcore⟩ := startsFresh_spec s p e
    refine ⟨_, exec_start_fresh hfetch hgood hstate hhealthy hwhole hnone, hframe, hpart, hparts, fun k hk => ?_, fun k hk => ⟨?_, fun c hc => ?_⟩⟩
    · rw [hcore, if_neg hk]
    · rw [hcore, if_pos hk]
      rfl
    · rw [State.ctx, hcore, if_pos hk, Core.ctx_start _ _ hc]
      exact ⟨rfl, rfl, rfl, rfl, fun r => startCtx_readS b k entry (eBits e 0x10 0 48) n c r⟩
  · refine ⟨fun g hslots => exec_start_noSlots hfetch hgood hstate hhealthy hwhole hrecord hslots, fun slots hslots => ?_⟩
    intro cur u
    have hu : s.startsAll p e = u := s.startsAll_eq p e
    refine ⟨fun g hf => ?_, fun hf => ?_⟩
    · subst hf
      exact exec_start_unreadable hfetch hgood hstate hhealthy hwhole hrecord hslots
    · subst hf
      have hfails : ∀ g, u.restore p n slots cur = .error g → exec (.start p e none) s = s.cmdFails p e (s.takeCmd p) g := fun g hg =>
        exec_start_restoreFails hfetch hgood hstate hhealthy hwhole hrecord hslots (hu ▸ hg)
      cases hchosen : chooseRecord slots with
      | none => exact hfails _ (State.restore_of_none hchosen)
      | some r =>
        cases hmatch : r.mismatch p n (u.part p) with
        | true => exact (hfails _ (State.restore_of_mismatch hchosen hmatch)).trans (if_pos hmatch).symm
        | false =>
          refine Eq.trans ?_ (if_neg (ne_true_of_eq_false hmatch)).symm
          cases hrestore : u.restore p n slots cur with
          | error g => exact hfails g hrestore
          | ok x =>
            obtain ⟨v, r'⟩ := x
            obtain rfl := State.record_of_restore hchosen hrestore
            exact exec_start_restores hfetch hgood hstate hhealthy hwhole hrecord hslots (hu ▸ hrestore)

end Sys2Proof.Machine
end

section
/-! PROOFS. Programs: the step boundary and the end of a program. -/

namespace Sys2Proof.Machine

/-! ### Contexts that wait at a boundary go on (R304) -/

/-- The context goes on where it waits at a SESS.STEP. -/
def Ctx.released (x : Ctx) : Ctx := if x.atStep then { x with mode := .run, wait := none } else x

/-- The core's waiting contexts go on, unless the core has failed. -/
def Core.released (x : Core) : Core := if x.failed then x else { x with ctxs := x.ctxs.map fun e => (e.1, e.2.released) }

theorem Core.released_frame (x : Core) : x.released = { x with ctxs := x.released.ctxs } := by
  unfold Core.released
  split <;> rfl

theorem Core.ctx_released (x : Core) (c : Nat) :
    x.released.ctx c = if x.failed = false ∧ (x.ctx c).atStep = true then { x.ctx c with mode := .run, wait := none } else x.ctx c := by
  unfold Core.released
  cases hfailed : x.failed with
  | true => exact (if_neg fun h => Bool.noConfusion h.1).symm
  | false =>
    refine (sget_map (f := Ctx.released) (d := ({} : Ctx)) rfl x.ctxs c).trans ?_
    simp only [true_and]
    rfl

/-- A core's share in the release of a boundary. -/
def State.release (s : State) (k : Nat) : State :=
  let x := s.core k
  if x.failed then s else s.setCore k { x with ctxs := x.ctxs.map fun e => (e.1, e.2.released) }

theorem State.release_frame (s : State) (k : Nat) : s.release k = { s with cores := (s.release k).cores } := by
  unfold State.release
  dsimp only
  split <;> rfl

theorem State.core_release (s : State) (k j : Nat) : (s.release k).core j = if j = k then (s.core k).released else s.core j := by
  unfold State.release Core.released
  dsimp only
  split
  next =>
    split
    next hj => rw [hj]
    next => rfl
  next => exact State.core_setCore s k j _

theorem State.releaseSteps_spec (s : State) (p : Nat) :
    s.releaseSteps p = { s with cores := (s.releaseSteps p).cores } ∧
      ∀ k, (s.releaseSteps p).core k = if k ∈ (s.part p).cores then (s.core k).released else s.core k :=
  State.foldl_core (f := fun _ => Core.released) State.release_frame State.core_release (s.part p).cores_nodup s

/-! ### STEP_BOUNDARY (R304, R522, R531, R534) -/

theorem PartBlock.securesAt_iff (b : PartBlock) (step : Nat) :
    b.securesAt step = true ↔ b.sec.en = true ∧ ((b.sec.every ≠ 0 ∧ step % b.sec.every = 0) ∨ b.sec.pending = true) := by
  simp [PartBlock.securesAt]

/-- The state in which the next step begins: STEP is one higher and no securing is asked for any more. -/
def State.nextStep (s : State) (p : Nat) : State :=
  s.setPart p { s.part p with prog := { (s.part p).prog with step := (s.part p).prog.step + 1 }, sec := { (s.part p).sec with pending := false } }

section
variable {s : State} {p : Nat} {f : Option FabFault}

theorem exec_stepBoundary_notYet (h : s.atBoundary p = false) : exec (.stepBoundary p f) s = .next s := by
  change execStepBoundary p f s = _
  simp only [execStepBoundary, h, Bool.not_false, if_true]

variable (h : s.atBoundary p = true)
include h

theorem exec_stepBoundary_failing (hfailing : (s.part p).failing ≠ []) :
    exec (.stepBoundary p f) s = .next ((if (s.part p).sec.en && (s.part p).failing.all (·.2) then ((s.nextStep p).secure p (f.map fabCode)).1
      else s.nextStep p).enterWaitRepair p) := by
  change execStepBoundary p f s = _
  simp only [execStepBoundary, h, Bool.not_true, Bool.false_eq_true, if_false]
  rw [if_pos hfailing]
  cases (s.part p).sec.en && (s.part p).failing.all (·.2) <;> rfl

variable (hfailing : (s.part p).failing = [])
include hfailing

theorem exec_stepBoundary_halting (hhalting : (s.part p).halting = true) :
    exec (.stepBoundary p f) s =
      .next ((if (s.part p).sec.en then ((s.nextStep p).secure p (f.map fabCode)).1 else s.nextStep p).stopWith p fltHealthHalt) := by
  change execStepBoundary p f s = _
  simp only [execStepBoundary, h, Bool.not_true, Bool.false_eq_true, if_false]
  rw [if_neg (not_not_intro hfailing), if_pos hhalting]
  rfl

variable (hhalting : (s.part p).halting = false)
include hhalting

theorem exec_stepBoundary_goesOn :
    exec (.stepBoundary p f) s = .next ((if (s.part p).securesAt ((s.part p).prog.step + 1).toNat then ((s.nextStep p).secure p (f.map fabCode)).1
      else s.nextStep p).releaseSteps p) := by
  change execStepBoundary p f s = _
  simp only [execStepBoundary, h, Bool.not_true, Bool.false_eq_true, if_false]
  rw [if_neg (not_not_intro hfailing), if_neg (ne_true_of_eq_false hhalting)]
  cases (s.part p).securesAt ((s.part p).prog.step + 1).toNat <;> rfl

end

/-- Where nothing calls for more, the boundary changes waiting contexts of cores that have not failed, and no other part of the state but STEP. -/
theorem releaseSteps_nextStep_spec (s : State) (p : Nat) :
    let b := s.part p
    let u := (s.nextStep p).releaseSteps p
    u = { s.nextStep p with cores := u.cores } ∧ (∀ k, k ∉ b.cores → u.core k = s.core k) ∧
      ∀ k ∈ b.cores, u.core k = { s.core k with ctxs := (u.core k).ctxs } ∧
        ∀ c, u.ctx k c = if (s.core k).failed = false ∧ (s.ctx k c).atStep = true then { s.ctx k c with mode := .run, wait := none } else s.ctx k c := by
  intro b u
  obtain ⟨hframe, hcore⟩ := State.releaseSteps_spec (s.nextStep p) p
  have hcores : ((s.nextStep p).part p).cores = b.cores := by
    rw [State.nextStep, State.part_setPart_self]
    rfl
  rw [hcores] at hcore
  refine ⟨hframe, fun k hk => ?_, fun k hk => ?_⟩
  · exact (hcore k).trans (if_neg hk)
  · have hrel : u.core k = (s.core k).released := (hcore k).trans (if_pos hk)
    refine ⟨?_, fun c => ?_⟩
    · rw [hrel]
      exact Core.released_frame _
    · rw [State.ctx, hrel, Core.ctx_released]
      rfl

/-! ### PROGRAM_END (R298, R305, R491 to R493) -/

theorem PartBlock.held_of_run {b : PartBlock} (hstate : b.state = .run) (hstopping : b.prog.stopping = false) :
    b.held = (!b.refill.isEmpty || b.repairing) := by
  simp [PartBlock.held, hstate, hstopping]

section
variable {s : State} {p : Nat}

theorem exec_programEnd_notRunning (hstate : (s.part p).state ≠ .run) : exec (.programEnd p) s = .next s := by
  change execProgramEnd p s = _
  exact if_pos hstate

variable (hstate : (s.part p).state = .run)
include hstate

theorem exec_programEnd_stopping (hstopping : (s.part p).prog.stopping = true) :
    exec (.programEnd p) s = .next (if s.quiet p then s.stopEnd p (s.part p).prog.endFault (s.part p).prog.endFault else s) := by
  change execProgramEnd p s = _
  simp only [execProgramEnd, hstate, hstopping, ne_eq, not_true_eq_false, if_false, if_true]
  cases s.quiet p <;> rfl

variable (hstopping : (s.part p).prog.stopping = false)
include hstopping

theorem exec_programEnd_notOver (h : (s.part p).refill ≠ [] ∨ (s.part p).repairing = true ∨ s.allOver p = false) :
    exec (.programEnd p) s = .next s := by
  have hnot : (!(s.part p).held && s.allOver p) = false := by
    rw [PartBlock.held_of_run hstate hstopping]
    rcases h with h | h | h <;> simp [h]
  change execProgramEnd p s = _
  simp only [execProgramEnd, hstate, hstopping, hnot, ne_eq, not_true_eq_false, Bool.false_eq_true, if_false]

/-- A program that ends of itself ends DONE, or FAILED with its first fault, once its items have failed. -/
theorem exec_programEnd_over (hrefill : (s.part p).refill = []) (hrepairing : (s.part p).repairing = false) (hover : s.allOver p = true) :
    let u := (s.failNamed p).endAll p .failed fltProgEnded
    ((s.part p).prog.faults = [] → exec (.programEnd p) s = .next ((u.startRecord p .done 0).programOver p)) ∧
      ∀ k c g rest, (s.part p).prog.faults = (k, c, g) :: rest → exec (.programEnd p) s = .next ((u.startRecord p .failed g).programOver p) := by
  have hends : (!(s.part p).held && s.allOver p) = true := by
    rw [PartBlock.held_of_run hstate hstopping, hrefill, hrepairing, hover]
    rfl
  change (_ → execProgramEnd p s = _) ∧ ∀ k c g rest, _ → execProgramEnd p s = _
  refine ⟨fun hnone => ?_, fun k c g rest hfault => ?_⟩
  · simp only [execProgramEnd, hstate, hstopping, hends, hnone, ne_eq, not_true_eq_false, Bool.false_eq_true, if_false, if_true]
  · simp only [execProgramEnd, hstate, hstopping, hends, hfault, ne_eq, not_true_eq_false, Bool.false_eq_true, if_false, if_true]

end

/-- Settles O35: the boundary by what calls for more than going on, the end of a program by how it comes. -/
theorem boundariesAndEndsOfPrograms : Obligations.BoundariesAndEndsOfPrograms := by
  intro p f s b t due
  have hdue : b.securesAt (b.prog.step + 1).toNat = true ↔ due := b.securesAt_iff _
  refine ⟨exec_stepBoundary_notYet, fun h hfailing hhalting hnot => ?_, fun h hfailing hhalting hsec => ?_, exec_stepBoundary_halting,
    exec_stepBoundary_failing, fun hstate hrefill hrepairing hstopping hover => ?_, exec_programEnd_stopping, ?_⟩
  · obtain ⟨hframe, hother, hown⟩ := releaseSteps_nextStep_spec s p
    refine ⟨_, ?_, hframe, hother, hown⟩
    exact (exec_stepBoundary_goesOn h hfailing hhalting).trans (congrArg (fun u : State => Host.Outcome.next (u.releaseSteps p)) (if_neg (mt hdue.mp hnot)))
  · exact (exec_stepBoundary_goesOn h hfailing hhalting).trans
      (congrArg (fun u : State => Host.Outcome.next (u.releaseSteps p)) (if_pos (hdue.mpr hsec)))
  · exact exec_programEnd_over hstate hstopping hrefill hrepairing hover
  · rintro (hstate | ⟨hstopping, hwhy⟩)
    · exact exec_programEnd_notRunning hstate
    · by_cases hstate : b.state = .run
      · exact exec_programEnd_notOver hstate hstopping hwhy
      · exact exec_programEnd_notRunning hstate

end Sys2Proof.Machine
end

section
/-! PROOFS. A misaligned scalar access where the context's item has ended and another open item has taken its number: the refusal is charged to the core, and
the open item keeps its fault. -/

namespace Sys2Proof.Machine

/-! ### A refused load of a context whose item has ended (R293, R296, R358) -/

/-- SCL.LD of s1 from s0 + 1. -/
def misalignedLoadWord : W64 := 0x0700400000000001#64

/-- The request now in entry 0 of the tracking table. -/
def laterRequest : Request := { part := 3, tag := 7#32, session := none, count := 2, assigned := true }

/-- Context 1 of core 2 names item 1 of request 0, which has ended since; the request in that entry now is another one, with two open items. -/
def endedItemState : State :=
  { cores := [(2, { ctxs := [(1, { mode := .run, item := { valid := true, req := 0, item := 1, past := true } })]
                    icache := [(0, misalignedLoadWord.zeroExtend 512)] })]
    parts := [(3, { state := .run, grant := { groups := 1#64 } })]
    reqs := [(0, laterRequest)] }

theorem endedItemState_issues : endedItemState.Issues 2 1 misalignedLoadWord 0x07 0 := by decide +kernel

theorem endedItemState_misaligned : (endedItemState.sA 2 1 misalignedLoadWord + sextImm misalignedLoadWord).toNat % 8 ≠ 0 := by decide +kernel

/-- The fault of item 1 of the request in entry 0, in the state that a command leads to. -/
def laterItemFault : Host.Outcome State Fault Refusal → Option FaultCode
  | .next t => (t.request 0).map fun q => (q.item 1).fault
  | _ => none

theorem laterItemFault_next {t : State} {q : Request} (h : t.request 0 = some q) : laterItemFault (.next t) = some (q.item 1).fault :=
  congrArg (Option.map fun q : Request => (q.item 1).fault) h

theorem laterItem_keepsFault : laterItemFault (exec (.sclLd 2 1 misalignedLoadWord) endedItemState) = some 0 := by decide +kernel

/-- Refutes O6: the statement speaks of any open item with the number that the context names. Where the context's own item has ended (`past`), a later item
may have that number; the refused access is then a fault without an item (R296), and the later item takes none (R358). -/
theorem not_misalignedScalarAccessIsRefused : ¬ Obligations.MisalignedScalarAccessIsRefused := by
  intro h
  obtain ⟨t, q, hexec, -, hrequest, hfault, -⟩ :=
    h ((0x07, 8), .sclLd) List.mem_cons_self 2 1 misalignedLoadWord endedItemState laterRequest endedItemState_issues
      (.inl endedItemState_misaligned) rfl rfl (by decide) rfl
  have hkeeps : some (q.item 1).fault = some 0 :=
    (laterItemFault_next hrequest).symm.trans ((congrArg laterItemFault hexec).symm.trans laterItem_keepsFault)
  have htakes : (q.item 1).fault = fltArgRange := hfault
  exact absurd (htakes.symm.trans (Option.some.inj hkeeps)) (by decide)

end Sys2Proof.Machine
end

section
/-! PROOFS. Completion and time limits: contexts that go on keep going on while others are looked at; what INSTR_COMPLETE delivers; and what the watchdog and
a handshake that is not acknowledged end. -/

namespace Sys2Proof.Machine

/-! ### A context that goes on is not held back by the end of another's wait -/

/-- What decides whether a context goes on: its mode, and whether it waits. -/
def Ctx.goes (x : Ctx) : CtxMode × Bool := (x.mode, x.wait.isNone)

def State.goes (s : State) (k c : Nat) : CtxMode × Bool := (s.ctx k c).goes

theorem Ctx.goes_eq_run {x : Ctx} : x.goes = (.run, true) ↔ x.mode = .run ∧ x.wait = none := by
  simp [Ctx.goes]

theorem State.goes_of_cores {s t : State} (h : t.cores = s.cores) (k c : Nat) : t.goes k c = s.goes k c := by
  unfold State.goes State.ctx State.core
  rw [h]

theorem State.goes_of_offPart {s t : State} (h : t.offPart = s.offPart) (k c : Nat) : t.goes k c = s.goes k c :=
  (congrArg (fun u => State.goes u k c) h :)

/-- A change of each context of a core that leaves its mode and whether it waits. -/
theorem Core.goes_mapCtxs {g : Nat × Ctx → Nat × Ctx} (hkey : ∀ e, (g e).1 = e.1) (hval : ∀ e, (g e).2.goes = e.2.goes) (x : Core) (c : Nat) :
    (Core.ctx { x with ctxs := x.ctxs.map g } c).goes = (x.ctx c).goes :=
  (sget_map_rel (R := fun y z : Ctx => y.goes = z.goes) rfl hkey (fun e => (hval e).symm) x.ctxs c).symm

/-- The same for each context of the module. -/
theorem State.goes_mapCores {f : Core → Core} (hf : ∀ x c, ((f x).ctx c).goes = (x.ctx c).goes) (s : State) (k c : Nat) :
    State.goes { s with cores := s.cores.map fun e => (e.1, f e.2) } k c = s.goes k c :=
  (sget_map_rel (R := fun x y : Core => (x.ctx c).goes = (y.ctx c).goes) (g := fun e => (e.1, f e.2)) rfl (fun _ => rfl) (fun e => (hf e.2 c).symm) s.cores k).symm

theorem Core.goes_clearItem (x : Core) (r i c : Nat) : ((x.clearItem r i).ctx c).goes = (x.ctx c).goes :=
  Core.goes_mapCtxs (fun _ => by dsimp only; split <;> rfl) (fun _ => by dsimp only; split <;> rfl) x c

theorem Core.goes_markFailed (x : Core) (r i c : Nat) : ((x.markFailed r i).ctx c).goes = (x.ctx c).goes :=
  Core.goes_mapCtxs (fun _ => by dsimp only; split <;> rfl) (fun _ => by dsimp only; split <;> rfl) x c

theorem Ctx.goes_unbind (x : Ctx) (r i : Nat) : (x.unbind r i).goes = x.goes := by
  simp [Ctx.goes, Ctx.unbind]

theorem Core.goes_unbind (x : Core) (r i c : Nat) : ((x.unbind r i).ctx c).goes = (x.ctx c).goes :=
  Core.goes_mapCtxs (g := fun e => (e.1, e.2.unbind r i)) (fun _ => rfl) (fun e => e.2.goes_unbind r i) x c

theorem Ctx.goes_without (x : Ctx) (c : Nat) : (x.without c).goes = x.goes := by
  simp [Ctx.goes, Ctx.without]

theorem State.goes_setCore {s : State} {k : Nat} {x : Core} {c : Nat} (h : (x.ctx c).goes = ((s.core k).ctx c).goes) :
    (s.setCore k x).goes k c = s.goes k c := by
  unfold State.goes State.ctx
  rw [State.core_setCore_self, h]

theorem State.goes_endItem (s : State) (r i : Nat) (st : RecStatus) (f : FaultCode) (k c : Nat) : (s.endItem r i st f).goes k c = s.goes k c := by
  have hpost : ∀ (t : State) p rec, (t.postPart p rec).goes k c = t.goes k c := fun t p rec =>
    State.goes_of_offPart (State.postPart_offPart t p rec) k c
  have hover : ∀ (t : State) r q, (t.requestOver r q).goes k c = t.goes k c := fun t r q =>
    State.goes_of_cores (congrArg State.cores (State.requestOver_frame t r q) :) k c
  have hunbind : ∀ (t : State) p, (t.unbind p r i).goes k c = t.goes k c := fun t p =>
    State.goes_mapCores (fun x j => x.goes_unbind r i j) t k c
  have hmark : ∀ t : State, (t.markFailed r i).goes k c = t.goes k c := fun t =>
    State.goes_mapCores (fun x j => x.goes_markFailed r i j) t k c
  unfold State.endItem
  split
  · rfl
  · dsimp only
    refine ite_keeps (π := fun t => State.goes t k c) rfl ((hpost ..).trans ?_)
    refine (ite_keeps (π := fun t => State.goes t k c) (hover ..) rfl).trans ((hunbind ..).trans ?_)
    exact iteProp_keeps (π := fun t => State.goes t k c) (hmark _) rfl

theorem State.goes_finishItem (s : State) (k r i c : Nat) : (s.finishItem k r i).goes k c = s.goes k c := by
  unfold State.finishItem
  refine ite_keeps (π := fun t => State.goes t k c) ((State.goes_endItem ..).trans ?_) rfl
  exact State.goes_setCore (Core.goes_clearItem ..)

theorem State.goes_endWait_ne {c j : Nat} (h : c ≠ j) (s : State) (k : Nat) (m : CtxMode) : (s.endWait k j m).goes k c = s.goes k c := by
  rw [State.goes, State.ctx_endWait, if_neg h, Ctx.goes_without]
  rfl

/-! ### A context looked at again (R289, R303, R357) -/

theorem State.recheck_of_noWait {s : State} {k c : Nat} (h : (s.ctx k c).wait = none) : s.recheck k c = s := by
  unfold State.ctx at h
  simp only [State.recheck, h]

theorem State.recheckAll_of_noWait {s : State} {k : Nat} (h : ∀ c, (s.ctx k c).wait = none) : s.recheckAll k = s :=
  List.foldl_fixed' (fun c => State.recheck_of_noWait (h c)) _

/-- Looking at another context changes neither the mode of a context nor whether it waits. -/
theorem State.goes_recheck_ne {c j : Nat} (h : c ≠ j) (s : State) (k : Nat) : (s.recheck k j).goes k c = s.goes k c := by
  unfold State.recheck
  dsimp only
  split
  case h_1 => exact ite_keeps (π := fun t => State.goes t k c) rfl (State.goes_endWait_ne h ..)
  case h_2 => exact ite_keeps (π := fun t => State.goes t k c) rfl (State.goes_endWait_ne h ..)
  case h_3 b _ =>
    refine ite_keeps (π := fun t => State.goes t k c) rfl ((State.goes_endWait_ne h ..).trans ?_)
    cases b with
    | none => rfl
    | some name => exact State.goes_finishItem ..
  case h_4 => rfl

theorem State.recheck_keepsGoing {s : State} {k c : Nat} (h : s.goes k c = (.run, true)) (j : Nat) : (s.recheck k j).goes k c = (.run, true) := by
  by_cases hj : c = j
  · subst hj
    rw [State.recheck_of_noWait (Ctx.goes_eq_run.mp h).2, h]
  · rw [State.goes_recheck_ne hj, h]

theorem State.recheckAll_keepsGoing {s : State} {k c : Nat} (h : s.goes k c = (.run, true)) : (s.recheckAll k).goes k c = (.run, true) :=
  List.foldlRecOn (motive := fun t => State.goes t k c = (.run, true)) _ _ h fun _ ht j _ => State.recheck_keepsGoing ht j

end Sys2Proof.Machine
end

section
/-! PROOFS. Completion and time limits: INSTR_COMPLETE, XI_TIMEOUT, WATCHDOG_EXPIRY and NARROW_PROMOTE. -/

namespace Sys2Proof.Machine

/-! ### An instruction of a core by its number -/

section
variable {s : State} {k id : Nat}

theorem State.opOf_of_ops {es rest : List InFlight} {o : InFlight} (hops : (s.core k).ops = es ++ o :: rest) (hid : o.id = id)
    (hes : ∀ e ∈ es, e.id ≠ id) : s.opOf k id = some o := by
  rw [State.opOf, hops, List.find?_append, List.find?_eq_none.mpr fun e he => by simpa using hes e he]
  simp [hid]

theorem exec_instrComplete_absent (h : s.opOf k id = none) : exec (.instrComplete k id) s = .next s := by
  have hnone : beforeFirst (·.id == id) (s.core k).ops = none :=
    beforeFirst_eq_none fun o ho => by simpa using List.find?_eq_none.mp h o ho
  change execInstrComplete k id s = _
  simp only [execInstrComplete, hnone]

theorem exec_xiTimeout_op_absent (h : s.opOf k id = none) : exec (.xiTimeout k (.op id)) s = .next s := by
  change execXiTimeout k (.op id) s = _
  simp only [execXiTimeout, h]

theorem exec_xiTimeout_op {o : InFlight} (h : s.opOf k id = some o) :
    exec (.xiTimeout k (.op id)) s = .next ((s.opFault k o fltXiTimeout).xiCount k) := by
  change execXiTimeout k (.op id) s = _
  simp only [execXiTimeout, h]

end

/-! ### INSTR_COMPLETE (R276, R288, R317 to R319) -/

section
variable {s : State} {k id : Nat} {es rest : List InFlight} {o : InFlight} (hops : (s.core k).ops = es ++ o :: rest) (hid : o.id = id)
  (hes : ∀ e ∈ es, e.id ≠ id)
include hops hid hes

/-- What INSTR_COMPLETE does with the first instruction of its number, by those before it. -/
theorem exec_instrComplete :
    exec (.instrComplete k id) s =
      if (o.started && (s.core k).jobDone o && (o.unit == .dma || o.job == .empty || !es.any fun e => e.unit == o.unit)) = true then
        .next (s.complete k o)
      else .next s := by
  have hfirst : beforeFirst (·.id == id) (s.core k).ops = some (es, o) := by
    rw [hops]
    exact beforeFirst_append (fun e he => by simpa using hes e he) (by simpa using hid)
  change execInstrComplete k id s = _
  simp only [execInstrComplete, hfirst]

theorem exec_instrComplete_notYet
    (h : o.started = false ∨ (s.core k).jobDone o = false ∨ (o.unit ≠ .dma ∧ o.job ≠ .empty ∧ ∃ e ∈ es, e.unit = o.unit)) :
    exec (.instrComplete k id) s = .next s := by
  refine (exec_instrComplete hops hid hes).trans (if_neg ?_)
  rcases h with h | h | ⟨hdma, hjob, e, he, hunit⟩
  · simp [h]
  · simp [h]
  · simp only [Bool.and_eq_true, Bool.or_eq_true, beq_iff_eq, hdma, hjob, false_or, Bool.not_eq_true', List.any_eq_false, not_and]
    exact fun _ hnone => hnone e he hunit

theorem exec_instrComplete_completes (hstarted : o.started = true) (hdone : (s.core k).jobDone o = true)
    (h : o.unit = .dma ∨ o.job = .empty ∨ ∀ e ∈ es, e.unit ≠ o.unit) : exec (.instrComplete k id) s = .next (s.complete k o) := by
  refine (exec_instrComplete hops hid hes).trans (if_pos ?_)
  simpa [hstarted, hdone, or_assoc] using h

end

/-- The instruction leaves flight, with the cycles its stream counted where the stream is then idle (R81). -/
def State.leaves (s : State) (k : Nat) (o : InFlight) : State :=
  let x := s.core k
  let ops := x.ops.filter fun e => e.id != o.id
  let idle := o.usesLatches && !ops.any (·.unit == o.unit)
  s.setCore k { x with ops := ops, sheaf := if idle then { x.sheaf with since := sput none x.sheaf.since o.streamOf none } else x.sheaf }

theorem State.complete_eq (s : State) (k : Nat) (o : InFlight) :
    s.complete k o = ((if o.faulted then s.leaves k o else o.objs.foldl (fun s n => s.signal n 1) (s.leaves k o)).deliver k o.ctx o.results).recheckAll k :=
  rfl

theorem State.ctx_leaves (s : State) (k : Nat) (o : InFlight) (j i : Nat) : (s.leaves k o).ctx j i = s.ctx j i := by
  rw [State.leaves, State.ctx_setCore_of_ctxs]
  rfl

theorem State.core_leaves_ne (s : State) {k j : Nat} (o : InFlight) (h : j ≠ k) : (s.leaves k o).core j = s.core j :=
  (State.core_setCore s k j _).trans (if_neg h)

theorem State.ops_leaves (s : State) (k : Nat) (o : InFlight) : ((s.leaves k o).core k).ops = (s.core k).ops.filter fun e => e.id != o.id :=
  congrArg Core.ops (State.core_setCore_self s k _)

section
variable {s : State} {k : Nat} {o : InFlight} (hwaits : ∀ c, (s.ctx k c).wait = none)
include hwaits

/-- With no completion object, no wait in the core and one scalar result, that result is all that a completion brings. -/
theorem State.complete_scalar {d : Nat} {v : W64} (hobjs : o.objs = []) (hresults : o.results = [.scalar d v]) :
    s.complete k o = (s.leaves k o).setCtx k o.ctx ((s.ctx k o.ctx).writeS d v) := by
  have hdelivered : s.complete k o = ((s.leaves k o).setCtx k o.ctx ((s.ctx k o.ctx).writeS d v)).recheckAll k := by
    rw [State.complete_eq, hobjs, hresults, List.foldl_nil, ite_self, ← State.ctx_leaves s k o]
    rfl
  rw [hdelivered, State.recheckAll_of_noWait fun c => ?_]
  rw [State.ctx_setCtx, Ctx.writeS_frame]
  split
  · exact hwaits _
  · exact (congrArg Ctx.wait (State.ctx_leaves ..)).trans (hwaits _)

/-- With no result and no wait in the core, a completion object's count is all that a completion brings. -/
theorem State.complete_object {n : Nat} (hobjs : o.objs = [n]) (hresults : o.results = []) :
    s.complete k o = if o.faulted then s.leaves k o else (s.leaves k o).signal n 1 := by
  have hdelivered : s.complete k o = (if o.faulted then s.leaves k o else (s.leaves k o).signal n 1).recheckAll k := by
    rw [State.complete_eq, hobjs, hresults]
    rfl
  rw [hdelivered, State.recheckAll_of_noWait fun c => ?_]
  exact ite_keeps (π := fun t => (State.ctx t k c).wait) ((congrArg Ctx.wait (State.ctx_leaves ..)).trans (hwaits c))
    ((congrArg Ctx.wait (State.ctx_leaves s k o k c)).trans (hwaits c))

theorem State.complete_scalar_spec {d : Nat} {v : W64} (hobjs : o.objs = []) (hresults : o.results = [.scalar d v]) :
    WritesScalar s (s.complete k o) k o.ctx d v ∧ (∀ e ∈ ((s.complete k o).core k).ops, e.id ≠ o.id) ∧ SameOtherCores s (s.complete k o) k := by
  rw [State.complete_scalar hwaits hobjs hresults]
  refine ⟨fun r => ?_, fun e he => ?_, fun j hj => ?_⟩
  · rw [State.ctx_setCtx_self, Ctx.readS_writeS]
  · rw [State.core_setCtx, if_pos rfl] at he
    have hleft : e ∈ (s.core k).ops.filter fun e => e.id != o.id := State.ops_leaves s k o ▸ he
    exact bne_iff_ne.mp (List.mem_filter.mp hleft).2
  · rw [State.core_setCtx, if_neg hj, State.core_leaves_ne s o hj]

theorem State.obj_complete {n : Nat} (hobjs : o.objs = [n]) (hresults : o.results = []) (a : Nat) :
    (s.complete k o).obj a = if a = n ∧ o.faulted = false then s.obj a + 1 else s.obj a := by
  rw [State.complete_object hwaits hobjs hresults]
  cases o.faulted with
  | true => exact (if_neg fun h => Bool.noConfusion h.2).symm
  | false =>
    refine (State.obj_signal (s.leaves k o) n a 1).trans ?_
    by_cases ha : a = n
    · rw [if_pos ha, if_pos ⟨ha, rfl⟩, ha]
      rfl
    · rw [if_neg ha, if_neg fun h => ha h.1]
      rfl

end

/-! ### Time limits (R309, R310) -/

section
variable {s : State} {k c : Nat}

theorem exec_xiTimeout_ctx_of {t : State} (h : s.xiContext k c = some t) : exec (.xiTimeout k (.ctx c)) s = .next (t.xiCount k) := by
  change execXiTimeout k (.ctx c) s = _
  simp only [execXiTimeout, h, Option.map_some, Option.getD_some]

theorem exec_xiTimeout_ctx_of_none (h : s.xiContext k c = none) : exec (.xiTimeout k (.ctx c)) s = .next s := by
  change execXiTimeout k (.ctx c) s = _
  simp only [execXiTimeout, h, Option.map_none, Option.getD_none]

theorem State.xiContext_waits {w : Wait} {n : Nat} (hwait : (s.ctx k c).wait = some w) (hobj : w.kind.obj? = some n)
    (hmet : s.waitMet n k (.ctx c) = false) : s.xiContext k c = some (s.failWait k c n w fltXiTimeout) := by
  unfold State.ctx at hwait
  simp only [State.xiContext, hwait, hobj, hmet, Bool.false_eq_true, if_false]

theorem State.xiContext_fills (hwait : (s.ctx k c).wait = none) (hmode : (s.ctx k c).mode = .run)
    (hline : (s.core k).fetched (s.ctx k c).pc = none) :
    s.xiContext k c = some ((s.faultAt k c (s.ctx k c).bind fltXiTimeout).setPc k c ((s.ctx k c).pc + 8)) := by
  unfold State.ctx at hwait hmode hline
  simp only [State.xiContext, hwait, hmode, hline, if_true]
  rfl

theorem State.xiContext_idle (hwait : (s.ctx k c).wait = none) (hmode : (s.ctx k c).mode ≠ .run) : s.xiContext k c = none := by
  unfold State.ctx at hwait hmode
  simp only [State.xiContext, hwait, hmode, if_false]

theorem exec_watchdogExpiry_paused (h : s.wdPaused k = true) (who : WaitAgent) : exec (.watchdogExpiry k who) s = .next s := by
  change execWatchdogExpiry k who s = _
  exact if_pos h

theorem exec_watchdogExpiry_noWait (h : (s.ctx k c).wait = none) : exec (.watchdogExpiry k (.ctx c)) s = .next s := by
  change execWatchdogExpiry k (.ctx c) s = _
  simp only [execWatchdogExpiry, h, ite_self]

variable (hruns : s.wdPaused k = false) {w : Wait} {n : Nat}
include hruns

theorem exec_watchdogExpiry_object (hwait : (s.ctx k c).wait = some w) (hobj : w.kind.obj? = some n) :
    exec (.watchdogExpiry k (.ctx c)) s = if s.waitMet n k (.ctx c) = true then .next s else .next (s.failWait k c n w fltSyncTimeout) := by
  change execWatchdogExpiry k (.ctx c) s = _
  simp only [execWatchdogExpiry, hruns, hwait, Bool.false_eq_true, if_false]
  obtain ⟨kind, e, b⟩ := w
  cases kind with
  | sync m a => obtain rfl : m = n := Option.some.inj hobj; rfl
  | slot m plus a d base => obtain rfl : m = n := Option.some.inj hobj; rfl
  | _ => cases hobj

theorem exec_watchdogExpiry_step (hwait : (s.ctx k c).wait = some w) (hkind : w.kind = .step) :
    exec (.watchdogExpiry k (.ctx c)) s =
      if s.boundaryMet k = true then .next s else .next (((s.faultAt k c w.bind fltSyncTimeout).endWait k c .run).recheckAll k) := by
  change execWatchdogExpiry k (.ctx c) s = _
  simp only [execWatchdogExpiry, hruns, hwait, hkind, Bool.false_eq_true, if_false]

theorem exec_watchdogExpiry_ring {id : Nat} {o : InFlight} {j : TileJob} {r : RingId} {g : GRing} {v : Wait} (hop : s.opOf k id = some o)
    (hjob : o.job = .tile j) (hring : j.ring r = some g) (hwaiting : g.waiting = some v) (hobj : v.kind.obj? = some n) :
    exec (.watchdogExpiry k (.ring id r)) s = if s.waitMet n k (.ring id r) = true then .next s
      else .next (((s.opFault k o fltSyncTimeout).stopTile k id j true).advanceAll k) := by
  change execWatchdogExpiry k (.ring id r) s = _
  simp only [execWatchdogExpiry, hruns, hop, hjob, hring, hwaiting, hobj, Option.bind_some, Bool.false_eq_true, if_false]

end

/-- A context whose wait on an object fails goes on. -/
theorem State.goes_failWait (s : State) (k c n : Nat) (w : Wait) (f : FaultCode) : (s.failWait k c n w f).goes k c = (.run, true) := by
  refine State.recheckAll_keepsGoing ?_
  rw [State.goes, State.ctx_endWait, if_pos rfl]
  rfl

/-! ### Counts (R309, R366, R529) -/

theorem bumpHead_eq (l : List Nat) : bumpHead l = match l with
    | [] => [1]
    | n :: ns => (n + 1) :: ns := by
  cases l <;> rfl

theorem State.core_coreCount_self (s : State) (k off n : Nat) : (s.coreCount k off n).core k = (s.core k).count off n := State.core_setCore_self ..

theorem Core.count_frame (x : Core) (off n : Nat) : x.count off n = { x with cnt := (x.count off n).cnt } := by
  unfold Core.count
  split <;> rfl

theorem Core.cnt_count (x : Core) (off i : Nat) {n : Nat} (hn : n ≠ 0) :
    sget 0 (x.count off n).cnt i = if i = off then cntAdd (sget 0 x.cnt i) n else sget 0 x.cnt i := by
  rw [Core.count, if_neg hn]
  refine (sget_sput ..).trans ?_
  by_cases hi : i = off
  · rw [if_pos hi, if_pos hi, hi]
  · rw [if_neg hi, if_neg hi]

/-- What XI_TIMEOUT counts. -/
theorem State.xiCount_eq (s : State) (k : Nat) :
    let t := s.coreCount k 0x14 1
    s.xiCount k = { t.setCore k { t.core k with island := { (t.core k).island with
        xiTimes := s.time :: (t.core k).island.xiTimes.filter fun a => decide (s.time < a + 2 ^ 20) } } with
      health := { s.health with timeouts := bumpHead s.health.timeouts } } := rfl

/-- NARROW_PROMOTE raises two counters of its core. -/
theorem exec_narrowPromote_spec (s : State) (k : Nat) :
    ∃ t, exec (.narrowPromote k) s = .next t ∧ t = { s with cores := t.cores } ∧ SameOtherCores s t k ∧
      t.core k = { s.core k with cnt := (t.core k).cnt } ∧
      ∀ i, sget 0 (t.core k).cnt i = if i = 0x368 then cntAdd (sget 0 (s.core k).cnt i) 1
        else if i = 0x364 then cntAdd (sget 0 (s.core k).cnt i) 64 else sget 0 (s.core k).cnt i := by
  have hcore : ((s.coreCount k 0x368 1).coreCount k 0x364 64).core k = ((s.core k).count 0x368 1).count 0x364 64 := by
    rw [State.core_coreCount_self, State.core_coreCount_self]
  refine ⟨_, rfl, rfl, fun j hj => ?_, ?_, fun i => ?_⟩
  · exact (State.core_setCore ..).trans ((if_neg hj).trans ((State.core_setCore ..).trans (if_neg hj)))
  · rw [hcore, Core.count_frame _ 0x364, Core.count_frame _ 0x368]
  · rw [hcore, Core.cnt_count _ _ _ (by decide), Core.cnt_count _ _ _ (by decide)]
    by_cases h : i = 0x364
    · subst h
      rfl
    · rw [if_neg h, if_neg h]

/-- Settles O49: each command by whether what it ends is there, has completed, or has its condition met. -/
theorem instructionsCompleteOrTimeOut : Obligations.InstructionsCompleteOrTimeOut := by
  intro k c id s x y
  refine ⟨fun h => ⟨exec_instrComplete_absent h, exec_xiTimeout_op_absent h⟩, fun es o rest hops hid hes => ⟨?_, fun hstarted hdone horder => ?_, ?_⟩,
    ?_, fun w n hwait hobj hmet => ?_, fun hwait hmode hline => ?_, fun hwait hmode => ?_, fun w n hruns hwait _ hobj => ?_,
    fun w hruns hwait hkind => ?_, fun o j r g w n hruns hop hjob hring hwaiting hobj => ?_, ?_, exec_narrowPromote_spec s k⟩
  · exact exec_instrComplete_notYet hops hid hes
  · refine ⟨exec_instrComplete_completes hops hid hes hstarted hdone horder, fun hobjs hwaits d v hresults => ?_, fun hresults hwaits n hobjs a => ?_⟩
    · exact hid ▸ State.complete_scalar_spec hwaits hobjs hresults
    · exact State.obj_complete hwaits hobjs hresults a
  · exact exec_xiTimeout_op (State.opOf_of_ops hops hid hes)
  · refine (State.xiCount_eq s k).trans ?_
    exact congrArg (fun l => { State.setCore _ _ _ with health := { s.health with timeouts := l } }) (bumpHead_eq s.health.timeouts)
  · exact exec_xiTimeout_ctx_of (State.xiContext_waits hwait hobj hmet)
  · exact exec_xiTimeout_ctx_of (State.xiContext_fills hwait hmode hline)
  · exact exec_xiTimeout_ctx_of_none (State.xiContext_idle hwait hmode)
  · have hexec := exec_watchdogExpiry_object hruns hwait hobj
    refine ⟨fun hmet => hexec.trans (if_pos hmet), fun hmet => ⟨hexec.trans (if_neg (ne_true_of_eq_false hmet)), ?_⟩⟩
    exact Ctx.goes_eq_run.mp (s.goes_failWait k c n w fltSyncTimeout)
  · have hexec := exec_watchdogExpiry_step hruns hwait hkind
    exact ⟨fun hmet => hexec.trans (if_pos hmet), fun hmet => hexec.trans (if_neg (ne_true_of_eq_false hmet))⟩
  · have hexec := exec_watchdogExpiry_ring hruns hop hjob hring hwaiting hobj
    exact ⟨fun hmet => hexec.trans (if_pos hmet), fun hmet => hexec.trans (if_neg (ne_true_of_eq_false hmet))⟩
  · rintro (hpaused | hwait)
    · exact exec_watchdogExpiry_paused hpaused (.ctx c)
    · exact exec_watchdogExpiry_noWait hwait

end Sys2Proof.Machine
end

section
/-! PROOFS. Scalar arithmetic, compares and branches: what each function of R321 to R323 computes, and what a scalar or a predicate result leaves of its
context and of what is in flight. -/

namespace Sys2Proof.Machine

/-! ### An effect that begins no transfer, and the program counter after it -/

/-- A ready word that spells the instruction issues with the instruction's own effect, and the context goes on elsewhere. -/
theorem issue_jump_of_issues {s X : State} {k c opc sel : Nat} {w pc : W64} (h : s.Issues k c w opc sel) (hX : X.parts = s.parts) :
    issue k c w (spells w opc sel) (.jump X pc) s = .next ((X.bindItem (s.ctx k c).bind).setPc k c pc) := by
  obtain ⟨hready, hwf, hspells⟩ := h
  rw [hspells, ← issued_near (w := w) (farOfCore_parts hX)]
  simp [issue, hready, hwf]

/-- An effect that leaves the partitions alone begins no transfer. -/
theorem afterIssue_of_parts {s X : State} (k c : Nat) (w : W64) (hX : X.parts = s.parts) :
    s.afterIssue k c w X = .next ((X.bindItem (s.ctx k c).bind).setPc k c ((s.ctx k c).pc + 8)) := by
  rw [State.afterIssue, issued_near (farOfCore_parts hX)]

/-! ### Scalar functions (R321, R322) -/

theorem SclFn.eval_min (a b : W64) : SclFn.min.eval a b = if a.toInt ≤ b.toInt then a else b := by
  by_cases h : a.toInt ≤ b.toInt
  · simp [SclFn.eval, BitVec.slt, h]
  · simp [SclFn.eval, BitVec.slt, h, Int.not_le.mp h]

theorem SclFn.eval_max (a b : W64) : SclFn.max.eval a b = if b.toInt ≤ a.toInt then a else b := by
  by_cases h : b.toInt ≤ a.toInt
  · simp [SclFn.eval, BitVec.slt, h]
  · simp [SclFn.eval, BitVec.slt, h, Int.not_le.mp h]

theorem SclFn.eval_minu (a b : W64) : SclFn.minu.eval a b = if a.toNat ≤ b.toNat then a else b := by
  by_cases h : a.toNat ≤ b.toNat
  · simp [SclFn.eval, BitVec.ult, h]
  · simp [SclFn.eval, BitVec.ult, h, Nat.not_le.mp h]

theorem SclFn.eval_maxu (a b : W64) : SclFn.maxu.eval a b = if b.toNat ≤ a.toNat then a else b := by
  by_cases h : b.toNat ≤ a.toNat
  · simp [SclFn.eval, BitVec.ult, h]
  · simp [SclFn.eval, BitVec.ult, h, Nat.not_le.mp h]

/-- A row's instruction writes the row's function of s[A], s[B] and the immediate into s[D]. -/
def AluRow.Computes (row : AluRow) : Prop :=
  ∀ (k c : Nat) (w : W64) (s : State), exec (row.make k c w) s = issue k c w (spells w row.opc row.sel) (sclResult k c w s row.result) s

/-- The bitwise functions, the shifts and the sums are written alike in the model and in the rows; the extremes differ in how they compare. -/
theorem aluRows_compute : ∀ row ∈ aluRows, row.Computes := by
  simp only [aluRows, List.forall_mem_append, List.forall_mem_cons, List.not_mem_nil, false_implies, implies_true, and_true, AluRow.Computes,
    ← SclFn.eval_min, ← SclFn.eval_max, ← SclFn.eval_minu, ← SclFn.eval_maxu]
  and_intros
  all_goals exact fun _ _ _ _ => rfl

/-- Settles O2: each row computes its function, which is the one scalar register that it writes. -/
theorem scalarArithmeticWritesItsFunction : Obligations.ScalarArithmeticWritesItsFunction := by
  intro row hrow k c w s hissues
  rw [aluRows_compute row hrow, sclResult, issue_of_issues hissues, afterIssue_of_parts k c w (State.putS_parts ..)]
  exact ⟨_, rfl, put_only s k c (fD w) _ _⟩

/-! ### SCL.CMP (R323) -/

/-- The conditions compare as signed and as unsigned numbers. -/
theorem sclCond_eq_cmpMeets (cond : Nat) (a b : W64) : sclCond cond a b = cmpMeets cond a b := by
  unfold sclCond cmpMeets
  split
  · exact beq_eq_decide ..
  · simp [bne, beq_eq_decide]
  · rfl
  · simp [BitVec.slt, ← decide_not]
  · rfl
  · simp [BitVec.ult, ← decide_not]

/-- Of a context a predicate result changes the predicates alone. -/
theorem Ctx.writeP_frame (y : Ctx) (d : Nat) (v : Bool) : y.writeP d v = { y with p := (y.writeP d v).p } := by
  unfold Ctx.writeP
  split <;> rfl

/-- An instruction whose own effect is one predicate: the predicate written, and every other as it was. -/
theorem putP_only (s : State) (k c d : Nat) (v : Bool) (pc : W64) :
    let t := ((s.putP k c d v).bindItem (s.ctx k c).bind).setPc k c pc
    (∀ r, (t.ctx k c).readP r = if r = 0 then true else if r = d then v else (s.ctx k c).readP r) ∧
      t.ctx k c = { s.ctx k c with p := (t.ctx k c).p, pc := pc } ∧ OnlyContext s t k c ∧ (t.core k).ops = ((s.core k).dropPred c d).ops := by
  intro t
  have hcore : (s.putP k c d v).core k = ((s.core k).dropPred c d).setCtx c ((s.ctx k c).writeP d v) := State.core_setCore_self ..
  have hctx : ∀ i, (s.putP k c d v).ctx k i = if i = c then (s.ctx k c).writeP d v else s.ctx k i := fun i => by
    rw [State.ctx, hcore, Core.ctx_setCtx]
    rfl
  obtain ⟨hthis, honly, hops⟩ := setPc_only s (s.putP k c d v) k c pc rfl (fun j hj => (State.core_setCore ..).trans (if_neg hj))
    ⟨by rw [hcore]; rfl, fun i hi => (hctx i).trans (if_neg hi)⟩
  rw [hctx, if_pos rfl] at hthis
  refine ⟨fun r => ?_, ?_, honly, hops.trans (by rw [hcore]; rfl)⟩
  · rw [hthis]
    exact Ctx.readP_writeP ..
  · rw [hthis, Ctx.writeP_frame]

theorem exec_sclCmp {s : State} {k c : Nat} {w : W64} (h : s.Issues k c w 0x05 0) :
    exec (.sclCmp k c w) s = s.afterIssue k c w (s.putP k c (fD w) (cmpMeets (fImm w % 8) (s.sA k c w) (s.sB k c w))) := by
  change execSclCmp k c w s = _
  rw [execSclCmp, ← mod_eq_bits 8 3 rfl, sclCond_eq_cmpMeets, issue_of_issues h]
  rfl

/-! ### SCL.BR and SCL.JR (R324) -/

/-- A branch is taken when p[A] differs from NEG. -/
theorem exec_sclBr {s : State} {k c : Nat} {w : W64} :
    exec (.sclBr k c w) s = issue k c w (spells w 0x0B 0)
      (if (s.ctx k c).readP (fA w) ≠ decide (fB w % 2 = 1) then
        .jump (s.putS k c (fD w) ((s.ctx k c).pc + 8)) ((s.ctx k c).pc + 8 * sextImm w) else .go s) s := by
  change execSclBr k c w s = _
  simp only [execSclBr, bit, Nat.testBit_zero, bne_iff_ne]

theorem exec_sclJr {s : State} {k c : Nat} {w : W64} (h : s.Issues k c w 0x0C 0) :
    exec (.sclJr k c w) s = .next (((s.putS k c (fD w) ((s.ctx k c).pc + 8)).bindItem (s.ctx k c).bind).setPc k c (s.sA k c w)) :=
  issue_jump_of_issues h (State.putS_parts ..)

/-- Settles O3: a compare by its predicate, a taken branch and SCL.JR by the link that they write, a branch not taken by the program counter alone. -/
theorem compareAndBranches : Obligations.CompareAndBranches := by
  refine ⟨fun k c w s hissues => ?_, fun k c w s => ⟨fun hissues htaken => ?_, fun hissues hnot => ?_, fun hissues => ?_⟩⟩
  · rw [exec_sclCmp hissues, afterIssue_of_parts k c w (State.putP_parts ..)]
    exact ⟨_, rfl, putP_only s k c (fD w) _ _⟩
  · rw [exec_sclBr, if_pos htaken, issue_jump_of_issues hissues (State.putS_parts ..)]
    exact ⟨_, rfl, put_only s k c (fD w) _ _⟩
  · rw [exec_sclBr, if_neg (not_not_intro hnot), issue_of_issues hissues, afterIssue_of_parts k c w rfl]
    exact ⟨_, rfl, setPc_only s s k c _ rfl (fun _ _ => rfl) ⟨rfl, fun _ _ => rfl⟩⟩
  · rw [exec_sclJr hissues]
    exact ⟨_, rfl, put_only s k c (fD w) _ _⟩

end Sys2Proof.Machine
end

section
/-! PROOFS. Synchronisation objects: what a change of an object leaves, how an instruction joins its unit's queue, the SYNC and SLOT instructions, and the
waiters that leave an object's list. -/

namespace Sys2Proof.Machine

/-! ### Amounts reached and objects changed (R351, R353 to R355, R378) -/

theorem reached_iff (a b : W32) : reached a b = true ↔ 0 ≤ (a - b).toInt := by
  have h := (a - b).isLt
  rw [reached, decide_eq_true_iff, BitVec.toInt_eq_toNat_cond]
  split <;> omega

theorem reached_eq_false {a b : W32} (h : (a - b).toInt < 0) : reached a b = false :=
  Bool.eq_false_iff.mpr fun hr => absurd ((reached_iff a b).mp hr) (by omega)

/-- The wait of a tile instruction's ring. -/
def Job.waitAt (r : RingId) : Job → Option Wait
  | .tile j => (j.ring r).bind (·.waiting)
  | _ => none

theorem State.waitOf_ring (s : State) {x : Waiter} {id : Nat} {r : RingId} (h : x.who = .ring id r) :
    s.waitOf x = ((s.opOf x.core id).map (·.job)).bind (Job.waitAt r) := by
  rw [State.waitOf, h]
  change (match s.opOf x.core id with
    | some { job := .tile j, .. } => _
    | _ => none) = _
  cases s.opOf x.core id with
  | none => rfl
  | some o =>
    obtain ⟨_, _, _, _, _, _, _, _, _, job⟩ := o
    cases job <;> cases r <;> rfl

theorem State.waitOf_ctx (s : State) {x : Waiter} {c : Nat} (h : x.who = .ctx c) : s.waitOf x = (s.ctx x.core c).wait := by
  rw [State.waitOf, h]

/-- Results that a later write overtakes change no instruction's number and no job. -/
theorem Core.job_dropScalar (x : Core) (i d id : Nat) :
    ((x.dropScalar i d).ops.find? (·.id == id)).map (·.job) = (x.ops.find? (·.id == id)).map (·.job) := by
  have hid : ∀ o : InFlight, (if o.ctx = i then { o with results := o.results.map (Result.passS d) } else o).id = o.id := fun o => by split <;> rfl
  have hjob : ∀ o : InFlight, (if o.ctx = i then { o with results := o.results.map (Result.passS d) } else o).job = o.job := fun o => by split <;> rfl
  simp only [Core.dropScalar, List.find?_map, Option.map_map, Function.comp_def, hid, hjob]

/-- They change no wait. -/
theorem State.waitOf_dropScalar (s : State) (k i d : Nat) (x : Waiter) : (s.setCore k ((s.core k).dropScalar i d)).waitOf x = s.waitOf x := by
  cases hwho : x.who with
  | ctx c =>
    rw [State.waitOf_ctx _ hwho, State.waitOf_ctx _ hwho]
    exact congrArg Ctx.wait (State.ctx_setCore_of_ctxs (y := (s.core k).dropScalar i d) rfl x.core c)
  | ring id r =>
    rw [State.waitOf_ring _ hwho, State.waitOf_ring _ hwho, State.opOf, State.opOf, State.core_setCore]
    by_cases hk : x.core = k
    · rw [if_pos hk, hk, Core.job_dropScalar]
    · rw [if_neg hk]

/-- The object takes the value, and its waiters are tested against it. -/
theorem State.setObj_writes (s : State) (n : Nat) (v : W32) : WritesObj s (s.setObj n v) n v ∧ TestsWaiters s (s.setObj n v) n v :=
  ⟨fun m => s.obj_setObj n m v, fun m => sget_sput [] s.waiters n _ m⟩

/-! ### Joining a unit's queue (R287, R293) -/

/-- The state `X` differs from `s` in objects and waiters, and in what is in flight in core `k`, which is `before`. -/
structure ObjectEffect (s X : State) (k : Nat) (before : List InFlight) : Prop where
  frame : X = { s with cores := X.cores, objs := X.objs, waiters := X.waiters }
  others : SameOtherCores s X k
  core : X.core k = { s.core k with ops := before }

theorem ObjectEffect.refl (s : State) (k : Nat) : ObjectEffect s s k (s.core k).ops := ⟨rfl, fun _ _ => rfl, rfl⟩

theorem ObjectEffect.dropScalar (s : State) (k c d : Nat) :
    ObjectEffect s (s.setCore k ((s.core k).dropScalar c d)) k ((s.core k).dropScalar c d).ops :=
  ⟨rfl, fun _ hj => (State.core_setCore ..).trans (if_neg hj), State.core_setCore_self ..⟩

theorem ObjectEffect.setObj {s X : State} {k : Nat} {before : List InFlight} (h : ObjectEffect s X k before) (n : Nat) (v : W32) :
    ObjectEffect s (X.setObj n v) k before := by
  obtain ⟨hframe, hothers, hcore⟩ := h
  refine ⟨?_, hothers, hcore⟩
  conv => lhs; rw [hframe]
  rfl

/-- An instruction with such an effect joins its unit's queue behind what is in flight. -/
theorem ObjectEffect.launches {s X : State} {k : Nat} {before : List InFlight} (h : ObjectEffect s X k before) (c : Nat) (w : W64) {u : UnitId}
    (hu : u ≠ .vec) (cls : Nat) (results : List Result) :
    ∃ t, s.afterIssue k c w (X.launch k c u cls [] results .plain) = .next t ∧ t.objs = X.objs ∧ t.waiters = X.waiters ∧
      Queues s t k c u cls before results ∧ OnlyObjects s t k c := by
  obtain ⟨hframe, hothers, hcore⟩ := h
  have hstarted : (Job.plain == Job.empty || u == .vec) = false := by
    rw [Bool.or_eq_false_iff]
    exact ⟨rfl, beq_eq_false_iff_ne.mpr hu⟩
  let Y := X.launch k c u cls [] results .plain
  let o : InFlight := { id := (s.core k).nextId, ctx := c, unit := u, cls := cls, bind := (s.ctx k c).bind, results := results }
  have hY : Y.core k = { s.core k with nextId := (s.core k).nextId + 1, ops := before ++ [o] } := by
    refine (State.core_setCore_self ..).trans ?_
    rw [hcore, hstarted]
    rfl
  have hYctx : ∀ i, Y.ctx k i = s.ctx k i := fun i => by
    rw [State.ctx, hY]
    rfl
  have hparts : Y.parts = s.parts := by
    change X.parts = s.parts
    rw [hframe]
  obtain ⟨hsame, hthis, hctx, hother, hctxs, -⟩ := setPc_any s Y k c ((s.ctx k c).pc + 8)
  let t := (Y.bindItem (s.ctx k c).bind).setPc k c ((s.ctx k c).pc + 8)
  have hobjs : t.objs = X.objs := (congrArg State.objs hsame).trans rfl
  have hwaiters : t.waiters = X.waiters := (congrArg State.waiters hsame).trans rfl
  refine ⟨t, afterIssue_of_parts k c w hparts, hobjs, hwaiters, ⟨?_, ?_⟩, ?_, fun j hj => ?_, ?_, ?_, fun i hi => ?_⟩
  · rw [hthis, hY]
    rfl
  · rw [hthis, hY]
    rfl
  · rw [hobjs, hwaiters]
    exact hsame.trans (congrArg (fun v : State => { v with cores := t.cores, reqs := t.reqs, objs := X.objs, waiters := X.waiters }) hframe)
  · rw [hother j hj]
    exact (State.core_setCore ..).trans ((if_neg hj).trans (hothers j hj))
  · rw [hthis, hY]
    rfl
  · rw [hctx, hYctx]
  · rw [hctxs i hi, hYctx]

/-- The same where the effect is that an object takes a value, with its waiters tested against it. -/
theorem ObjectEffect.launches_setObj {s X : State} {k : Nat} {before : List InFlight} (h : ObjectEffect s X k before) {n : Nat} {v : W32}
    (hX : WritesObj s (X.setObj n v) n v ∧ TestsWaiters s (X.setObj n v) n v) (c : Nat) (w : W64) {u : UnitId} (hu : u ≠ .vec) (cls : Nat)
    (results : List Result) :
    ∃ t, s.afterIssue k c w ((X.setObj n v).launch k c u cls [] results .plain) = .next t ∧ WritesObj s t n v ∧ TestsWaiters s t n v ∧
      Queues s t k c u cls before results ∧ OnlyObjects s t k c := by
  obtain ⟨hwrites, htests⟩ := hX
  obtain ⟨t, ht, hobjs, hwaiters, hrest⟩ := (h.setObj n v).launches c w hu cls results
  refine ⟨t, ht, fun m => ?_, fun m => ?_, hrest⟩
  · rw [State.obj, hobjs]
    exact hwrites m
  · rw [hwaiters]
    exact htests m

theorem State.setObj_dropScalar_writes (s : State) (k c d n : Nat) (v : W32) :
    let t := (s.setCore k ((s.core k).dropScalar c d)).setObj n v
    WritesObj s t n v ∧ TestsWaiters s t n v := by
  obtain ⟨hwrites, htests⟩ := State.setObj_writes (s.setCore k ((s.core k).dropScalar c d)) n v
  refine ⟨hwrites, fun m => (htests m).trans ?_⟩
  simp only [State.waitOf_dropScalar]
  rfl

/-! ### SYNC instructions (R353 to R355) -/

section
variable {s : State} {k c : Nat} {w : W64}

/-- An operation on an object that is not granted is refused. -/
theorem syncIssue_refuse (hgrant : s.objGranted k (syncObj (s.ctx k c) w) = false) (f : Nat → Issued) : syncIssue k c w s f = .refuse fltArgRange :=
  if_neg (by simp [hgrant])

theorem syncIssue_granted (hgrant : s.objGranted k (syncObj (s.ctx k c) w) = true) (f : Nat → Issued) :
    syncIssue k c w s f = f (syncObj (s.ctx k c) w) := if_pos hgrant

/-- A refusal of an instruction whose unit has room. -/
theorem issue_refuse_of_accepts {opc sel : Nat} {u : UnitId} {f : FaultCode} (h : s.Accepts k c w opc sel u) :
    issue k c w (spells w opc sel) (unitIssue s k u (.refuse f)) s = s.afterRefusal k c f := by
  rw [unitIssue_of_room h.2, issue_refuse_of_issues h.1]

theorem exec_syncSignal (h : s.Accepts k c w 0x90 0 .sync) (hgrant : s.objGranted k (syncObj (s.ctx k c) w) = true) :
    exec (.syncSignal k c w) s = s.afterIssue k c w
      ((s.setObj (syncObj (s.ctx k c) w) (s.obj (syncObj (s.ctx k c) w) + syncAmount (s.ctx k c) w)).launch k c .sync 8 [] [] .plain) :=
  issue_of_accepts h (syncIssue_granted hgrant _)

theorem exec_syncFadd (h : s.Accepts k c w 0x92 0 .sync) (hgrant : s.objGranted k (syncObj (s.ctx k c) w) = true) :
    exec (.syncFadd k c w) s = s.afterIssue k c w
      (((s.setCore k ((s.core k).dropScalar c (fD w))).setObj (syncObj (s.ctx k c) w)
        (s.obj (syncObj (s.ctx k c) w) + syncAmount (s.ctx k c) w)).launch k c .sync 8 []
        [.scalar (fD w) ((s.obj (syncObj (s.ctx k c) w)).zeroExtend 64)] .plain) := by
  have hvalue : (s.obj (syncObj (s.ctx k c) w)).zeroExtend 64 = BitVec.ofNat 64 (s.obj (syncObj (s.ctx k c) w)).toNat := (BitVec.ofNat_toNat ..).symm
  rw [hvalue]
  exact issue_of_accepts h (syncIssue_granted hgrant _)

/-- SYNC.CMP: the low half of s[B] is what the object is compared with, the high half the new value. -/
theorem exec_syncCmp (h : s.Accepts k c w 0x93 0 .sync) (hgrant : s.objGranted k (syncObj (s.ctx k c) w) = true) :
    let t := s.setCore k ((s.core k).dropScalar c (fD w))
    exec (.syncCmp k c w) s = s.afterIssue k c w
      ((if s.obj (syncObj (s.ctx k c) w) = (s.sB k c w).truncate 32 then t.setObj (syncObj (s.ctx k c) w) ((s.sB k c w).extractLsb' 32 32)
        else t).launch k c .sync 8 [] [.scalar (fD w) ((s.obj (syncObj (s.ctx k c) w)).zeroExtend 64)] .plain) := by
  intro t
  have hold : s.obj (syncObj (s.ctx k c) w) = (s.sB k c w).truncate 32 ↔
      (s.obj (syncObj (s.ctx k c) w)).toNat = bits ((s.ctx k c).readS (fB w)).toNat 0 32 := by
    rw [bits_low, ← BitVec.toNat_inj]
    simp [State.sB]
  have hnew : (s.sB k c w).extractLsb' 32 32 = BitVec.ofNat 32 (bits ((s.ctx k c).readS (fB w)).toNat 32 32) :=
    BitVec.eq_of_toNat_eq (by simp [bits, State.sB, Nat.shiftRight_eq_div_pow])
  have hvalue : (s.obj (syncObj (s.ctx k c) w)).zeroExtend 64 = BitVec.ofNat 64 (s.obj (syncObj (s.ctx k c) w)).toNat := (BitVec.ofNat_toNat ..).symm
  rw [hnew, hvalue]
  simp only [hold]
  exact issue_of_accepts h (syncIssue_granted hgrant _)

theorem exec_syncWait (h : s.Issues k c w 0x91 0) (hgrant : s.objGranted k (syncObj (s.ctx k c) w) = true) :
    exec (.syncWait k c w) s = s.afterIssue k c w (s.waitOn k c (syncObj (s.ctx k c) w)
      (.sync (syncObj (s.ctx k c) w) (syncAmount (s.ctx k c) w)) s) := by
  change execSyncWait k c w s = _
  rw [execSyncWait, syncIssue_granted hgrant, issue_of_issues h]

end

/-- An object that is not granted is refused to each SYNC instruction. -/
theorem sync_refused {s : State} {k c : Nat} {w : W64} (hgrant : s.objGranted k (syncObj (s.ctx k c) w) = false) :
    (s.Accepts k c w 0x90 0 .sync → exec (.syncSignal k c w) s = s.afterRefusal k c fltArgRange) ∧
      (s.Accepts k c w 0x92 0 .sync → exec (.syncFadd k c w) s = s.afterRefusal k c fltArgRange) ∧
      (s.Accepts k c w 0x93 0 .sync → exec (.syncCmp k c w) s = s.afterRefusal k c fltArgRange) ∧
      (s.Issues k c w 0x91 0 → exec (.syncWait k c w) s = s.afterRefusal k c fltArgRange) := by
  refine ⟨fun h => ?_, fun h => ?_, fun h => ?_, fun h => ?_⟩
  · change execSyncSignal k c w s = _
    rw [execSyncSignal, syncIssue_refuse hgrant, issue_refuse_of_accepts h]
  · change execSyncFadd k c w s = _
    rw [execSyncFadd, syncIssue_refuse hgrant, issue_refuse_of_accepts h]
  · change execSyncCmp k c w s = _
    rw [execSyncCmp, syncIssue_refuse hgrant, issue_refuse_of_accepts h]
  · change execSyncWait k c w s = _
    rw [execSyncWait, syncIssue_refuse hgrant, issue_refuse_of_issues h]

/-! ### Waits on an object (R351, R353, R355) -/

/-- A wait whose condition holds is no wait. -/
theorem State.waitOn_met {s : State} {n : Nat} {kind : WaitKind} (h : kind.holds (s.obj n) = true) (k c : Nat) (sat : State) :
    s.waitOn k c n kind sat = sat := if_pos h

theorem State.waitOn_unmet {s : State} {n : Nat} {kind : WaitKind} (h : kind.holds (s.obj n) = false) (k c : Nat) (sat : State) :
    s.waitOn k c n kind sat = (s.setCtx k c { s.ctx k c with
      mode := .wait, wait := some { kind := kind, wdExp := (s.core k).wdExp, bind := (s.ctx k c).bind } }).addWaiter n { core := k, who := .ctx c } :=
  if_neg (by simp [h])

/-! ### SLOT instructions (R351, R352) -/

section
variable {s : State} {k c : Nat} {w : W64} {d : SlotDesc} (hdesc : readSlotDesc (s.core k).scratch (s.sA k c w).toNat = some d)
  (hF : s.objGranted k d.objF = true) (hD : s.objGranted k d.objD = true)
include hdesc hF hD

theorem slotIssue_of_desc (f : SlotDesc → Issued) : slotIssue k c w s f = f d := by
  rw [State.sA] at hdesc
  simp only [slotIssue, hdesc, hF, hD, Bool.and_self, if_true]

/-- SLOT.GET and SLOT.PUT wait on an object for the entry's address. -/
theorem slotWait_of_desc (sel : SlotDesc → Nat × W32) :
    slotWait k c w s sel = .go (s.waitOn k c (sel d).1 (.slot (sel d).1 (sel d).2 ((s.sB k c w).truncate 32) (fD w) (d.entry ((s.sB k c w).truncate 32)))
      (s.putS k c (fD w) (d.entry ((s.sB k c w).truncate 32)))) := slotIssue_of_desc hdesc hF hD _

/-- SLOT.FILL and SLOT.DRAIN add 1 to an object, as SYNC.SIGNAL does. -/
theorem slotSignal_spec {opc : Nat} (h : s.Accepts k c w opc 0 .slot) (sel : SlotDesc → Nat) :
    ∃ t, issue k c w (spells w opc 0) (slotSignal k c w s sel) s = .next t ∧ WritesObj s t (sel d) (s.obj (sel d) + 1) ∧
      TestsWaiters s t (sel d) (s.obj (sel d) + 1) ∧ Queues s t k c .slot 7 (s.core k).ops [] ∧ OnlyObjects s t k c := by
  rw [slotSignal, slotIssue_of_desc hdesc hF hD, issue_of_accepts h rfl]
  exact (ObjectEffect.refl s k).launches_setObj (s.setObj_writes (sel d) _) c w (by decide) 7 []

end

/-- A SLOT instruction without a descriptor in its form, or with an object not granted, is refused. -/
theorem slotIssue_refuse {s : State} {k c : Nat} {w : W64}
    (h : readSlotDesc (s.core k).scratch (s.sA k c w).toNat = none ∨ ∃ d, readSlotDesc (s.core k).scratch (s.sA k c w).toNat = some d ∧
      (s.objGranted k d.objF = false ∨ s.objGranted k d.objD = false)) (f : SlotDesc → Issued) :
    slotIssue k c w s f = .refuse fltArgRange := by
  simp only [State.sA] at h
  obtain hnone | ⟨d, hdesc, hgrant⟩ := h
  · simp only [slotIssue, hnone]
  · have hboth : (s.objGranted k d.objF && s.objGranted k d.objD) = false := Bool.and_eq_false_iff.mpr hgrant
    simp only [slotIssue, hdesc, hboth, Bool.false_eq_true, if_false]

/-- Settles O22: GET and PUT by whether the ring has what they wait for, FILL and DRAIN by the object they add to. -/
theorem slotInstructionsGuardTheirRing : Obligations.SlotInstructionsGuardTheirRing := by
  intro k c w s desc pos
  refine ⟨fun d hdesc hF hD => ?_, fun hbad => ⟨fun h => ?_, fun h => ?_, fun h => ?_, fun h => ?_⟩⟩
  · intro va
    refine ⟨?_, fun row hrow h => ?_⟩
    · intro row hrow room h
      have hexec : exec (row.2 k c w) s = s.afterIssue k c w (s.waitOn k c row.1.2.1 (.slot row.1.2.1 row.1.2.2 pos (fD w) va) (s.putS k c (fD w) va)) := by
        obtain rfl | rfl : row = _ ∨ row = _ := by simpa using hrow
        · exact (congrArg (issue k c w (spells w 0x80 0) · s) (slotWait_of_desc hdesc hF hD _)).trans (issue_of_issues h)
        · exact (congrArg (issue k c w (spells w 0x81 0) · s) (slotWait_of_desc hdesc hF hD _)).trans (issue_of_issues h)
      rw [hexec]
      refine ⟨fun hroom => ?_, fun hroom => ?_⟩
      · rw [State.waitOn_met (kind := .slot row.1.2.1 row.1.2.2 pos (fD w) va) ((reached_iff _ _).mpr hroom), afterIssue_of_parts k c w (State.putS_parts ..)]
        obtain ⟨hwrites, hscalars, honly, -⟩ := put_only s k c (fD w) va ((s.ctx k c).pc + 8)
        exact ⟨_, rfl, hwrites, hscalars, honly⟩
      · rw [State.waitOn_unmet (kind := .slot row.1.2.1 row.1.2.2 pos (fD w) va) (reached_eq_false hroom)]
    · obtain rfl | rfl : row = _ ∨ row = _ := by simpa using hrow
      · exact slotSignal_spec hdesc hF hD h SlotDesc.objF
      · exact slotSignal_spec hdesc hF hD h SlotDesc.objD
  · exact (congrArg (issue k c w (spells w 0x80 0) · s) (slotIssue_refuse hbad _)).trans (issue_refuse_of_issues h)
  · exact (congrArg (issue k c w (spells w 0x81 0) · s) (slotIssue_refuse hbad _)).trans (issue_refuse_of_issues h)
  · exact (congrArg (fun r => issue k c w (spells w 0x82 0) (unitIssue s k .slot r) s) (slotIssue_refuse hbad _)).trans (issue_refuse_of_accepts h)
  · exact (congrArg (fun r => issue k c w (spells w 0x83 0) (unitIssue s k .slot r) s) (slotIssue_refuse hbad _)).trans (issue_refuse_of_accepts h)

/-! ### Waiters that leave an object's list (R378) -/

/-- Every wait of the core is on an object or for a step boundary. -/
def State.WaitsOnObjects (s : State) (k : Nat) : Prop := ∀ i y, (s.ctx k i).wait = some y → y.kind = .step ∨ y.kind.obj?.isSome = true

/-- The context goes on, a SLOT wait with its entry's address in its register. -/
def Ctx.goesOn (x : Ctx) : Ctx :=
  match x.wait with
  | some { kind := .slot _ _ _ d a, .. } => ({ x with mode := .run, wait := none } : Ctx).writeS d a
  | _ => { x with mode := .run, wait := none }

theorem Ctx.goesOn_run (x : Ctx) : x.goesOn.mode = .run ∧ x.goesOn.wait = none := by
  unfold Ctx.goesOn
  split
  · rw [Ctx.writeS_frame]
    exact ⟨rfl, rfl⟩
  · exact ⟨rfl, rfl⟩

theorem Ctx.goesOn_goesOn (x : Ctx) : x.goesOn.goesOn = x.goesOn := by
  obtain ⟨hmode, hwait⟩ := x.goesOn_run
  generalize x.goesOn = y at *
  cases y
  simp_all [Ctx.goesOn]

theorem Ctx.readS_goesOn {x : Ctx} {o : Nat} {plus pos : W32} {d e : Nat} {a : W64} {b : Option (Nat × Nat)}
    (h : x.wait = some { kind := .slot o plus pos d a, wdExp := e, bind := b }) (r : Nat) :
    x.goesOn.readS r = if r = 0 then 0 else if r = d then a else x.readS r := by
  simp only [Ctx.goesOn, h]
  exact Ctx.readS_writeS ..

/-- Such waits count no context that they wait for. -/
theorem State.WaitsOnObjects.without {s : State} {k : Nat} (h : s.WaitsOnObjects k) (c i : Nat) : (s.ctx k i).without c = s.ctx k i := by
  have hi := h i
  generalize s.ctx k i = x at hi
  obtain ⟨_, _, _, _, _, _, _, wait, _, _⟩ := x
  cases wait with
  | none => rfl
  | some y =>
    obtain ⟨kind, e, b⟩ := y
    cases kind with
    | sessEnd ids cs => simpa [WaitKind.obj?] using hi _ rfl
    | _ => rfl

/-- Such waits do not end when they are looked at. -/
theorem State.WaitsOnObjects.recheckAll {s : State} {k : Nat} (h : s.WaitsOnObjects k) : s.recheckAll k = s := by
  refine List.foldl_fixed' (fun c => ?_) _
  have hc := h c
  unfold State.ctx at hc
  unfold State.recheck
  dsimp only
  split
  case h_1 hwait => simpa [WaitKind.obj?] using hc _ hwait
  case h_2 hwait => simpa [WaitKind.obj?] using hc _ hwait
  case h_3 hwait => simpa [WaitKind.obj?] using hc _ hwait
  case h_4 => rfl

/-- The state in which the context has gone on, and no other has been looked at. -/
def State.goOn (s : State) (k c : Nat) : State :=
  match (s.ctx k c).wait with
  | some { kind := .slot _ _ _ d a, .. } => (s.endWait k c .run).putS k c d a
  | _ => s.endWait k c .run

theorem State.releaseWaiter_eq (s : State) {w : Waiter} {c : Nat} (hwho : w.who = .ctx c) :
    s.releaseWaiter w = (s.goOn w.core c).recheckAll w.core := by
  cases hwait : (s.ctx w.core c).wait with
  | none => simp only [State.releaseWaiter, State.goOn, hwho, hwait]
  | some y =>
    obtain ⟨kind, e, b⟩ := y
    cases kind <;> simp only [State.releaseWaiter, State.goOn, hwho, hwait]

theorem State.goOn_frame (s : State) (k c : Nat) : s.goOn k c = { s with cores := (s.goOn k c).cores } := by
  unfold State.goOn
  split <;> rfl

theorem State.core_goOn_ne (s : State) {k j : Nat} (c : Nat) (h : j ≠ k) : (s.goOn k c).core j = s.core j := by
  have hend : (s.endWait k c .run).core j = s.core j := (State.core_setCore ..).trans (if_neg h)
  unfold State.goOn
  split
  · exact (State.core_setCore ..).trans ((if_neg h).trans hend)
  · exact hend

/-- Of the contexts of its core only the one that goes on changes. -/
theorem State.WaitsOnObjects.ctx_goOn {s : State} {k : Nat} (h : s.WaitsOnObjects k) (c i : Nat) :
    (s.goOn k c).ctx k i = if i = c then (s.ctx k i).goesOn else s.ctx k i := by
  have hend : ∀ i, (s.endWait k c .run).ctx k i = if i = c then { s.ctx k c with mode := .run, wait := none } else s.ctx k i := fun i => by
    rw [State.ctx_endWait, h.without]
  by_cases hi : i = c
  · subst hi
    rw [if_pos rfl]
    unfold State.goOn Ctx.goesOn
    split
    · rename_i hwait
      rw [State.putS, State.ctx, State.core_setCore_self, Core.ctx_setCtx_self]
      change ((s.endWait k i .run).ctx k i).writeS _ _ = _
      rw [hend, if_pos rfl]
    · rw [hend, if_pos rfl]
  · rw [if_neg hi]
    unfold State.goOn
    split
    · rw [State.putS, State.ctx, State.core_setCore_self, Core.ctx_setCtx, if_neg hi]
      exact (hend i).trans (if_neg hi)
    · exact (hend i).trans (if_neg hi)

/-- The waits that are left are on objects still. -/
theorem State.WaitsOnObjects.goOn {s : State} {k : Nat} (h : s.WaitsOnObjects k) (j c : Nat) (hj : s.WaitsOnObjects j) :
    (s.goOn j c).WaitsOnObjects k := by
  intro i y hy
  by_cases hk : k = j
  · subst hk
    rw [h.ctx_goOn] at hy
    split at hy
    · rw [(Ctx.goesOn_run _).2] at hy
      cases hy
    · exact h i y hy
  · rw [State.ctx, State.core_goOn_ne s c hk] at hy
    exact h i y hy

/-- Releasing such a waiter lets its context go on and changes nothing else. -/
theorem State.WaitsOnObjects.releaseWaiter {s : State} {w : Waiter} {c : Nat} (h : s.WaitsOnObjects w.core) (hwho : w.who = .ctx c) :
    s.releaseWaiter w = s.goOn w.core c := by
  rw [s.releaseWaiter_eq hwho, (h.goOn w.core c h).recheckAll]

/-- The waiters of a list released one by one: each context named goes on, and no other context changes. -/
theorem foldl_releaseWaiter {go : List Waiter} {s : State} (hctx : ∀ w ∈ go, ∃ i, w.who = .ctx i) (hwaits : ∀ w ∈ go, s.WaitsOnObjects w.core) :
    go.foldl State.releaseWaiter s = { s with cores := (go.foldl State.releaseWaiter s).cores } ∧
      ∀ k c, ((∃ w ∈ go, w.core = k ∧ w.who = .ctx c) → (go.foldl State.releaseWaiter s).ctx k c = (s.ctx k c).goesOn) ∧
        ((∀ w ∈ go, w.core = k → w.who ≠ .ctx c) → (go.foldl State.releaseWaiter s).ctx k c = s.ctx k c) := by
  induction go generalizing s with
  | nil => exact ⟨rfl, fun k c => ⟨fun ⟨_, hw, _⟩ => absurd hw List.not_mem_nil, fun _ => rfl⟩⟩
  | cons x go ih =>
    obtain ⟨i, hi⟩ := hctx x List.mem_cons_self
    have hx := hwaits x List.mem_cons_self
    obtain ⟨hframe, hrest⟩ := ih (s := s.goOn x.core i) (fun w hw => hctx w (List.mem_cons_of_mem x hw))
      (fun w hw => (hwaits w (List.mem_cons_of_mem x hw)).goOn x.core i hx)
    have hstep : ∀ k c, (s.goOn x.core i).ctx k c = if k = x.core ∧ c = i then (s.ctx k c).goesOn else s.ctx k c := fun k c => by
      by_cases hk : k = x.core
      · simp only [hk, hx.ctx_goOn, true_and]
      · rw [State.ctx, State.core_goOn_ne s i hk, if_neg (fun h => hk h.1)]
        rfl
    rw [List.foldl_cons, hx.releaseWaiter hi]
    refine ⟨hframe.trans (congrArg (fun u : State => { u with cores := (go.foldl State.releaseWaiter (s.goOn x.core i)).cores })
      (s.goOn_frame x.core i)), fun k c => ⟨fun hgo => ?_, fun hnot => ?_⟩⟩
    · obtain ⟨hnamed, hother⟩ := hrest k c
      by_cases hlater : ∃ w ∈ go, w.core = k ∧ w.who = .ctx c
      · rw [hnamed hlater, hstep]
        split
        · exact Ctx.goesOn_goesOn _
        · rfl
      · obtain ⟨w, hw, hcore, hwho⟩ := hgo
        obtain rfl | hw := List.mem_cons.mp hw
        · rw [hother fun v hv hk hc => hlater ⟨v, hv, hk, hc⟩, hstep, if_pos ⟨hcore.symm, WaitAgent.ctx.inj (hwho.symm.trans hi)⟩]
        · exact absurd ⟨w, hw, hcore, hwho⟩ hlater
    · rw [(hrest k c).2 fun w hw => hnot w (List.mem_cons_of_mem x hw), hstep, if_neg]
      exact fun ⟨hk, hc⟩ => hnot x List.mem_cons_self hk.symm (by rw [hi, hc])

/-- Settles O23: each SYNC instruction by what it makes of its object, and the waiters that leave an object's list one by one. -/
theorem objectsAndTheirWaiters : Obligations.ObjectsAndTheirWaiters := by
  refine ⟨⟨?_, ?_⟩, ?_⟩
  · intro k c w s n amount old before
    refine ⟨?_, fun h hgrant => ?_, fun h hgrant => ?_, fun h hgrant heq => ?_, fun h hgrant hne => ?_, sync_refused⟩
    · change ((s.sA k c w).toNat + bits (fImm w) 0 17) % 131072 = _
      rw [bits_low]
    · rw [exec_syncSignal h hgrant]
      exact (ObjectEffect.refl s k).launches_setObj (s.setObj_writes n _) c w (by decide) 8 []
    · rw [exec_syncFadd h hgrant]
      exact (ObjectEffect.dropScalar s k c (fD w)).launches_setObj (s.setObj_dropScalar_writes k c (fD w) n _) c w (by decide) 8 _
    · rw [exec_syncCmp h hgrant, if_pos heq]
      exact (ObjectEffect.dropScalar s k c (fD w)).launches_setObj (s.setObj_dropScalar_writes k c (fD w) n _) c w (by decide) 8 _
    · rw [exec_syncCmp h hgrant, if_neg hne]
      exact (ObjectEffect.dropScalar s k c (fD w)).launches c w (by decide) 8 _
  · intro k c w s n amount h hgrant
    rw [exec_syncWait h hgrant]
    refine ⟨fun hmet => ?_, fun hunmet => ?_⟩
    · exact congrArg (s.afterIssue k c w) (State.waitOn_met (kind := .sync n amount) ((reached_iff _ _).mpr hmet) k c s)
    · exact congrArg (s.afterIssue k c w) (State.waitOn_unmet (kind := .sync n amount) (reached_eq_false hunmet) k c s)
  · intro n s go s1
    refine ⟨rfl, fun hctx hwaits => ?_⟩
    have hwaits1 : ∀ w ∈ go, s1.WaitsOnObjects w.core := hwaits
    obtain ⟨hframe, hctxs⟩ := foldl_releaseWaiter hctx hwaits1
    let t := go.foldl State.releaseWaiter s1
    have hlist : t.waiters = s1.waiters := (congrArg State.waiters hframe).trans rfl
    refine ⟨t, rfl, ?_, fun m => ?_, fun w hw c hwho => ?_, fun k c hnot => (hctxs k c).2 hnot⟩
    · rw [hlist]
      exact hframe
    · rw [hlist]
      exact sget_sput ..
    · have hgo : t.ctx w.core c = (s.ctx w.core c).goesOn := (hctxs w.core c).1 ⟨w, hw, rfl, hwho⟩
      obtain ⟨hmode, hnone⟩ := (s.ctx w.core c).goesOn_run
      rw [hgo]
      exact ⟨hmode, hnone, fun o plus pos d a e b r hslot => Ctx.readS_goesOn hslot r⟩

end Sys2Proof.Machine
end

section
/-! PROOFS. SESS.NEXT and SESS.HINT: the request that a core group takes, and the hints on the units of a range. -/

namespace Sys2Proof.Machine

/-! ### SESS.NEXT (R359, R424) -/

/-- The request `q`, number `r`, leaves the front of queue `g` and is assigned at its partition's present step. -/
def State.assigned (s : State) (g r : Nat) (rest : List Nat) (q : Request) : State :=
  ({ s with queues := sput [] s.queues g rest }).setRequest r { q with assigned := true, takenAt := (s.part q.part).prog.step.toNat }

theorem State.takeRequest_nil {s : State} {g : Nat} (h : sget [] s.queues g = []) : s.takeRequest g = (0, s) := by
  simp only [State.takeRequest, h]

section
variable {s : State} {g r : Nat} {rest : List Nat} {q : Request} (hqueue : sget [] s.queues g = r :: rest) (hreq : s.request r = some q)
include hqueue hreq

theorem State.takeRequest_noSession (hsess : q.session = none) :
    s.takeRequest g = (BitVec.ofNat 64 (r % 2 ^ 14 + 2 ^ 63), s.assigned g r rest q) := by
  have hreq' : State.request { s with queues := sput [] s.queues g rest } r = some q := hreq
  cases q
  subst hsess
  simp only [State.takeRequest, hqueue, hreq', bits_low, Option.getD_none, Nat.zero_mod, Nat.zero_mul, Nat.add_zero]
  rfl

theorem State.takeRequest_session {n : Nat} (hsess : q.session = some n) :
    s.takeRequest g = (BitVec.ofNat 64 (r % 2 ^ 14 + n % 2 ^ 18 * 2 ^ 14 + 2 ^ 63), (s.assigned g r rest q).setSess n
      { s.sessOf n with queued := (s.sessOf n).queued - 1, assigned := (s.sessOf n).assigned + 1 }) := by
  have hreq' : State.request { s with queues := sput [] s.queues g rest } r = some q := hreq
  cases q
  subst hsess
  simp only [State.takeRequest, hqueue, hreq', bits_low, Option.getD_some]
  rfl

end

/-- SESS.NEXT puts what the group's queue gives on its way to s[D]. -/
theorem exec_sessNext {s t : State} {k c : Nat} {w v : W64} (h : s.Accepts k c w 0xA3 0 .sess) (htake : s.takeRequest (groupOf k) = (v, t)) :
    exec (.sessNext k c w) s =
      s.afterIssue k c w ((t.setCore k ((t.core k).dropScalar c (fD w))).launch k c .sess 9 [] [.scalar (fD w) v] .plain) := by
  change execSessNext k c w s = _
  rw [execSessNext, htake]
  exact issue_of_accepts h rfl

/-! ### SESS.HINT (R396 to R399) -/

theorem exec_sessHint_refuses {s : State} {k c : Nat} {w : W64} (h : s.Accepts k c w 0xA4 0 .sess)
    (hrange : 2 ^ 48 < (s.sA k c w).toNat + (s.sB k c w).toNat) : exec (.sessHint k c w) s = s.afterRefusal k c fltArgRange := by
  change execSessHint k c w s = _
  simp only [State.sA, State.sB] at hrange
  simp only [execSessHint, if_pos hrange]
  exact issue_refuse_of_accepts h

/-- The hints of the range change the partition's units; a PIN that would pass the quota fails the item, and the instruction has faulted. -/
theorem exec_sessHint_hints {s : State} {k c p : Nat} {w : W64} {m : Mem} {skips : Nat} {overs : Bool} (h : s.Accepts k c w 0xA4 0 .sess)
    (hrange : (s.sA k c w).toNat + (s.sB k c w).toNat ≤ 2 ^ 48) (hpart : s.partOf k = some p)
    (hhints : hintUnits (fImm w % 8) (s.part p).grant.pinQuota (unitBases (s.part p).arena (s.sA k c w).toNat (s.sB k c w).toNat) (s.part p).mem 0 =
      (m, skips, overs)) :
    let t := (s.setPart p { (s.part p).count 0x1034 skips with mem := m }).launch k c .sess 9 [] []
      (if (s.sB k c w).toNat = 0 then .empty else .plain)
    exec (.sessHint k c w) s = s.afterIssue k c w (if overs then (t.faultAt k c (s.ctx k c).bind fltPinQuota).faultLast k else t) := by
  intro t
  change execSessHint k c w s = _
  rw [mod_eq_bits 8 3 rfl] at hhints
  simp only [State.sA, State.sB] at hrange hhints
  simp only [execSessHint, if_neg (Nat.not_lt.mpr hrange), hpart, hhints, ← apply_ite Issued.go]
  exact issue_of_accepts h rfl

/-- A PIN of a unit that is not pinned goes by the quota. -/
theorem hintUnit_pin {quota a : Nat} {m : Mem} {u : PUnit} (h : u.pinned = false) :
    hintUnit 0 quota m a u = if quota < m.pinUsed + u.pinCount then none else some (m.setUnit a { u with pinned := true }) := by
  simp only [hintUnit, h, Bool.false_eq_true, if_false]

/-- Settles O25: SESS.NEXT by the group's queue and the request's session, SESS.HINT by its range, and each kind of hint by its effect on one unit. -/
theorem nextRequestAndHints : Obligations.NextRequestAndHints := by
  refine ⟨fun k c w s h => ?_, fun k c w s h => ⟨fun hrange => ?_, fun p m skips overs hrange hpart hhints => ?_⟩, fun quota a m u => ?_⟩
  · intro g done
    refine ⟨fun hempty => exec_sessNext h (State.takeRequest_nil hempty), fun r rest q hqueue hreq => ⟨fun hnone => ?_, fun n hsess => ?_⟩⟩
    · exact exec_sessNext h (State.takeRequest_noSession hqueue hreq hnone)
    · exact exec_sessNext h (State.takeRequest_session hqueue hreq hsess)
  · exact exec_sessHint_refuses h hrange
  · exact exec_sessHint_hints h hrange hpart hhints
  · refine ⟨fun hpin hfits => ?_, fun hpin hover => ?_, rfl, rfl, rfl⟩
    · rw [hintUnit_pin hpin, if_neg (Nat.not_lt.mpr hfits)]
    · rw [hintUnit_pin hpin, if_pos hover]

end Sys2Proof.Machine
end

section
/-! PROOFS. FAB.GET and FAB.PUT at issue: the descriptor in its fields, what it is refused for, and the window that it takes. -/

namespace Sys2Proof.Machine

/-- The fields of a FAB descriptor (R360): the exposure offset, the module, the local address, the length and the import-table entry. -/
structure FabDesc where
  off : Nat
  module : Nat
  la : Nat
  len : Nat
  entry : RemoteWin
  reserved : Nat

/-- The descriptor that its 32 bytes spell, with the entry that it names of the partition `b`. -/
def readFabDesc (b : PartBlock) (v : Nat) : FabDesc :=
  { off := bits v 0 45, module := bits v 45 12, la := bits v 64 48, len := bits v 128 40, entry := b.rwin (bits v 192 12)
    reserved := bits v 57 7 + bits v 112 16 + bits v 168 24 + bits v 222 34 }

/-- Some bytes of the transfer lie outside the window of its entry, or the entry is another module's (R361). -/
def FabDesc.Outside (d : FabDesc) : Prop :=
  d.len ≠ 0 ∧ (d.entry.module ≠ d.module ∨ d.off < d.entry.ebase ∨ d.entry.ebase + d.entry.size < d.off + d.len)

/-- What a descriptor is refused for on module `id` (R360, R361). -/
def FabDesc.Bad (d : FabDesc) (id : Nat) : Prop :=
  d.reserved ≠ 0 ∨ d.entry.size = 0 ∨ d.module = id ∨ d.off % 4 ≠ 0 ∨ d.la % 4 ≠ 0 ∨ d.len % 4 ≠ 0 ∨ reachesHole d.la d.len = true ∨ d.Outside

/-- The test that the model makes looks at the window before the local range. -/
theorem FabDesc.bad_iff (d : FabDesc) (id : Nat) :
    d.Bad id ↔ (d.reserved != 0 || d.entry.size == 0 || d.module == id || d.off % 4 != 0 || d.la % 4 != 0 || d.len % 4 != 0 ||
      (d.len != 0 && (d.entry.module != d.module || decide (d.off < d.entry.ebase) || decide (d.entry.ebase + d.entry.size < d.off + d.len))) ||
      reachesHole d.la d.len) = true := by
  simp only [FabDesc.Bad, FabDesc.Outside, Bool.or_eq_true, Bool.and_eq_true, bne_iff_ne, beq_iff_eq, decide_eq_true_eq, or_assoc,
    or_comm (a := reachesHole d.la d.len = true)]

/-- The transfer as it joins the unit. -/
def FabDesc.job (d : FabDesc) (put : Bool) : Job :=
  if d.len = 0 then .empty
  else .fab { put := put, module := d.module, goff := d.off, laddr := d.la, len := d.len, key := d.entry.key, epoch := d.entry.epoch
              gapUs := d.entry.gapUs }

section
variable {s : State} {k c p : Nat} {w : W64}

theorem fabIssue_badAddr (put : Bool) (h : (s.sA k c w + sextImm w).toNat % 32 ≠ 0 ∨ reachesHole (s.sA k c w + sextImm w).toNat 32 = true) :
    fabIssue k c w put s = .refuse fltArgRange := by
  have hbad : badAddr (addrOf (s.ctx k c) w) 32 32 = true := by
    rw [badAddr, Bool.or_eq_true, bne_iff_ne]
    exact h
  simp only [fabIssue, hbad, if_true]

variable (hpart : s.partOf k = some p) (halign : (s.sA k c w + sextImm w).toNat % 32 = 0)
  (hhole : reachesHole (s.sA k c w + sextImm w).toNat 32 = false) {bs : List Byte}
  (hread : s.readAt k (s.sA k c w + sextImm w).toNat 32 = .ok bs)
include hpart halign hhole hread

/-- A bad descriptor is refused. -/
theorem fabIssue_bad (put : Bool) (hbad : (readFabDesc (s.part p) (leNat bs)).Bad s.fabric.id) : fabIssue k c w put s = .refuse fltArgRange := by
  have hva : addrOf (s.ctx k c) w = (s.sA k c w + sextImm w).toNat := rfl
  simp only [fabIssue, hva, badAddr_eq_false halign hhole, Bool.false_eq_true, if_false, hread, hpart]
  exact if_pos ((FabDesc.bad_iff ..).mp hbad)

/-- Any other descriptor joins the unit's queue with its completion object. -/
theorem fabIssue_good (put : Bool) (hgood : ¬(readFabDesc (s.part p) (leNat bs)).Bad s.fabric.id) :
    fabIssue k c w put s = .go ((s.touchAt k (s.sA k c w + sextImm w).toNat 32).launch k c .fab 10
      (if bit (leNat bs) 221 then [bits (leNat bs) 204 17] else []) [] ((readFabDesc (s.part p) (leNat bs)).job put)) := by
  have hva : addrOf (s.ctx k c) w = (s.sA k c w + sextImm w).toNat := rfl
  simp only [fabIssue, hva, badAddr_eq_false halign hhole, Bool.false_eq_true, if_false, hread, hpart]
  exact if_neg fun h => hgood ((FabDesc.bad_iff ..).mpr h)

end

/-- FAB.GET and FAB.PUT, by OPC and direction. -/
def fabRows : List ((Nat × Bool) × (Nat → Nat → W64 → Instr)) := [((0xB0, false), .fabGet), ((0xB1, true), .fabPut)]

theorem exec_fabRow {row : (Nat × Bool) × (Nat → Nat → W64 → Instr)} (hrow : row ∈ fabRows) (k c : Nat) (w : W64) (s : State) :
    exec (row.2 k c w) s = issue k c w (spells w row.1.1 0) (unitIssue s k .fab (fabIssue k c w row.1.2 s)) s := by
  obtain rfl | rfl : row = _ ∨ row = _ := by simpa [fabRows] using hrow
  · rfl
  · rfl

/-- Settles O26: a descriptor that can be read by whether it is bad, and an address of it that is refused. -/
theorem fabricTransfersTakeTheirWindow : Obligations.FabricTransfersTakeTheirWindow := by
  intro row hrow k c w s bs p va v off la n e h hpart reserved readable
  let d := readFabDesc (s.part p) (leNat bs)
  have hexec := exec_fabRow hrow k c w s
  refine ⟨fun hread hres hsize hmodule hoff hla hlen hhole hwindow => ?_, fun haddr => ?_, fun hread hbad => ?_⟩
  · obtain ⟨halign, hva, hread⟩ := hread
    have hin : ¬d.Outside := fun ⟨hne, hout⟩ => by
      obtain ⟨h1, h2, h3⟩ := hwindow hne
      exact hout.elim (· h1) (·.elim (Nat.not_lt.mpr h2) (Nat.not_lt.mpr h3))
    have hgood : ¬d.Bad s.fabric.id := by
      rintro (h | h | h | h | h | h | h | h)
      · exact h hres
      · exact hsize h
      · exact hmodule h
      · exact h hoff
      · exact h hla
      · exact h hlen
      · exact Bool.false_ne_true (hhole.symm.trans h)
      · exact hin h
    rw [hexec, fabIssue_good hpart halign hva hread row.1.2 hgood, issue_of_accepts h rfl]
    rfl
  · rw [hexec, fabIssue_badAddr row.1.2 haddr, issue_refuse_of_accepts h]
  · obtain ⟨halign, hva, hread⟩ := hread
    rw [hexec, fabIssue_bad hpart halign hva hread row.1.2 hbad, issue_refuse_of_accepts h]

end Sys2Proof.Machine
end

section
/-! PROOFS. DMA.LIN from a page in Tier F, beside an instruction in flight with a number that the core has still to give: the transfer of Winnow for the page
takes that number, and at its start the other instruction counts as started too. -/

namespace Sys2Proof.Machine

/-- DMA.LIN of s2 bytes from s1 to s0. -/
def farLinWord : W64 := 0x1100810000000000#64

/-- Core 2 is about to give number 0, to a DMA.LIN of 4 bytes from a page in Tier F, which has a route to its owner, to the start of the scratchpad; an
instruction with number 1 waits in the SYNC queue. -/
def strayLinState : State :=
  { cores := [(2, { ctxs := [(1, { mode := .run, s := [(1, 0x400000#64), (2, 4#64)] })], icache := [(0, farLinWord.zeroExtend 512)]
                    ops := [strayOp], nextId := 0 })]
    parts := [(3, { state := .run, grant := { groups := 1#64 }, mem := { units := [(0x400000, { tier := .F })] } })]
    fabric := { ports := [(0, 1)], route := [(0, 1)] } }

theorem strayLinState_accepts : strayLinState.Accepts 2 1 farLinWord 0x11 0 .dma := by decide +kernel

theorem strayLinState_reads : (strayLinState.struck 2 .none).stopAt 2 true (strayLinState.sA 2 1 farLinWord).toNat
    ((strayLinState.ctx 2 1).readS (fD farLinWord)).toNat = none := by decide +kernel

theorem strayLinState_writes : (strayLinState.struck 2 .none).stopAt 2 false (strayLinState.sB 2 1 farLinWord).toNat
    ((strayLinState.ctx 2 1).readS (fD farLinWord)).toNat = none := by decide +kernel

/-- The transfer for the source's page starts with number 1, and the waiting instruction with it. -/
theorem strayLin_starts : firstStarted (exec (.dmaLin 2 1 farLinWord .none) strayLinState) = some true := by decide +kernel

/-- Refutes O16: a DMA.LIN that runs need not leave what was in flight as it was, with itself and its transfers behind. As for DMA.COPY, the statement
allows a core with an instruction in flight whose number it has still to give, where the start of a transfer (`State.startFab`) marks both
instructions of that number. -/
theorem not_linearCopyMovesEveryByte : ¬ Obligations.LinearCopyMovesEveryByte := by
  intro ⟨hlin, _⟩
  obtain ⟨t, hexec, -, -, -, -, -, ⟨more, ⟨hops, -⟩, -⟩, -⟩ :=
    hlin 2 1 farLinWord .none strayLinState strayLinState_accepts (by decide +kernel) (by decide +kernel) (by decide +kernel) (by decide +kernel)
      (by decide +kernel) strayLinState_reads strayLinState_writes
  have hstarts := strayLin_starts
  rw [hexec, firstStarted, hops] at hstarts
  exact nomatch hstarts

end Sys2Proof.Machine
end

section
/-! PROOFS. VEC.LD and VEC.ST: what a read of memory into a context and a write of memory leave after issue, the elements of a load, and the bytes and
codes of a store. -/

namespace Sys2Proof.Machine

/-! ### A read of memory into a context, and a write of memory, after issue (R299, R390, R464) -/

/-- An instruction that reads `n` bytes at `va` and changes its own context to `y`. -/
theorem afterIssue_reads (s : State) (k c va n : Nat) (w : W64) (y : Ctx) :
    ∃ t, s.afterIssue k c w ((s.touchAt k va n).setCtx k c y) = .next t ∧ t.ctx k c = { y with pc := (s.ctx k c).pc + 8 } ∧
      t = { s with cores := t.cores, reqs := s.boundReqs k c, parts := t.parts, fabric := t.fabric } ∧ FarChanges s t k va n ∧ SameParts s t ∧
      SameOtherCores s t k ∧ (∀ i, i ≠ c → t.ctx k i = s.ctx k i) ∧
      t.core k = { s.core k with ctxs := (t.core k).ctxs, ops := (t.core k).ops, nextId := (t.core k).nextId, tagBit := (t.core k).tagBit } ∧
      (s.Near k va n → (t.core k).ops = (s.core k).ops) := by
  let X := (s.touchAt k va n).setCtx k c y
  obtain ⟨t, ht, hfollows⟩ := afterIssue_follows s X k c w
  have hcore : X.core k = (s.core k).setCtx c y := by
    refine (State.core_setCore_self ..).trans ?_
    rw [core_touchAt]
  have hctx : ∀ i, X.ctx k i = if i = c then y else s.ctx k i := fun i => by
    rw [State.ctx, hcore, Core.ctx_setCtx]
    rfl
  have hreqs : (X.bindItem (s.ctx k c).bind).reqs = s.boundReqs k c :=
    (bindItem_reqs_congr (s.touchAt k va n) X _ rfl rfl).trans (boundReqs_touchAt s k c k va n)
  have hfabric : X.fabric = s.fabric := by
    change (s.touchAt k va n).fabric = s.fabric
    rw [State.touchAt_frame]
  have hnear : s.Near k va n → t.fabric = s.fabric ∧ (t.core k).ops = (s.core k).ops ∧ (t.core k).nextId = (s.core k).nextId ∧
      (t.core k).tagBit = (s.core k).tagBit := fun h => by
    obtain ⟨hf, hops, hid, htag⟩ := hfollows.near ((farOfCore_parts rfl).trans (State.farOfCore_touchAt h))
    rw [hf, hops, hid, htag, hcore]
    exact ⟨hfabric, rfl, rfl, rfl⟩
  refine ⟨t, ht, ?_, ?_, ⟨hfabric ▸ hfollows.fabric, fun h => ?_⟩, hfollows.sameParts (sameParts_touchAt s k va n), fun j hj => ?_, fun i hi => ?_, ?_,
    fun h => (hnear h).2.1⟩
  · rw [hfollows.ctx, hctx, if_pos rfl]
  · refine hfollows.frame.trans ?_
    rw [hreqs]
    exact congrArg (fun u : State => { u with cores := t.cores, reqs := s.boundReqs k c, parts := t.parts, fabric := t.fabric })
      (State.touchAt_frame s k va n)
  · obtain ⟨hf, -, hid, htag⟩ := hnear h
    exact ⟨hf, hid, htag⟩
  · rw [hfollows.otherCores j hj]
    refine (State.core_setCore ..).trans ?_
    rw [if_neg hj, core_touchAt]
  · rw [hfollows.otherCtxs i hi, hctx, if_neg hi]
  · have h := hfollows.core
    rw [hcore] at h
    rw [h]
    rfl

/-- An instruction whose own effect is to write bytes that can be written. -/
theorem afterIssue_writes {s : State} {k c va n : Nat} {w : W64} {bs : List Byte} (hn : 0 < n) (hlen : bs.length = n)
    (hhole : reachesHole va n = false) (hw : s.writableAt k va n = none) :
    ∃ t, s.afterIssue k c w (s.writeAt k va bs) = .next t ∧ (∀ i, i < n → t.byteAt k (va + i) = bs.getD i 0) ∧ SameBytesOutside s t k va n ∧
      t.ctx k c = { s.ctx k c with pc := (s.ctx k c).pc + 8 } ∧ (∀ i, i ≠ c → t.ctx k i = s.ctx k i) ∧ SameOtherCores s t k ∧
      t.core k = { s.core k with ctxs := (t.core k).ctxs, scratch := (t.core k).scratch, ops := (t.core k).ops, nextId := (t.core k).nextId,
                                 tagBit := (t.core k).tagBit } ∧
      (s.Near k va n → (t.core k).ops = (s.core k).ops) ∧ (∀ p, some p ≠ s.partOf k → t.part p = s.part p) ∧
      t = { s with cores := t.cores, reqs := t.reqs, parts := t.parts, fabric := t.fabric } ∧ FarChanges s t k va n := by
  let X := s.writeAt k va bs
  obtain ⟨t, ht, hfollows⟩ := afterIssue_follows s X k c w
  obtain ⟨hinside, houtside⟩ := State.byteAt_writeAt (bs := bs) hn hlen hhole hw
  obtain ⟨hcore, hcores, hparts, hpartOf⟩ := State.writeAt_effect (bs := bs) hn hhole hw
  have hctx : ∀ i, X.ctx k i = s.ctx k i := fun i => by
    rw [State.ctx, hcore]
    rfl
  have hfabric : X.fabric = s.fabric := (congrArg State.fabric (s.writeAt_frame k va bs)).trans rfl
  have hnear : s.Near k va n → t.fabric = s.fabric ∧ (t.core k).ops = (s.core k).ops ∧ (t.core k).nextId = (s.core k).nextId ∧
      (t.core k).tagBit = (s.core k).tagBit := fun h => by
    obtain ⟨hf, hops, hid, htag⟩ := hfollows.near (State.farOfCore_writeAt hlen h)
    rw [hf, hops, hid, htag, hcore]
    exact ⟨hfabric, rfl, rfl, rfl⟩
  refine ⟨t, ht, fun i hi => (hfollows.byteAt _).trans (hinside i hi), fun a ha => (hfollows.byteAt a).trans (houtside a ha), ?_, fun i hi => ?_,
    fun j hj => (hfollows.otherCores j hj).trans (hcores j hj), ?_, fun h => (hnear h).2.1, fun p hp => ?_, ?_, ⟨hfabric ▸ hfollows.fabric, fun h => ?_⟩⟩
  · rw [hfollows.ctx, hctx]
  · rw [hfollows.otherCtxs i hi, hctx]
  · have h := hfollows.core
    rw [hcore] at h
    rw [h]
  · obtain h | ⟨h, -⟩ := hfollows.part p
    · rw [h, hparts p hp]
    · exact absurd (h.symm.trans hpartOf) hp
  · have hreqs : t.reqs = (X.bindItem (s.ctx k c).bind).reqs := by rw [hfollows.frame]
    refine hfollows.frame.trans ?_
    rw [hreqs]
    exact congrArg (fun u : State => { u with cores := t.cores, reqs := (X.bindItem (s.ctx k c).bind).reqs, parts := t.parts, fabric := t.fabric })
      (State.writeAt_frame s k va bs)
  · obtain ⟨hf, -, hid, htag⟩ := hnear h
    exact ⟨hf, hid, htag⟩

/-! ### VEC.LD (R335, R337) -/

/-- An element of 64 that lie side by side. -/
theorem element_of_bytes {α : Type} (f : Nat → α) (n : Nat) {l : Nat} (h : l < 64) :
    (((List.range (64 * n)).map f).drop (n * l)).take n = (List.range n).map fun i => f (n * l + i) := by
  have hfits : n * l + n ≤ 64 * n := by
    rw [← Nat.mul_succ, Nat.mul_comm 64]
    exact Nat.mul_le_mul_left n h
  refine List.ext_getElem ?_ fun i _ _ => by simp
  simp only [List.length_take, List.length_drop, List.length_map, List.length_range]
  omega

section
variable {s : State} {k c : Nat} {w : W64}

/-- The lanes that a load of elements of `n` bytes reads. -/
def State.loadedLanes (s : State) (k : Nat) (w : W64) (va n : Nat) : List W32 :=
  (List.range 64).map fun l => extendF (fFmt w) (leNat ((List.range n).map fun i => s.byteAt k (va + n * l + i)))

theorem State.loadedLanes_of_read {va n : Nat} {bs : List Byte} (hn : 0 < n) (hhole : reachesHole va (64 * n) = false)
    (hread : s.readAt k va (64 * n) = .ok bs) :
    (List.range 64).map (fun l => extendF (fFmt w) (leNat ((bs.drop (n * l)).take n))) = s.loadedLanes k w va n := by
  refine List.map_congr_left fun l hl => ?_
  rw [State.readAt_bytes (Nat.mul_pos (by decide) hn) hhole hread, element_of_bytes _ n (List.mem_range.mp hl)]
  simp only [Nat.add_assoc]

/-- The formats that a load takes, with the bytes of an element. -/
theorem loadFormat {f n : Nat} (h : (f, n) ∈ [(12, 2), (13, 2), (14, 4)]) : 0 < n ∧ fmtWidth f / 8 = n ∧ (f == 12 || f == 13 || f == 14) = true := by
  simp only [List.mem_cons, Prod.mk.injEq, List.not_mem_nil, or_false] at h
  rcases h with ⟨rfl, rfl⟩ | ⟨rfl, rfl⟩ | ⟨rfl, rfl⟩ <;> decide

theorem badAddr_of_multiple {va n : Nat} (m : Nat) (halign : va % n = 0) (hhole : reachesHole va (m * n) = false) : badAddr va (m * n) n = false := by
  simp [badAddr, halign, hhole]

theorem exec_vecLd {n : Nat} {bs : List Byte} (h : s.Issues k c w 0x47 0) (hfree : (s.core k).vecStalled = false)
    (hfmt : (fFmt w, n) ∈ [(12, 2), (13, 2), (14, 4)]) (halign : (s.sA k c w).toNat % n = 0) (hhole : reachesHole (s.sA k c w).toNat (64 * n) = false)
    (hread : s.readAt k (s.sA k c w).toNat (64 * n) = .ok bs) :
    exec (.vecLd k c w) s = s.afterIssue k c w ((s.touchAt k (s.sA k c w).toNat (64 * n)).setCtx k c
      ((s.ctx k c).writeV (fD w) (s.loadedLanes k w (s.sA k c w).toNat n))) := by
  obtain ⟨hn, hwidth, hlisted⟩ := loadFormat hfmt
  have hlanes := State.loadedLanes_of_read (w := w) hn hhole hread
  have hbad := badAddr_of_multiple 64 halign hhole
  have hctx : (s.touchAt k (s.sA k c w).toNat (64 * n)).ctx k c = s.ctx k c := congrArg (Core.ctx · c) (core_touchAt ..)
  rw [← hlanes, ← hctx]
  rw [State.sA] at hread hbad
  change execVecLd k c w s = _
  simp only [execVecLd, hwidth, hlisted, hbad, hread, Bool.not_true, Bool.false_eq_true, if_false]
  exact vecIssue_go h hfree

theorem exec_vecLd_badFormat (h : s.Issues k c w 0x47 0) (hfree : (s.core k).vecStalled = false) (hfmt : fFmt w ∉ [12, 13, 14]) :
    exec (.vecLd k c w) s = s.afterRefusal k c fltFmtRole := by
  have hlisted : (fFmt w == 12 || fFmt w == 13 || fFmt w == 14) = false := by simpa [and_assoc] using hfmt
  change execVecLd k c w s = _
  simp only [execVecLd, hlisted, Bool.not_false, if_true]
  rw [vecIssue_free hfree, issue_refuse_of_issues h]

/-! ### VEC.ST (R266, R336, R337) -/

/-- The scale and the zero point fit the format: a scale positive and finite, a zero point only of an integer format (R336). -/
def State.GoodScale (s : State) (k c : Nat) (w : W64) : Prop :=
  (FV.zero.lt (s.storeScale k c w) && (s.storeScale k c w).isFinite) = true ∧ (s.storeZero k c w = 0 ∨ fFmt w = 5 ∨ fFmt w = 7)

/-- Of the formats of a store those with a zero point are INT8 and INT16. -/
theorem fmtIsInt_iff {f : Nat} (h : f ∈ [5, 7, 8, 9, 12, 14]) : fmtIsInt f = true ↔ f = 5 ∨ f = 7 := by
  revert f
  decide

theorem State.goodScale_iff (hfmt : fFmt w ∈ [5, 7, 8, 9, 12, 14]) :
    s.GoodScale k c w ↔ (!(FV.zero.lt (s.storeScale k c w) && (s.storeScale k c w).isFinite) || (s.storeZero k c w != 0 && !fmtIsInt (fFmt w))) = false := by
  rw [State.GoodScale, ← fmtIsInt_iff hfmt, Bool.or_eq_false_iff, Bool.and_eq_false_iff, Bool.not_eq_false', bne_eq_false_iff_eq, Bool.not_eq_false']

/-- The code of a lane under the scale and the zero point of s[D]. -/
def State.storedCode (s : State) (k c : Nat) (w : W64) (l : Nat) : Conv :=
  convert (fFmt w) (f32 ((s.ctx k c).readLane (fB w) l)) (s.storeScale k c w) (s.storeZero k c w) (bit (fImm w) 7)

/-- What the tracker observes of a lane. -/
def State.storedObs (s : State) (k c : Nat) (w : W64) (l : Nat) : Obs :=
  obsOf (fFmt w) l (f32 ((s.ctx k c).readLane (fB w) l)) (s.storeScale k c w) (s.storeZero k c w) (s.storedCode k c w l)

theorem exec_vecSt_badFormat (h : s.Issues k c w 0x48 0) (hfree : (s.core k).vecStalled = false) (hfmt : fFmt w ∉ [5, 7, 8, 9, 12, 14]) :
    exec (.vecSt k c w) s = s.afterRefusal k c fltFmtRole := by
  have hlisted : [5, 7, 8, 9, 12, 14].contains (fFmt w) = false := by simpa using hfmt
  change execVecSt k c w s = _
  simp only [execVecSt, hlisted, Bool.not_false, if_true]
  rw [vecIssue_free hfree, issue_refuse_of_issues h]

theorem exec_vecSt_badScale (h : s.Issues k c w 0x48 0) (hfree : (s.core k).vecStalled = false) (hfmt : fFmt w ∈ [5, 7, 8, 9, 12, 14])
    (hscale : ¬s.GoodScale k c w) : exec (.vecSt k c w) s = s.afterRefusal k c fltArgRange := by
  have hbad := Bool.of_not_eq_false fun hgood => hscale ((State.goodScale_iff hfmt).mpr hgood)
  simp only [State.storeScale, State.storeZero] at hbad
  change execVecSt k c w s = _
  simp only [execVecSt, List.contains_iff_mem.mpr hfmt, Bool.not_true, Bool.false_eq_true, if_false, hbad, if_true]
  rw [vecIssue_free hfree, issue_refuse_of_issues h]

/-- Lanes, their codes and their numbers lie side by side. -/
theorem lanes_zip_codes {α β : Type} (l : List Nat) (f : Nat → α) (g : Nat → β) : l.zip ((l.map f).zip (l.map g)) = l.map fun i => (i, f i, g i) := by
  have hside : (l.map id).zip (l.map fun i => (f i, g i)) = l.map fun i => (i, f i, g i) := List.zip_map'
  rwa [List.map_id, ← List.zip_map'] at hside

section
variable {n : Nat} (h : s.Issues k c w 0x48 0) (hfree : (s.core k).vecStalled = false) (hfmt : fFmt w ∈ [5, 7, 8, 9, 12, 14])
  (hwidth : fmtWidth (fFmt w) / 8 = n) (hscale : s.GoodScale k c w) (halign : (s.sA k c w).toNat % n = 0)
  (hhole : reachesHole (s.sA k c w).toNat (64 * n) = false) (hw : s.writableAt k (s.sA k c w).toNat (64 * n) = none)
include h hfree hfmt hwidth hscale halign hhole hw

/-- FP32 lanes are written as they are. -/
theorem exec_vecSt_fp32 (hfp32 : fFmt w = 14) :
    exec (.vecSt k c w) s = s.afterIssue k c w (s.writeAt k (s.sA k c w).toNat
      ((List.range 64).flatMap fun l => leBytes 4 ((s.ctx k c).readLane (fB w) l).toNat)) := by
  have hgood := (State.goodScale_iff hfmt).mp hscale
  have hbad := badAddr_of_multiple 64 halign hhole
  simp only [State.storeScale, State.storeZero] at hgood
  rw [State.sA] at hbad hw
  change execVecSt k c w s = _
  simp only [execVecSt, List.contains_iff_mem.mpr hfmt, Bool.not_true, Bool.false_eq_true, if_false, hgood, hwidth, hbad, hw, if_pos hfp32,
    Ctx.readV, List.flatMap_map]
  exact vecIssue_go h hfree

/-- The other formats take a code of each lane, charge the conversions and show them to the tracker that IMM names. -/
theorem exec_vecSt_converts (hfp32 : fFmt w ≠ 14) :
    exec (.vecSt k c w) s = s.afterIssue k c w
      (((s.writeAt k (s.sA k c w).toNat (((List.range 64).map (s.storedCode k c w)).flatMap fun cv => leBytes n cv.code)).convEffects k
        (s.ctx k c).bind ((List.range 64).map (s.storedCode k c w))).observe k (if bit (fImm w) 6 then some (fImm w % 64) else none)
        ((List.range 64).map (s.storedObs k c w))) := by
  have hgood := (State.goodScale_iff hfmt).mp hscale
  have hbad := badAddr_of_multiple 64 halign hhole
  simp only [State.storeScale, State.storeZero] at hgood
  rw [State.sA] at hbad hw
  change execVecSt k c w s = _
  simp only [execVecSt, List.contains_iff_mem.mpr hfmt, Bool.not_true, Bool.false_eq_true, if_false, hgood, hwidth, hbad, hw, if_neg hfp32,
    Ctx.readV, List.map_map, lanes_zip_codes, trackerField_eq]
  exact vecIssue_go h hfree

end

/-- What VEC.ST leaves of 64 FP32 lanes. -/
theorem vecSt_fp32_writes (hfree : (s.core k).vecStalled = false) (hfp32 : fFmt w = 14) (h : s.Issues k c w 0x48 0)
    (hscale : (FV.zero.lt (s.storeScale k c w) && (s.storeScale k c w).isFinite) = true) (hzero : s.storeZero k c w = 0)
    (halign : (s.sA k c w).toNat % 4 = 0) (hhole : reachesHole (s.sA k c w).toNat 256 = false)
    (hw : s.writableAt k (s.sA k c w).toNat 256 = none) :
    let va := (s.sA k c w).toNat
    ∃ t, exec (.vecSt k c w) s = .next t ∧
      (∀ l i, l < 64 → i < 4 → t.byteAt k (va + 4 * l + i) = BitVec.ofNat 8 (((s.ctx k c).readLane (fB w) l).toNat / 256 ^ i)) ∧
      SameBytesOutside s t k va 256 ∧ t.ctx k c = { s.ctx k c with pc := (s.ctx k c).pc + 8 } ∧ (∀ i, i ≠ c → t.ctx k i = s.ctx k i) ∧
      SameOtherCores s t k ∧ t.core k = { s.core k with ctxs := (t.core k).ctxs, scratch := (t.core k).scratch, ops := (t.core k).ops,
                                                        nextId := (t.core k).nextId, tagBit := (t.core k).tagBit } ∧
      (s.Near k va 256 → (t.core k).ops = (s.core k).ops) ∧ (∀ p, some p ≠ s.partOf k → t.part p = s.part p) ∧
      t = { s with cores := t.cores, reqs := t.reqs, parts := t.parts, fabric := t.fabric } ∧ FarChanges s t k va 256 := by
  intro va
  have hlane : ∀ l, (leBytes 4 ((s.ctx k c).readLane (fB w) l).toNat).length = 4 := fun _ => leBytes_length ..
  obtain ⟨t, ht, hbytes, hrest⟩ := afterIssue_writes (c := c) (w := w) (by decide) (length_flatMap_range hlane 64) hhole hw
  have hfmt : fFmt w ∈ [5, 7, 8, 9, 12, 14] := by
    rw [hfp32]
    decide
  refine ⟨t, (exec_vecSt_fp32 (n := 4) h hfree hfmt (by rw [hfp32]; rfl) ⟨hscale, .inl hzero⟩ halign hhole hw hfp32).trans ht, fun l i hl hi => ?_, hrest⟩
  rw [Nat.add_assoc, hbytes _ (by omega), Nat.mul_comm 4, getD_flatMap_range hlane hl hi, leBytes_getD _ hi]

/-- The formats that VEC.ST converts to, with the bytes of a code. -/
theorem storeFormat {f n : Nat} (h : (f, n) ∈ [(5, 1), (7, 2), (8, 1), (9, 1), (12, 2)]) :
    f ∈ [5, 7, 8, 9, 12, 14] ∧ fmtWidth f / 8 = n ∧ f ≠ 14 := by
  simp only [List.mem_cons, Prod.mk.injEq, List.not_mem_nil, or_false] at h
  rcases h with ⟨rfl, rfl⟩ | ⟨rfl, rfl⟩ | ⟨rfl, rfl⟩ | ⟨rfl, rfl⟩ | ⟨rfl, rfl⟩ <;> decide

end

/-- Settles O12: after issue a load leaves the lanes it read and a store the bytes or the codes it wrote, and the two format lists bar the rest. -/
theorem vectorLoadAndStore : Obligations.VectorLoadAndStore := by
  refine ⟨fun k c w s hfree => ⟨fun n bs hfmt h halign hhole hread => ?_, vecSt_fp32_writes hfree, fun h hfmt => exec_vecLd_badFormat h hfree hfmt,
    fun h hfmt => exec_vecSt_badFormat h hfree hfmt⟩, fun k c w s hfree h => ⟨fun n hfmt hscale halign hhole hw => ?_,
    fun hfmt hscale => exec_vecSt_badScale h hfree hfmt hscale⟩⟩
  · obtain ⟨t, ht, hctx, hrest⟩ := afterIssue_reads s k c (s.sA k c w).toNat (64 * n) w
      ((s.ctx k c).writeV (fD w) (s.loadedLanes k w (s.sA k c w).toNat n))
    have hlen : (s.loadedLanes k w (s.sA k c w).toNat n).length = 64 := by rw [State.loadedLanes, List.length_map, List.length_range]
    refine ⟨t, (exec_vecLd h hfree hfmt halign hhole hread).trans ht, fun r l hl => ?_, ?_, hrest⟩
    · have hread := Ctx.readLane_writeV (s.ctx k c) (fD w) r hlen hl
      rw [hctx]
      exact hread
    · rw [hctx]
      rfl
  · obtain ⟨hlisted, hwidth, hfp32⟩ := storeFormat hfmt
    exact exec_vecSt_converts h hfree hlisted hwidth hscale halign hhole hw hfp32

end Sys2Proof.Machine
end

section
/-! PROOFS. Transactions at their requester: what a transaction sends, its failure and its end, the transfers that an access of Tier F begins, and the
packets that come back. -/

namespace Sys2Proof.Machine

/-! ### The transfer that an access of Tier F begins (R447, R448, R464) -/

/-- While fewer than 8,192 transactions are held, a TAG of either parity is free: the first 8,193 of it are not all taken. -/
theorem State.freeTag_of_room {s : State} (b : Nat) (hroom : s.fabric.trans.length < 8192) :
    ∃ i, s.freeTag (some b) = some (2 * i + b) ∧ ∀ e ∈ s.fabric.trans, e.1 ≠ 2 * i + b := by
  rw [State.freeTag, if_neg (by omega)]
  cases hfind : ((List.range 8193).map fun i => 2 * i + b).find? fun t => !s.fabric.trans.any (·.1 == t) with
  | none =>
    have htaken : ∀ i, i < 8193 → ∃ e ∈ s.fabric.trans, e.1 = 2 * i + b := by simpa using hfind
    have hmany := le_length_of_tags_taken 8193 htaken
    omega
  | some tag =>
    obtain ⟨i, -, rfl⟩ := List.mem_map.mp (List.mem_of_find?_eq_some hfind)
    have hunused : ∀ e ∈ s.fabric.trans, e.1 ≠ 2 * i + b := by simpa using List.find?_some hfind
    exact ⟨i, rfl, hunused⟩

/-- Only the last instruction of a list bears its number. -/
theorem Core.modOp_last {x : Core} {ops : List InFlight} {o : InFlight} (f : InFlight → InFlight) (hops : x.ops = ops ++ [o])
    (hnew : ∀ y ∈ ops, y.id ≠ o.id) : (x.modOp o.id f).ops = ops ++ [f o] := by
  have hkept : (ops.map fun y => if y.id = o.id then f y else y) = ops :=
    (List.map_congr_left fun y hy => if_neg (hnew y hy)).trans (List.map_id _)
  rw [Core.modOp, hops, List.map_append, hkept, List.map_singleton, if_pos rfl]

/-- A FAB transfer that gets a TAG. -/
theorem State.startFab_of_tag {s : State} {k tag : Nat} {o : InFlight} {j : FabJob} (hdone : j.done = false)
    (htag : s.freeTag (some (if (s.core k).tagBit then 1 else 0)) = some tag) :
    s.startFab k o j = some ((s.setCore k { (s.core k).modOp o.id fun o => { o with started := true, job := .fab { j with tag := some tag } } with
      tagBit := !(s.core k).tagBit }).addTrans tag { core := k, id := o.id, next := 0, live := [], failed := false }) := by
  unfold State.startFab
  rw [if_neg (Bool.not_eq_true _ ▸ hdone), htag]

/-- A transfer that begins at once: with its TAG it is the last instruction of the core. -/
theorem State.launchFar_begins {s : State} {k c cls tag : Nat} {bind : Option (Nat × Nat)} {j : FabJob} (hdone : j.done = false)
    (htag : s.freeTag (some (if (s.core k).tagBit then 1 else 0)) = some tag)
    (hops : ∀ y ∈ (s.core k).ops, y.id ≠ (s.core k).nextId ∧ (y.unit = .mem → y.started = true)) :
    let o := s.launchFar k c cls bind j
    o.fabric = { s.fabric with trans := s.fabric.trans ++ [(tag, { core := k, id := (s.core k).nextId, next := 0, live := [], failed := false })] } ∧
      (o.core k).ops = (s.core k).ops ++ [{ id := (s.core k).nextId, ctx := c, unit := .mem, cls := cls, bind := bind, started := true,
                                            job := .fab { j with tag := some tag } }] ∧
      o.parts = s.parts ∧ SameOtherCores s o k := by
  let x := s.core k
  let o : InFlight := { id := x.nextId, ctx := c, unit := .mem, cls := cls, bind := bind, job := .fab j }
  let y : Core := { x with nextId := x.nextId + 1, ops := x.ops ++ [o] }
  let z : Core := y.modOp o.id fun o => { o with started := true, job := .fab { j with tag := some tag } }
  have hcore : (s.setCore k y).core k = y := State.core_setCore_self ..
  have hnone : (x.ops.any fun e => e.unit == .mem && !e.started) = false :=
    List.any_eq_false.mpr fun e he hwaits => by
      simp only [Bool.and_eq_true, beq_iff_eq, Bool.not_eq_true'] at hwaits
      exact absurd ((hops e he).2 hwaits.1) (by rw [hwaits.2]; decide)
  have hstart : (s.setCore k y).startFab k o j = some (((s.setCore k y).setCore k { z with tagBit := !x.tagBit }).addTrans tag
      { core := k, id := o.id, next := 0, live := [], failed := false }) := by
    refine (State.startFab_of_tag hdone (tag := tag) ?_).trans ?_
    · rw [hcore]
      exact htag
    · rw [hcore]
  have hlaunch : s.launchFar k c cls bind j = ((s.setCore k y).setCore k { z with tagBit := !x.tagBit }).addTrans tag
      { core := k, id := o.id, next := 0, live := [], failed := false } := by
    refine (if_neg (Bool.not_eq_true _ ▸ hnone)).trans ?_
    exact congrArg (Option.getD · (s.setCore k y)) hstart
  rw [hlaunch]
  refine ⟨rfl, ?_, rfl, fun i hi => ?_⟩
  · refine (congrArg Core.ops (State.core_setCore_self ..)).trans ?_
    exact Core.modOp_last _ rfl fun e he => (hops e he).1
  · refine (State.core_setCore ..).trans ?_
    rw [if_neg hi, State.core_setCore, if_neg hi]

section
variable {s : State} {k c cls q : Nat} {bind : Option (Nat × Nat)} {owner : Option Nat} (hq : s.partOf k = some q)
include hq

theorem State.startFar_of_near (hfar : (s.mem q).far = []) : s.startFar k c cls bind owner = s := by
  simp only [State.startFar, hq, hfar, List.isEmpty_nil, if_true]

/-- One access of a mapped unit is one transfer, once its note is forgotten. -/
theorem State.startFar_one {a : FarAccess} {e : Nat × PUnit} (hfar : (s.mem q).far = [a])
    (hunit : (s.mem q).units.find? (·.1 == a.base) = some e) :
    s.startFar k c cls bind owner =
      (s.setMem q { s.mem q with far := [] }).launchFar k c cls bind { s.unitJob e.1 e.2 (a.va - a.base) a.len a.put with owner := owner } := by
  simp only [State.startFar, hq, State.takeFar, hfar, List.isEmpty_cons, Bool.false_eq_true, if_false, List.reverse_singleton, List.filterMap_cons, hunit,
    Option.map_some, List.filterMap_nil, List.foldl_cons, List.foldl_nil]

end

/-! ### What a transaction sends (R447, R451, R464) -/

/-- The header of the packets of burst `b`. -/
def FabJob.hdr (j : FabJob) (b : Nat) : Hdr :=
  { cls := if j.put then clsWr else clsRdReq, dst := j.module, src := 0, tag := j.tag.getD 0, offset := j.goff + 4096 * b, key := j.key.toNat,
    epoch := j.epoch, seq := 16 * b }

/-- A transaction as it has sent its next burst. -/
def Trans.sent (t : Trans) : Trans := { t with next := t.next + 1, live := t.live ++ [{ idx := t.next, got := [] }] }

/-- The state after no hop has taken a transaction's burst. -/
def State.unreached (s : State) (tag : Nat) (j : FabJob) : State := ((s.failTrans tag fltFabUnreach).settleTrans tag).startProbes j.module

section
variable {s : State} {t : Trans} {j : FabJob}

theorem State.nextBurst_get (hput : j.put = false) :
    s.nextBurst t j = .ok [({ j.hdr t.next with rdlen := j.burstLen t.next / 4 - 1 }, [])] := by
  simp only [State.nextBurst, FabJob.hdr, hput, Bool.false_eq_true, if_false]

theorem State.nextBurst_put {bs : List Byte} (hput : j.put = true) (hbytes : s.putBytes t j = .ok bs) :
    s.nextBurst t j = .ok (burstPackets (j.goff + 4096 * t.next) t.next (j.hdr t.next) bs) := by
  simp only [State.nextBurst, FabJob.hdr, hput, if_true, hbytes]
  rfl

theorem State.nextBurst_error {f : MemFail} (hput : j.put = true) (hbytes : s.putBytes t j = .error f) : s.nextBurst t j = .error f := by
  simp only [State.nextBurst, hput, if_true, hbytes]
  rfl

theorem State.putBytes_local (htier : j.tierF = false) : s.putBytes t j = s.readAt t.core (j.laddr + 4096 * t.next) (j.burstLen t.next) := by
  simp only [State.putBytes, htier, Bool.false_eq_true, if_false]

theorem State.putBytes_own {w : OwnJob} (htier : j.tierF = true) (hown : t.own = some w) :
    s.putBytes t j = .ok (readBytes (s.mem w.part).bytes (j.laddr + 4096 * t.next) (j.burstLen t.next)) := by
  simp only [State.putBytes, htier, if_true, hown]

theorem State.putBytes_instr {q : Nat} (htier : j.tierF = true) (hown : t.own = none) (hq : s.partOf t.core = some q) :
    s.putBytes t j = .ok (readBytes (s.mem q).bytes (j.laddr + 4096 * t.next) (j.burstLen t.next)) := by
  simp only [State.putBytes, htier, if_true, hown, hq]

/-- Only a FAB.PUT accesses local bytes as it sends. -/
theorem State.fabTouch_of_no_access (h : (j.put && !j.tierF) = false) : s.fabTouch t j = s := by
  rw [State.fabTouch]
  split
  · rw [if_neg (Bool.not_eq_true _ ▸ h)]
  · rfl

theorem State.fabTouch_of_no_instr (hfab : s.fabOf t = none) : s.fabTouch t j = s := by
  simp only [State.fabTouch, hfab]

theorem State.fabTouch_put {o : InFlight} {y : FabJob} (hput : j.put = true) (htier : j.tierF = false) (hfab : s.fabOf t = some (o, y)) :
    s.fabTouch t j = (s.touchAt t.core (j.laddr + 4096 * t.next) (j.burstLen t.next)).startFarOf t.core o := by
  simp only [State.fabTouch, hfab, hput, htier, Bool.not_false, Bool.and_self, if_true]

end

/-- The bytes of the next burst of a PUT, with the state that has read them. -/
def State.ReadsBurst (s v : State) (t : Trans) (j : FabJob) (bs : List Byte) : Prop :=
  (j.tierF = false ∧ s.readAt t.core (j.laddr + 4096 * t.next) (j.burstLen t.next) = .ok bs ∧
    ((∃ o y, s.fabOf t = some (o, y) ∧ v = (s.touchAt t.core (j.laddr + 4096 * t.next) (j.burstLen t.next)).startFarOf t.core o) ∨
      (s.fabOf t = none ∧ v = s))) ∨
  (j.tierF = true ∧ v = s ∧ ((∃ w, t.own = some w ∧ bs = readBytes (s.mem w.part).bytes (j.laddr + 4096 * t.next) (j.burstLen t.next)) ∨
    (t.own = none ∧ ∃ q, s.partOf t.core = some q ∧ bs = readBytes (s.mem q).bytes (j.laddr + 4096 * t.next) (j.burstLen t.next))))

theorem State.putBytes_of_readsBurst {s v : State} {t : Trans} {j : FabJob} {bs : List Byte} (hput : j.put = true) (h : s.ReadsBurst v t j bs) :
    s.putBytes t j = .ok bs ∧ s.fabTouch t j = v := by
  obtain ⟨htier, hread, hv⟩ | ⟨htier, rfl, hbs⟩ := h
  · refine ⟨(State.putBytes_local htier).trans hread, ?_⟩
    obtain ⟨o, y, hfab, rfl⟩ | ⟨hfab, rfl⟩ := hv
    · exact State.fabTouch_put hput htier hfab
    · exact State.fabTouch_of_no_instr hfab
  · refine ⟨?_, State.fabTouch_of_no_access (by rw [hput, htier]; rfl)⟩
    obtain ⟨w, hown, rfl⟩ | ⟨hown, q, hq, rfl⟩ := hbs
    · exact State.putBytes_own htier hown
    · exact State.putBytes_instr htier hown hq

section
variable {s : State} {tag : Nat} {t : Trans} {j : FabJob} (ht : s.transOf tag = some t) (hj : s.jobOf t = some j)
include ht hj

theorem exec_fabBurstSend_idle (h : t.failed = true ∨ 16 ≤ t.live.length ∨ j.len ≤ 4096 * t.next) : exec (.fabBurstSend tag) s = .next s := by
  have hidle : (t.failed || decide (16 ≤ t.live.length) || decide (j.len ≤ 4096 * t.next)) = true := by
    simpa only [Bool.or_eq_true, decide_eq_true_iff, or_assoc] using h
  change execFabBurstSend tag s = _
  simp only [execFabBurstSend, ht, hj, hidle, if_true]

section
variable (hready : (t.failed || decide (16 ≤ t.live.length) || decide (j.len ≤ 4096 * t.next)) = false)
include hready

theorem exec_fabBurstSend_error {f : MemFail} (hburst : s.nextBurst t j = .error f) :
    exec (.fabBurstSend tag) s = .next ((s.failTrans tag f.code).settleTrans tag) := by
  change execFabBurstSend tag s = _
  simp only [execFabBurstSend, ht, hj, hready, Bool.false_eq_true, if_false, hburst]

/-- A burst is sent, or no hop takes it. -/
theorem exec_fabBurstSend_packets {ps : List (Hdr × List Byte)} {v : State} (hburst : s.nextBurst t j = .ok ps) (hv : s.fabTouch t j = v) :
    (∀ u, v.sendAll ps = some u → exec (.fabBurstSend tag) s = .next (u.setTrans tag t.sent)) ∧
      (v.sendAll ps = none → exec (.fabBurstSend tag) s = .next (s.unreached tag j)) := by
  change (∀ u, _ → execFabBurstSend tag s = _) ∧ (_ → execFabBurstSend tag s = _)
  simp only [execFabBurstSend, ht, hj, hready, Bool.false_eq_true, if_false, hburst, hv]
  exact ⟨fun u hsent => by rw [hsent]; rfl, fun hnone => by rw [hnone]; rfl⟩

end

/-- What a transaction that can send does at FAB_BURST_SEND. -/
theorem exec_fabBurstSend_ready (hfail : t.failed = false) (hlive : t.live.length < 16) (hlen : 4096 * t.next < j.len) :
    (j.put = false →
      (∀ u, s.inject { j.hdr t.next with rdlen := j.burstLen t.next / 4 - 1 } [] = some u → exec (.fabBurstSend tag) s = .next (u.setTrans tag t.sent)) ∧
      (s.inject { j.hdr t.next with rdlen := j.burstLen t.next / 4 - 1 } [] = none → exec (.fabBurstSend tag) s = .next (s.unreached tag j))) ∧
    (∀ v bs, j.put = true → s.ReadsBurst v t j bs →
      let ps := burstPackets (j.goff + 4096 * t.next) t.next (j.hdr t.next) bs
      (∀ u, v.sendAll ps = some u → exec (.fabBurstSend tag) s = .next (u.setTrans tag t.sent)) ∧
      (v.sendAll ps = none → exec (.fabBurstSend tag) s = .next (s.unreached tag j))) ∧
    (∀ f, j.put = true → j.tierF = false → s.readAt t.core (j.laddr + 4096 * t.next) (j.burstLen t.next) = .error f →
      exec (.fabBurstSend tag) s = .next ((s.failTrans tag f.code).settleTrans tag)) := by
  have hready : (t.failed || decide (16 ≤ t.live.length) || decide (j.len ≤ 4096 * t.next)) = false := by
    simp only [hfail, Bool.false_or, Bool.or_eq_false_iff, decide_eq_false_iff_not]
    omega
  refine ⟨fun hput => ?_, fun v bs hput hreads => ?_, fun f hput htier hread => ?_⟩
  · exact exec_fabBurstSend_packets ht hj hready (State.nextBurst_get hput) (State.fabTouch_of_no_access (by rw [hput]; rfl))
  · obtain ⟨hbytes, hv⟩ := State.putBytes_of_readsBurst hput hreads
    exact exec_fabBurstSend_packets ht hj hready (State.nextBurst_put hput hbytes) hv
  · exact exec_fabBurstSend_error ht hj hready (State.nextBurst_error hput ((State.putBytes_local htier).trans hread))

end

/-! ### No transaction (R462) -/

theorem exec_of_no_transaction {s : State} {tag : Nat} (hnone : s.transOf tag = none) (burst src : Nat) :
    exec (.fabBurstSend tag) s = .next s ∧ exec (.fabRspTimeout tag burst) s = .next s ∧ exec (.fabGapExpiry false src tag burst) s = .next s := by
  change execFabBurstSend tag s = _ ∧ execFabRspTimeout tag burst s = _ ∧ execFabGapExpiry false src tag burst s = _
  simp only [execFabBurstSend, execFabRspTimeout, execFabGapExpiry, State.gapAtRequester, hnone, Bool.false_eq_true, if_false, and_self]

/-! ### Timeouts of a burst (R461, R463) -/

section
variable {s : State} {tag burst : Nat} {t : Trans} {b : OutBurst} (ht : s.transOf tag = some t) (hb : t.live.find? (·.idx == burst) = some b)
include ht hb

theorem exec_fabRspTimeout_begun (hgot : b.got ≠ []) : exec (.fabRspTimeout tag burst) s = .next s := by
  change execFabRspTimeout tag burst s = _
  simp only [execFabRspTimeout, ht, hb, List.isEmpty_iff, hgot, if_false]

theorem exec_fabRspTimeout_silent {j : FabJob} (hj : s.jobOf t = some j) (hgot : b.got = []) :
    exec (.fabRspTimeout tag burst) s = .next (((s.failTrans tag fltFabTimeout).endBurst tag burst).startProbes j.module) := by
  change execFabRspTimeout tag burst s = _
  simp only [execFabRspTimeout, ht, hb, hj, hgot, List.isEmpty_nil, if_true, Option.map_some]

theorem exec_fabGapExpiry_silent (src : Nat) (hgot : b.got = []) : exec (.fabGapExpiry false src tag burst) s = .next s := by
  change execFabGapExpiry false src tag burst s = _
  simp only [execFabGapExpiry, State.gapAtRequester, ht, hb, hgot, Bool.false_eq_true, if_false, List.isEmpty_nil, if_true]

theorem exec_fabGapExpiry_begun (src : Nat) {v : Trans} (hgot : b.got ≠ []) (hv : (s.failTrans tag fltStreamGap).transOf tag = some v) :
    exec (.fabGapExpiry false src tag burst) s =
      .next (((s.failTrans tag fltStreamGap).setTrans tag { v with live := [] }).settleTrans tag) := by
  change execFabGapExpiry false src tag burst s = _
  simp only [execFabGapExpiry, State.gapAtRequester, ht, hb, hgot, Bool.false_eq_true, if_false, List.isEmpty_iff, hv]

end

/-! ### The failure and the end of a transaction (R393, R456, R463) -/

section
variable {s : State} {tag : Nat} {t : Trans} (ht : s.transOf tag = some t)
include ht

theorem State.failTrans_own (f : FaultCode) (hown : t.own ≠ none) : s.failTrans tag f = s.setTrans tag { t with failed := true } := by
  obtain ⟨w, hw⟩ := Option.ne_none_iff_exists'.mp hown
  simp only [State.failTrans, ht, hw]

section
variable {o : InFlight} {j : FabJob} (hown : t.own = none) (hfab : s.fabOf t = some (o, j))
include hown hfab

theorem State.failTrans_instr (f : FaultCode) (howner : j.owner = none) :
    s.failTrans tag f = (s.opFault t.core o f).setTrans tag { t with failed := true } := by
  simp only [State.failTrans, ht, hown, hfab, howner]

theorem State.failTrans_transfer (f : FaultCode) {i : Nat} (howner : j.owner = some i) :
    s.failTrans tag f = ((s.opFault t.core o f).modOp t.core i fun x => { x with faulted := true }).setTrans tag { t with failed := true } := by
  simp only [State.failTrans, ht, hown, hfab, howner]

theorem State.settleTrans_transfer (htier : j.tierF = true) (hlive : t.live = []) (hsent : t.failed = true ∨ j.len ≤ 4096 * t.next) :
    s.settleTrans tag = ((s.dropTrans tag).wakeOwn).complete t.core o := by
  have hjob : s.jobOf t = some j := by simp only [State.jobOf, hown, hfab, Option.map_some]
  have hends : (t.live.isEmpty && (t.failed || decide (j.len ≤ 4096 * t.next))) = true := by simpa [hlive] using hsent
  simp only [State.settleTrans, ht, hjob, hends, if_true, hown, hfab, htier]

end

end

/-! ### The data of a response (R361, R390) -/

section
variable {s : State} {t : Trans} {b : OutBurst} {j : FabJob} {p : Packet}

theorem State.takeData_held (h : j.tierF = true ∨ s.fabOf t = none) : s.takeData t b j p = (s, none) := by
  rw [State.takeData]
  split
  · next hfab => rw [if_pos (h.resolve_right fun hnone => by rw [hfab] at hnone; cases hnone)]
  · rfl

theorem State.takeData_local {o : InFlight} {y : FabJob} {u : State} {fail : Option MemFail} (htier : j.tierF = false)
    (hfab : s.fabOf t = some (o, y))
    (hwrite : s.writeUpTo t.core (j.laddr + 4096 * b.idx + 256 * p.idx) (p.payload.take (j.burstLen b.idx - 256 * p.idx)) = (u, fail)) :
    s.takeData t b j p = (u.startFarOf t.core o, fail) := by
  simp only [State.takeData, hfab, htier, Bool.false_eq_true, if_false, hwrite]

end

/-! ### Packets that come back (R456, R457, R461, R462) -/

/-- A packet of a class that comes to this module is received. -/
theorem receive_here {cls : Nat} {p : Packet} {s : State} (f : Host.Outcome State Fault Refusal) (hbad : p.bad = false) (hdst : p.dst = s.fabric.id)
    (hcls : p.cls = cls) : receive cls p s f = f := by
  rw [receive, if_neg (Bool.not_eq_true _ ▸ hbad), if_pos ⟨hcls, hdst⟩]

theorem receive_bad {cls : Nat} {p : Packet} {s : State} (f : Host.Outcome State Fault Refusal) (hbad : p.bad = true) :
    receive cls p s f = .next (s.fabCount 0x110 1) := if_pos hbad

theorem receive_elsewhere {cls : Nat} {p : Packet} {s : State} (f : Host.Outcome State Fault Refusal) (hbad : p.bad = false)
    (hdst : p.dst ≠ s.fabric.id) : receive cls p s f = .next s := by
  rw [receive, if_neg (Bool.not_eq_true _ ▸ hbad), if_neg fun h => hdst h.2]

/-- A response is received, of whatever class it is. -/
theorem exec_response {c : Instr} {p : Packet} (hc : c ∈ [Instr.rdRsp p, .wrAck p, .nack p]) (s : State) :
    ∃ cls f, exec c s = receive cls p s f := by
  simp only [List.mem_cons, List.not_mem_nil, or_false] at hc
  obtain rfl | rfl | rfl := hc
  · exact ⟨_, _, rfl⟩
  · exact ⟨_, _, rfl⟩
  · exact ⟨_, _, rfl⟩

section
variable {s : State} {p : Packet} (hbad : p.bad = false) (hdst : p.dst = s.fabric.id)
include hbad hdst

theorem exec_rdRsp_late (hcls : p.cls = clsRdRsp) (hnone : s.awaited p = none) : exec (.rdRsp p) s = .next (s.fabCount 0x100 1) := by
  refine (receive_here _ hbad hdst hcls).trans ?_
  simp only [hnone]
  rfl

theorem exec_wrAck_late (hcls : p.cls = clsWrAck) (hnone : s.awaited p = none) : exec (.wrAck p) s = .next (s.fabCount 0x100 1) := by
  refine (receive_here _ hbad hdst hcls).trans ?_
  simp only [hnone]
  rfl

theorem exec_nack_late (hcls : p.cls = clsNack) (hnone : s.awaited p = none) : exec (.nack p) s = .next (s.fabCount 0x100 1) := by
  refine (receive_here _ hbad hdst hcls).trans ?_
  simp only [hnone]
  rfl

section
variable {t : Trans} {b : OutBurst} {j : FabJob} (hwait : s.awaited p = some (t, b, j))
include hwait

theorem exec_wrAck_awaited (hcls : p.cls = clsWrAck) :
    exec (.wrAck p) s = .next (if j.put = true ∧ p.src = j.module then s.endBurst p.tag b.idx else s.fabCount 0x100 1) := by
  refine (receive_here _ hbad hdst hcls).trans ?_
  simp only [hwait, Bool.and_eq_true, beq_iff_eq]
  split
  · rfl
  · rfl

theorem exec_nack_awaited (hcls : p.cls = clsNack) :
    let u := (s.failTrans p.tag (nackFault p.status)).endBurst p.tag b.idx
    exec (.nack p) s = .next (if p.status = nackKey ∨ p.status = nackClosed then u.spillRefused j.module p.offset
      else if p.status = nackUnreach then u.startProbes j.module else u) := by
  refine (receive_here _ hbad hdst hcls).trans ?_
  simp only [hwait]

theorem exec_rdRsp_unfit (hcls : p.cls = clsRdRsp)
    (h : j.put = true ∨ p.src ≠ j.module ∨ p.idx ∈ b.got ∨ j.burstLen b.idx ≤ 256 * p.idx) : exec (.rdRsp p) s = .next (s.fabCount 0x100 1) := by
  have hunfit : (j.put || p.src != j.module || b.got.contains p.idx || decide (j.burstLen b.idx ≤ 256 * p.idx)) = true := by
    simpa only [Bool.or_eq_true, bne_iff_ne, List.contains_iff_mem, decide_eq_true_iff, or_assoc] using h
  refine (receive_here _ hbad hdst hcls).trans ?_
  simp only [hwait, hunfit, if_true]
  rfl

/-- The transaction `t` with a packet of burst `b` more. -/
def Trans.gets (t : Trans) (b : OutBurst) (i : Nat) : Trans :=
  { t with live := t.live.map fun x => if x.idx = b.idx then { b with got := i :: b.got } else x }

/-- A packet that fits leaves its data, and ends its burst where it is the last. -/
theorem exec_rdRsp_fits (hcls : p.cls = clsRdRsp) (hput : j.put = false) (hsrc : p.src = j.module) (hnew : p.idx ∉ b.got)
    (hin : 256 * p.idx < j.burstLen b.idx) :
    let v := (s.takeData t b j p).1.setTrans p.tag (t.gets b p.idx)
    let u := match (s.takeData t b j p).2 with
      | some f => v.failTrans p.tag f.code
      | none => v
    exec (.rdRsp p) s = .next (if 256 * (b.got.length + 1) < j.burstLen b.idx then u else u.endBurst p.tag b.idx) := by
  have hfits : (j.put || p.src != j.module || b.got.contains p.idx || decide (j.burstLen b.idx ≤ 256 * p.idx)) = false := by
    simp only [hput, hsrc, bne_self_eq_false, List.contains_eq_mem, hnew, decide_false, Bool.false_or, decide_eq_false_iff_not]
    omega
  refine (receive_here _ hbad hdst hcls).trans ?_
  simp only [hwait, hfits, Bool.false_eq_true, if_false]
  rfl

end

end

/-- An access of a mapped unit of Tier F becomes a transaction to the unit's owner, under a TAG of the core's turn. -/
theorem startFar_begins {k c cls q : Nat} {bind : Option (Nat × Nat)} {owner : Option Nat} {a : FarAccess} {e : Nat × Machine.PUnit} {s : State}
    (hq : s.partOf k = some q) (hfar : (s.mem q).far = [a]) (hunit : (s.mem q).units.find? (·.1 == a.base) = some e)
    (hroom : s.fabric.trans.length < 8192)
    (hops : ∀ y ∈ (s.core k).ops, y.id ≠ (s.core k).nextId ∧ (y.unit = .mem → y.started = true)) :
    let x := s.core k
    let w := s.spillWin e.2.die
    let o := s.startFar k c cls bind owner
    ∃ tag, tag % 2 = (if x.tagBit then 1 else 0) ∧ (∀ y ∈ s.fabric.trans, y.1 ≠ tag) ∧
      o.fabric = { s.fabric with trans := s.fabric.trans ++ [(tag, { core := k, id := x.nextId, next := 0, live := [], failed := false })] } ∧
      (o.core k).ops = x.ops ++ [{ id := x.nextId, ctx := c, unit := .mem, cls := cls, bind := bind, started := true, job := .fab (
        { put := a.put, module := e.2.frame / 2 ^ 29, goff := e.2.frame % 2 ^ 29 * 65536 + (a.va - a.base), laddr := e.1 + (a.va - a.base), len := a.len,
          key := w.key, epoch := w.epoch, gapUs := w.gapUs, tierF := true, owner := owner, tag := some tag } : FabJob) }] ∧
      (o.mem q).far = [] ∧ SameOtherCores s o k := by
  intro x w o
  obtain ⟨i, htag, hunused⟩ := State.freeTag_of_room (if x.tagBit then 1 else 0) hroom
  have hparity : (2 * i + if x.tagBit then 1 else 0) % 2 = if x.tagBit then 1 else 0 := by
    split <;> omega
  let r := s.setMem q { s.mem q with far := [] }
  let j : FabJob := { s.unitJob e.1 e.2 (a.va - a.base) a.len a.put with owner := owner }
  have ho : o = r.launchFar k c cls bind j := State.startFar_one hq hfar hunit
  obtain ⟨hfabric, hlast, hparts, hcores⟩ := State.launchFar_begins (s := r) (c := c) (cls := cls) (bind := bind) (j := j) rfl htag hops
  refine ⟨_, hparity, hunused, ?_, ?_, ?_, ?_⟩
  · rw [ho]
    exact hfabric
  · rw [ho]
    exact hlast
  · have hforgot : (r.mem q).far = [] := by rw [State.mem_setMem_self]
    rw [ho, State.mem, State.part, hparts]
    exact hforgot
  · rw [ho]
    exact hcores

/-- Settles O50: each command reads its transaction, and an access of Tier F begins the one transfer that its note names. -/
theorem transactionsAtTheirRequester : Obligations.TransactionsAtTheirRequester := by
  intro tag burst src p s
  refine ⟨fun hnone => exec_of_no_transaction hnone burst src, fun t => ⟨fun w hown => ?_, fun o j hown hfab => ?_⟩,
    fun t j ht hj => ⟨exec_fabBurstSend_idle ht hj, exec_fabBurstSend_ready ht hj, fun b hb => ⟨exec_fabRspTimeout_begun ht hb, fun hgot => ?_,
      fun hgot u v hu hv => ?_⟩⟩,
    fun t f ht => ⟨fun o j hown hfab => ?_, State.failTrans_own ht f⟩,
    fun k c cls q bind owner a e hq => ⟨State.startFar_of_near hq, startFar_begins hq⟩, fun c hc => ?_, fun hbad hdst => ⟨fun hcls => ?_, fun hcls => ?_,
      fun hcls => ?_⟩⟩
  · simp only [State.jobOf, hown]
  · simp only [State.jobOf, hown, hfab, Option.map_some]
  · exact ⟨exec_fabRspTimeout_silent ht hb hj hgot, exec_fabGapExpiry_silent ht hb src hgot⟩
  · subst hu
    exact exec_fabGapExpiry_begun ht hb src hgot hv
  · exact ⟨State.failTrans_instr ht hown hfab f, fun i => State.failTrans_transfer ht hown hfab f, State.settleTrans_transfer ht hown hfab⟩
  · obtain ⟨cls, f, heq⟩ := exec_response hc s
    rw [heq]
    exact ⟨receive_bad f, receive_elsewhere f⟩
  · refine ⟨exec_rdRsp_late hbad hdst hcls, fun t b j hwait => ⟨exec_rdRsp_unfit hbad hdst hwait hcls, fun hput hsrc hnew hin => ?_⟩⟩
    have hfits := exec_rdRsp_fits hbad hdst hwait hcls hput hsrc hnew hin
    refine ⟨fun hheld => ?_, fun o y u htier hfab hwrite => ?_, fun o y u f htier hfab hwrite => ?_⟩
    · rwa [State.takeData_held hheld] at hfits
    · rwa [State.takeData_local htier hfab hwrite] at hfits
    · rwa [State.takeData_local htier hfab hwrite] at hfits
  · exact ⟨exec_wrAck_late hbad hdst hcls, fun t b j hwait => exec_wrAck_awaited hbad hdst hwait hcls⟩
  · exact ⟨exec_nack_late hbad hdst hcls, fun t b j hwait => exec_nack_awaited hbad hdst hwait hcls⟩

end Sys2Proof.Machine
end

section
/-! PROOFS. What a step may change: `Quiet`, where the ruled registers and the canonical memories stand, and `Sound`, where they stay lawful. -/

-- One proof at a time: in parallel the many `unfold`s wait for each other, with a thread for each that waits.
set_option Elab.async false

namespace Sys2Proof.Machine

/-! ### What every step must keep -/

/-- The fuses and the registers that `State.Lawful` speaks of, every other field blanked. -/
def State.ruled (s : State) : State :=
  { fuses := s.fuses
    husk := { diag := s.husk.diag, debug := s.husk.debug }
    fabric := { rspUs := s.fabric.rspUs, placeRate := s.fabric.placeRate }
    health := { secureAt := s.health.secureAt, haltAt := s.health.haltAt, pwrCap := s.health.pwrCap, pwrLimit := s.health.pwrLimit
                thermCap := s.health.thermCap } }

/-- The same with the components that hold byte memories. -/
def State.watched (s : State) : State :=
  { s.ruled with cores := s.cores, parts := s.parts, hostMem := s.hostMem, remoteMem := s.remoteMem
                 fabric := { s.ruled.fabric with spill := s.fabric.spill } }

/-- From `s` to `t` no ruled register changes, and the memories stay canonical. -/
structure Quiet (s t : State) : Prop where
  ruled : t.ruled = s.ruled
  wf : s.memoryWf = true → t.memoryWf = true

/-- What a step may do: no fuse is taken back, the registers stay lawful, the memories canonical. -/
structure Sound (s t : State) : Prop where
  fuses : s.fuses.Keeps t.fuses
  lawful : s.Lawful → t.Lawful
  wf : s.memoryWf = true → t.memoryWf = true

theorem State.lawful_congr {s t : State} (h : t.ruled = s.ruled) : t.Lawful ↔ s.Lawful := by
  simp only [State.ruled, State.mk.injEq, Husk.mk.injEq, Fabric.mk.injEq, Health.mk.injEq, true_and, and_true] at h
  obtain ⟨hf, ⟨hdiag, hdebug⟩, ⟨hplace, hrsp⟩, hsec, hhalt, hcap, hlim, htherm⟩ := h
  simp only [State.Lawful, State.thermCap, State.life, hf, hdiag, hdebug, hplace, hrsp, hsec, hhalt, hcap, hlim, htherm]

theorem Fuses.Keeps.refl (f : Fuses) : f.Keeps f := ⟨BitVec.and_self, id, le_rfl, fun _ => id, fun _ => id, id, rfl, id⟩

theorem Fuses.Keeps.trans {f g h : Fuses} (hfg : f.Keeps g) (hgh : g.Keeps h) : f.Keeps h := by
  obtain ⟨a1, a2, a3, a4, a5, a6, a7, a8⟩ := hfg
  obtain ⟨b1, b2, b3, b4, b5, b6, b7, b8⟩ := hgh
  exact ⟨by rw [← a1, ← BitVec.and_assoc, b1], b2 ∘ a2, a3.trans b3, fun c hc => b4 c (a4 c hc), fun r hr => b5 r (a5 r hr), b6 ∘ a6,
    b7.trans a7, b8 ∘ a8⟩

theorem Quiet.refl (s : State) : Quiet s s := ⟨rfl, id⟩

theorem Quiet.trans {s t u : State} (h : Quiet s t) (g : Quiet t u) : Quiet s u := ⟨g.ruled.trans h.ruled, g.wf ∘ h.wf⟩

theorem Quiet.sound {s t : State} (h : Quiet s t) : Sound s t := by
  have hf : t.ruled.fuses = s.ruled.fuses := congrArg State.fuses h.ruled
  exact ⟨(show t.fuses = s.fuses from hf) ▸ .refl _, (State.lawful_congr h.ruled).mpr, h.wf⟩

theorem Sound.trans {s t u : State} (h : Sound s t) (g : Sound t u) : Sound s u :=
  ⟨h.fuses.trans g.fuses, g.lawful ∘ h.lawful, g.wf ∘ h.wf⟩

/-! ### Canonical memories -/

/-- A byte memory that is canonical where the memories of `s₀` are. -/
structure Canonical (s₀ : State) (m : Sparse Byte) : Prop where
  wf : s₀.memoryWf = true → Memory.wf m = true

section Canonical
variable {s₀ : State} {m : Sparse Byte}

theorem Canonical.nil : Canonical s₀ [] := ⟨fun _ => rfl⟩
theorem Canonical.sput (h : Canonical s₀ m) (a : Nat) (b : Byte) : Canonical s₀ (sput 0 m a b) := ⟨fun h0 => swf_sput (h.wf h0)⟩
theorem Canonical.sclear (h : Canonical s₀ m) (lo n : Nat) : Canonical s₀ (sclear m lo n) := ⟨fun h0 => swf_sclear (h.wf h0)⟩
theorem Canonical.writeBytes (h : Canonical s₀ m) (a : Nat) (bs : List Byte) : Canonical s₀ (writeBytes m a bs) :=
  ⟨fun h0 => swf_writeBytes bs m a (h.wf h0)⟩

end Canonical

/-- The memories' canonical form, component by component. -/
theorem State.memoryWf_iff (s : State) : s.memoryWf = true ↔
    (∀ e ∈ s.cores, Memory.wf e.2.scratch = true) ∧ (∀ e ∈ s.parts, Memory.wf e.2.mem.bytes = true ∧ Memory.wf e.2.sec.store = true) ∧
      (∀ e ∈ s.hostMem, Memory.wf e.2 = true) ∧ (∀ e ∈ s.remoteMem, Memory.wf e.2 = true) ∧ Memory.wf s.fabric.spill = true := by
  simp only [State.memoryWf, Bool.and_eq_true, List.all_eq_true, and_assoc]

theorem mem_sinsert {α : Type} {m : Sparse α} {k : Nat} {v : α} {e : Nat × α} (h : e ∈ sinsert m k v) : e ∈ m ∨ e = (k, v) := by
  induction m with
  | nil => exact .inr (by simpa [sinsert] using h)
  | cons x m ih =>
    obtain ⟨j, y⟩ := x
    unfold sinsert at h
    split at h
    · obtain h | h := List.mem_cons.mp h
      · exact .inr h
      · exact .inl h
    · split at h
      · obtain h | h := List.mem_cons.mp h
        · exact .inr h
        · exact .inl (.tail _ h)
      · obtain h | h := List.mem_cons.mp h
        · exact .inl (h ▸ .head _)
        · exact (ih h).imp_left (.tail _)

/-- An entry of a table after a write is the one written or one of before. -/
theorem mem_sput {α : Type} [DecidableEq α] {d : α} {m : Sparse α} {k : Nat} {v : α} {e : Nat × α} (h : e ∈ sput d m k v) : e ∈ m ∨ e = (k, v) := by
  unfold sput at h
  split at h
  · exact .inl (List.mem_filter.mp h).1
  · exact mem_sinsert h

/-- What a table reads at a key is the default or one of its entries. -/
theorem sget_mem {α : Type} (d : α) (m : Sparse α) (k : Nat) : sget d m k = d ∨ ∃ e ∈ m, e.2 = sget d m k := by
  induction m with
  | nil => exact .inl rfl
  | cons e m ih =>
    obtain ⟨j, x⟩ := e
    unfold sget
    split
    · exact .inr ⟨(j, x), .head _, rfl⟩
    · exact ih.imp_right fun ⟨e, he, hx⟩ => ⟨e, .tail _ he, hx⟩

section Quiet
variable {s₀ s t : State}

/-- A state that agrees on the ruled registers and on every memory. -/
theorem Quiet.same (h : Quiet s₀ s) (e : t.watched = s.watched) : Quiet s₀ t := by
  simp only [State.watched, State.ruled, State.mk.injEq, Fabric.mk.injEq] at e
  refine ⟨?_, fun h0 => ?_⟩
  · rw [← h.ruled]
    simp only [State.ruled, e]
  · rw [State.memoryWf_iff]
    simpa only [e] using (State.memoryWf_iff s).mp (h.wf h0)

theorem Quiet.scratch (h : Quiet s₀ s) (k : Nat) : Canonical s₀ (s.core k).scratch := by
  refine ⟨fun h0 => ?_⟩
  obtain ⟨hc, -⟩ := s.memoryWf_iff.mp (h.wf h0)
  obtain hd | ⟨e, he, hx⟩ := sget_mem ({} : Core) s.cores k
  · rw [State.core, hd]; rfl
  · rw [State.core, ← hx]; exact hc e he

theorem Quiet.bytes (h : Quiet s₀ s) (p : Nat) : Canonical s₀ (s.part p).mem.bytes := by
  refine ⟨fun h0 => ?_⟩
  obtain ⟨-, hp, -⟩ := s.memoryWf_iff.mp (h.wf h0)
  obtain hd | ⟨e, he, hx⟩ := sget_mem ({} : PartBlock) s.parts p
  · rw [State.part, hd]; rfl
  · rw [State.part, ← hx]; exact (hp e he).1

theorem Quiet.store (h : Quiet s₀ s) (p : Nat) : Canonical s₀ (s.part p).sec.store := by
  refine ⟨fun h0 => ?_⟩
  obtain ⟨-, hp, -⟩ := s.memoryWf_iff.mp (h.wf h0)
  obtain hd | ⟨e, he, hx⟩ := sget_mem ({} : PartBlock) s.parts p
  · rw [State.part, hd]; rfl
  · rw [State.part, ← hx]; exact (hp e he).2

theorem Quiet.hostMemOf (h : Quiet s₀ s) (n : Nat) : Canonical s₀ (s.hostMemOf n) := by
  refine ⟨fun h0 => ?_⟩
  obtain ⟨-, -, hh, -⟩ := s.memoryWf_iff.mp (h.wf h0)
  obtain hd | ⟨e, he, hx⟩ := sget_mem ([] : Sparse Byte) s.hostMem n
  · rw [State.hostMemOf, hd]; rfl
  · rw [State.hostMemOf, ← hx]; exact hh e he

theorem Quiet.spill (h : Quiet s₀ s) : Canonical s₀ s.fabric.spill :=
  ⟨fun h0 => (s.memoryWf_iff.mp (h.wf h0)).2.2.2.2⟩

/-- The cores replaced by cores with canonical scratchpads. -/
theorem Quiet.withCores (h : Quiet s₀ s) {cs : Sparse Core} (hc : ∀ e ∈ cs, Canonical s₀ e.2.scratch) : Quiet s₀ { s with cores := cs } := by
  refine ⟨h.ruled, fun h0 => ?_⟩
  obtain ⟨-, hp⟩ := s.memoryWf_iff.mp (h.wf h0)
  exact (State.memoryWf_iff _).mpr ⟨fun e he => (hc e he).wf h0, hp⟩

/-- The cores passed through a function that keeps their scratchpads. -/
theorem Quiet.mapCores (h : Quiet s₀ s) {f : Nat × Core → Nat × Core} (hf : ∀ e, (f e).2.scratch = e.2.scratch) :
    Quiet s₀ { s with cores := s.cores.map f } := by
  refine h.withCores fun e he => ?_
  obtain ⟨x, hx, rfl⟩ := List.mem_map.mp he
  rw [hf]
  exact ⟨fun h0 => (s.memoryWf_iff.mp (h.wf h0)).1 x hx⟩

theorem Quiet.setCore (h : Quiet s₀ s) {k : Nat} {c : Core} (hc : Canonical s₀ c.scratch) : Quiet s₀ (s.setCore k c) := by
  refine h.withCores fun e he => ?_
  obtain he | rfl := mem_sput he
  · exact ⟨fun h0 => (s.memoryWf_iff.mp (h.wf h0)).1 e he⟩
  · exact hc

/-- The partitions replaced by partitions with canonical memories. -/
theorem Quiet.withParts (h : Quiet s₀ s) {ps : Sparse PartBlock} (hp : ∀ e ∈ ps, Canonical s₀ e.2.mem.bytes ∧ Canonical s₀ e.2.sec.store) :
    Quiet s₀ { s with parts := ps } := by
  refine ⟨h.ruled, fun h0 => ?_⟩
  obtain ⟨hc, -, hrest⟩ := s.memoryWf_iff.mp (h.wf h0)
  exact (State.memoryWf_iff _).mpr ⟨hc, fun e he => ⟨(hp e he).1.wf h0, (hp e he).2.wf h0⟩, hrest⟩

theorem Quiet.part_mem (h : Quiet s₀ s) {e : Nat × PartBlock} (he : e ∈ s.parts) : Canonical s₀ e.2.mem.bytes ∧ Canonical s₀ e.2.sec.store :=
  ⟨⟨fun h0 => ((s.memoryWf_iff.mp (h.wf h0)).2.1 e he).1⟩, ⟨fun h0 => ((s.memoryWf_iff.mp (h.wf h0)).2.1 e he).2⟩⟩

theorem Quiet.setPart (h : Quiet s₀ s) {p : Nat} {b : PartBlock} (hm : Canonical s₀ b.mem.bytes) (hs : Canonical s₀ b.sec.store) :
    Quiet s₀ (s.setPart p b) := by
  refine h.withParts fun e he => ?_
  obtain he | rfl := mem_sput he
  · exact h.part_mem he
  · exact ⟨hm, hs⟩

theorem Quiet.setMem (h : Quiet s₀ s) {p : Nat} {m : Mem} (hm : Canonical s₀ m.bytes) : Quiet s₀ (s.setMem p m) := h.setPart hm (h.store p)

theorem Quiet.setHostMem (h : Quiet s₀ s) {n : Nat} {m : Sparse Byte} (hm : Canonical s₀ m) : Quiet s₀ (s.setHostMem n m) := by
  refine ⟨h.ruled, fun h0 => ?_⟩
  obtain ⟨hc, hp, hh, hrest⟩ := s.memoryWf_iff.mp (h.wf h0)
  refine (State.memoryWf_iff _).mpr ⟨hc, hp, fun e he => ?_, hrest⟩
  obtain he | rfl := mem_sput he
  · exact hh e he
  · exact hm.wf h0

theorem Quiet.setRemote (h : Quiet s₀ s) {n : Nat} {m : Sparse Byte} (hm : Canonical s₀ m) : Quiet s₀ (s.setRemote n m) := by
  refine ⟨h.ruled, fun h0 => ?_⟩
  obtain ⟨hc, hp, hh, hr, hs⟩ := s.memoryWf_iff.mp (h.wf h0)
  refine (State.memoryWf_iff _).mpr ⟨hc, hp, hh, fun e he => ?_, hs⟩
  obtain he | rfl := mem_sput he
  · exact hr e he
  · exact hm.wf h0

/-- The fabric's content replaced, but for its two ruled registers. -/
theorem Quiet.withFabric (h : Quiet s₀ s) {f : Fabric} (hr : f.rspUs = s.fabric.rspUs) (hp : f.placeRate = s.fabric.placeRate)
    (hs : Canonical s₀ f.spill) : Quiet s₀ { s with fabric := f } := by
  refine ⟨by rw [← h.ruled]; simp only [State.ruled, hr, hp], fun h0 => ?_⟩
  obtain ⟨hc, hp, hh, hm, -⟩ := s.memoryWf_iff.mp (h.wf h0)
  exact (State.memoryWf_iff _).mpr ⟨hc, hp, hh, hm, hs.wf h0⟩

/-- A core replaced by one with its scratchpad. -/
theorem Quiet.editCore (h : Quiet s₀ s) {k : Nat} {c : Core} (hc : c.scratch = (s.core k).scratch := by rfl) : Quiet s₀ (s.setCore k c) :=
  h.setCore (hc ▸ h.scratch k)

/-- A partition replaced by one with its memories. -/
theorem Quiet.editPart (h : Quiet s₀ s) {p : Nat} {b : PartBlock} (hm : b.mem.bytes = (s.part p).mem.bytes := by rfl)
    (hs : b.sec.store = (s.part p).sec.store := by rfl) : Quiet s₀ (s.setPart p b) :=
  h.setPart (hm ▸ h.bytes p) (hs ▸ h.store p)

/-- A partition's memory replaced by one with its bytes. -/
theorem Quiet.editMem (h : Quiet s₀ s) {p : Nat} {m : Mem} (hm : m.bytes = (s.mem p).bytes := by rfl) : Quiet s₀ (s.setMem p m) :=
  h.setMem (hm ▸ h.bytes p)

/-- The fabric's content replaced, but for its ruled registers and the bytes that it holds. -/
theorem Quiet.editFabric (h : Quiet s₀ s) {f : Fabric} (hr : f.rspUs = s.fabric.rspUs := by rfl) (hp : f.placeRate = s.fabric.placeRate := by rfl)
    (hs : f.spill = s.fabric.spill := by rfl) : Quiet s₀ { s with fabric := f } :=
  h.withFabric hr hp (hs ▸ h.spill)

theorem Quiet.foldl {α : Type} {f : State → α → State} (hf : ∀ t a, Quiet s₀ t → Quiet s₀ (f t a)) (l : List α) (h : Quiet s₀ s) :
    Quiet s₀ (l.foldl f s) := by
  induction l generalizing s with
  | nil => exact h
  | cons a l ih => exact ih (hf s a h)

end Quiet
end Sys2Proof.Machine
end

section
/-! PROOFS. Records, events, items, faults and transfers are quiet, and so is issue. -/

-- One proof at a time: in parallel the many `unfold`s wait for each other, with a thread for each that waits.
set_option Elab.async false

namespace Sys2Proof.Machine
/-! ### Records, events, items and faults -/

section Quiet
variable {s₀ s : State}

theorem Quiet.emit (h : Quiet s₀ s) (o : Out) : Quiet s₀ (s.emit o) := h.same rfl
theorem Quiet.setPort (h : Quiet s₀ s) (n : Nat) (b : Port) : Quiet s₀ (s.setPort n b) := h.same rfl
theorem Quiet.setSess (h : Quiet s₀ s) (n : Nat) (e : Sess) : Quiet s₀ (s.setSess n e) := h.same rfl
theorem Quiet.setRequest (h : Quiet s₀ s) (r : Nat) (q : Request) : Quiet s₀ (s.setRequest r q) := h.same rfl
theorem Quiet.freeRequest (h : Quiet s₀ s) (r : Nat) : Quiet s₀ (s.freeRequest r) := h.same rfl
theorem Quiet.healthCount (h : Quiet s₀ s) (off k : Nat) : Quiet s₀ (s.healthCount off k) := h.same rfl
theorem Quiet.setSlot (h : Quiet s₀ s) (n : Nat) (k : KeySlot) : Quiet s₀ (s.setSlot n k) := h.same rfl
theorem Quiet.setObj (h : Quiet s₀ s) (n : Nat) (v : W32) : Quiet s₀ (s.setObj n v) := h.same rfl
theorem Quiet.signal (h : Quiet s₀ s) (n : Nat) (a : W32) : Quiet s₀ (s.signal n a) := h.setObj ..
theorem Quiet.addWaiter (h : Quiet s₀ s) (n : Nat) (w : Waiter) : Quiet s₀ (s.addWaiter n w) := h.same rfl
theorem Quiet.dropWaiter (h : Quiet s₀ s) (n k : Nat) (who : WaitAgent) : Quiet s₀ (s.dropWaiter n k who) := h.same rfl
theorem Quiet.frameError (h : Quiet s₀ s) (u : PUnit) : Quiet s₀ (s.frameError u) := h.same rfl
theorem Quiet.setImport (h : Quiet s₀ s) (n : Nat) (e : RemoteWin) : Quiet s₀ (s.setImport n e) := h.same rfl
theorem Quiet.addTrans (h : Quiet s₀ s) (tag : Nat) (t : Trans) : Quiet s₀ (s.addTrans tag t) := h.same rfl
theorem Quiet.setCtx (h : Quiet s₀ s) (k i : Nat) (x : Ctx) : Quiet s₀ (s.setCtx k i x) := h.editCore

theorem Quiet.interrupt (h : Quiet s₀ s) (n v : Nat) : Quiet s₀ (s.interrupt n v) := by
  unfold State.interrupt
  grind [← Quiet.setPort, ← Quiet.emit]

theorem Quiet.writeRecord (h : Quiet s₀ s) (v : Vectors) (c : CplRing) (r : HeldRec) : Quiet s₀ (writeRecord v c r s).2 := by
  have hmem := h.setHostMem (n := v.port) ((h.hostMemOf v.port).writeBytes (c.ring.base.toNat + 32 * c.ring.tail)
    (leBytes 32 (if c.phase then r.bits ||| 0x10000#256 else r.bits).toNat))
  unfold Machine.writeRecord
  grind [← Quiet.interrupt, ← Quiet.freeRequest]

theorem Quiet.drainHeld (h : Quiet s₀ s) (v : Vectors) (held : List HeldRec) (c : CplRing) : Quiet s₀ (drainHeld v held c s).2 := by
  induction held generalizing c s with
  | nil => exact h
  | cons r rest ih =>
    rw [Machine.drainHeld]
    split
    · exact ih (h.writeRecord v c r) _
    · exact h

theorem Quiet.settleCpl (h : Quiet s₀ s) (v : Vectors) (c : CplRing) : Quiet s₀ (settleCpl v c s).2 := by
  have hd := h.drainHeld v c.held c
  unfold Machine.settleCpl
  dsimp only
  split
  · exact hd.interrupt ..
  · exact hd

theorem Quiet.settlePart (h : Quiet s₀ s) (p : Nat) : Quiet s₀ (s.settlePart p) :=
  have hs := h.settleCpl (s.part p).vectors (s.part p).cpl
  hs.editPart

theorem Quiet.settlePort (h : Quiet s₀ s) (n : Nat) : Quiet s₀ (s.settlePort n) := (h.settleCpl ..).setPort ..
theorem Quiet.portBack (h : Quiet s₀ s) (n : Nat) : Quiet s₀ (s.portBack n) :=
  .foldl (fun _ p ht => ht.settlePart p) _ (h.settlePort n)
theorem Quiet.postPart (h : Quiet s₀ s) (p : Nat) (r : HeldRec) : Quiet s₀ (s.postPart p r) := (h.editPart).settlePart p
theorem Quiet.postPort (h : Quiet s₀ s) (n : Nat) (r : HeldRec) : Quiet s₀ (s.postPort n r) := (h.setPort ..).settlePort n

theorem Quiet.cmdDone (h : Quiet s₀ s) (p : Nat) (o : Owed) (st : RecStatus) (f : FaultCode) (r : Nat) : Quiet s₀ (s.cmdDone p o st f r) :=
  h.postPart ..

theorem Quiet.admDone (h : Quiet s₀ s) (n : Nat) (o : Owed) (st : RecStatus) (f : FaultCode) (r : Nat) : Quiet s₀ (s.admDone n o st f r) :=
  h.postPort ..

theorem Quiet.mgmtEvent (h : Quiet s₀ s) (code d d2 : Nat) : Quiet s₀ (s.mgmtEvent code d d2) := by
  unfold State.mgmtEvent
  split
  · exact h.same rfl
  · exact h.healthCount ..

theorem Quiet.hostEvent (h : Quiet s₀ s) (p code d d2 : Nat) : Quiet s₀ (s.hostEvent p code d d2) := by
  unfold State.hostEvent
  dsimp only
  split
  · exact h.postPart ..
  · exact h.editPart

theorem Quiet.event (h : Quiet s₀ s) (code d d2 : Nat) (ps : List Nat) : Quiet s₀ (s.event code d d2 ps) :=
  .foldl (fun _ p ht => ht.hostEvent p ..) _ (h.mgmtEvent ..)

theorem Quiet.requestOver (h : Quiet s₀ s) (r : Nat) (q : Request) : Quiet s₀ (s.requestOver r q) := by
  unfold State.requestOver
  dsimp only
  split
  · exact h.same rfl
  · exact h.same rfl

theorem Quiet.markFailed (h : Quiet s₀ s) (r i : Nat) : Quiet s₀ (s.markFailed r i) := h.mapCores fun _ => rfl

theorem Quiet.unbind (h : Quiet s₀ s) (p r i : Nat) : Quiet s₀ (s.unbind p r i) :=
  have hc := h.mapCores (f := fun e => (e.1, e.2.unbind r i)) fun _ => rfl
  hc.editPart

theorem Quiet.endItem (h : Quiet s₀ s) (r i : Nat) (st : RecStatus) (f : FaultCode) : Quiet s₀ (s.endItem r i st f) := by
  unfold State.endItem
  grind [← Quiet.postPart, ← Quiet.requestOver, ← Quiet.unbind, ← Quiet.markFailed, ← Quiet.setRequest]

theorem Quiet.endItems (h : Quiet s₀ s) (r : Nat) (st : RecStatus) (f : FaultCode) (sel : ItemInfo → Bool) : Quiet s₀ (s.endItems r st f sel) := by
  unfold State.endItems
  grind [← Quiet.foldl, ← Quiet.endItem]

theorem Quiet.failItem (h : Quiet s₀ s) (r i : Nat) (f : FaultCode) : Quiet s₀ (s.failItem r i f) := by
  unfold State.failItem
  split
  · exact h
  · exact (h.setRequest ..).markFailed ..

theorem Quiet.coreFault (h : Quiet s₀ s) (k c : Nat) (f : FaultCode) : Quiet s₀ (s.coreFault k c f) := by
  unfold State.coreFault
  dsimp only
  split
  · exact h.event ..
  · exact (h.editCore).event ..

theorem Quiet.faultAt (h : Quiet s₀ s) (k c : Nat) (b : Option (Nat × Nat)) (f : FaultCode) : Quiet s₀ (s.faultAt k c b f) := by
  unfold State.faultAt
  grind [← Quiet.failItem, ← Quiet.coreFault]

theorem Quiet.charge (h : Quiet s₀ s) (b : Option (Nat × Nat)) (f : ItemInfo → ItemInfo) : Quiet s₀ (s.charge b f) := by
  unfold State.charge
  grind [← Quiet.setRequest]

@[simp] theorem Core.count_scratch (c : Core) (off k : Nat) : (c.count off k).scratch = c.scratch := iteProp_keeps (π := Core.scratch) rfl rfl

theorem Quiet.coreCount (h : Quiet s₀ s) (k off n : Nat) : Quiet s₀ (s.coreCount k off n) :=
  h.setCore (by rw [Core.count_scratch]; exact h.scratch k)

/-! ### Memories and memory errors -/

theorem Quiet.memError (h : Quiet s₀ s) (p : Nat) (e : MemErr) : Quiet s₀ (s.memError p e) := by
  induction e generalizing s with
  | none => exact h
  | fab _ _ => exact h
  | seq a b ha hb => exact hb (ha h)
  | ce va =>
    unfold State.memError
    dsimp only
    split
    · exact h.same rfl
    · exact h
  | ue va =>
    unfold State.memError
    dsimp only
    split
    · exact ((h.editMem).healthCount ..).event ..
    · exact h

theorem Quiet.spillError (h : Quiet s₀ s) (e : MemErr) : Quiet s₀ (s.spillError e) := by
  induction e generalizing s with
  | none => exact h
  | fab _ _ => exact h
  | seq a b ha hb => exact hb (ha h)
  | ce off =>
    unfold State.spillError
    split
    · exact (h.healthCount 0x208 1).same rfl
    · exact h
  | ue off =>
    unfold State.spillError
    split
    · exact ((h.editFabric).healthCount ..).event ..
    · exact h

theorem Quiet.touchAt (h : Quiet s₀ s) (k va n : Nat) : Quiet s₀ (s.touchAt k va n) := by
  unfold State.touchAt
  split
  · exact h
  · split
    · exact h
    · exact h.editMem

theorem Quiet.writeAt (h : Quiet s₀ s) (k va : Nat) (bs : List Byte) : Quiet s₀ (s.writeAt k va bs) := by
  unfold State.writeAt
  split
  · exact h.setCore ((h.scratch k).writeBytes ..)
  · split
    · exact h
    · exact h.setMem ((h.bytes _).writeBytes ..)

theorem Quiet.writeUpTo (h : Quiet s₀ s) (k va : Nat) (bs : List Byte) : Quiet s₀ (s.writeUpTo k va bs).1 := by
  unfold State.writeUpTo
  grind [← Quiet.writeAt]

/-! ### Transfers of Tier F -/

theorem Quiet.modOp (h : Quiet s₀ s) (k id : Nat) (f : InFlight → InFlight) : Quiet s₀ (s.modOp k id f) := h.editCore
theorem Quiet.opFault (h : Quiet s₀ s) (k : Nat) (o : InFlight) (f : FaultCode) : Quiet s₀ (s.opFault k o f) := (h.faultAt ..).modOp ..

theorem Quiet.startFab {t : State} (h : Quiet s₀ s) {k : Nat} {o : InFlight} {j : FabJob} (e : s.startFab k o j = some t) : Quiet s₀ t := by
  unfold State.startFab at e
  dsimp only at e
  split at e
  · cases e; exact h.editCore
  · split at e
    · cases e
    · cases e; exact (h.editCore).addTrans ..

theorem Quiet.startOwn (h : Quiet s₀ s) (w : OwnJob) : Quiet s₀ (s.startOwn w) := by
  unfold State.startOwn
  split
  · exact h.addTrans ..
  · exact h.same rfl

theorem Quiet.launchFar (h : Quiet s₀ s) (k c cls : Nat) (b : Option (Nat × Nat)) (j : FabJob) : Quiet s₀ (s.launchFar k c cls b j) := by
  have ht := fun ops id => h.editCore (k := k) (c := { s.core k with ops := ops, nextId := id })
  unfold State.launchFar
  dsimp only
  split
  · exact ht ..
  · generalize hq : State.startFab _ _ _ _ = q
    cases q with
    | none => exact ht ..
    | some t => exact (ht _ _).startFab hq

theorem Quiet.startFar (h : Quiet s₀ s) (k c cls : Nat) (b : Option (Nat × Nat)) (owner : Option Nat) : Quiet s₀ (s.startFar k c cls b owner) := by
  unfold State.startFar
  split
  · exact h
  · split
    · exact h
    · exact .foldl (fun _ _ ht => ht.launchFar ..) _ h.editMem

theorem Quiet.startFarOf (h : Quiet s₀ s) (k : Nat) (o : InFlight) : Quiet s₀ (s.startFarOf k o) := h.startFar ..

theorem Quiet.startFarOwn (h : Quiet s₀ s) (p : Nat) : Quiet s₀ (s.startFarOwn p) := by
  unfold State.startFarOwn
  split
  · exact h
  · exact .foldl (fun _ _ ht => ht.startOwn _) _ h.editMem

/-! ### Contexts and issue -/

theorem Quiet.putS (h : Quiet s₀ s) (k i d : Nat) (v : W64) : Quiet s₀ (s.putS k i d v) := h.editCore
theorem Quiet.putP (h : Quiet s₀ s) (k i d : Nat) (v : Bool) : Quiet s₀ (s.putP k i d v) := h.editCore
theorem Quiet.putV (h : Quiet s₀ s) (k i d : Nat) (v : List W32) : Quiet s₀ (s.putV k i d v) := h.setCtx ..
theorem Quiet.setPc (h : Quiet s₀ s) (k c : Nat) (pc : W64) : Quiet s₀ (s.setPc k c pc) := h.setCtx ..
theorem Quiet.setFlags (h : Quiet s₀ s) (k : Nat) (a b : Bool) : Quiet s₀ (s.setFlags k a b) := h.editCore
theorem Quiet.enterWait (h : Quiet s₀ s) (k c : Nat) (w : WaitKind) : Quiet s₀ (s.enterWait k c w) := h.setCtx ..
theorem Quiet.free (h : Quiet s₀ s) : Quiet s₀ s.free.2 := h.same rfl

theorem Quiet.bindItem (h : Quiet s₀ s) (b : Option (Nat × Nat)) : Quiet s₀ (s.bindItem b) := by
  unfold State.bindItem
  grind [← Quiet.charge]

theorem Quiet.ctxFault (h : Quiet s₀ s) (k c : Nat) (f : FaultCode) : Quiet s₀ (s.ctxFault k c f) := by
  have hf := (h.faultAt k c (s.ctx k c).bind f).setCtx k c
  unfold State.ctxFault
  dsimp only
  split
  · exact hf _
  · exact (hf _).editPart

theorem Quiet.issued {t : State} (h : Quiet s₀ t) (s : State) (k c : Nat) (w : W64) : Quiet s₀ (s.issued k c w t) := by
  unfold State.issued
  grind [← Quiet.bindItem, ← Quiet.startFar]

theorem Quiet.convEffects (h : Quiet s₀ s) (k : Nat) (b : Option (Nat × Nat)) (cs : List Conv) : Quiet s₀ (s.convEffects k b cs) := by
  have hc := fun x y => h.setCore (k := k) (c := (((s.core k).count 0x180 (convClips cs)).count 0x184 (convNans cs)).setFlags x y)
    (by simpa [Core.setFlags] using h.scratch k)
  unfold State.convEffects
  dsimp only
  split
  · exact hc ..
  · exact (hc ..).charge ..

end Quiet

/-! ### What a command answers -/

/-- A command answers a next state of which `R` holds. -/
def Answers (R : State → Prop) (o : Host.Outcome State Fault Refusal) : Prop := ∃ t, o = .next t ∧ R t

theorem Answers.next {R : State → Prop} {t : State} (h : R t) : Answers R (.next t) := ⟨t, rfl, h⟩

theorem Answers.mono {R Q : State → Prop} {o : Host.Outcome State Fault Refusal} (h : Answers R o) (hrq : ∀ t, R t → Q t) : Answers Q o :=
  h.imp fun t ht => ⟨ht.1, hrq t ht.2⟩

/-- Every state that a meaning hands to issue. -/
def Issued.All (R : State → Prop) : Issued → Prop
  | .go t | .jump t _ => R t
  | .hold | .refuse _ => True

/-- Every state that a ring command's effect ends in. -/
def CmdRes.All (R : State → Prop) : CmdRes → Prop
  | .done t _ | .fail t _ | .owes t => R t
  | .hold => True

section Issue
variable {s : State} {m : Issued}

/-- Issue is quiet where the instruction's own effect is. -/
theorem issue_quiet {k c : Nat} {w : W64} {mine : Bool} (hm : m.All (Quiet s)) : Answers (Quiet s) (issue k c w mine m s) := by
  have hs := Quiet.refl s
  obtain ⟨heq, -⟩ | ⟨heq, -⟩ | ⟨f, heq, -⟩ | ⟨t, pc, heq, ht, -⟩ := issue_cases k c w mine m s
  · exact heq ▸ .next hs
  · exact heq ▸ .next (hs.ctxFault ..)
  · exact heq ▸ .next ((hs.faultAt ..).setPc ..)
  · have hq : Quiet s t := by
      obtain ⟨rfl, -⟩ | rfl := ht <;> exact hm
    exact heq ▸ .next ((hq.issued ..).setPc ..)

end Issue
end Sys2Proof.Machine
end

section
/-! PROOFS. The scalar, object, slot and session instructions are quiet. -/

-- One proof at a time: in parallel the many `unfold`s wait for each other, with a thread for each that waits.
set_option Elab.async false

namespace Sys2Proof.Machine
/-! ### Scalar instructions, objects, slots and items -/

section Quiet
variable {s₀ s : State}

theorem Quiet.launch (h : Quiet s₀ s) (k c : Nat) (u : UnitId) (cls : Nat) (objs : List Nat) (rs : List Result) (j : Job) :
    Quiet s₀ (s.launch k c u cls objs rs j) := h.editCore

theorem Quiet.faultLast (h : Quiet s₀ s) (k : Nat) : Quiet s₀ (s.faultLast k) := h.editCore
theorem Quiet.endWait (h : Quiet s₀ s) (k c : Nat) (m : CtxMode) : Quiet s₀ (s.endWait k c m) := h.editCore

theorem Quiet.waitOn {t : State} (h : Quiet s₀ s) (ht : Quiet s₀ t) (k c n : Nat) (w : WaitKind) : Quiet s₀ (s.waitOn k c n w t) := by
  unfold State.waitOn
  split
  · exact ht
  · exact (h.enterWait ..).addWaiter ..

theorem Quiet.finishItem (h : Quiet s₀ s) (k r i : Nat) : Quiet s₀ (s.finishItem k r i) := by
  unfold State.finishItem
  split
  · exact Quiet.endItem h.editCore ..
  · exact h

theorem Quiet.takeRequest (h : Quiet s₀ s) (g : Nat) : Quiet s₀ (s.takeRequest g).2 := by
  unfold State.takeRequest
  dsimp only
  split
  · exact h
  · split
    · exact h.same rfl
    · split <;> exact h.same rfl

theorem Quiet.latchHigh (h : Quiet s₀ s) (k c off : Nat) : Quiet s₀ (s.latchHigh k c off) := by
  unfold State.latchHigh
  grind [← Quiet.setCtx]

theorem Quiet.rcCoreRead (h : Quiet s₀ s) (k off : Nat) : Quiet s₀ (s.rcCoreRead k off).2 := h.editCore

theorem Quiet.coreRead {t : State} {v : Nat} (h : Quiet s₀ s) {k c off : Nat} (e : s.coreRead k c off = some (v, t)) : Quiet s₀ t := by
  unfold State.coreRead at e
  split at e
  · have ht : (s.rcCoreRead k off).2 = t := congrArg Prod.snd (Option.some.inj e)
    exact ht ▸ h.rcCoreRead k off
  · obtain ⟨_, -, he⟩ := Option.map_eq_some_iff.mp e
    have ht : s.latchHigh k c off = t := congrArg Prod.snd he
    exact ht ▸ h.latchHigh k c off

theorem Core.regWrite_scratch (x : Core) (off : Nat) (v : W32) : (x.regWrite off v).scratch = x.scratch := by
  unfold Core.regWrite Core.writeWatchdog Core.setRng Core.clearFlags
  grind

theorem hintUnit_bytes {kind quota base : Nat} {m m' : Mem} {u : PUnit} (h : hintUnit kind quota m base u = some m') : m'.bytes = m.bytes := by
  unfold hintUnit Mem.setUnit at h
  grind

theorem hintUnits_bytes (kind quota : Nat) (bases : List Nat) (m : Mem) (skips : Nat) : (hintUnits kind quota bases m skips).1.bytes = m.bytes := by
  induction bases generalizing m skips with
  | nil => rfl
  | cons a rest ih =>
    rw [hintUnits]
    split
    · exact ih ..
    · split
      · rfl
      · exact (ih ..).trans (hintUnit_bytes ‹_›)

end Quiet

section Issue
variable {s : State}

theorem unitIssue_all {R : State → Prop} {r : Issued} (h : r.All R) (k : Nat) (u : UnitId) : (unitIssue s k u r).All R := by
  unfold unitIssue
  split
  · trivial
  · exact h

theorem syncIssue_all {R : State → Prop} {f : Nat → Issued} (h : ∀ n, (f n).All R) (k c : Nat) (w : W64) : (syncIssue k c w s f).All R := by
  unfold syncIssue
  dsimp only
  split
  · exact h _
  · trivial

theorem slotIssue_all {R : State → Prop} {f : SlotDesc → Issued} (h : ∀ d, (f d).All R) (k c : Nat) (w : W64) : (slotIssue k c w s f).All R := by
  unfold slotIssue
  split
  · trivial
  · split
    · exact h _
    · trivial

theorem slotWait_quiet (k c : Nat) (w : W64) (sel : SlotDesc → Nat × W32) : (slotWait k c w s sel).All (Quiet s) := by
  refine slotIssue_all (fun d => ?_) k c w
  exact (Quiet.refl s).waitOn ((Quiet.refl s).putS ..) ..

theorem slotSignal_quiet (k c : Nat) (w : W64) (sel : SlotDesc → Nat) : (slotSignal k c w s sel).All (Quiet s) := by
  refine unitIssue_all (slotIssue_all (fun d => ?_) k c w) k .slot
  exact ((Quiet.refl s).signal ..).launch ..

theorem sclResult_quiet (k c : Nat) (w : W64) (f : W64 → W64 → W64 → W64) : (sclResult k c w s f).All (Quiet s) := (Quiet.refl s).putS ..

theorem sclOp_quiet (k c : Nat) (w : W64) (n : Nat) (f : SclFn) : Answers (Quiet s) (sclOp k c w n f s) := issue_quiet (sclResult_quiet k c w _)
theorem sclOpi_quiet (k c : Nat) (w : W64) (n : Nat) (f : SclFn) : Answers (Quiet s) (sclOpi k c w n f s) := issue_quiet (sclResult_quiet k c w _)

theorem sclLoad_quiet (k c : Nat) (w : W64) (n : Nat) : (sclLoad k c w n s).All (Quiet s) := by
  have h := Quiet.refl s
  unfold sclLoad
  dsimp only
  split
  · trivial
  · split
    · exact (h.touchAt ..).putS ..
    · exact (h.free.faultAt ..).putS ..

theorem sclStore_quiet (k c : Nat) (w : W64) (n : Nat) : (sclStore k c w n s).All (Quiet s) := by
  have h := Quiet.refl s
  unfold sclStore
  dsimp only
  split
  · trivial
  · split
    · exact h.writeAt ..
    · exact h.faultAt ..

theorem execSclCsrr_quiet (k c : Nat) (w : W64) : Answers (Quiet s) (execSclCsrr k c w s) := by
  refine issue_quiet ?_
  split
  · trivial
  · exact ((Quiet.refl s).coreRead ‹_›).putS ..

theorem execSclCsrw_quiet (k c : Nat) (w : W64) : Answers (Quiet s) (execSclCsrw k c w s) := by
  refine issue_quiet ?_
  split
  · exact (Quiet.refl s).editCore (Core.regWrite_scratch ..)
  · trivial

theorem execSclBr_quiet (k c : Nat) (w : W64) : Answers (Quiet s) (execSclBr k c w s) := by
  refine issue_quiet ?_
  split
  · exact (Quiet.refl s).putS ..
  · exact Quiet.refl s

theorem execSclTld_quiet (k c : Nat) (w : W64) : Answers (Quiet s) (execSclTld k c w s) := by
  refine issue_quiet ?_
  split
  · trivial
  · exact (Quiet.refl s).setCtx ..

theorem execSclFence_quiet (k c : Nat) (w : W64) : Answers (Quiet s) (execSclFence k c w s) := by
  refine issue_quiet ?_
  split
  · exact (Quiet.refl s).enterWait ..
  · exact Quiet.refl s

theorem execSclHalt_quiet (k c : Nat) (w : W64) : Answers (Quiet s) (execSclHalt k c w s) := by
  refine issue_quiet ?_
  split
  · exact (Quiet.refl s).enterWait ..
  · exact (Quiet.refl s).setCtx ..

theorem execIcacheLineFill_quiet (k c : Nat) (poisoned : Bool) : Answers (Quiet s) (execIcacheLineFill k c poisoned s) := by
  unfold execIcacheLineFill
  extract_lets pc t x y
  have ht : Quiet s t := by
    simp only [t]
    grind [← Quiet.refl, ← Quiet.memError]
  split
  · split
    · exact .next (ht.ctxFault ..)
    · split
      · exact .next ht
      · exact .next (Quiet.startFarOwn (Quiet.touchAt ht.editCore ..) _)
  · exact .next (.refl s)

theorem execSyncFadd_quiet (k c : Nat) (w : W64) : Answers (Quiet s) (execSyncFadd k c w s) := by
  refine issue_quiet (unitIssue_all (syncIssue_all (fun n => ?_) k c w) k .sync)
  exact Quiet.launch (Quiet.signal (Quiet.refl s).editCore ..) ..

theorem execSyncCmp_quiet (k c : Nat) (w : W64) : Answers (Quiet s) (execSyncCmp k c w s) := by
  refine issue_quiet (unitIssue_all (syncIssue_all (fun n => ?_) k c w) k .sync)
  have hd : Quiet s (s.setCore k ((s.core k).dropScalar c (fD w))) := (Quiet.refl s).editCore
  dsimp only
  split
  · exact (hd.setObj ..).launch ..
  · exact hd.launch ..

theorem execSessItem_quiet (k c : Nat) (w : W64) : Answers (Quiet s) (execSessItem k c w s) := by
  refine issue_quiet ?_
  grind [Issued.All, ← Quiet.setCtx, ← Quiet.refl]

theorem execSessEnd_quiet (k c : Nat) (w : W64) : Answers (Quiet s) (execSessEnd k c w s) := by
  refine issue_quiet ?_
  grind [Issued.All, ← Quiet.setCtx, ← Quiet.refl, ← Quiet.enterWait, ← Quiet.finishItem]

theorem execSessNext_quiet (k c : Nat) (w : W64) : Answers (Quiet s) (execSessNext k c w s) := by
  refine issue_quiet (unitIssue_all ?_ k .sess)
  exact Quiet.launch (Quiet.editCore ((Quiet.refl s).takeRequest (groupOf k))) ..

theorem execSessHint_quiet (k c : Nat) (w : W64) : Answers (Quiet s) (execSessHint k c w s) := by
  refine issue_quiet (unitIssue_all ?_ k .sess)
  split
  · trivial
  · split
    · trivial
    · rename_i p hp
      dsimp only
      generalize hm : hintUnits _ _ _ _ _ = r
      obtain ⟨m, skips, overs⟩ := r
      have hb : m.bytes = (s.part p).mem.bytes := (congrArg (fun r => r.1.bytes) hm).symm.trans (hintUnits_bytes ..)
      cases overs
      · exact Quiet.launch (Quiet.editPart (Quiet.refl s) hb) ..
      · exact Quiet.faultLast (Quiet.faultAt (Quiet.launch (Quiet.editPart (Quiet.refl s) hb) ..) ..) _

end Issue
end Sys2Proof.Machine
end

section
/-! PROOFS. Tile instructions and the steps of the units are quiet. -/

-- One proof at a time: in parallel the many `unfold`s wait for each other, with a thread for each that waits.
set_option Elab.async false

namespace Sys2Proof.Machine
/-! ### Tile instructions and the units' own steps -/

@[simp] theorem Core.setFlags_scratch (c : Core) (a b : Bool) : (c.setFlags a b).scratch = c.scratch := rfl
@[simp] theorem Core.modOp_scratch (c : Core) (id : Nat) (f : InFlight → InFlight) : (c.modOp id f).scratch = c.scratch := rfl
@[simp] theorem Core.setSplit_scratch (c : Core) (n : Nat) : (c.setSplit n).scratch = c.scratch := iteProp_keeps (π := Core.scratch) rfl rfl

@[simp] theorem Core.observe_scratch (c : Core) (n : Nat) (o : Obs) : (c.observe n o).scratch = c.scratch :=
  ite_keeps (π := Core.scratch) rfl rfl

theorem Core.stall_scratch (x : Core) (n : Nat) (o : InFlight) : (x.stall n o).scratch = x.scratch := by
  unfold Core.stall
  dsimp only
  split <;> exact Core.count_scratch ..

theorem Core.pass_scratch (x : Core) (n : Nat) : (x.pass n).scratch = x.scratch :=
  foldl_keeps _ Core.scratch (fun x o => x.stall_scratch n o) _ _

section Quiet
variable {s₀ s : State}

theorem Quiet.touchAll (h : Quiet s₀ s) (k : Nat) (rs : List (Nat × Nat)) : Quiet s₀ (s.touchAll k rs) :=
  .foldl (fun _ _ ht => ht.touchAt ..) _ h

theorem Quiet.setTile (h : Quiet s₀ s) (k id : Nat) (j : TileJob) : Quiet s₀ (s.setTile k id j) := h.modOp ..

theorem Quiet.chaff (h : Quiet s₀ s) (k : Nat) (b : Option (Nat × Nat)) (overs range disorder : Nat) : Quiet s₀ (s.chaff k b overs range disorder).1 := by
  have hc := h.editCore (k := k) (c := (((s.core k).count 0x2C0 overs).count 0x2C4 range).count 0x2C8 disorder) (by simp)
  unfold State.chaff
  dsimp only
  split
  · exact hc
  · exact hc.charge ..

theorem Quiet.releaseUnit (h : Quiet s₀ s) (r : Option GRing) : Quiet s₀ (s.releaseUnit r).1 := by
  unfold State.releaseUnit
  grind [← Quiet.signal]

theorem Quiet.releaseTested (h : Quiet s₀ s) (r : Option GRing) : Quiet s₀ (s.releaseTested r).1 := by
  unfold State.releaseTested
  grind [← Quiet.signal]

theorem Quiet.dropRings (h : Quiet s₀ s) (k id : Nat) (j : TileJob) : Quiet s₀ (s.dropRings k id j) := by
  refine .foldl (fun t r ht => ?_) _ h
  grind [← Quiet.dropWaiter]

theorem Quiet.releaseIf (h : Quiet s₀ s) (c : Bool) (r : Option GRing) : Quiet s₀ (if c then s.releaseTested r else (s, r)).1 := by
  split
  · exact h.releaseTested r
  · exact h

theorem Quiet.stopTile (h : Quiet s₀ s) (k id : Nat) (j : TileJob) (drop : Bool) : Quiet s₀ (s.stopTile k id j drop) :=
  ((((h.dropRings k id j).releaseIf ..).releaseIf ..).releaseIf ..).setTile ..

theorem Quiet.laneCounts (h : Quiet s₀ s) (k st idle skip stall : Nat) : Quiet s₀ (s.laneCounts k st idle skip stall) := h.editCore (by simp)

theorem Quiet.tileFails (h : Quiet s₀ s) (k : Nat) (o : InFlight) (j : TileJob) (u : Nat) (f : TileFail) : Quiet s₀ (s.tileFails k o j u f) := by
  unfold State.tileFails
  grind [← Quiet.setTile, ← Quiet.coreCount, ← Quiet.opFault]

theorem Quiet.tileLeaves (h : Quiet s₀ s) (k : Nat) (j : TileJob) (out : TileOut) : Quiet s₀ (s.tileLeaves k j out) := by
  unfold State.tileLeaves
  refine Quiet.laneCounts (h.editCore ?_) ..
  dsimp only
  split <;> simp

theorem Quiet.tileGives (h : Quiet s₀ s) (k : Nat) (o : InFlight) (j : TileJob) (u : Nat) (out : TileOut) : Quiet s₀ (s.tileGives k o j u out) := by
  unfold State.tileGives
  grind [Quiet.chaff, ← Quiet.tileLeaves, ← Quiet.stopTile, ← Quiet.opFault, ← Quiet.tileFails, ← Quiet.setTile]

theorem Quiet.guardGives (h : Quiet s₀ s) (k : Nat) (o : InFlight) (j : TileJob) (T : TCtx) (i : Nat) (g : GuardOut) :
    Quiet s₀ (s.guardGives k o j T i g) := by
  have hc := Quiet.chaff (h.tileLeaves k j { idle := g.idle, skip := g.skip, latched := g.latched, run := some g.run }) k o.bind g.drops 0 g.disorder
  unfold State.guardGives
  dsimp only
  split
  · exact (hc.opFault ..).stopTile ..
  · refine Quiet.setTile (Quiet.charge (hc.setCore ?_) ..) ..
    simp only [Core.count_scratch]
    exact (hc.scratch k).writeBytes ..

theorem Quiet.parityFails (h : Quiet s₀ s) (k : Nat) (o : InFlight) (rows : List (Nat × Nat)) : Quiet s₀ (s.parityFails k o rows) := by
  unfold State.parityFails
  split
  · exact h
  · exact Quiet.opFault h.editCore ..

theorem Quiet.loadAhead (h : Quiet s₀ s) (k : Nat) (o : InFlight) (j : TileJob) : Quiet s₀ (s.loadAhead k o j) := by
  unfold State.loadAhead
  grind [← Quiet.setTile, ← Quiet.editCore, Core.setFlags_scratch]

theorem Quiet.loadAll (h : Quiet s₀ s) (k : Nat) : Quiet s₀ (s.loadAll k) := by
  refine .foldl (fun t o ht => ?_) _ h
  grind [← Quiet.loadAhead]

theorem Quiet.computeTile (h : Quiet s₀ s) (k : Nat) (o : InFlight) (j : TileJob) (u : Nat) (rep : Option Overflow) :
    Quiet s₀ (s.computeTile k o j u rep) := by
  unfold State.computeTile
  extract_lets t j0 j' T s1
  have ht : Quiet s₀ t := by
    simp only [t]
    split
    · exact h
    · exact h.parityFails ..
  have h1 : Quiet s₀ s1 := Quiet.startFarOf (ht.touchAll ..) ..
  split
  · split
    · exact h1.tileFails ..
    · exact h1.guardGives ..
  · split
    · exact h1.tileFails ..
    · exact h1.tileGives ..
  · split
    · exact h1.tileFails ..
    · exact Quiet.tileGives (Quiet.coreCount h1.editCore ..) ..

theorem Quiet.runTile (h : Quiet s₀ s) (k : Nat) (o : InFlight) (j : TileJob) (u : Nat) (rep : Option Overflow) : Quiet s₀ (s.runTile k o j u rep) :=
  (h.computeTile ..).loadAll k

theorem Quiet.advance (fuel : Nat) (h : Quiet s₀ s) (k id : Nat) : Quiet s₀ (State.advance fuel s k id) := by
  induction fuel generalizing s with
  | zero => exact h
  | succ fuel ih =>
    rw [State.advance]
    grind [← Quiet.runTile]

theorem Quiet.advanceAll (h : Quiet s₀ s) (k : Nat) : Quiet s₀ (s.advanceAll k) := by
  refine .foldl (fun t o ht => ?_) _ h
  grind [← Quiet.advance]

theorem Quiet.observe (h : Quiet s₀ s) (k : Nat) (trk : Option Nat) (os : List Obs) : Quiet s₀ (s.observe k trk os) := by
  unfold State.observe
  split
  · exact h
  · exact h.editCore (foldl_keeps _ Core.scratch (fun c o => c.observe_scratch _ o) ..)

theorem Quiet.startTile (h : Quiet s₀ s) (k : Nat) (o : InFlight) (j : TileJob) : Quiet s₀ (s.startTile k o j) :=
  Quiet.advance _ (Quiet.loadAll h.editCore k) ..

theorem Quiet.endTile (h : Quiet s₀ s) (k id : Nat) (j : TileJob) (u : Nat) (good : Bool) (rest : List (Nat × Bool)) :
    Quiet s₀ (s.endTile k id j u good rest) := by
  have hm : ∀ (m : Option Nat) (c : Bool) {t : State}, Quiet s₀ t → Quiet s₀ (match m with
      | some n => if c then t.signal n 1 else t
      | none => t) := by
    grind [← Quiet.signal]
  have hr : ∀ (r : Option GRing) (c : Bool) {t : State}, Quiet s₀ t → Quiet s₀ (if c then t.releaseUnit r else (t, r)).1 := by
    grind [Quiet.releaseUnit]
  have ho : ∀ (r : Option GRing) (c : Bool) {t : State}, Quiet s₀ t → Quiet s₀ (match r with
      | some g => if c then t.signal g.objF 1 else t
      | none => t) := by
    grind [← Quiet.signal]
  exact Quiet.setTile (Quiet.editCore (hm _ _ (ho _ _ (hr _ _ ((h.releaseUnit _).releaseUnit _))))) ..

theorem Quiet.deliver (h : Quiet s₀ s) (k c : Nat) (rs : List Result) : Quiet s₀ (s.deliver k c rs) := by
  refine .foldl (fun t r ht => ?_) _ h
  cases r
  · exact ht.setCtx ..
  · exact ht.setCtx ..
  · exact ht
  · exact ht

theorem Quiet.recheck (h : Quiet s₀ s) (k c : Nat) : Quiet s₀ (s.recheck k c) := by
  unfold State.recheck
  grind [← Quiet.endWait, ← Quiet.finishItem]

theorem Quiet.recheckAll (h : Quiet s₀ s) (k : Nat) : Quiet s₀ (s.recheckAll k) := .foldl (fun _ c ht => ht.recheck k c) _ h

theorem Quiet.complete (h : Quiet s₀ s) (k : Nat) (o : InFlight) : Quiet s₀ (s.complete k o) := by
  unfold State.complete
  refine Quiet.recheckAll (Quiet.deliver ?_ ..) k
  split
  · exact h.editCore
  · exact .foldl (fun _ _ ht => ht.signal ..) _ h.editCore

theorem Quiet.releaseWaiter (h : Quiet s₀ s) (w : Waiter) : Quiet s₀ (s.releaseWaiter w) := by
  unfold State.releaseWaiter
  grind [← Quiet.recheckAll, ← Quiet.putS, ← Quiet.endWait, ← Quiet.advanceAll, ← Quiet.setTile]

theorem Quiet.failWait (h : Quiet s₀ s) (k c n : Nat) (w : Wait) (f : FaultCode) : Quiet s₀ (s.failWait k c n w f) :=
  (((h.faultAt ..).dropWaiter ..).endWait ..).recheckAll k

theorem Quiet.xiCount (h : Quiet s₀ s) (k : Nat) : Quiet s₀ (s.xiCount k) :=
  have hc := (h.coreCount k 0x14 1).editCore (k := k) (c := { (s.coreCount k 0x14 1).core k with island := _ })
  hc.same rfl

theorem Quiet.openResult (h : Quiet s₀ s) (k c : Nat) (w : W64) : Quiet s₀ (s.openResult k c w) := by
  have hfree : ∀ (l : List Nat) (vs : List W32) {t : State}, Quiet s₀ t →
      Quiet s₀ (l.foldl (fun (vs, t) _ => let (v, t) := t.free; (vs ++ [v.truncate 32], t)) (vs, t)).2 := by
    intro l
    induction l with
    | nil => exact fun _ _ ht => ht
    | cons a l ih => exact fun vs t ht => ih _ ht.free
  unfold State.openResult
  split
  · exact h.free.putS ..
  · split
    · exact Quiet.putV (hfree (List.range 64) [] h) ..
    · exact h

theorem Quiet.xiContext {t : State} (h : Quiet s₀ s) {k c : Nat} (e : s.xiContext k c = some t) : Quiet s₀ t := by
  unfold State.xiContext at e
  grind [← Quiet.failWait, ← Quiet.setPc, ← Quiet.faultAt, ← Quiet.bindItem, ← Quiet.openResult]

theorem Quiet.tick (h : Quiet s₀ s) : Quiet s₀ s.tick :=
  have hc := h.mapCores (f := fun e => (e.1, e.2.pass _)) fun _ => Core.pass_scratch ..
  hc.same rfl

end Quiet
end Sys2Proof.Machine
end

section
/-! PROOFS. The epilogue and the issue of array, guard and table instructions are quiet. -/

-- One proof at a time: in parallel the many `unfold`s wait for each other, with a thread for each that waits.
set_option Elab.async false

namespace Sys2Proof.Machine
/-! ### The epilogue's words and the steps of the units -/

section Canonical
variable {s₀ : State} {m : Sparse Byte}

theorem Canonical.foldl {α : Type} {f : Sparse Byte → α → Sparse Byte} (hf : ∀ m a, Canonical s₀ m → Canonical s₀ (f m a)) (l : List α)
    (h : Canonical s₀ m) : Canonical s₀ (l.foldl f m) := by
  induction l generalizing m with
  | nil => exact h
  | cons a l ih => exact ih (hf m a h)

theorem Canonical.putCodes (h : Canonical s₀ m) (e : EpiDesc) (w : OutWord) (cs : List (Option Nat)) : Canonical s₀ (e.putCodes m w cs) := by
  unfold EpiDesc.putCodes
  dsimp only
  split
  · refine .foldl (fun m x hm => ?_) _ h
    obtain ⟨q, c⟩ := x
    cases c
    · exact hm
    · exact hm.writeBytes ..
  · exact .foldl (fun m p hm => hm.writeBytes ..) _ h

theorem Canonical.putRaw (h : Canonical s₀ m) (e : EpiDesc) (w : OutWord) : Canonical s₀ (e.putRaw m w) :=
  .foldl (fun _ x hm => hm.sput (_ + (_ + x.1) % _) x.2) _ h

theorem Canonical.putStops (h : Canonical s₀ m) (t : TermDesc) (w : OutWord) : Canonical s₀ (t.putStops m w) := by
  unfold TermDesc.putStops
  split
  · exact h.writeBytes ..
  · exact h

theorem Canonical.epilogueWord (h : Canonical s₀ m) (e : EpiDesc) (t : TermDesc) (w : OutWord) : Canonical s₀ (epilogueWord m e t w).mem := by
  unfold Machine.epilogueWord
  split
  · exact (h.putRaw e w).putStops t w
  · refine Canonical.putStops ?_ t w
    split
    · exact h.putCodes ..
    · split
      · exact (h.putCodes ..).writeBytes ..
      · exact h.putCodes ..

end Canonical

section Quiet
variable {s₀ s : State}

theorem Quiet.writeWord (h : Quiet s₀ s) (k : Nat) (o : InFlight) (j : TileJob) (w : OutWord) : Quiet s₀ (s.writeWord k o j w) := by
  have hw := (h.scratch k).epilogueWord (readEpi j.epi.toNat) (termOf j.word j.aux.toNat) w
  exact Quiet.observe (Quiet.convEffects (h.setCore hw) ..) ..

theorem Quiet.tileHeads (h : Quiet s₀ s) (k xd yd : Nat) : Quiet s₀ ((s.touchAt k xd 64).touchAt k yd 64) := (h.touchAt ..).touchAt ..

end Quiet

section Issue
variable {s : State}

theorem arrIssue_quiet (k c : Nat) (w : W64) (parity : List (Nat × Nat × Nat)) : (arrIssue k c w parity s).All (Quiet s) := by
  have ht := (Quiet.refl s).tileHeads
  unfold arrIssue
  split
  · trivial
  split
  · trivial
  extract_lets
  split
  · trivial
  split
  · trivial
  split
  · trivial
  split
  · exact (ht ..).launch ..
  · refine Quiet.launch (Quiet.editCore (ht ..) ?_) ..
    exact iteProp_keeps (π := Core.scratch) (Core.setSplit_scratch ..) (Core.setSplit_scratch ..)

theorem guardIssue_quiet (k c : Nat) (w : W64) (parity : List (Nat × Nat × Nat)) : (guardIssue k c w parity s).All (Quiet s) := by
  have ht := (Quiet.refl s).tileHeads
  unfold guardIssue
  split
  · trivial
  extract_lets
  split
  · trivial
  split
  · trivial
  split
  · trivial
  show Quiet s (ite ..)
  split
  · exact (ht ..).launch ..
  · exact Quiet.launch (Quiet.editCore (ht ..) (Core.setSplit_scratch ..)) ..

theorem tabIssue_quiet (log : Bool) (k c : Nat) (w : W64) : (tabIssue log k c w s).All (Quiet s) := by
  have hs := Quiet.refl s
  unfold tabIssue
  split
  · trivial
  extract_lets
  split
  · trivial
  split
  · trivial
  split
  · trivial
  split
  · exact hs.launch ..
  · exact Quiet.launch (Quiet.tileHeads hs.editCore ..) ..

theorem execOutputWordWrite_quiet (k id : Nat) : Answers (Quiet s) (execOutputWordWrite k id s) := by
  have h := Quiet.refl s
  unfold execOutputWordWrite
  split
  · split
    · split
      · exact .next h
      · split
        · exact .next (Quiet.advanceAll (Quiet.setTile (h.writeWord ..) ..) k)
        · exact .next h
    · exact .next h
  · exact .next h

theorem execTileDone_quiet (k id : Nat) : Answers (Quiet s) (execTileDone k id s) := by
  have h := Quiet.refl s
  unfold execTileDone
  grind [← Answers.next, ← Quiet.endTile]

theorem execAccRepeat_quiet (k : Nat) (r : RepeatOp) : Answers (Quiet s) (execAccRepeat k r s) := by
  have h := Quiet.refl s
  unfold execAccRepeat
  split
  · split
    · split
      · exact .next h
      · exact .next (Quiet.advanceAll (Quiet.runTile (Quiet.parityFails (Quiet.setTile (Quiet.charge (h.coreCount ..) ..) ..) ..) ..) k)
    · exact .next h
  · exact .next h

theorem execGuardedRingUnit_quiet (k id : Nat) (r : RingId) : Answers (Quiet s) (execGuardedRingUnit k id r s) := by
  have h := Quiet.refl s
  unfold execGuardedRingUnit
  split
  · split
    · split
      · exact .next h
      · dsimp only
        split
        · split
          · exact .next ((h.setTile ..).advanceAll ..)
          · exact .next ((h.setTile ..).addWaiter ..)
        · exact .next h
    · exact .next h
  · exact .next h

theorem execInstrComplete_quiet (k id : Nat) : Answers (Quiet s) (execInstrComplete k id s) := by
  have h := Quiet.refl s
  unfold execInstrComplete
  grind [← Answers.next, ← Quiet.complete]

theorem execWaitSatisfied_quiet (n : Nat) : Answers (Quiet s) (execWaitSatisfied n s) :=
  .next (.foldl (fun _ w ht => ht.releaseWaiter w) _ ((Quiet.refl s).same rfl))

theorem execWatchdogExpiry_quiet (k : Nat) (who : WaitAgent) : Answers (Quiet s) (execWatchdogExpiry k who s) := by
  have h := Quiet.refl s
  unfold execWatchdogExpiry
  split
  · exact .next h
  split
  · split
    · split
      · split
        · exact .next h
        · exact .next (((h.faultAt ..).endWait ..).recheckAll k)
      · split
        · exact .next h
        · exact .next (h.failWait ..)
      · exact .next h
    · exact .next h
  · split
    · split
      · split
        · split
          · exact .next h
          · exact .next (((h.opFault ..).stopTile ..).advanceAll k)
        · exact .next h
      · exact .next h
    · exact .next h

theorem execXiTimeout_quiet (k : Nat) (who : XiAgent) : Answers (Quiet s) (execXiTimeout k who s) := by
  have h := Quiet.refl s
  unfold execXiTimeout
  split
  · split
    · exact .next ((h.opFault ..).xiCount k)
    · exact .next h
  · refine .next ?_
    cases hx : s.xiContext k _ with
    | none => exact h
    | some t => exact (h.xiContext hx).xiCount k

theorem execNarrowPromote_quiet (k : Nat) : Answers (Quiet s) (execNarrowPromote k s) := .next (((Quiet.refl s).coreCount ..).coreCount ..)

end Issue
end Sys2Proof.Machine
end

section
/-! PROOFS. The CAM, EPI, vector, tracker and guard-select instructions are quiet, and what befalls a memory access. -/

-- One proof at a time: in parallel the many `unfold`s wait for each other, with a thread for each that waits.
set_option Elab.async false

namespace Sys2Proof.Machine
/-! ### ARR.CAM, the EPI instructions, vectors, trackers and guards -/

@[simp] theorem Core.setTracker_scratch (x : Core) (n : Nat) (t : Tracker) : (x.setTracker n t).scratch = x.scratch := rfl
@[simp] theorem Core.emptySlots_scratch (x : Core) (t : Tracker) (l : List Nat) : (x.emptySlots t l).scratch = x.scratch := rfl
@[simp] theorem Core.closeStep_scratch (x : Core) (n : Nat) : (x.closeStep n).scratch = x.scratch := rfl

section Quiet
variable {s₀ s : State}

/-- Register values that the spec leaves open, drawn one by one. -/
theorem Quiet.frees (l : List Nat) (vs : List W32) (h : Quiet s₀ s) :
    Quiet s₀ (l.foldl (fun (vs, t) _ => let (v, t) := t.free; (vs ++ [v.truncate 32], t)) (vs, s)).2 := by
  induction l generalizing vs s with
  | nil => exact h
  | cons a l ih => exact ih _ h.free

end Quiet

section Issue
variable {s : State}

theorem execScatterAddIssue_quiet (k bank : Nat) (waited : Bool) : Answers (Quiet s) (execScatterAddIssue k bank waited s) := by
  unfold execScatterAddIssue
  dsimp only
  split
  · exact .next (.refl s)
  · exact .next ((Quiet.refl s).editCore (Core.count_scratch ..))

theorem camIssue_quiet (k c : Nat) (w : W64) : (camIssue k c w s).All (Quiet s) := by
  have h := Quiet.refl s
  unfold camIssue
  split
  · trivial
  extract_lets _ _ _ _ _ b o t
  split
  · trivial
  split
  · trivial
  generalize hc : t.chaff k b 0 o.range o.order = q
  have hq : Quiet s q.1 := hc ▸ ((h.tileHeads ..).touchAll ..).chaff ..
  obtain ⟨u, _⟩ := q
  dsimp only at hq
  dsimp -zeta only
  extract_lets u₁ _ u₂ _ _ _ u₃ u₄
  have hu₁ : Quiet s u₁ := (hq.coreCount ..).coreCount ..
  have hu₃ : Quiet s u₃ := Quiet.editCore (hu₁.launch ..)
  have hu₄ : Quiet s u₄ := by
    simp only [u₄]
    split
    · exact (hu₃.faultAt ..).faultLast k
    · exact hu₃
  show Quiet s _
  split
  · exact (hu₄.faultAt ..).faultLast k
  · exact hu₄

theorem execEpiLoad_quiet (k c : Nat) (w : W64) : Answers (Quiet s) (execEpiLoad k c w s) := by
  refine issue_quiet (unitIssue_all ?_ k .epi)
  split
  · trivial
  split
  · trivial
  · exact Quiet.launch (Quiet.editCore ((Quiet.refl s).touchAt ..)) ..

theorem execEpiSzero_quiet (k c : Nat) (w : W64) : Answers (Quiet s) (execEpiSzero k c w s) := by
  have h := Quiet.refl s
  refine issue_quiet (unitIssue_all ?_ k .epi)
  split
  · trivial
  split
  · exact h.launch ..
  split
  · trivial
  · exact Quiet.launch h.editCore ..

theorem execEpiSdrain_quiet (k c : Nat) (w : W64) : Answers (Quiet s) (execEpiSdrain k c w s) := by
  have h := Quiet.refl s
  refine issue_quiet (unitIssue_all ?_ k .epi)
  split
  · trivial
  split
  · trivial
  split
  · exact h.launch ..
  split
  · trivial
  · exact Quiet.launch (Quiet.editCore (.foldl (fun _ _ ht => ht.writeWord ..) _ h)) ..

theorem vecIssue_all {R : State → Prop} {r : Issued} (h : r.All R) (k : Nat) : (vecIssue s k r).All R := by
  unfold vecIssue
  split
  · trivial
  · exact h

theorem quantIssue_all {R : State → Prop} {r : Issued} (h : r.All R) (k : Nat) (names : Nat → Bool) : (quantIssue s k names r).All R := by
  unfold quantIssue
  split
  · trivial
  · exact unitIssue_all h k .quant

theorem vecPut_quiet (k c d n : Nat) (w : W64) (op : Nat) (v : List W32) :
    Answers (Quiet s) (issue k c w (spells w op n) (vecIssue s k (.go (s.putV k c d v))) s) :=
  issue_quiet (vecIssue_all (r := .go _) ((Quiet.refl s).putV ..) k)

theorem vecOp2_quiet (k c : Nat) (w : W64) (n : Nat) (f : W32 → W32 → W32) : Answers (Quiet s) (vecOp2 k c w n f s) := vecPut_quiet ..
theorem vecFn_quiet (k c : Nat) (w : W64) (n : Nat) (f : W32 → W32) : Answers (Quiet s) (vecFn k c w n f s) := vecPut_quiet ..

theorem vecRed_quiet (k c : Nat) (w : W64) (n : Nat) (f : W32 → W32 → W32) : Answers (Quiet s) (vecRed k c w n f s) :=
  issue_quiet (vecIssue_all (r := .go _) ((Quiet.refl s).putS ..) k)

theorem execVecLd_quiet (k c : Nat) (w : W64) : Answers (Quiet s) (execVecLd k c w s) := by
  have h := Quiet.refl s
  refine issue_quiet (vecIssue_all ?_ k)
  split
  · trivial
  split
  · trivial
  split
  · exact (h.touchAt ..).putV ..
  · exact Quiet.putV (Quiet.faultAt (.frees (List.range 64) [] h) ..) ..

theorem execVecSt_quiet (k c : Nat) (w : W64) : Answers (Quiet s) (execVecSt k c w s) := by
  have h := Quiet.refl s
  unfold execVecSt
  extract_lets
  refine issue_quiet (vecIssue_all ?_ k)
  split
  · trivial
  split
  · trivial
  split
  · trivial
  split
  · exact h.faultAt ..
  split
  · exact h.writeAt ..
  · exact Quiet.observe (Quiet.convEffects (h.writeAt ..) ..) ..

theorem execVecTload_quiet (k c : Nat) (w : W64) : Answers (Quiet s) (execVecTload k c w s) := by
  refine issue_quiet (vecIssue_all ?_ k)
  split
  · trivial
  split
  · trivial
  · exact (Quiet.refl s).editCore

theorem execVecSadd_quiet (k c : Nat) (w : W64) : Answers (Quiet s) (execVecSadd k c w s) :=
  issue_quiet (vecIssue_all (r := .go _) (Quiet.launch (Quiet.refl s).editCore ..) k)

theorem execQuantCfg_quiet (k c : Nat) (w : W64) : Answers (Quiet s) (execQuantCfg k c w s) := by
  refine issue_quiet (quantIssue_all ?_ k _)
  split
  · trivial
  split
  · trivial
  · exact Quiet.launch (Quiet.refl s).editCore ..

theorem execQuantStep_quiet (k c : Nat) (w : W64) : Answers (Quiet s) (execQuantStep k c w s) :=
  issue_quiet (quantIssue_all (r := .go _) (Quiet.launch ((Quiet.refl s).editCore (foldl_keeps _ Core.scratch Core.closeStep_scratch ..)) ..) k _)

theorem execQuantClr_quiet (k c : Nat) (w : W64) : Answers (Quiet s) (execQuantClr k c w s) := by
  unfold execQuantClr
  extract_lets m clr
  refine issue_quiet (quantIssue_all ?_ k _)
  exact Quiet.launch ((Quiet.refl s).editCore (foldl_keeps clr Core.scratch (fun _ _ => rfl) ..)) ..

theorem execQuantCheck_quiet (k c : Nat) (w : W64) : Answers (Quiet s) (execQuantCheck k c w s) := by
  refine issue_quiet (quantIssue_all ?_ k _)
  split
  · trivial
  · exact Quiet.launch (Quiet.refl s).editCore ..

theorem execQuantPropose_quiet (k c : Nat) (w : W64) : Answers (Quiet s) (execQuantPropose k c w s) := by
  have h := Quiet.refl s
  refine issue_quiet (quantIssue_all ?_ k _)
  split
  · trivial
  · exact Quiet.launch (h.setCore ((h.scratch k).writeBytes ..)) ..

theorem execGuardSel_quiet (k c : Nat) (w : W64) : Answers (Quiet s) (execGuardSel k c w s) := by
  have h := Quiet.refl s
  refine issue_quiet (unitIssue_all ?_ k .guard)
  split
  · trivial
  split
  · trivial
  split
  · exact h.launch ..
  split
  · trivial
  · exact Quiet.launch (h.setCore ((h.scratch k).writeBytes ..)) ..

end Issue

/-! ### Packets on their way and units in spill windows -/

section Quiet
variable {s₀ s : State}

theorem Quiet.fabCount (h : Quiet s₀ s) (off k : Nat) : Quiet s₀ (s.fabCount off k) := h.editFabric
theorem Quiet.sendOn (h : Quiet s₀ s) (n : Nat) (p : Packet) : Quiet s₀ (s.sendOn n p) := h.emit ..
theorem Quiet.sendVia (h : Quiet s₀ s) (d : Nat) (q : Packet) : Quiet s₀ (s.sendVia d q) := Quiet.sendOn h.editFabric ..

theorem Quiet.inject {t : State} (h : Quiet s₀ s) {x : Hdr} {bs : List Byte} (e : s.inject x bs = some t) : Quiet s₀ t := by
  unfold State.inject at e
  split at e
  · dsimp only at e
    split at e
    · cases e; exact h.editFabric
    · cases e; exact h.sendVia ..
  · cases e

/-- A packet sent where it can be, another state otherwise. -/
theorem Quiet.injectOr {t : State} (h : Quiet s₀ s) (ht : Quiet s₀ t) (x : Hdr) (bs : List Byte) : Quiet s₀ ((s.inject x bs).getD t) := by
  cases hx : s.inject x bs with
  | none => exact ht
  | some u => exact h.inject hx

theorem Quiet.respond (h : Quiet s₀ s) (x : Hdr) (bs : List Byte) : Quiet s₀ (s.respond x bs) := h.injectOr (h.fabCount ..) ..
theorem Quiet.nackTo (h : Quiet s₀ s) (p : Packet) (n : Nat) : Quiet s₀ (s.nackTo p n) := (h.fabCount ..).respond ..

theorem Quiet.loseUnits (h : Quiet s₀ s) (owner : Nat) (sel : PUnit → Bool) : Quiet s₀ (s.loseUnits owner sel) := by
  refine .foldl (fun t e ht => ?_) _ h
  dsimp only
  split
  · exact ht
  · exact Quiet.event ht.editMem ..

theorem Quiet.spillRefused (h : Quiet s₀ s) (owner off : Nat) : Quiet s₀ (s.spillRefused owner off) := by
  unfold State.spillRefused
  split
  · exact h
  · exact h.loseUnits ..

theorem Quiet.startProbes (h : Quiet s₀ s) (owner : Nat) : Quiet s₀ (s.startProbes owner) := by
  unfold State.startProbes
  split
  · exact .foldl (fun _ _ ht => ht.injectOr ht ..) _ h.editFabric
  · exact h

theorem Quiet.spillFailed (h : Quiet s₀ s) (u : PUnit) (f : FaultCode) : Quiet s₀ (s.spillFailed u f) := by
  unfold State.spillFailed
  split
  · exact h.loseUnits ..
  · split
    · exact h.startProbes ..
    · exact h

theorem Quiet.cutOff (h : Quiet s₀ s) (p va : Nat) (f : FaultCode) : Quiet s₀ (s.cutOff p va f) := by
  unfold State.cutOff
  split
  · split
    · have ht := h.spillFailed ‹PUnit› f
      dsimp only
      split
      · exact ht.editMem
      · exact ht
    · exact h
  · exact h

theorem Quiet.strike (h : Quiet s₀ s) (p : Nat) (e : MemErr) : Quiet s₀ (s.strike p e) := by
  induction e generalizing s with
  | none => exact h
  | fab va f => exact h.cutOff ..
  | seq a b ha hb => exact hb (ha h)
  | ce va => exact h.memError ..
  | ue va => exact h.memError ..

theorem Quiet.mend (h : Quiet s₀ s) (p : Nat) (e : MemErr) : Quiet s₀ (s.mend p e) := by
  unfold State.mend
  split
  · exact h.editMem
  · exact h

theorem mended_quiet {p : Option Nat} {e : MemErr} {o : Host.Outcome State Fault Refusal} (h : Answers (Quiet s) o) : Answers (Quiet s) (mended p e o) := by
  obtain ⟨t, rfl, ht⟩ := h
  cases p with
  | none => exact .next ht
  | some p => exact .next (ht.mend ..)

theorem execSpillProbeTimeout_quiet (owner : Nat) : Answers (Quiet s) (execSpillProbeTimeout owner s) := by
  have h := Quiet.refl s
  unfold execSpillProbeTimeout
  split
  · exact .next (Quiet.loseUnits h.editFabric ..)
  · exact .next h

end Quiet
end Sys2Proof.Machine
end

section
/-! PROOFS. The copies of the DMA engine are quiet. -/

-- One proof at a time: in parallel the many `unfold`s wait for each other, with a thread for each that waits.
set_option Elab.async false

namespace Sys2Proof.Machine
/-! ### Copies of the DMA engine -/

/-- What a function of a fold keeps, the fold keeps. -/
theorem foldl_holds {α β : Type} {P : β → Prop} {f : β → α → β} (hf : ∀ b a, P b → P (f b a)) (l : List α) {b : β} (h : P b) : P (l.foldl f b) :=
  l.foldlRecOn f h fun b hb a _ => hf b a hb

section Quiet
variable {s₀ s : State} {r : Run}

theorem Quiet.runGet (h : Quiet s₀ r.s) (y : DmaBy) (va n : Nat) : Quiet s₀ (r.get y va n).1.s := by
  unfold Run.get
  dsimp only
  split
  · exact h
  · exact h
  · exact h.touchAt ..
  · exact h

theorem Quiet.runReach (h : Quiet s₀ r.s) (va n : Nat) : Quiet s₀ (r.reach va n).s := h

theorem Quiet.runPut (h : Quiet s₀ r.s) (y : DmaBy) (va : Nat) (bs : List Byte) : Quiet s₀ (r.put y va bs).s := by
  unfold Run.put
  dsimp only
  split
  · exact h
  · split
    · exact .foldl (fun _ _ ht => ht.writeAt ..) _ h
    · exact h.writeUpTo ..

theorem Quiet.runPlace (h : Quiet s₀ r.s) (y : DmaBy) (t : Tensor) (i j : Nat) : Quiet s₀ (r.place y t i j).1.s := by
  unfold Run.place
  split
  · exact h.runGet ..
  · exact h

theorem Quiet.runRecord (h : Quiet s₀ r.s) (y : DmaBy) (t : Tensor) (a : Nat) : Quiet s₀ (r.record y t a).1.s := by
  unfold Run.record
  split
  · exact h
  · exact h.runGet ..

theorem Quiet.runPlaneChunk (h : Quiet s₀ r.s) (y : DmaBy) (t : Tensor) (i j : Nat) : Quiet s₀ (r.planeChunk y t i j).1.s := by
  have hp := h.runPlace y t i j
  unfold Run.planeChunk
  dsimp only
  split
  · exact hp
  · exact (hp.runRecord ..).runGet ..

theorem Quiet.runElemRow (h : Quiet s₀ r.s) (y : DmaBy) (t : Tensor) (row j : Nat) : Quiet s₀ (r.elemRow y t row j).1.s := by
  unfold Run.elemRow
  dsimp only
  refine Quiet.runGet ?_ ..
  split
  · exact h
  · exact h.runGet ..

theorem Quiet.runChunk (h : Quiet s₀ r.s) (y : DmaBy) (t : Tensor) (row n j : Nat) : Quiet s₀ (r.chunk y t row n j).1.s := by
  unfold Run.chunk
  split
  · exact foldl_holds (P := fun x : Run × List (List (Option SrcEl)) => Quiet s₀ x.1.s) (fun _ _ hx => hx.runElemRow ..) (List.range n) h
  · exact h.runPlaneChunk ..

theorem Quiet.runWide (h : Quiet s₀ r.s) (y : DmaBy) (t : Tensor) (row n j m : Nat) : Quiet s₀ (r.wide y t row n j m).1.s := by
  unfold Run.wide
  refine foldl_holds (P := fun x : Run × Chunk => Quiet s₀ x.1.s) (fun x u hx => ?_) _ h
  dsimp only
  split
  · exact hx
  · exact hx.runChunk ..

theorem Quiet.runDropRows (h : Quiet s₀ r.s) (y : DmaBy) (drops : List Nat) : Quiet s₀ (r.dropRows y drops).1.s := by
  refine foldl_holds (P := fun x : Run × Nat => Quiet s₀ x.1.s) (fun x d hx => ?_) drops h
  dsimp only
  split
  · exact hx
  · exact hx.chaff ..

theorem Quiet.runConverts (h : Quiet s₀ r.s) (C : DmaCopy) (cells : List Cell) : Quiet s₀ (r.converts C cells).s := by
  unfold Run.converts
  split
  · exact h
  · exact h.convEffects ..

theorem Quiet.runObserved (h : Quiet s₀ r.s) (C : DmaCopy) (f : Nat) (l : List (Cell × Nat)) : Quiet s₀ (r.observed C f l).s := by
  unfold Run.observed
  split
  · exact h
  · exact h.observe ..

theorem Quiet.runSkewed (h : Quiet s₀ r.s) (y : DmaBy) : Quiet s₀ (r.skewed y).s := by
  unfold Run.skewed
  split
  · exact h
  · dsimp only
    split
    · exact h.coreCount ..
    · exact (h.coreCount ..).faultAt ..

theorem Quiet.runPutAll {α : Type} (h : Quiet s₀ r.s) (y : DmaBy) (va : α → Nat) (bs : α → List Byte) (l : List α) :
    Quiet s₀ (l.foldl (fun r a => r.put y (va a) (bs a)) r).s :=
  foldl_holds (P := fun r : Run => Quiet s₀ r.s) (fun _ _ hx => hx.runPut ..) l h

/-- A step of a run that a test leaves out. -/
theorem Quiet.runIte {c : Prop} [Decidable c] {r' : Run} (h : Quiet s₀ r.s) (h' : Quiet s₀ r'.s) : Quiet s₀ (if c then r else r').s := by
  split
  · exact h
  · exact h'

theorem Quiet.runWritePlanes (h : Quiet s₀ r.s) (C : DmaCopy) (q : DmaPart) (jp a : Nat) (idx : Option Nat) (new : Option (List Nat))
    (rows : List (List Cell)) : Quiet s₀ (r.writePlanes C q jp a idx new rows).s := by
  unfold Run.writePlanes
  extract_lets +onlyGivenNames y b b' n r₁
  have h₁ : Quiet s₀ r₁.s := by
    simp only [r₁]
    split
    · exact h
    · exact h.runPut ..
  split
  · extract_lets +onlyGivenNames packed mb r₂
    have h₂ : Quiet s₀ r₂.s := (h₁.runReach ..).runReach ..
    generalize hd : r₂.dropRows b' _ = q
    have h₃ : Quiet s₀ q.1.s := hd ▸ h₂.runDropRows ..
    obtain ⟨r₀, ok⟩ := q
    dsimp -zeta only
    extract_lets +onlyGivenNames keep stop r₃ codes r₄ r₅ r₆ r₇
    have h₅ : Quiet s₀ r₅.s := Quiet.runPutAll (Quiet.runConverts (r := r₃) h₃ ..) ..
    exact Quiet.runPut (r := r₆) (.runIte h₅ (h₅.runObserved ..)) ..
  · extract_lets +onlyGivenNames codes r₂ r₃ r₄ r₅
    have h₃ : Quiet s₀ r₃.s := Quiet.runPutAll (h₁.runConverts ..) ..
    have h₄ : Quiet s₀ r₄.s := .runIte h₃ (h₃.runObserved ..)
    have h₅ : Quiet s₀ r₅.s := .runIte h₄ h₄
    exact .runIte (h₅.runPut ..) h₅

theorem Quiet.runDstEnts (h : Quiet s₀ r.s) (C : DmaCopy) (a : Nat) : Quiet s₀ (r.dstEnts C a).1.s := by
  unfold Run.dstEnts
  dsimp only
  split
  · exact h
  split
  · exact h.runRecord ..
  · exact h.runGet ..

theorem Quiet.runPlanePart (h : Quiet s₀ r.s) (C : DmaCopy) (jp : Nat) (q : DmaPart) (mx : Option (List (List Cell))) (alone : Bool) :
    Quiet s₀ (r.planePart C jp q mx alone).s := by
  unfold Run.planePart
  split
  · exact h
  split
  · exact (h.runReach ..).runSkewed ..
  split
  · exact h.runWritePlanes ..
  split
  · exact h.runWritePlanes ..
  split
  · exact h.runWritePlanes ..
  · have he := h.runDstEnts C
    dsimp only
    split
    · exact ((he _).runReach ..).runSkewed ..
    · exact (he _).runWritePlanes ..

theorem Quiet.runElemPart (h : Quiet s₀ r.s) (C : DmaCopy) (jp row : Nat) (src : Chunk) (n : Nat) : Quiet s₀ (r.elemPart C jp row src n).s := by
  unfold Run.elemPart
  extract_lets +onlyGivenNames y w cols first
  split
  · refine Quiet.runSkewed ?_ ..
    refine foldl_holds (P := fun r : Run => Quiet s₀ r.s) (fun _ _ hx => ?_) _ h
    exact hx.runReach ..
  · refine foldl_holds (P := fun r : Run => Quiet s₀ r.s) (fun r i hr => ?_) _ h
    extract_lets +onlyGivenNames R ea
    generalize hg : (if y.sfmt = 0 then _ else _ : Run × SEnt × Option (List Byte)) = g
    have h₁ : Quiet s₀ g.1.s := by
      rw [← hg]
      split
      · exact hr
      · exact hr.runGet ..
    obtain ⟨r₁, e, new⟩ := g
    dsimp -zeta only
    extract_lets +onlyGivenNames r₂ cells
    have h₂ : Quiet s₀ r₂.s := by
      simp only [r₂]
      split
      · exact h₁.runPut ..
      · exact h₁
    split
    · generalize packRow C.n C.m first C.x.cols _ cells = pk
      obtain ⟨pk, drops⟩ := pk
      dsimp -zeta only
      extract_lets +onlyGivenNames mb ma r₃
      have h₃ : Quiet s₀ r₃.s := (h₂.runReach ..).runReach ..
      generalize hd : r₃.dropRows C.by' [drops] = d
      have h₄ : Quiet s₀ d.1.s := hd ▸ h₃.runDropRows ..
      obtain ⟨r₄, ok⟩ := d
      dsimp only
      split
      · exact h₄
      · exact Quiet.runPut (Quiet.runObserved (Quiet.runPut (h₄.runConverts ..) ..) ..) ..
    · extract_lets +onlyGivenNames cells' r₃ done r₄ r₅
      have h₅ : Quiet s₀ r₅.s := Quiet.runObserved (Quiet.runPut (h₂.runConverts ..) ..) ..
      exact .runIte (h₅.runPut ..) h₅

theorem Quiet.runParts (h : Quiet s₀ r.s) (C : DmaCopy) (jp : Nat) (qs : List Nat) : Quiet s₀ (r.parts C jp qs).1.s := by
  unfold Run.parts
  refine foldl_holds (P := fun x : Run × List DmaPart => Quiet s₀ x.1.s) (fun x q hx => ?_) qs h
  have hw := hx.runWide
  dsimp only
  split
  · exact hw ..
  · exact (hw ..).runPlace ..

theorem Quiet.runStrip (h : Quiet s₀ r.s) (C : DmaCopy) (jp : Nat) (qs : List Nat) : Quiet s₀ (r.strip C jp qs).s := by
  unfold Run.strip
  generalize hg : r.parts C jp qs = g
  have hp : Quiet s₀ g.1.s := hg ▸ h.runParts C jp qs
  obtain ⟨r₁, ps⟩ := g
  dsimp -zeta only
  split
  · exact foldl_holds (P := fun r : Run => Quiet s₀ r.s) (fun _ _ hx => hx.runElemPart ..) _ hp
  · extract_lets
    refine foldl_holds (P := fun r : Run => Quiet s₀ r.s) (fun _ _ hx => ?_) _ hp
    exact hx.runPlanePart ..

theorem Quiet.runWriteSums (h : Quiet s₀ r.s) (C : DmaCopy) : Quiet s₀ (r.writeSums C).s := by
  unfold Run.writeSums
  extract_lets +onlyGivenNames r₁
  have h₁ : Quiet s₀ r₁.s := by
    simp only [r₁]
    split
    · exact foldl_holds (P := fun r : Run => Quiet s₀ r.s) (fun _ _ hx => hx.runPut ..) _ h
    · exact h
  split
  · exact foldl_holds (P := fun r : Run => Quiet s₀ r.s) (fun _ _ hx => hx.runPut ..) _ h₁
  · exact h₁

theorem Quiet.runWriteOrdinal (h : Quiet s₀ r.s) (C : DmaCopy) (n : Nat) (c : Cell) (index : Nat) : Quiet s₀ (r.writeOrdinal C n c index).s := by
  unfold Run.writeOrdinal
  extract_lets +onlyGivenNames b r₁ r₂
  have h₁ : Quiet s₀ r₁.s := foldl_holds (P := fun r : Run => Quiet s₀ r.s) (fun _ _ hx => hx.runPut ..) _ h
  have h₂ : Quiet s₀ r₂.s := by
    simp only [r₂]
    exact .runIte h₁ (h₁.runObserved ..)
  exact h₂.runPut ..

theorem Quiet.runCrowStore (h : Quiet s₀ r.s) (C : DmaCopy) (i ord : Nat) (els : List (Nat × Option SrcEl)) :
    Quiet s₀ (r.crowStore C i ord els).1.s := by
  unfold Run.crowStore
  extract_lets +onlyGivenNames c eb pa r₁
  generalize hg : (if c.sfmt = 0 then _ else _ : Run × SEnt × Option (List Byte)) = g
  have h₂ : Quiet s₀ g.1.s := by
    rw [← hg]
    split
    · exact Quiet.runReach h ..
    · exact Quiet.runGet (r := r₁) h ..
  obtain ⟨r₂, e, new⟩ := g
  dsimp -zeta only
  extract_lets +onlyGivenNames cells kept r₃ r₄ r₅
  split
  · exact h₂.runSkewed ..
  split
  · exact h₂
  · have h₃ : Quiet s₀ r₃.s := by
      simp only [r₃]
      split
      · exact h₂.runPut ..
      · exact h₂
    exact Quiet.runPut (r := r₅)
      (foldl_holds (P := fun r : Run => Quiet s₀ r.s) (fun _ _ hx => hx.runWriteOrdinal ..) _ (Quiet.runConverts h₃ ..)) ..

theorem Quiet.runCrow (h : Quiet s₀ r.s) (C : DmaCopy) : Quiet s₀ (r.crow C).s := by
  unfold Run.crow
  refine foldl_holds (P := fun x : Run × Nat => Quiet s₀ x.1.s) (fun x g hx => ?_) _ (h.runGet ..)
  refine foldl_holds (P := fun x : Run × Nat => Quiet s₀ x.1.s) (fun x row hy => hy.runCrowStore ..) _ ?_
  refine foldl_holds (P := fun x : Run × List (Nat × Chunk) => Quiet s₀ x.1.s) (fun x j hy => ?_) _ hx
  obtain ⟨x, acc⟩ := x
  dsimp -zeta only
  generalize hg : Run.chunk x _ _ _ _ _ = g
  have hc : Quiet s₀ g.1.s := by
    rw [← hg]
    exact hy.runChunk ..
  exact .runIte (hc.runSkewed ..) hc

/-- Every state that a copy ends in. -/
def DmaAnswer.All (R : State → Prop) : DmaAnswer → Prop
  | .refuse _ => True
  | .empty t | .ran t _ _ => R t

theorem Quiet.dmaCopy (h : Quiet s₀ s) (y : DmaBy) (desc : BitVec 512) (d : DmaDesc) : (s.dmaCopy y desc d).All (Quiet s₀) := by
  unfold State.dmaCopy
  extract_lets k t r
  split
  · trivial
  split
  · exact h
  · exact h
  · extract_lets
    generalize (if d.comp = 2 then _ else _ : Nat × Nat) = nm
    obtain ⟨n, m⟩ := nm
    dsimp -zeta only
    split
    · trivial
    · extract_lets C C' r'
      have ht : Quiet s₀ r.s := h.tileHeads ..
      have hr : Quiet s₀ r'.s := by
        simp only [r']
        split
        · exact ht.runCrow ..
        · refine Quiet.runWriteSums ?_ ..
          refine foldl_holds (P := fun r : Run => Quiet s₀ r.s) (fun r qs hx => ?_) _ ht
          exact foldl_holds (P := fun r : Run => Quiet s₀ r.s) (fun r jp hy => hy.runStrip ..) _ hx
      split
      · exact h
      split
      · trivial
      · exact hr

theorem Quiet.struck (h : Quiet s₀ s) (p : Option Nat) (e : MemErr) : Quiet s₀ (match p with
    | some p => s.strike p e
    | none => s) := by
  split
  · exact h.strike ..
  · exact h

end Quiet

section Issue
variable {s : State}

theorem mended_all {r : Issued} (h : r.All (Quiet s)) (p : Option Nat) (e : MemErr) : (r.mended p e).All (Quiet s) := by
  cases p with
  | none => cases r <;> exact h
  | some p =>
    cases r with
    | go t => exact Quiet.mend h ..
    | jump t pc => exact h
    | hold => trivial
    | refuse f => trivial

/-- An instruction ends with the fault that stopped it. -/
theorem Quiet.stopped {s₀ : State} (h : Quiet s₀ s) (k c : Nat) (b : Option (Nat × Nat)) (stop : Option FaultCode) : Quiet s₀ (match stop with
    | some f => (s.faultAt k c b f).faultLast k
    | none => s) := by
  split
  · exact (h.faultAt ..).faultLast k
  · exact h

theorem dmaCopyIssue_quiet (k c : Nat) (w : W64) (mem : MemErr) : (dmaCopyIssue k c w mem s).All (Quiet s) := by
  unfold dmaCopyIssue
  extract_lets +onlyGivenNames x va t
  split
  · trivial
  · have ht : Quiet s t := (Quiet.refl s).struck ..
    split
    · exact Quiet.faultLast (Quiet.faultAt (ht.launch ..) ..) k
    · extract_lets +onlyGivenNames d
      have hc := ht.dmaCopy { k := k, ctx := c, bind := x.bind, targets := s.dmaTargets k d.mcg } (BitVec.ofNat 512 ‹Nat›) d
      split
      · trivial
      · rename_i he
        rw [he] at hc
        exact Quiet.launch hc ..
      · rename_i he
        rw [he] at hc
        extract_lets +onlyGivenNames u u'
        have hu : Quiet s u := Quiet.launch (Quiet.touchAt hc ..) ..
        have hu' : Quiet s u' := by
          simp only [u']
          split
          · exact hu.faultLast k
          · exact hu
        exact hu'.stopped ..

theorem dmaLinIssue_quiet (k c : Nat) (w : W64) (mem : MemErr) : (dmaLinIssue k c w mem s).All (Quiet s) := by
  unfold dmaLinIssue
  extract_lets +onlyGivenNames x n a b g objs t stop len y
  split
  · trivial
  · have ht : Quiet s t := (Quiet.refl s).struck ..
    have hg := Quiet.runGet (r := { s := t }) ht y a len
    have hl := fun bs j => (hg.runPut y b bs).launch k c .dma 0 objs [] j
    dsimp only
    cases stop with
    | some f => exact Quiet.faultLast (Quiet.faultAt (hl _ _) ..) k
    | none => exact hl _ _

theorem dmaListIssue_quiet (k c : Nat) (w : W64) : (dmaListIssue k c w s).All (Quiet s) := by
  have h := Quiet.refl s
  unfold dmaListIssue
  extract_lets
  split
  · trivial
  split
  · exact Quiet.faultLast (Quiet.faultAt (h.launch ..) ..) k
  · exact Quiet.launch (h.touchAt ..) ..

end Issue

section Quiet
variable {s₀ s : State}

theorem Quiet.listCopy (h : Quiet s₀ s) (k : Nat) (o : InFlight) (j : ListJob) : Quiet s₀ (s.listCopy k o j).1 := by
  unfold State.listCopy
  extract_lets +onlyGivenNames a
  split
  · exact h
  · split
    · exact h
    · extract_lets +onlyGivenNames v v₁ v₂
      have hc := (h.touchAt k a 16).dmaCopy { k := k, ctx := o.ctx, bind := o.bind, targets := j.targets } (BitVec.ofNat 512 v₂) (readDma v₂ 0)
      split
      · exact h
      · rename_i he
        rw [he] at hc
        exact hc
      · rename_i he
        rw [he] at hc
        exact hc

theorem Quiet.listEntry (h : Quiet s₀ s) (k : Nat) (o : InFlight) (j : ListJob) (mem : MemErr) : Quiet s₀ (s.listEntry k o j mem) := by
  unfold State.listEntry
  extract_lets +onlyGivenNames t
  have ht : Quiet s₀ t := h.struck ..
  generalize hl : t.listCopy k o j = q
  have hq : Quiet s₀ q.1 := hl ▸ ht.listCopy ..
  obtain ⟨u, stop, skew⟩ := q
  dsimp -zeta only
  extract_lets +onlyGivenNames u₁
  have hu : Quiet s₀ u₁ := Quiet.modOp hq ..
  refine Quiet.startFarOf ?_ ..
  split
  · exact hu.faultAt ..
  · exact hu

theorem execDmaListEntry_quiet (k id : Nat) (mem : MemErr) : Answers (Quiet s) (execDmaListEntry k id mem s) := by
  have h := Quiet.refl s
  unfold execDmaListEntry
  split
  · split
    · split
      · exact .next h
      · exact mended_quiet (.next (h.listEntry ..))
    · exact .next h
  · exact .next h

end Quiet
end Sys2Proof.Machine
end

section
/-! PROOFS. The commands of the rings: what a ring command answers, and those of memory, sessions, requests and Winnow. -/

-- One proof at a time: in parallel the many `unfold`s wait for each other, with a thread for each that waits.
set_option Elab.async false

namespace Sys2Proof.Machine
/-! ### Commands of the rings -/

/-- A relation from `s` that quiet steps keep: `Quiet s` and `Sound s` are such. -/
structure Stable (s : State) (R : State → Prop) : Prop where
  of : ∀ {t}, Quiet s t → R t
  step : ∀ {t u}, R t → Quiet t u → R u

theorem stable_quiet (s : State) : Stable s (Quiet s) := ⟨id, Quiet.trans⟩
theorem stable_sound (s : State) : Stable s (Sound s) := ⟨Quiet.sound, fun h g => h.trans g.sound⟩

section Quiet
variable {s₀ s : State}

/-- Husk's registers replaced, but for those of the lifecycle and the debug level. -/
theorem Quiet.editHusk (h : Quiet s₀ s) {x : Husk} (hd : x.diag = s.husk.diag := by rfl) (hb : x.debug = s.husk.debug := by rfl) :
    Quiet s₀ { s with husk := x } :=
  ⟨by rw [← h.ruled]; simp only [State.ruled, hd, hb], h.wf⟩

theorem Quiet.editFlash (h : Quiet s₀ s) (f : Flash) : Quiet s₀ { s with flash := f } := h.same rfl
theorem Quiet.editQueues (h : Quiet s₀ s) (q : Sparse (List Nat)) : Quiet s₀ { s with queues := q } := h.same rfl
theorem Quiet.countPart (h : Quiet s₀ s) (p off k : Nat) : Quiet s₀ (s.setPart p ((s.part p).count off k)) := h.editPart

theorem Quiet.takeCmd (h : Quiet s₀ s) (p : Nat) : Quiet s₀ (s.takeCmd p) := h.editPart
theorem Quiet.takeAdm (h : Quiet s₀ s) (n : Nat) : Quiet s₀ (s.takeAdm n) := h.setPort ..

theorem Quiet.takeRing (h : Quiet s₀ s) (r : RingName) : Quiet s₀ (s.takeRing r) := by
  cases r with
  | req p => exact h.editPart
  | cmd p => exact h.takeCmd p
  | adm n => exact h.takeAdm n

theorem Quiet.ringDone (h : Quiet s₀ s) (r : RingName) (o : Owed) (st : RecStatus) (f : FaultCode) (v : Nat) : Quiet s₀ (s.ringDone r o st f v) := by
  cases r with
  | req p => exact h.cmdDone ..
  | cmd p => exact h.cmdDone ..
  | adm n => exact h.admDone ..

theorem Quiet.owedDone (h : Quiet s₀ s) (w : OwedAt) (st : RecStatus) (f : FaultCode) : Quiet s₀ (s.owedDone w st f) := by
  cases w with
  | part p o => exact h.cmdDone ..
  | adm n o => exact h.admDone ..

theorem Quiet.authRefused (h : Quiet s₀ s) (n : Nat) (f : FaultCode) : Quiet s₀ (s.authRefused n f) := by
  unfold State.authRefused
  dsimp only
  split
  · exact Quiet.event h.editHusk ..
  · exact Quiet.event (h.setSlot ..) ..

theorem Quiet.verify {t : State} (h : Quiet s₀ s) {r : RingName} {e : Entry} (hv : s.verify r e = .ok t) : Quiet s₀ t := by
  obtain ⟨-, -, -, rfl⟩ := verify_inv hv
  exact h.same rfl

end Quiet

section Rings
variable {s : State}

theorem unlistedEntry_quiet (r : RingName) (e : Entry) : Answers (Quiet s) (unlistedEntry r e s) := by
  have h := Quiet.refl s
  cases r <;> unfold unlistedEntry
  case req p =>
    dsimp only
    split
    · exact .next (Quiet.cmdDone h.editPart ..)
    · exact .next h
  case cmd p =>
    dsimp only
    split
    · exact .next ((h.takeCmd p).cmdDone ..)
    · exact .next h
  case adm n =>
    dsimp only
    split
    · exact .next ((h.takeAdm n).admDone ..)
    · exact .next h

/-- A command of a partition's ring ends as its effect does. -/
theorem partCmd_answers {R : State → Prop} (hR : Stable s R) {f : Owed → State → CmdRes} (hf : ∀ o t, Quiet s t → (f o t).All R) (p code : Nat)
    (e : Entry) (body : List (Nat × Nat × Nat)) : Answers R (partCmd p code e body s f) := by
  have ht := (Quiet.refl s).takeCmd p
  have hf := hf (s.cmdOwed p e) _ ht
  unfold partCmd
  split
  · exact (unlistedEntry_quiet ..).mono fun _ => hR.of
  split
  · dsimp only
    split
    · exact .next (hR.of (ht.cmdDone ..))
    generalize f (s.cmdOwed p e) (s.takeCmd p) = r at hf
    cases r with
    | done u v => exact .next (hR.step hf ((Quiet.refl u).cmdDone ..))
    | fail u c => exact .next (hR.step hf ((Quiet.refl u).cmdDone ..))
    | owes u => exact .next hf
    | hold => exact .next (hR.of (.refl s))
  · exact .next (hR.of (.refl s))

theorem runCrit_answers {R : State → Prop} (hR : Stable s R) {t : State} (ht : Quiet s t) {f : Owed → State → CmdRes}
    (hf : ∀ o t, Quiet s t → (f o t).All R) (r : RingName) (e : Entry) (body : List (Nat × Nat × Nat)) (o : Owed) :
    Answers R (runCrit r e body o t f) := by
  have hf := hf o t ht
  unfold runCrit
  split
  · exact .next (hR.of (ht.ringDone ..))
  generalize f o t = r at hf
  cases r with
  | done u v => exact .next (hR.step hf ((Quiet.refl u).ringDone ..))
  | fail u c => exact .next (hR.step hf ((Quiet.refl u).ringDone ..))
  | owes u => exact .next hf
  | hold => exact .next (hR.of ht)

/-- A critical command ends as its effect does, whatever Husk answers. -/
theorem critCmd_answers {R : State → Prop} (hR : Stable s R) {f : Owed → State → CmdRes} (hf : ∀ o t, Quiet s t → (f o t).All R) (r : RingName)
    (code : Nat) (e : Entry) (body : List (Nat × Nat × Nat)) : Answers R (critCmd r code e body s f) := by
  have h := Quiet.refl s
  unfold critCmd
  split
  · exact (unlistedEntry_quiet ..).mono fun _ => hR.of
  split
  · exact .next (hR.of h)
  dsimp only
  split
  · split
    · exact runCrit_answers hR (Quiet.takeRing h.editHusk r) hf ..
    · exact .next (hR.of h)
  split
  · exact .next (hR.of ((h.takeRing r).ringDone ..))
  split
  · exact .next (hR.of h.editHusk)
  split
  · exact .next (hR.of (((h.authRefused ..).takeRing r).ringDone ..))
  · exact runCrit_answers hR ((h.verify ‹_›).takeRing r) hf ..

/-- A command of a partition's ring whose effect is quiet. -/
theorem partCmd_quiet {f : Owed → State → CmdRes} (hf : ∀ o t, Quiet s t → (f o t).All (Quiet s)) (p code : Nat) (e : Entry)
    (body : List (Nat × Nat × Nat)) : Answers (Quiet s) (partCmd p code e body s f) := partCmd_answers (stable_quiet s) hf ..

/-- A critical command whose effect is quiet. -/
theorem critCmd_quiet {f : Owed → State → CmdRes} (hf : ∀ o t, Quiet s t → (f o t).All (Quiet s)) (r : RingName) (code : Nat) (e : Entry)
    (body : List (Nat × Nat × Nat)) : Answers (Quiet s) (critCmd r code e body s f) := critCmd_answers (stable_quiet s) hf ..

theorem execAuthDelayEnd_quiet (slot : Nat) : Answers (Quiet s) (execAuthDelayEnd slot s) := by
  have h := Quiet.refl s
  unfold execAuthDelayEnd
  split
  · exact .next h
  · dsimp only
    split
    · exact .next ((Quiet.takeRing (Quiet.authRefused h.editHusk ..) _).ringDone ..)
    · exact .next (h.verify ‹_›).editHusk

/-- The event vector is raised where a write put TAIL beyond its ring. -/
theorem Quiet.raised {s₀ : State} (h : Quiet s₀ s) (c : Bool) (n v : Nat) : Quiet s₀ (if c then s.interrupt n v else s) := by
  split
  · exact h.interrupt ..
  · exact h

theorem execRingTailWrite_quiet (port : Nat) (r : RingName) (v : W32) : Answers (Quiet s) (execRingTailWrite port r v s) := by
  have h := Quiet.refl s
  cases r <;> unfold execRingTailWrite
  case req p =>
    dsimp only
    split
    · exact .next (Quiet.raised h.editPart ..)
    · exact .next h
  case cmd p =>
    dsimp only
    split
    · exact .next (Quiet.raised h.editPart ..)
    · exact .next h
  case adm n =>
    dsimp only
    split
    · exact .next (Quiet.raised (h.setPort ..) ..)
    · exact .next h

theorem execRingFetchFail_quiet (r : RingName) : Answers (Quiet s) (execRingFetchFail r s) := by
  have h := Quiet.refl s
  cases r <;> unfold execRingFetchFail
  case req p =>
    dsimp only
    split
    · exact .next (Quiet.interrupt h.editPart ..)
    · exact .next h
  case cmd p =>
    dsimp only
    split
    · exact .next (Quiet.interrupt h.editPart ..)
    · exact .next h
  case adm n =>
    dsimp only
    split
    · exact .next ((h.setPort ..).interrupt ..)
    · exact .next h

theorem execIrqModExpiry_quiet (p : Nat) : Answers (Quiet s) (execIrqModExpiry p s) := by
  have h := Quiet.refl s
  unfold execIrqModExpiry
  dsimp only
  split
  · exact .next (Quiet.interrupt h.editPart ..)
  · exact .next h

end Rings

/-! ### Pages, sessions, requests and moves -/

section Quiet
variable {s₀ s : State}

theorem Quiet.unitMapped {t : State} (h : Quiet s₀ s) {p base : Nat} {sub : Bool} {die : Nat} (e : s.mapUnit p base sub die = some t) : Quiet s₀ t := by
  unfold State.mapUnit at e
  obtain ⟨⟨ti, d, n⟩, -, rfl⟩ := Option.map_eq_some_iff.mp e
  have hm := fun u sz => h.setMem (p := p) (m := { s.mem p with units := u, bytes := sclear (s.mem p).bytes base sz }) ((h.bytes p).sclear base sz)
  dsimp only
  split
  · exact Quiet.startOwn (Quiet.editPart (hm _ _)) ..
  · exact hm _ _

theorem Quiet.pagesMapped {t : State} (p : Nat) (l : List Nat) {q : Option State} (h : ∀ u ∈ q, Quiet s₀ u)
    (e : l.foldl (fun u a => u.bind fun u => u.mapUnit p a false 0) q = some t) : Quiet s₀ t := by
  induction l generalizing q with
  | nil => exact h t e
  | cons a l ih =>
    refine ih (fun u hu => ?_) e
    obtain ⟨v, hv, he⟩ := Option.bind_eq_some_iff.mp hu
    exact (h v hv).unitMapped he

theorem Canonical.drop {s₀ : State} {m : Mem} (h : Canonical s₀ m.bytes) (base : Nat) (u : PUnit) : Canonical s₀ (m.drop base u).bytes := h.sclear ..

theorem Canonical.fill {s₀ : State} {m : Mem} (h : Canonical s₀ m.bytes) (va : Nat) (bs : List Byte) : Canonical s₀ (m.fill va bs).bytes := h.writeBytes ..
theorem Canonical.store {s₀ : State} {m : Mem} (h : Canonical s₀ m.bytes) (va : Nat) (bs : List Byte) : Canonical s₀ (m.store va bs).bytes :=
  h.writeBytes ..

theorem execMemMap_quiet (p : Nat) (e : Entry) : Answers (Quiet s) (execMemMap p e s) := by
  refine partCmd_quiet (fun _ t ht => ?_) ..
  dsimp only
  split
  · exact ht
  split
  · exact ht
  split
  · exact Quiet.pagesMapped p _ (q := some t) (by simpa using ht) ‹_›
  · exact ht

theorem execMemUnmap_quiet (p : Nat) (e : Entry) : Answers (Quiet s) (execMemUnmap p e s) := by
  refine partCmd_quiet (fun _ t ht => ?_) ..
  dsimp only
  split
  · exact ht
  · exact ht.setMem (foldl_holds (P := fun m : Mem => Canonical s m.bytes) (fun _ _ hm => hm.drop ..) _ (ht.bytes p))

theorem execKvArena_quiet (p : Nat) (e : Entry) : Answers (Quiet s) (execKvArena p e s) := by
  refine partCmd_quiet (fun _ t ht => ?_) ..
  dsimp only
  split
  · exact ht
  · exact ht.editPart

theorem execSessOpen_quiet (p : Nat) (e : Entry) : Answers (Quiet s) (execSessOpen p e s) := by
  refine partCmd_quiet (fun _ t ht => ?_) ..
  dsimp only
  split
  · exact ht
  split
  · exact ht
  · exact Quiet.setSess (ht.setMem ((ht.bytes p).sclear ..)) ..

theorem Quiet.clearEntries (h : Quiet s₀ s) (p : Nat) (x : Sess) (hs : List HeldSub) : Quiet s₀ (s.clearEntries p x hs) := by
  refine .foldl (fun t a ht => ?_) _ h
  dsimp only
  split
  · exact ht.setMem ((ht.bytes p).fill ..)
  · exact ht

theorem Quiet.freeSubs (h : Quiet s₀ s) (p : Nat) (vas : List Nat) : Quiet s₀ (s.freeSubs p vas) := by
  refine .foldl (fun t a ht => ?_) _ h
  dsimp only
  split
  · exact Quiet.countPart (ht.setMem ((ht.bytes p).drop ..)) ..
  · exact ht

theorem Quiet.flushSess (h : Quiet s₀ s) (n : Nat) : Quiet s₀ (s.flushSess n) := by
  unfold State.flushSess
  dsimp only
  split
  · exact (h.setSess ..).freeSubs ..
  · exact h

theorem Quiet.sessFree (h : Quiet s₀ s) (n : Nat) : Quiet s₀ (s.sessFree n) := by
  have hc := h.mapCores (f := fun e => (e.1, { e.2 with ops := e.2.ops.map fun (o : InFlight) => o.loseSess n })) fun _ => rfl
  exact hc.setSess ..

theorem Quiet.releaseSess (h : Quiet s₀ s) (n : Nat) : Quiet s₀ (s.releaseSess n) :=
  Quiet.sessFree (.foldl (fun _ _ ht => ht.cmdDone ..) _ ((h.clearEntries ..).freeSubs ..)) n

theorem execSessClose_quiet (p : Nat) (e : Entry) : Answers (Quiet s) (execSessClose p e s) := by
  refine partCmd_quiet (fun o t ht => ?_) ..
  extract_lets n
  split
  · exact ht
  split
  · exact ht.setSess ..
  · extract_lets u v w
    have hw : Quiet s w := .foldl (fun _ r hu => hu.endItems ..) _ ((ht.clearEntries ..).setSess ..)
    show Quiet s (ite ..)
    split
    · exact hw.releaseSess n
    · exact hw

theorem execSessionRelease_quiet (n : Nat) : Answers (Quiet s) (execSessionRelease n s) := by
  have h := Quiet.refl s
  unfold execSessionRelease
  dsimp only
  split
  · exact .next h
  split
  · exact .next (h.releaseSess n)
  · exact .next (h.flushSess n)

theorem execSessTrim_quiet (p : Nat) (e : Entry) : Answers (Quiet s) (execSessTrim p e s) := by
  refine partCmd_quiet (fun o t ht => ?_) ..
  dsimp only
  split
  · exact ht
  split
  · exact ht
  · exact Quiet.flushSess ((ht.clearEntries ..).setSess ..) _

theorem execSessQuery_quiet (p : Nat) (e : Entry) (hostOk : Bool) : Answers (Quiet s) (execSessQuery p e hostOk s) := by
  refine partCmd_quiet (fun o t ht => ?_) ..
  dsimp only
  split
  · exact ht
  split
  · exact ht
  split
  · exact ht.setHostMem ((ht.hostMemOf _).writeBytes ..)
  · exact ht

theorem Quiet.enqueue (h : Quiet s₀ s) (r : Nat) (q : Request) : Quiet s₀ (s.enqueue r q) := by
  unfold State.enqueue
  extract_lets g t u
  have hu : Quiet s₀ u := h.same rfl
  split
  · exact hu.setSess ..
  · exact hu

theorem execReq_quiet (p : Nat) (e : Entry) : Answers (Quiet s) (execReq p e s) := by
  have h := Quiet.refl s
  unfold execReq
  extract_lets +onlyGivenNames b
  split
  · exact unlistedEntry_quiet ..
  split
  · extract_lets +onlyGivenNames t
    have ht : Quiet s t := h.editPart
    split
    · exact .next (ht.postPart ..)
    split
    · exact .next h
    · extract_lets +onlyGivenNames n sess q u
      have hu : Quiet s u := ht.same rfl
      extract_lets known drop
      have hd : ∀ f, Quiet s (drop f) := fun f => Quiet.endItems (hu.setRequest ..) ..
      split
      · exact .next (hu.postPart ..)
      split
      · exact .next (hd _)
      split
      · exact .next (hd _)
      · exact .next (Quiet.enqueue (Quiet.startFarOwn (hu.setMem ((hu.bytes p).store ..)) p) ..)
  · exact .next h

theorem execCancel_quiet (p : Nat) (e : Entry) : Answers (Quiet s) (execCancel p e s) := by
  refine partCmd_quiet (fun o t ht => ?_) ..
  refine .foldl (fun u r hu => ?_) _ ht
  dsimp only
  split
  · exact Quiet.endItems (hu.editQueues _) ..
  · exact hu.endItems ..

theorem execWinnowEpoch_quiet : Answers (Quiet s) (execWinnowEpoch s) := by
  have h := Quiet.refl s
  refine .next (h.withParts fun e he => ?_)
  obtain ⟨x, hx, rfl⟩ := List.mem_map.mp he
  dsimp only
  split
  · exact h.part_mem hx
  · exact h.part_mem hx

theorem Quiet.beginMove (h : Quiet s₀ s) (p va : Nat) (u : PUnit) (die frame : Nat) (put : Bool) : Quiet s₀ (s.beginMove p va u die frame put) := by
  unfold State.beginMove
  extract_lets t job
  have ht : Quiet s₀ t := by
    simp only [t]
    split
    · exact h.setImport ..
    · exact h
  exact Quiet.startOwn ht.editMem ..

@[simp] theorem PartBlock.count_mem (b : PartBlock) (off k : Nat) : (b.count off k).mem = b.mem := rfl
@[simp] theorem PartBlock.count_sec (b : PartBlock) (off k : Nat) : (b.count off k).sec = b.sec := rfl

theorem execUnitMoveDone_quiet (p va : Nat) (tier : Tier) (die frame : Nat) : Answers (Quiet s) (execUnitMoveDone p va tier die frame s) := by
  have h := Quiet.refl s
  unfold execUnitMoveDone
  extract_lets +onlyGivenNames b
  split
  · exact .next h
  split
  · exact .next h
  split
  · exact .next (h.beginMove ..)
  · extract_lets b₁ b₂ b₃ b₄ t
    have ht : Quiet s t := by
      simp only [t]
      split
      · exact h.setImport ..
      · exact h
    have hk : ∀ {c : Prop} [Decidable c] (x y : PartBlock), x.mem = y.mem → x.sec = y.sec → (if c then x else y).mem = y.mem ∧ (if c then x else y).sec = y.sec := by
      intro c _ x y hm hs
      split
      · exact ⟨hm, hs⟩
      · exact ⟨rfl, rfl⟩
    have hb : b₄.mem.bytes = b.mem.bytes ∧ b₄.sec.store = b.sec.store := by
      simp only [b₄, b₃, b₂, b₁]
      constructor <;> split_ifs <;> rfl
    obtain ⟨hm, hsec⟩ := hb
    exact .next (ht.setPart (hm ▸ h.bytes p) (hsec ▸ h.store p))

end Quiet
end Sys2Proof.Machine
end

section
/-! PROOFS. Windows, packets, links and the fabric are quiet. -/

-- One proof at a time: in parallel the many `unfold`s wait for each other, with a thread for each that waits.
set_option Elab.async false

namespace Sys2Proof.Machine
/-! ### Windows, packets and the fabric -/

section Quiet
variable {s₀ s : State}

theorem Quiet.setWin (h : Quiet s₀ s) (w : Nat) (x : Window) : Quiet s₀ (s.setWin w x) := h.editFabric
theorem Quiet.openWin (h : Quiet s₀ s) (w : Nat) (x : Window) : Quiet s₀ (s.openWin w x) := h.setWin ..

theorem execWinGrant_quiet (p : Nat) (e : Entry) : Answers (Quiet s) (execWinGrant p e s) := by
  refine critCmd_quiet (fun o t ht => ?_) ..
  dsimp only
  split
  · exact ht
  · exact ht.openWin ..

theorem execSpillWinGrant_quiet (n : Nat) (e : Entry) (backed : Bool) : Answers (Quiet s) (execSpillWinGrant n e backed s) := by
  refine critCmd_quiet (fun o t ht => ?_) ..
  dsimp only
  split
  · exact ht
  split
  · exact ht
  · have hw := ht.openWin (readGrant e).1 (readGrant e).2
    exact hw.withFabric rfl rfl (hw.spill.sclear ..)

theorem execWinClose_quiet (p : Nat) (e : Entry) : Answers (Quiet s) (execWinClose p e s) := by
  refine critCmd_quiet (fun o t ht => ?_) ..
  dsimp only
  split
  · exact ht
  · exact ht.setWin ..

theorem execSpillWinClose_quiet (n : Nat) (e : Entry) (room : Bool) : Answers (Quiet s) (execSpillWinClose n e room s) := by
  refine critCmd_quiet (fun o t ht => ?_) ..
  dsimp only
  split
  · exact ht
  split
  · exact ht
  · exact ht.setWin ..

theorem Quiet.closeOwed (h : Quiet s₀ s) (w : Nat) : Quiet s₀ (s.closeOwed w) := by
  unfold State.closeOwed
  dsimp only
  split
  · exact (h.setWin ..).owedDone ..
  · exact h

theorem execWindowClosed_quiet (w : Nat) : Answers (Quiet s) (execWindowClosed w s) := by
  have h := Quiet.refl s
  unfold execWindowClosed
  dsimp only
  split
  · exact .next ((h.setWin ..).closeOwed w)
  · exact .next h

theorem execSpillRecallDone_quiet (w : Nat) : Answers (Quiet s) (execSpillRecallDone w s) := by
  have h := Quiet.refl s
  unfold execSpillRecallDone
  dsimp only
  split
  · exact .next (h.setWin ..)
  · exact .next h

theorem freeWin_quiet {t : State} (ht : Quiet s t) (owner : Nat) (e : Entry) : (freeWin owner e t).All (Quiet s) := by
  unfold freeWin
  dsimp only
  split
  · exact ht
  · exact ht.setWin ..

theorem execWinFree_quiet (p : Nat) (e : Entry) : Answers (Quiet s) (execWinFree p e s) := critCmd_quiet (fun _ _ ht => freeWin_quiet ht ..) ..
theorem execSpillWinFree_quiet (n : Nat) (e : Entry) : Answers (Quiet s) (execSpillWinFree n e s) := critCmd_quiet (fun _ _ ht => freeWin_quiet ht ..) ..

theorem execWinImport_quiet (p : Nat) (e : Entry) : Answers (Quiet s) (execWinImport p e s) := by
  refine partCmd_quiet (fun o t ht => ?_) ..
  dsimp only
  split
  · exact ht
  · exact ht.editPart

theorem execWinForget_quiet (p : Nat) (e : Entry) : Answers (Quiet s) (execWinForget p e s) := by
  refine partCmd_quiet (fun o t ht => ?_) ..
  exact ht.editPart

theorem execRouteLoad_quiet (n : Nat) (e : Entry) (hostOk : Bool) : Answers (Quiet s) (execRouteLoad n e hostOk s) := by
  refine critCmd_quiet (fun o t ht => ?_) ..
  extract_lets a bs
  split
  · exact ht
  split
  · exact ht
  split
  · exact ht
  · exact ht.editFabric

theorem execCxlWin_quiet (p : Nat) (e : Entry) : Answers (Quiet s) (execCxlWin p e s) := by
  refine partCmd_quiet (fun o t ht => ?_) ..
  dsimp only
  split
  · exact ht.setPort ..
  split
  · exact ht
  · exact ht.setPort ..

theorem execCxlMemAccess_quiet (n : Nat) (write : Bool) (off len : Nat) (data : List Byte) :
    Answers (Quiet s) (execCxlMemAccess n write off len data s) := by
  have h := Quiet.refl s
  unfold execCxlMemAccess
  split
  · exact .next h
  split
  · refine .next ?_
    split
    · exact h
    · exact h.emit ..
  · dsimp only
    split
    · split
      · exact .next (Quiet.startFarOwn (h.setMem ((h.bytes _).store ..)) _)
      · exact .next (h.countPart ..)
    · refine .next (Quiet.emit ?_ _)
      split
      · exact Quiet.startFarOwn h.editMem _
      · exact h

theorem Quiet.parkAll (h : Quiet s₀ s) (n key : Nat) (l : List (Nat × Packet)) : Quiet s₀ (s.parkAll n key l) := by
  induction l generalizing s with
  | nil => exact h
  | cons e l ih =>
    rw [State.parkAll]
    split
    · exact ih (Quiet.fabCount h.editFabric ..)
    · exact h

theorem Quiet.keepWaiting (h : Quiet s₀ s) (n d : Nat) (q : Packet) : Quiet s₀ (s.keepWaiting n d q) := by
  unfold State.keepWaiting
  extract_lets key _ t
  have ht : Quiet s₀ t := h.editFabric
  split
  · exact ht.parkAll ..
  · exact ht

theorem execPacketForward_quiet (n : Nat) (p : Packet) (busy : Bool) : Answers (Quiet s) (execPacketForward n p busy s) := by
  unfold execPacketForward
  extract_lets +onlyGivenNames _ t
  have ht : Quiet s t := (Quiet.refl s).editFabric
  split
  · exact .next (ht.fabCount ..)
  extract_lets +onlyGivenNames refuse
  have hr : Quiet s refuse := by
    simp only [refuse]
    split
    · exact ht.nackTo ..
    · exact ht.fabCount ..
  split
  · exact .next ht
  · exact .next hr
  · split
    · exact .next hr
    · refine .next ?_
      split
      · exact ht.keepWaiting ..
      · exact ht.sendVia ..

theorem Quiet.takeWaiting (h : Quiet s₀ s) {key i : Nat} {e : Packet × State} (he : s.takeWaiting key i = some e) : Quiet s₀ e.2 := by
  unfold State.takeWaiting at he
  dsimp only at he
  split at he
  · obtain ⟨_, -, rfl⟩ := Option.map_eq_some_iff.mp he
    exact h.editFabric
  split at he
  · split at he
    · cases he
    · cases he; exact h.editFabric
  · split at he
    · cases he
    · cases he; exact h.editFabric

theorem Quiet.serveNext (h : Quiet s₀ s) {key : Nat} {e : Packet × State} (he : s.serveNext key = some e) : Quiet s₀ e.2 := by
  obtain ⟨j, -, hj⟩ := List.exists_of_findSome?_eq_some he
  obtain ⟨x, hx, rfl⟩ := Option.map_eq_some_iff.mp hj
  exact Quiet.editFabric (h.takeWaiting hx)

theorem execParkRelease_quiet (dir vc : Nat) : Answers (Quiet s) (execParkRelease dir vc s) := by
  have h := Quiet.refl s
  unfold execParkRelease
  split
  · exact .next h
  · split
    · exact .next h
    · exact .next (Quiet.sendVia (h.serveNext ‹_›) ..)

theorem Quiet.setVport (h : Quiet s₀ s) (n v : Nat) : Quiet s₀ (s.setVport n v) := h.editFabric
theorem Quiet.retrain (h : Quiet s₀ s) (n : Nat) : Quiet s₀ (s.retrain n) := ((h.setVport n 2).fabCount 0x108 1).same rfl

theorem execLinkCrcError_quiet (n : Nat) : Answers (Quiet s) (execLinkCrcError n s) := by
  have h := Quiet.refl s
  unfold execLinkCrcError
  split
  · exact .next h
  · extract_lets c _ set
    have hs : ∀ v, Quiet s (set v) := fun v => h.editFabric
    split
    · exact .next (((hs _).fabCount ..).emit _)
    · exact .next ((hs _).retrain n)

theorem execLinkRetrainEnd_quiet (n : Nat) (ok : Bool) : Answers (Quiet s) (execLinkRetrainEnd n ok s) := by
  have h := Quiet.refl s
  unfold execLinkRetrainEnd
  split
  · exact .next h
  · extract_lets c _ set
    have hs : ∀ v, Quiet s (set v) := fun v => h.editFabric
    split
    · exact .next ((hs _).setVport ..)
    split
    · exact .next ((hs _).retrain n)
    · exact .next (((hs _).setVport ..).event ..)

end Quiet

section Issue
variable {s : State}

theorem fabIssue_quiet (k c : Nat) (w : W64) (put : Bool) : (fabIssue k c w put s).All (Quiet s) := by
  have h := Quiet.refl s
  unfold fabIssue
  extract_lets
  split
  · trivial
  split
  · exact Quiet.faultLast (Quiet.faultAt (h.launch ..) ..) k
  · extract_lets
    split
    · trivial
    · exact Quiet.launch (h.touchAt ..) ..

end Issue

section Quiet
variable {s₀ s : State}

theorem Quiet.setTrans (h : Quiet s₀ s) (tag : Nat) (t : Trans) : Quiet s₀ (s.setTrans tag t) := h.editFabric
theorem Quiet.dropTrans (h : Quiet s₀ s) (tag : Nat) : Quiet s₀ (s.dropTrans tag) := h.editFabric
theorem Quiet.wakeOwn (h : Quiet s₀ s) : Quiet s₀ s.wakeOwn := .foldl (fun _ w ht => ht.startOwn w) _ h.editFabric

theorem Quiet.endMove (h : Quiet s₀ s) (t : Trans) : Quiet s₀ (s.endMove t) := by
  unfold State.endMove
  split
  · split
    · split
      · exact h.editMem
      · exact h
    · exact h
  · exact h

theorem Quiet.settleTrans (h : Quiet s₀ s) (tag : Nat) : Quiet s₀ (s.settleTrans tag) := by
  unfold State.settleTrans
  split
  · exact h
  split
  · exact (h.dropTrans tag).wakeOwn
  split
  · have hu := (h.dropTrans tag).wakeOwn
    dsimp only
    split
    · split
      · exact hu.complete ..
      · exact hu.modOp ..
    · exact hu.endMove ..
  · exact h

theorem Quiet.failTrans (h : Quiet s₀ s) (tag : Nat) (f : FaultCode) : Quiet s₀ (s.failTrans tag f) := by
  unfold State.failTrans
  split
  · exact h
  · refine Quiet.setTrans ?_ ..
    split
    · have ho := fun k o => h.opFault k o f
      dsimp only
      split
      · exact (ho ..).modOp ..
      · exact ho ..
    · exact h

theorem Quiet.endBurst (h : Quiet s₀ s) (tag b : Nat) : Quiet s₀ (s.endBurst tag b) := by
  unfold State.endBurst
  split
  · exact h
  · exact (h.setTrans ..).settleTrans tag

theorem Quiet.sendAll {t : State} (h : Quiet s₀ s) {ps : List (Hdr × List Byte)} (e : s.sendAll ps = some t) : Quiet s₀ t := by
  unfold State.sendAll at e
  have hall : ∀ {q : Option State}, (∀ u ∈ q, Quiet s₀ u) → ps.foldl (fun s p => s.bind fun s => s.inject p.1 p.2) q = some t → Quiet s₀ t := by
    clear e
    induction ps with
    | nil => exact fun hq e => hq t e
    | cons p ps ih =>
      intro q hq e
      refine ih (fun u hu => ?_) e
      obtain ⟨v, hv, he⟩ := Option.bind_eq_some_iff.mp hu
      exact (hq v hv).inject he
  exact hall (q := some s) (by simpa using h) e

theorem Quiet.fabTouch (h : Quiet s₀ s) (t : Trans) (j : FabJob) : Quiet s₀ (s.fabTouch t j) := by
  unfold State.fabTouch
  split
  · split
    · exact (h.touchAt ..).startFarOf ..
    · exact h
  · exact h

theorem execFabBurstSend_quiet (tag : Nat) : Answers (Quiet s) (execFabBurstSend tag s) := by
  have h := Quiet.refl s
  unfold execFabBurstSend
  split
  · exact .next h
  split
  · exact .next h
  split
  · exact .next h
  split
  · exact .next ((h.failTrans ..).settleTrans tag)
  · dsimp only
    split
    · exact .next (((h.failTrans ..).settleTrans tag).startProbes _)
    · exact .next (Quiet.setTrans (Quiet.sendAll (h.fabTouch ..) ‹_›) ..)

theorem receive_quiet {o : Host.Outcome State Fault Refusal} (ho : Answers (Quiet s) o) (cls : Nat) (p : Packet) : Answers (Quiet s) (receive cls p s o) := by
  have h := Quiet.refl s
  unfold receive
  split
  · exact .next (h.fabCount ..)
  split
  · exact ho
  · exact .next h

theorem Quiet.lateDrop (h : Quiet s₀ s) : Quiet s₀ s.lateDrop := h.fabCount ..

theorem Quiet.refuseReq (h : Quiet s₀ s) (p : Packet) (status : Nat) (w : Option Nat) : Quiet s₀ (s.refuseReq p status w) := by
  unfold State.refuseReq
  dsimp only
  split
  · exact ((h.nackTo ..).fabCount ..).event ..
  · exact h.nackTo ..

theorem Quiet.answerRead (h : Quiet s₀ s) (p : Packet) (x : Window) (n : Nat) : Quiet s₀ (s.answerRead p x n) := by
  unfold State.answerRead
  split
  · exact h.nackTo ..
  · exact .foldl (fun _ _ ht => ht.respond ..) _ h

theorem Quiet.setInBurst (h : Quiet s₀ s) (b : InBurst) : Quiet s₀ (s.setInBurst b) := h.editFabric

theorem Quiet.takeData (h : Quiet s₀ s) (t : Trans) (b : OutBurst) (j : FabJob) (p : Packet) : Quiet s₀ (s.takeData t b j p).1 := by
  unfold State.takeData
  split
  · split
    · exact h
    · exact Quiet.startFarOf (h.writeUpTo ..) ..
  · exact h

theorem execRdRsp_quiet (p : Packet) : Answers (Quiet s) (execRdRsp p s) := by
  have h := Quiet.refl s
  refine receive_quiet ?_ ..
  split
  · exact .next h.lateDrop
  extract_lets +onlyGivenNames n
  split
  · exact .next h.lateDrop
  · generalize hd : State.takeData s _ _ _ p = d
    have ht : Quiet s d.1 := by
      rw [← hd]
      exact h.takeData ..
    obtain ⟨t, fail⟩ := d
    dsimp -zeta only
    extract_lets b u v
    have hu : Quiet s u := Quiet.setTrans ht ..
    have hv : Quiet s v := by
      simp only [v]
      split
      · exact hu.failTrans ..
      · exact hu
    refine .next ?_
    split
    · exact hv
    · exact hv.endBurst ..

theorem execWrAck_quiet (p : Packet) : Answers (Quiet s) (execWrAck p s) := by
  have h := Quiet.refl s
  refine receive_quiet ?_ ..
  split
  · exact .next h.lateDrop
  split
  · exact .next (h.endBurst ..)
  · exact .next h.lateDrop

theorem execNack_quiet (p : Packet) : Answers (Quiet s) (execNack p s) := by
  have h := Quiet.refl s
  refine receive_quiet ?_ ..
  split
  · exact .next h.lateDrop
  · extract_lets t
    have ht : Quiet s t := (h.failTrans ..).endBurst ..
    refine .next ?_
    split
    · exact ht.spillRefused ..
    split
    · exact ht.startProbes _
    · exact ht

theorem execProbe_quiet (p : Packet) : Answers (Quiet s) (execProbe p s) := receive_quiet (.next ((Quiet.refl s).respond ..)) ..

theorem execProbeRsp_quiet (p : Packet) : Answers (Quiet s) (execProbeRsp p s) := by
  refine receive_quiet (.next (.foldl (fun _ _ ht => ht.admDone ..) _ ?_)) ..
  exact (Quiet.refl s).editFabric

theorem execFabRspTimeout_quiet (tag burst : Nat) : Answers (Quiet s) (execFabRspTimeout tag burst s) := by
  have h := Quiet.refl s
  unfold execFabRspTimeout
  split
  · exact .next h
  split
  · split
    · refine .next ?_
      split
      · exact ((h.failTrans ..).endBurst ..).startProbes _
      · exact (h.failTrans ..).endBurst ..
    · exact .next h
  · exact .next h

theorem Quiet.gapAtRequester (h : Quiet s₀ s) (tag burst : Nat) : Quiet s₀ (s.gapAtRequester tag burst) := by
  unfold State.gapAtRequester
  split
  · exact h
  split
  · split
    · exact h
    · dsimp only
      split
      · exact ((h.failTrans ..).setTrans ..).settleTrans tag
      · exact h.failTrans ..
  · exact h

theorem Quiet.commit (h : Quiet s₀ s) (b : InBurst) : Quiet s₀ (s.commit b) := by
  have hb := h.setInBurst b.ended
  unfold State.commit
  dsimp only
  split
  · exact hb.respond ..
  split
  · have hf := hb.withFabric (f := (s.setInBurst b.ended).fabric.spillStore b.first b.bytes) rfl rfl (hb.spill.writeBytes ..)
    exact hf.respond ..
  split
  · exact (Quiet.startFarOwn (hb.setMem ((hb.bytes _).store ..)) _).respond ..
  · exact (hb.fabCount ..).respond ..

theorem Quiet.commitReady (fuel : Nat) (h : Quiet s₀ s) (src tag : Nat) : Quiet s₀ (State.commitReady fuel s src tag) := by
  induction fuel generalizing s with
  | zero => exact h
  | succ fuel ih =>
    rw [State.commitReady]
    split
    · exact h
    · exact ih (h.commit _)

theorem Quiet.stage (h : Quiet s₀ s) (p : Packet) (b : InBurst) : Quiet s₀ (s.stage p b) := by
  unfold State.stage
  refine Quiet.commitReady _ ?_ ..
  split
  · exact (h.setInBurst ..).nackTo ..
  split
  · exact (h.setInBurst ..).nackTo ..
  · exact h.setInBurst ..

theorem Quiet.renewTag (h : Quiet s₀ s) (p : Packet) : Quiet s₀ (s.renewTag p) := by
  unfold State.renewTag
  dsimp only
  split
  · exact h.editFabric
  · exact h

theorem execWr_quiet (p : Packet) : Answers (Quiet s) (execWr p s) := by
  have h := (Quiet.refl s).renewTag p
  refine receive_quiet ?_ ..
  dsimp only
  split
  · split
    · exact .next h.lateDrop
    · exact .next (h.stage ..)
  · split
    · exact .next (Quiet.commitReady _ (Quiet.refuseReq h.editFabric ..) ..)
    · exact .next (Quiet.stage h.editFabric ..)

theorem execFabGapExpiry_quiet (owner : Bool) (src tag burst : Nat) : Answers (Quiet s) (execFabGapExpiry owner src tag burst s) := by
  have h := Quiet.refl s
  unfold execFabGapExpiry
  split
  · split
    · split
      · exact .next h
      · exact .next (Quiet.commitReady _ (((h.setInBurst _).fabCount ..).respond ..) ..)
    · exact .next h
  · exact .next (h.gapAtRequester ..)

theorem execTakeover_quiet (n : Nat) (e : Entry) : Answers (Quiet s) (execTakeover n e s) := by
  refine critCmd_quiet (fun o t ht => ?_) ..
  dsimp only
  split
  · exact ht
  split
  · exact ht
  · exact Quiet.injectOr ht.editFabric ht.editFabric ..

theorem Quiet.openKept (h : Quiet s₀ s) (mask : Nat) : Quiet s₀ (s.openKept mask).1 := by
  unfold State.openKept
  refine foldl_holds (P := fun x : State × Nat => Quiet s₀ x.1) (fun x p hx => ?_) _ h
  dsimp only
  split
  · exact .foldl (fun _ _ ht => ht.setWin ..) _ hx
  · exact hx

theorem execTakeoverProbeTimeout_quiet : Answers (Quiet s) (execTakeoverProbeTimeout s) := by
  have h := Quiet.refl s
  unfold execTakeoverProbeTimeout
  split
  · exact .next h
  · extract_lets +onlyGivenNames _ t
    have ht : Quiet s t := h.editFabric
    split
    · exact .next (ht.admDone ..)
    · exact .next (Quiet.admDone (Quiet.event (Quiet.editFabric (ht.openKept _)) ..) ..)

theorem execRdReq_quiet (p : Packet) (mem : MemErr) : Answers (Quiet s) (execRdReq p mem s) := by
  have h := Quiet.refl s
  refine receive_quiet ?_ ..
  dsimp only
  split
  · exact .next (h.refuseReq ..)
  split
  · exact mended_quiet (.next (Quiet.answerRead (Quiet.startFarOwn (Quiet.editMem (h.strike ..)) _) ..))
  · exact .next ((h.spillError mem).answerRead ..)

end Quiet
end Sys2Proof.Machine
end

section
/-! PROOFS. Sec-store, program ends, substitution and port resets are quiet. -/

-- One proof at a time: in parallel the many `unfold`s wait for each other, with a thread for each that waits.
set_option Elab.async false

namespace Sys2Proof.Machine
/-! ### Records, substitution and a program's end -/

/-- Ascending keys from `lo` on, none of them at the default. -/
theorem swfFrom_of_pairwise {α : Type} [DecidableEq α] {d : α} (m : Sparse α) (lo : Nat) (h : m.Pairwise fun e e' => e.1 < e'.1)
    (hlo : ∀ e ∈ m, lo ≤ e.1) (hd : ∀ e ∈ m, e.2 ≠ d) : swfFrom d lo m = true := by
  induction m generalizing lo with
  | nil => rfl
  | cons e m ih =>
    obtain ⟨he, hm⟩ := List.pairwise_cons.mp h
    simp only [List.forall_mem_cons] at hlo hd
    obtain ⟨hle, -⟩ := hlo
    obtain ⟨hde, hdm⟩ := hd
    simp only [swfFrom, hle, hde, decide_true, decide_false, Bool.not_false, Bool.true_and]
    exact ih (e.1 + 1) hm he hdm

/-- A table given by a function is in canonical form. -/
theorem swf_stable {α : Type} [DecidableEq α] (d : α) (n : Nat) (f : Nat → α) : swf d (stable d n f) = true := by
  have hp : ((List.range n).map fun i => (i, f i)).Pairwise fun e e' => e.1 < e'.1 :=
    List.pairwise_map.mpr List.pairwise_lt_range
  refine swfFrom_of_pairwise _ 0 (hp.filter _) (fun _ _ => Nat.zero_le _) fun e he => ?_
  simpa using (List.mem_filter.mp he).2

section Quiet
variable {s₀ s : State}

theorem Canonical.restored (x : Core) (r : RecSrc) (i nctx : Nat) (force : Option Nat) : Canonical s₀ (x.restore r i nctx force).scratch := by
  delta Core.restore
  dsimp only
  generalize 3145728 = n
  exact ⟨fun _ => swf_stable ..⟩

theorem Mem.note_bytes (m : Mem) (va n : Nat) (put : Bool) : (m.note va n put).bytes = m.bytes := rfl

theorem Canonical.note {m : Mem} (h : Canonical s₀ m.bytes) (va n : Nat) (put : Bool) : Canonical s₀ (m.note va n put).bytes := h

theorem Quiet.writeSlots (h : Quiet s₀ s) (p off : Nat) (bs : List Byte) : Quiet s₀ (s.writeSlots p off bs) := by
  unfold State.writeSlots
  dsimp only
  split
  · refine h.setRemote (Canonical.writeBytes ⟨fun h0 => ?_⟩ ..)
    obtain ⟨-, -, -, hr, -⟩ := s.memoryWf_iff.mp (h.wf h0)
    obtain hd | ⟨e, he, hx⟩ := sget_mem ([] : Sparse Byte) s.remoteMem ((s.part p).rwin (s.part p).sec.rwin).module
    · rw [State.remote, hd]; rfl
    · rw [State.remote, ← hx]; exact hr e he
  · exact h.setPart (h.bytes p) ((h.store p).writeBytes ..)

theorem Sec.setSlot_store (x : Sec) (n : Nat) (r : Option SecRec) : (x.setSlot n r).store = x.store := by
  unfold Sec.setSlot
  split <;> rfl

theorem Quiet.secure (h : Quiet s₀ s) (p : Nat) (fail : Option FaultCode) : Quiet s₀ (s.secure p fail).1 := by
  unfold State.secure
  extract_lets +onlyGivenNames b slot base t u
  have ht : Quiet s₀ t := h.editPart rfl (Sec.setSlot_store ..)
  have hu : Quiet s₀ u := by
    simp only [u]
    split
    · exact ht
    · exact ht.writeSlots ..
  clear_value u
  split
  · exact hu.event ..
  · extract_lets seq v b' cur m₁ m₂
    have hv : Quiet s₀ v := hu.writeSlots ..
    have hm₁ : m₁.bytes = b'.mem.bytes := by
      refine foldl_keeps _ Mem.bytes (fun m r => ?_) ..
      exact Mem.note_bytes ..
    have hm₂ : m₂.bytes = b'.mem.bytes := by
      clear_value m₁
      simp only [m₂]
      split
      · exact hm₁
      · exact (Mem.note_bytes ..).trans hm₁
    clear_value m₂ v
    exact Quiet.startFarOwn (hv.editPart hm₂ (Sec.setSlot_store ..)) p

theorem Quiet.restoreObjs (h : Quiet s₀ s) (p : Nat) (r : RecSrc) : Quiet s₀ (s.restoreObjs p r) := by
  delta State.restoreObjs
  refine .foldl (fun t e ht => ?_) _ h
  generalize 1024 = size
  refine .foldl (fun u i hu => ?_) _ ht
  exact hu.same rfl

theorem Quiet.restoreMem (h : Quiet s₀ s) (p : Nat) (r : RecSrc) (n : Nat) : Quiet s₀ (s.restoreMem p r n) := by
  delta State.restoreMem
  generalize 2097152 = size
  extract_lets ranges pages
  refine .foldl (fun t e ht => ?_) _ h
  split
  · exact ht.setMem (Canonical.note ((ht.bytes p).fill ..) ..)
  · exact ht

theorem Quiet.restoreFaults (h : Quiet s₀ s) (p n : Nat) : Quiet s₀ (s.restoreFaults p n) := by
  refine .foldl (fun t e ht => ?_) _ h.editPart
  exact Quiet.editPart ht.free

theorem Quiet.rollbackTo (h : Quiet s₀ s) (p step : Nat) : Quiet s₀ (s.rollbackTo p step) := by
  unfold State.rollbackTo
  split
  · exact h
  · exact .foldl (fun _ _ ht => ht.endItems ..) _ h

theorem Quiet.rollback (h : Quiet s₀ s) (p : Nat) : Quiet s₀ (s.rollback p) := by
  unfold State.rollback
  split
  · exact h
  · exact h.rollbackTo ..

theorem Quiet.restorePast (h : Quiet s₀ s) (p step : Nat) : Quiet s₀ (s.restorePast p step) := .foldl (fun _ _ ht => ht.editCore) _ h

theorem Quiet.restore (h : Quiet s₀ s) {p n : Nat} {rs : List RecSrc} {cur : CursorArg} {q : State × RecSrc} (e : s.restore p n rs cur = .ok q) :
    Quiet s₀ q.1 := by
  unfold State.restore at e
  split at e
  · cases e
  · extract_lets b recorded forced cores step t₁ t₂ t₃ a t₄ t₅ b' at e
    split at e
    · cases e
    split at e
    · cases e
    replace e := Except.ok.inj e
    subst e
    have h₂ : Quiet s₀ t₂ := .foldl (fun _ _ ht => ht.setCore (.restored ..)) _ (h.rollbackTo ..)
    have h₃ : Quiet s₀ t₃ := (h₂.restoreObjs ..).restoreMem ..
    have h₄ : Quiet s₀ t₄ := by
      simp only [t₄]
      split
      · exact h₃
      · exact h₃.setMem (Canonical.note ((h₃.bytes p).fill ..) ..)
    have h₅ : Quiet s₀ t₅ := (h₄.restoreFaults ..).restorePast ..
    clear_value t₅
    exact Quiet.startFarOwn h₅.editPart p

theorem Quiet.takeSpare {t : State} (h : Quiet s₀ s) {k : Nat} {chaff : W32} (e : s.takeSpare k chaff = some t) : Quiet s₀ t := by
  unfold State.takeSpare at e
  split at e
  · cases e
  · rename_i q rest _
    cases e
    have ht : Quiet s₀ { s with spares := sput (List.range' 128 8) s.spares (k / 128) rest, aliasMap := sput 0 s.aliasMap k (q + 1) } := h.same rfl
    refine ht.setCore ?_
    exact .nil

theorem Quiet.takeSpareOr (h : Quiet s₀ s) (k : Nat) (chaff : W32) : Quiet s₀ ((s.takeSpare k chaff).getD s) := by
  cases hx : s.takeSpare k chaff with
  | none => exact h
  | some t => exact h.takeSpare hx

theorem Quiet.endAll (h : Quiet s₀ s) (p : Nat) (st : RecStatus) (f : FaultCode) : Quiet s₀ (s.endAll p st f) :=
  .foldl (fun _ _ ht => ht.endItems ..) _ h

theorem Quiet.abandon (h : Quiet s₀ s) (k : Nat) : Quiet s₀ (s.abandon k) := by
  have hw : ∀ f w, Quiet s₀ { s with fabric := f } → Quiet s₀ { s with fabric := f, waiters := w } := fun f w hf => hf.same rfl
  exact Quiet.editCore (hw _ _ h.editFabric)

theorem Quiet.startRecord (h : Quiet s₀ s) (p : Nat) (st : RecStatus) (f : FaultCode) : Quiet s₀ (s.startRecord p st f) := by
  unfold State.startRecord
  dsimp only
  split
  · exact Quiet.cmdDone h.editPart ..
  · exact h

theorem Quiet.closersDone (h : Quiet s₀ s) (p : Nat) : Quiet s₀ (s.closersDone p) := by
  unfold State.closersDone
  extract_lets sess wins late _ _ t u v
  have ht : Quiet s₀ t := h.same rfl
  have hu : Quiet s₀ u := .foldl (fun _ _ hx => .foldl (fun _ _ hy => hy.cmdDone ..) _ hx) _ ht
  have hv : Quiet s₀ v := by
    refine .foldl (fun x e hx => ?_) _ hu
    split
    · exact hx.owedDone ..
    · exact hx
  exact .foldl (fun _ _ hx => (hx.takeCmd p).cmdDone ..) _ hv

theorem Quiet.destroyItems (h : Quiet s₀ s) (p : Nat) : Quiet s₀ (s.destroyItems p) := (h.endAll ..).closersDone p

/-- Partitions that leave the table. -/
theorem Quiet.filterParts (h : Quiet s₀ s) (f : Nat × PartBlock → Bool) : Quiet s₀ { s with parts := s.parts.filter f } :=
  h.withParts fun _ he => h.part_mem (List.mem_filter.mp he).1

theorem Quiet.destroyPart (h : Quiet s₀ s) (p : Nat) : Quiet s₀ (s.destroyPart p) := by
  have ha : Quiet s₀ ((s.part p).cores.foldl (fun s k => s.abandon k) s) := .foldl (fun _ k ht => ht.abandon k) _ h
  exact (ha.filterParts fun e => e.1 != p).same rfl

theorem Quiet.destroyOn (h : Quiet s₀ s) (p n : Nat) (o : Owed) : Quiet s₀ (s.destroyOn p n o) := by
  unfold State.destroyOn
  split
  · exact (h.destroyPart p).admDone ..
  · exact h.editPart

theorem Quiet.destroyHeld (h : Quiet s₀ s) (p : Nat) : Quiet s₀ (s.destroyHeld p) := by
  unfold State.destroyHeld
  split
  · split
    · exact h
    · exact h.destroyOn ..
  · exact h

theorem Quiet.fillFailed (h : Quiet s₀ s) (p : Nat) : Quiet s₀ (s.fillFailed p) := by
  refine .foldl (fun t k ht => ?_) _ h
  split
  · exact ht.takeSpareOr ..
  · exact ht

theorem Quiet.programOver (h : Quiet s₀ s) (p : Nat) : Quiet s₀ (s.programOver p) := by
  unfold State.programOver
  extract_lets b _ t u v
  have ht : Quiet s₀ t := h.editPart
  have hv : Quiet s₀ v := Quiet.fillFailed (.foldl (fun _ _ hx => hx.cmdDone ..) _ ht) p
  split
  · exact (hv.destroyItems p).destroyOn ..
  · exact hv

theorem Quiet.stopEnd (h : Quiet s₀ s) (p : Nat) (items start : FaultCode) : Quiet s₀ (s.stopEnd p items start) := by
  unfold State.stopEnd
  extract_lets t u v
  have ht : Quiet s₀ t := .foldl (fun _ _ hx => hx.editCore) _ h
  have hu : Quiet s₀ u := by
    simp only [u]
    split
    · exact ht.endAll ..
    · exact ht.endAll ..
  have hv : Quiet s₀ v := by
    simp only [v]
    split
    · exact hu.startRecord ..
    · exact hu.startRecord ..
  exact hv.programOver p

theorem Quiet.failNamed (h : Quiet s₀ s) (p : Nat) : Quiet s₀ (s.failNamed p) := by
  refine .foldl (fun t k ht => .foldl (fun u c hu => ?_) _ ht) _ h
  dsimp only
  split
  · exact hu.endItem ..
  · exact hu

theorem execProgramEnd_quiet (p : Nat) : Answers (Quiet s) (execProgramEnd p s) := by
  have h := Quiet.refl s
  unfold execProgramEnd
  dsimp only
  split
  · exact .next h
  split
  · split
    · exact .next (h.stopEnd ..)
    · exact .next h
  split
  · refine .next (Quiet.programOver ?_ p)
    split
    · exact ((h.failNamed p).endAll ..).startRecord ..
    · exact ((h.failNamed p).endAll ..).startRecord ..
  · exact .next h

theorem execStop_quiet (p : Nat) (e : Entry) : Answers (Quiet s) (execStop p e s) := by
  refine partCmd_quiet (fun o t ht => ?_) ..
  dsimp only
  split
  · exact ht
  · exact ht.editPart

theorem Quiet.running (h : Quiet s₀ s) (p entry args n : Nat) (o : Owed) (kept : Option (Nat × List (Nat × Window))) :
    Quiet s₀ (s.running p entry args n o kept) := h.editPart

theorem execStart_quiet (p : Nat) (e : Entry) (fabric : Option FabFault) : Answers (Quiet s) (execStart p e fabric s) := by
  refine partCmd_quiet (fun o t ht => ?_) ..
  extract_lets entry args n b started
  have hs : Quiet s started := .foldl (fun _ _ hx => hx.editCore) _ ht
  split
  · exact ht
  split
  · exact ht
  split
  · exact ht
  split
  · exact ht
  split
  · exact hs.running ..
  split
  · exact ht
  split
  · exact ht
  split
  · exact ht
  · exact Quiet.running (hs.restore ‹_›) ..

theorem Quiet.enterWaitRepair (h : Quiet s₀ s) (p : Nat) : Quiet s₀ (s.enterWaitRepair p) := Quiet.event (Quiet.editPart (h.rollback p)) ..

theorem Quiet.releaseSteps (h : Quiet s₀ s) (p : Nat) : Quiet s₀ (s.releaseSteps p) := by
  refine .foldl (fun t k ht => ?_) _ h
  dsimp only
  split
  · exact ht
  · exact ht.editCore

theorem Quiet.stopWith (h : Quiet s₀ s) (p : Nat) (f : FaultCode) : Quiet s₀ (s.stopWith p f) := h.editPart

theorem execStepBoundary_quiet (p : Nat) (fail : Option FabFault) : Answers (Quiet s) (execStepBoundary p fail s) := by
  have h := Quiet.refl s
  unfold execStepBoundary
  split
  · exact .next h
  extract_lets b step f _ _ t
  have ht : Quiet s t := h.editPart
  split
  · split
    · exact .next ((ht.secure ..).enterWaitRepair p)
    · exact .next (ht.enterWaitRepair p)
  split
  · refine .next (Quiet.stopWith ?_ ..)
    split
    · exact ht.secure ..
    · exact ht
  split
  · exact .next ((ht.secure ..).releaseSteps p)
  · exact .next (ht.releaseSteps p)

theorem execRepairWaitTimeout_quiet (p : Nat) : Answers (Quiet s) (execRepairWaitTimeout p s) := by
  have h := Quiet.refl s
  unfold execRepairWaitTimeout
  dsimp only
  split
  · split
    · exact .next (h.enterWaitRepair p)
    · exact .next h.editPart
  · exact .next h

theorem execHaltWaitTimeout_quiet (p : Nat) : Answers (Quiet s) (execHaltWaitTimeout p s) := by
  have h := Quiet.refl s
  unfold execHaltWaitTimeout
  dsimp only
  split
  · exact .next (h.stopWith ..)
  · exact .next h

theorem Quiet.retirePosition (h : Quiet s₀ s) (die pos : Nat) : Quiet s₀ (s.retirePosition die pos) := (h.editFlash _).healthCount ..

theorem Quiet.coreFails (h : Quiet s₀ s) (k cause : Nat) : Quiet s₀ (s.coreFails k cause) := by
  unfold State.coreFails
  exact Quiet.editCore (Quiet.retirePosition (Quiet.event (.foldl (fun _ _ ht => ht.endItem ..) _ (h.abandon k)) ..) ..)

theorem Quiet.failurePath (h : Quiet s₀ s) (p k : Nat) (readable : Bool) : Quiet s₀ (s.failurePath p k readable) := by
  unfold State.failurePath
  dsimp only
  split
  · exact h
  · exact h
  · exact h.takeSpareOr ..
  · split
    · exact h
    split
    · exact h.stopWith ..
    split
    · split
      · exact h.enterWaitRepair p
      · exact h.editPart
    · exact h.editPart

theorem execCoreFail_quiet (k : Nat) (cause : BitVec 3) : Answers (Quiet s) (execCoreFail k cause s) := by
  have h := Quiet.refl s
  unfold execCoreFail
  dsimp only
  split
  · exact .next h
  split
  · exact .next (h.coreFails ..)
  · exact .next ((h.coreFails ..).failurePath ..)

theorem Quiet.spareFails (h : Quiet s₀ s) (p k cause : Nat) : Quiet s₀ (s.spareFails p k cause).1 := by
  have ht := (h.event 0x0002 (coordOf k) cause [p]).retirePosition (k / 128) (s.position k)
  unfold State.spareFails
  extract_lets t
  have ht : Quiet s₀ t := Quiet.retirePosition (h.event ..) ..
  split
  · exact ht.takeSpare ‹_›
  · exact ht.editCore

theorem Quiet.refillFails (h : Quiet s₀ s) (p : Nat) (filling : List Nat) (l : List (Nat × BitVec 3)) : Quiet s₀ (s.refillFails p filling l).1 := by
  induction l generalizing s with
  | nil => exact h
  | cons x l ih =>
    obtain ⟨k, cause⟩ := x
    have hs := h.spareFails p k cause.toNat
    rw [State.refillFails]
    split
    · exact ih h
    split
    · split
      · rename_i he
        rw [he] at hs
        exact ih hs
      · rename_i he
        rw [he] at hs
        exact hs
    · exact h.coreFails ..

theorem Quiet.restoreOwn {t : State} (h : Quiet s₀ s) {p : Nat} {work : RefillWork} {cur : CursorArg} (e : s.restoreOwn p work cur = .ok t) :
    Quiet s₀ t := by
  unfold State.restoreOwn at e
  extract_lets b u at e
  have hu : Quiet s₀ u := .foldl (fun _ k ht => ht.abandon k) _ h
  split at e
  · cases e
  · cases hr : u.restore p b.prog.nctx (u.ownSlots p) cur with
    | error f => rw [hr] at e; cases e
    | ok q => rw [hr] at e; cases e; exact hu.restore hr

theorem execSubstitution_quiet (x : SubstOp) : Answers (Quiet s) (execSubstitution x s) := by
  have h := Quiet.refl s
  unfold execSubstitution
  split
  · exact .next h
  rename_i p _
  extract_lets +onlyGivenNames b
  split
  · exact .next h
  extract_lets +onlyGivenNames t
  have ht : Quiet s t := h.rollback ..
  split
  · exact .next (ht.enterWaitRepair _)
  have hf := (ht.takeSpare ‹_›).refillFails p [x.core] x.work.fails
  split
  · rename_i he
    rw [he] at hf
    exact .next (hf.enterWaitRepair _)
  · rename_i u he
    have hu : Quiet s u := by simpa only [he] using hf
    split
    · exact .next (Quiet.stopEnd (.foldl (fun _ _ hx => hx.abandon _) _ hu) ..)
    · exact .next (Quiet.event (Quiet.editPart (hu.restoreOwn ‹_›)) ..)

theorem execRepair_quiet (p : Nat) (e : Entry) (work : RefillWork) : Answers (Quiet s) (execRepair p e work s) := by
  refine critCmd_quiet (fun o t ht => ?_) ..
  extract_lets b bad
  split
  · exact ht
  split
  · exact ht
  split
  · exact ht
  have hf := Quiet.refillFails (.foldl (fun _ k hx => hx.takeSpareOr k b.grant.chaff) bad ht) p bad work.fails
  split
  · rename_i he
    rw [he] at hf
    exact hf
  · rename_i u he
    have hu : Quiet s u := by simpa only [he] using hf
    split
    · exact hu
    · exact Quiet.editPart (hu.restoreOwn ‹_›)

theorem Quiet.loseRecords (h : Quiet s₀ s) (p : Nat) : Quiet s₀ (s.loseRecords p) := by
  have hf : Quiet s₀ ((s.part p).cpl.held.foldl (fun s r => match r.frees with
      | some q => s.freeRequest q
      | none => s) s) := by
    refine .foldl (fun t r ht => ?_) _ h
    split
    · exact ht.freeRequest _
    · exact ht
  exact hf.setPart (h.bytes p) (h.store p)

theorem Quiet.resetPort (h : Quiet s₀ s) (p : Nat) : Quiet s₀ (s.resetPort p) := by
  unfold State.resetPort
  extract_lets b b' _ _ _ _ t u
  have ht : Quiet s₀ t := by
    have hb : b'.mem = b.mem ∧ b'.sec = b.sec := by
      simp only [b']
      split
      · exact ⟨rfl, rfl⟩
      · exact ⟨rfl, rfl⟩
    obtain ⟨hm, hs⟩ := hb
    exact h.editPart (congrArg Mem.bytes hm) (congrArg Sec.store hs)
  have hu : Quiet s₀ u := ht.endAll ..
  refine Quiet.destroyHeld (Quiet.loseRecords ?_ p) p
  split
  · exact hu.stopEnd ..
  · exact hu

theorem Quiet.portDown (h : Quiet s₀ s) (n : Nat) (perst : Bool) : Quiet s₀ (s.portDown n perst) :=
  Quiet.setPort (.foldl (fun _ p ht => ht.resetPort p) _ h) ..

theorem execPortReset_quiet (x : PortResetOp) : Answers (Quiet s) (execPortReset x s) := .next ((Quiet.refl s).portDown ..)

theorem execCplHeadWrite_quiet (port : Nat) (r : RingName) (v : W32) : Answers (Quiet s) (execCplHeadWrite port r v s) := by
  have h := Quiet.refl s
  cases r <;> unfold execCplHeadWrite <;> dsimp only <;> split
  case adm.isTrue => exact .next ((h.setPort ..).settlePort _)
  case req.isTrue => exact .next (Quiet.destroyHeld (Quiet.settlePart h.editPart _) _)
  case cmd.isTrue => exact .next (Quiet.destroyHeld (Quiet.settlePart h.editPart _) _)
  all_goals exact .next h

theorem execRingCtlWrite_quiet (port : Nat) (r : RingName) (v : W32) : Answers (Quiet s) (execRingCtlWrite port r v s) := by
  have h := Quiet.refl s
  cases r <;> unfold execRingCtlWrite <;> dsimp only <;> split
  case adm.isTrue => exact .next ((h.setPort ..).settlePort _)
  case req.isTrue => exact .next (Quiet.destroyHeld (Quiet.settlePart h.editPart _) _)
  case cmd.isTrue => exact .next (Quiet.destroyHeld (Quiet.settlePart h.editPart _) _)
  all_goals exact .next h

theorem execSecCfgWrite_quiet (n p : Nat) (v : W32) (room : Bool) : Answers (Quiet s) (execSecCfgWrite n p v room s) := by
  have h := Quiet.refl s
  unfold execSecCfgWrite
  dsimp only
  split
  · have hc : ∀ r, ((s.part p).secCfg v.toNat r).mem = (s.part p).mem ∧ Canonical s ((s.part p).secCfg v.toNat r).sec.store := by
      intro r
      unfold PartBlock.secCfg
      dsimp only
      split_ifs
      · exact ⟨rfl, h.store p⟩
      all_goals exact ⟨rfl, .nil⟩
    obtain ⟨hm, hs⟩ := hc (room && decide ((s.part p).sec.slotMib ≤ s.freeL + (s.part p).secPages))
    exact .next (h.setPart (hm ▸ h.bytes p) hs)
  · exact .next h

end Quiet
end Sys2Proof.Machine
end

section
/-! PROOFS. Grants and registers: all quiet but the writes of the ruled registers, which are sound. -/

-- One proof at a time: in parallel the many `unfold`s wait for each other, with a thread for each that waits.
set_option Elab.async false

namespace Sys2Proof.Machine
/-! ### Grants and registers -/

section Quiet
variable {s₀ s : State}

/-- The health monitor's registers replaced, but for the ruled ones. -/
theorem Quiet.editHealth (h : Quiet s₀ s) {x : Health} (hs : x.secureAt = s.health.secureAt := by rfl) (ha : x.haltAt = s.health.haltAt := by rfl)
    (hc : x.pwrCap = s.health.pwrCap := by rfl) (hl : x.pwrLimit = s.health.pwrLimit := by rfl) (ht : x.thermCap = s.health.thermCap := by rfl) :
    Quiet s₀ { s with health := x } :=
  ⟨by rw [← h.ruled]; simp only [State.ruled, hs, ha, hc, hl, ht], h.wf⟩

theorem Quiet.clearBlock (h : Quiet s₀ s) (k : Nat) : Quiet s₀ (s.clearBlock k) := h.same rfl

theorem Quiet.grantCore (h : Quiet s₀ s) (g : Grant) (joins : Nat → Bool) (k : Nat) : Quiet s₀ (s.grantCore g joins k) := by
  unfold State.grantCore
  split
  · exact h.takeSpareOr ..
  split
  · exact h.setCore .nil
  · exact h.editCore

theorem Quiet.grantAll (h : Quiet s₀ s) (old g : Grant) : Quiet s₀ (s.grantAll old g) := by
  unfold State.grantAll
  refine .foldl (fun t k ht => ?_) _ (.foldl (fun _ _ ht => ht.grantCore ..) _ h)
  split
  · exact ht.clearBlock k
  · exact ht

theorem execPartCreate_quiet (n : Nat) (e : Entry) : Answers (Quiet s) (execPartCreate n e s) := by
  refine critCmd_quiet (fun o t ht => ?_) ..
  dsimp only
  split
  · exact ht
  split
  · exact ht
  split
  · exact ht
  · exact (ht.grantAll ..).setPart .nil .nil

theorem execPartDestroy_quiet (n : Nat) (e : Entry) : Answers (Quiet s) (execPartDestroy n e s) := by
  refine critCmd_quiet (fun o t ht => ?_) ..
  dsimp only
  split
  · exact ht
  split
  · exact ht
  split
  · exact ht.editPart
  · refine Quiet.destroyOn (Quiet.destroyItems ?_ _) ..
    split
    · exact ht.stopEnd ..
    · exact ht

theorem Quiet.reassign (h : Quiet s₀ s) (rest : List Nat) (r : Nat) : Quiet s₀ (s.reassign rest r) := by
  unfold State.reassign
  split
  · exact h
  · extract_lets without g t u
    have hu : Quiet s₀ u := h.same rfl
    split
    · exact hu.setSess ..
    · exact hu

theorem Quiet.reassignAll (h : Quiet s₀ s) (l : List Nat) : Quiet s₀ (reassignAll s l) := by
  induction l generalizing s with
  | nil => exact h
  | cons r l ih => exact ih (h.reassign l r)

theorem execPartReshape_quiet (n : Nat) (e : Entry) : Answers (Quiet s) (execPartReshape n e s) := by
  refine critCmd_quiet (fun o t ht => ?_) ..
  dsimp only
  split
  · exact ht
  split
  · exact ht
  split
  · exact ht
  · exact Quiet.reassignAll (Quiet.editPart (ht.grantAll ..)) _

theorem Quiet.applyFreq (h : Quiet s₀ s) (g : Nat) : Quiet s₀ (s.applyFreq g) := by
  unfold State.applyFreq
  dsimp only
  split
  · exact h
  · exact h.same rfl

theorem Quiet.applyFreqs (h : Quiet s₀ s) : Quiet s₀ s.applyFreqs := .foldl (fun _ g ht => ht.applyFreq g) _ h

theorem execFreqSet_quiet (n die group mhz : Nat) : Answers (Quiet s) (execFreqSet n die group mhz s) := by
  have h := Quiet.refl s
  have hg : ∀ g, Quiet s { s with groups := g } := fun _ => h.same rfl
  unfold execFreqSet
  dsimp only
  split
  · exact .next h
  split
  · exact .next h
  · exact .next ((hg _).applyFreq _)

theorem Quiet.afterRead (h : Quiet s₀ s) (b : RegBlock) (reader off : Nat) : Quiet s₀ (b.afterRead s reader off) := by
  cases b <;> unfold RegBlock.afterRead <;> dsimp only
  case port => exact h
  case part =>
    split
    · exact h.editPart
    · exact h
  case winnow =>
    split
    · exact h.editPart
    · exact h
  case health =>
    split
    · exact h.same rfl
    · exact h
  case fab =>
    split
    · exact h.editFabric
    · exact h
  case husk =>
    split
    · exact h.editHusk
    split
    · exact h.editHusk
    split
    · exact h.setSlot ..
    · exact h

theorem Quiet.regRead (h : Quiet s₀ s) (who : RegAgent) : Quiet s₀ (s.regRead who).2 := by
  cases who <;> unfold State.regRead <;> dsimp only
  case port =>
    split
    · exact h.afterRead ..
    · exact h
  case config => exact h
  case mgmt => exact h.afterRead ..
  case core k c off =>
    cases hr : s.coreRead k c off with
    | none => exact h
    | some q => exact h.coreRead hr

theorem Quiet.sendPending (h : Quiet s₀ s) (n : Nat) : Quiet s₀ (s.sendPending n) := by
  unfold State.sendPending
  dsimp only
  split
  · exact h
  · exact .foldl (fun _ _ ht => ht.emit _) _ (h.setPort ..)

theorem Quiet.writeConfig (h : Quiet s₀ s) (n : Nat) (f : ConfigField) (v : W32) : Quiet s₀ (s.writeConfig n f v) := by
  cases f <;> unfold State.writeConfig <;> dsimp only
  case msixMask => exact (h.setPort ..).sendPending n
  case msixPending => exact h
  case completionTimeout => exact h.setPort ..
  case powerState =>
    split
    · exact ((h.setPort ..).sendPending n).portBack n
    split
    · exact h.setPort ..
    · exact h

theorem execRcCounterRead_quiet (who : RegAgent) : Answers (Quiet s) (execRcCounterRead who s) := by
  have h := Quiet.refl s
  unfold execRcCounterRead
  refine .next ?_
  split
  · exact (h.regRead who).emit _
  · exact h

theorem execCounterLoRead_quiet (k c : Nat) (timebase : Bool) (dst : Nat) : Answers (Quiet s) (execCounterLoRead k c timebase dst s) := by
  have h := Quiet.refl s
  unfold execCounterLoRead
  split
  · exact .next (Quiet.setCtx (h.coreRead ‹_›) ..)
  · exact .next h

theorem execKeyLastLoRead_quiet (who : RegAgent) (slot : Nat) : Answers (Quiet s) (execKeyLastLoRead who slot s) := by
  have h := Quiet.refl s
  unfold execKeyLastLoRead
  dsimp only
  split
  · refine .next ?_
    split
    · exact (h.afterRead ..).emit _
    · exact h
  · exact .next ((h.afterRead ..).emit _)
  · exact .next h
  · exact .next h

theorem execRngOutRead_quiet (k c stream word dst : Nat) : Answers (Quiet s) (execRngOutRead k c stream word dst s) := .next ((Quiet.refl s).setCtx ..)

theorem PartBlock.write_mem (b : PartBlock) (off : Nat) (v : W32) : (b.write off v).mem = b.mem := by
  unfold PartBlock.write
  split_ifs <;> rfl

theorem Sec.write_store (x : Sec) (off : Nat) (v : W32) : (x.write off v).store = x.store := by
  unfold Sec.write
  split
  · rfl
  · rfl
  · rfl
  · rfl
  · dsimp only
    split <;> rfl

theorem PartBlock.write_store (b : PartBlock) (off : Nat) (v : W32) : (b.write off v).sec.store = b.sec.store := by
  unfold PartBlock.write
  split_ifs
  all_goals first
    | rfl
    | exact Sec.write_store ..

theorem Core.writeWatchdog_scratch (x : Core) (v : W32) : (x.writeWatchdog v).scratch = x.scratch := by
  unfold Core.writeWatchdog
  grind

theorem Quiet.writeLean (h : Quiet s₀ s) (g : Nat) (v : W32) : Quiet s₀ (s.writeLean g v) := by
  unfold State.writeLean
  extract_lets n old _ t
  have ht : Quiet s₀ t := h.same rfl
  refine .foldl (fun u k hu => ?_) _ ht
  exact hu.editCore

theorem execWatchdogWrite_quiet (k c : Nat) (v : W32) : Answers (Quiet s) (execWatchdogWrite k c v s) :=
  .next ((Quiet.refl s).editCore (Core.writeWatchdog_scratch ..))

theorem execLeanReqWrite_quiet (i die group : Nat) (v : W32) : Answers (Quiet s) (execLeanReqWrite i die group v s) := by
  have h := Quiet.refl s
  refine .next ?_
  split
  · exact h.writeLean ..
  · exact h

theorem execRegRead_quiet (i block off : Nat) : Answers (Quiet s) (execRegRead i block off s) := by
  have h := Quiet.refl s
  unfold execRegRead
  split
  · exact .next h
  · exact .next ((h.afterRead ..).emit _)

end Quiet

section Sound
variable {s : State}

theorem Sound.refl (s : State) : Sound s s := (Quiet.refl s).sound

/-- The health monitor's registers replaced by lawful ones. -/
theorem Sound.health {h : Health} (hl : s.Lawful → ({ s with health := h } : State).Lawful) : Sound s { s with health := h } := ⟨.refl _, hl, id⟩

/-- The fabric's ruled registers replaced by lawful ones. -/
theorem Sound.fabric {f : Fabric} (hs : f.spill = s.fabric.spill) (hl : s.Lawful → ({ s with fabric := f } : State).Lawful) :
    Sound s { s with fabric := f } := by
  refine ⟨.refl _, hl, fun h0 => ?_⟩
  simpa only [State.memoryWf, hs] using h0

/-- A write of SECURE_AT or HALT_AT keeps their order (R532). -/
theorem Health.writeLevel_le {h : Health} (hle : h.secureAt ≤ h.haltAt) (halt : Bool) (v : W32) :
    (h.writeLevel halt v).secureAt ≤ (h.writeLevel halt v).haltAt := by
  unfold Health.writeLevel
  dsimp only
  split_ifs
  all_goals assumption

theorem Health.writeLevel_rest (h : Health) (halt : Bool) (v : W32) :
    (h.writeLevel halt v).pwrLimit = h.pwrLimit ∧ (h.writeLevel halt v).pwrCap = h.pwrCap ∧ (h.writeLevel halt v).thermCap = h.thermCap := by
  unfold Health.writeLevel
  dsimp only
  split_ifs <;> exact ⟨rfl, rfl, rfl⟩

theorem Sound.writeLevel (s : State) (halt : Bool) (v : W32) : Sound s { s with health := s.health.writeLevel halt v } := by
  refine .health fun ⟨hle, hlim, hcap, htherm, hrest⟩ => ?_
  obtain ⟨elim, ecap, etherm⟩ := s.health.writeLevel_rest halt v
  refine ⟨Health.writeLevel_le hle halt v, elim ▸ hlim, ecap ▸ hcap, ?_, hrest⟩
  simpa only [State.thermCap, etherm] using htherm

theorem Sound.mgmtWrite (s : State) (block off : Nat) (v : W32) : Sound s (s.mgmtWrite block off v) := by
  have h := Quiet.refl s
  unfold State.mgmtWrite
  dsimp only
  split
  · split
    · exact (h.writeLean ..).sound
    split
    · exact .writeLevel s false v
    · exact .writeLevel s true v
    · exact h.editHealth.sound
    · exact h.editHealth.sound
    · split
      · rename_i hw
        exact .health fun ⟨hle, _, hrest⟩ => ⟨hle, hw, hrest⟩
      · exact .refl s
    · exact .refl s
  split
  · split
    · split
      · exact .refl s
      · rename_i hr
        refine .fabric rfl fun ⟨hle, hlim, hcap, htherm, hrsp, _, hdbg⟩ => ⟨hle, hlim, hcap, htherm, hrsp, ⟨?_, ?_⟩, hdbg⟩
        · exact Nat.one_le_iff_ne_zero.mpr hr
        · exact Nat.le_of_lt_succ (Nat.mod_lt _ (by decide))
    · split
      · rename_i hu
        exact .fabric rfl fun ⟨hle, hlim, hcap, htherm, _, hrest⟩ => ⟨hle, hlim, hcap, htherm, hu, hrest⟩
      · exact .refl s
    · exact .refl s
  · exact .refl s

theorem execRegisterWrite_sound (who : RegAgent) (v : W32) : Answers (Sound s) (execRegisterWrite who v s) := by
  have h := Quiet.refl s
  unfold execRegisterWrite
  split
  · exact .next (.refl s)
  split
  · split
    · exact .next (h.setPort ..).sound
    · exact .next (h.editPart (congrArg Mem.bytes (PartBlock.write_mem ..)) (PartBlock.write_store ..)).sound
    · exact .next (.refl s)
  · exact .next (h.writeConfig ..).sound
  · refine .next ?_
    split
    · exact .mgmtWrite ..
    · exact .refl s
  · exact .next (h.editCore (Core.regWrite_scratch ..)).sound

theorem execHealthLevelWrite_sound (i : Nat) (halt : Bool) (v : W32) : Answers (Sound s) (execHealthLevelWrite i halt v s) := by
  refine .next ?_
  split
  · exact .writeLevel ..
  · exact .refl s

theorem execRegWrite_sound (i block off : Nat) (v : W32) : Answers (Sound s) (execRegWrite i block off v s) := by
  unfold execRegWrite
  split
  · exact .next (.refl s)
  split
  · exact .next ((Sound.mgmtWrite ..).trans ((Quiet.refl _).emit _).sound)
  · exact .next ((Quiet.refl s).emit _).sound

end Sound
end Sys2Proof.Machine
end

section
/-! PROOFS. Husk and the health monitor, sound; appends, quiet. -/

-- One proof at a time: in parallel the many `unfold`s wait for each other, with a thread for each that waits.
set_option Elab.async false

namespace Sys2Proof.Machine
/-! ### Husk -/

section Quiet
variable {s₀ s : State}

theorem Quiet.durable (h : Quiet s₀ s) : Quiet s₀ s.durable := h.same rfl

theorem keyCmd_quiet {t : State} (ht : Quiet s t) (n : Nat) (e : Entry) (hostOk : Bool) (use : SlotUse) (rotate : Bool) :
    (keyCmd n e hostOk use rotate t).All (Quiet s) := by
  unfold keyCmd
  extract_lets
  split
  · exact ht
  split
  · exact ht
  split
  · exact ht
  split
  · exact ht
  extract_lets
  split
  · exact ht
  · exact (ht.setSlot ..).durable

theorem execKeyLoad_quiet (n : Nat) (e : Entry) (hostOk : Bool) : Answers (Quiet s) (execKeyLoad n e hostOk s) :=
  critCmd_quiet (fun _ _ ht => keyCmd_quiet ht ..) ..

theorem execKeyRotate_quiet (n : Nat) (e : Entry) (hostOk : Bool) : Answers (Quiet s) (execKeyRotate n e hostOk s) :=
  critCmd_quiet (fun _ _ ht => keyCmd_quiet ht ..) ..

theorem execKeyErase_quiet (n : Nat) (e : Entry) : Answers (Quiet s) (execKeyErase n e s) := by
  refine critCmd_quiet (fun o t ht => ?_) ..
  extract_lets
  split
  · exact ht
  split
  · exact ht
  split
  · exact ht
  · exact (ht.setSlot ..).durable

theorem execFwLoad_quiet (n : Nat) (e : Entry) (hostOk flashOk : Bool) : Answers (Quiet s) (execFwLoad n e hostOk flashOk s) := by
  refine critCmd_quiet (fun o t ht => ?_) ..
  extract_lets
  split
  · exact ht
  split
  · exact ht
  split
  · exact ht
  split
  · exact ht.editFlash _
  · exact ht.editFlash _

theorem Quiet.forceDestroy (h : Quiet s₀ s) (p : Nat) : Quiet s₀ (s.forceDestroy p) := by
  have hs := h.stopEnd p 0 0
  unfold State.forceDestroy
  dsimp only
  split
  · exact hs
  split
  · exact Quiet.admDone ((hs.destroyItems p).destroyPart p) ..
  · exact (hs.destroyItems p).destroyPart p

theorem Quiet.freeWindows (h : Quiet s₀ s) : Quiet s₀ s.freeWindows := .foldl (fun _ _ ht => ht.owedDone ..) _ h.editFabric

theorem Quiet.evict (h : Quiet s₀ s) : Quiet s₀ s.evict := Quiet.freeWindows (.foldl (fun _ e ht => ht.forceDestroy e.1) _ h)

theorem Quiet.eraseKeys (h : Quiet s₀ s) : Quiet s₀ s.eraseKeys := .foldl (fun _ _ ht => ht.setSlot ..) _ h

theorem Core.zeroised_scratch (x : Core) : x.zeroised.scratch = [] := by
  delta Core.zeroised
  generalize List.range 64 = l
  exact foldl_keeps (fun x n => x.setTracker n Tracker.zero) Core.scratch (fun _ _ => rfl) l _

theorem Quiet.zeroMemory (h : Quiet s₀ s) : Quiet s₀ s.zeroMemory := by
  delta State.zeroMemory
  generalize List.range 512 = l
  extract_lets t
  have ht : Quiet s₀ t := .foldl (fun t k ht => ht.setCore ((Core.zeroised_scratch _).symm ▸ .nil)) l h
  clear_value t
  have hf := ht.withFabric (f := { t.fabric with parked := [], spill := [], spillPoison := [] }) rfl rfl .nil
  exact hf.same rfl

theorem Quiet.zeroise (h : Quiet s₀ s) : Quiet s₀ s.zeroise := h.evict.eraseKeys.durable.zeroMemory

theorem Quiet.clearAll (h : Quiet s₀ s) : Quiet s₀ s.clearAll := by
  unfold State.clearAll
  extract_lets t
  have ht : Quiet s₀ t := by
    refine h.withCores fun e he => ?_
    obtain ⟨x, -, rfl⟩ := List.mem_map.mp (List.mem_filter.mp he).1
    exact .nil
  exact ht.same rfl

theorem Quiet.scrap (h : Quiet s₀ s) : Quiet s₀ s.scrap := by
  have ht := h.zeroise
  delta State.scrap
  generalize s.zeroise = t at ht ⊢
  have hf := ht.editFlash { t.flash with keyPair := false }
  exact hf.editHusk

theorem Quiet.refuseZeroising (h : Quiet s₀ s) (n : Nat) (xs : List (Nat × Entry)) : Quiet s₀ (s.refuseZeroising n xs) := by
  refine .foldl (fun t x ht => ?_) _ h
  split
  · exact (ht.takeAdm _).admDone ..
  · exact ht

theorem Quiet.fuses (h : Quiet s₀ s) : s.fuses = s₀.fuses := by
  have hf : s.ruled.fuses = s₀.ruled.fuses := congrArg State.fuses h.ruled
  exact hf

end Quiet

section Sound
variable {s₀ s : State}

/-- Fuses burned further, the debug level and the memories as they were, the lifecycle state too. -/
theorem Sound.burn {f : Fuses} (hf : s.fuses.Keeps f) (hlc : f.lc = s.fuses.lc) : Sound s { s with fuses := f } := by
  refine ⟨hf, fun hl => ?_, id⟩
  simpa only [State.Lawful, State.thermCap, State.life, hlc] using hl

/-- What a transition of R569 leaves before the new state is fused: `s`, or `s` cleared, zeroised or scrapped, or with one more REFURB burned. -/
theorem transition_ok {u : State} {dest : LifeState} {slot : Nat} (e : s.transition dest slot = .ok u) :
    s.life ≠ .scrap ∧ (u = s ∨ u = s.clearAll ∨ u = s.zeroise ∨ u = s.scrap ∨
      u = { s with fuses := { s.fuses with refurb := s.fuses.refurb + 1 } }) := by
  unfold State.transition at e
  dsimp only at e
  generalize s.clearAll = c at e ⊢
  generalize s.zeroise = z at e ⊢
  generalize s.scrap = k at e ⊢
  generalize { s with fuses := { s.fuses with refurb := s.fuses.refurb + 1 } } = r at e ⊢
  generalize s.life = x at e ⊢
  split at e
  case h_14 => cases e
  all_goals
    refine ⟨nofun, ?_⟩
    split_ifs at e
    all_goals cases e
    all_goals simp only [true_or, or_true]

/-- A transition leads out of no module in SCRAP, and by itself it only burns REFURB. -/
theorem Sound.transition {u : State} {dest : LifeState} {slot : Nat} (e : s.transition dest slot = .ok u) :
    Sound s u ∧ s.fuses.lc ≠ .scrap ∧ u.fuses.lc = s.fuses.lc := by
  obtain ⟨hlife, hu⟩ := transition_ok e
  have h := Quiet.refl s
  have hne : s.fuses.lc ≠ .scrap := fun hc => hlife (by simp [State.life, hc])
  have hq : ∀ {t : State}, Quiet s t → Sound s t ∧ s.fuses.lc ≠ .scrap ∧ t.fuses.lc = s.fuses.lc := fun ht =>
    ⟨ht.sound, hne, congrArg Fuses.lc ht.fuses⟩
  obtain rfl | rfl | rfl | rfl | rfl := hu
  · exact hq h
  · exact hq h.clearAll
  · exact hq h.zeroise
  · exact hq h.scrap
  · exact ⟨.burn ⟨BitVec.and_self, id, Nat.le_succ _, fun _ => id, fun _ => id, id, rfl, id⟩ rfl, hne, rfl⟩

/-- Out of SCRAP nothing leads; elsewhere the lifecycle state is set with the debug level at 0 (R567). -/
theorem Sound.setLife (hne : s.fuses.lc ≠ .scrap) (x : LifeState) (port : Nat) : Sound s (s.setLife x port) := by
  have hk : ∀ x, s.fuses.Keeps { s.fuses with lc := x } := fun x =>
    ⟨BitVec.and_self, id, le_rfl, fun _ => id, fun _ => id, id, rfl, fun hc => absurd hc hne⟩
  have hl : ∀ f k, k.debug = 0 → s.Lawful → ({ s with fuses := f, husk := k } : State).Lawful := by
    intro f k hd ⟨hle, hlim, hcap, htherm, hrsp, hplace, _⟩
    exact ⟨hle, hlim, hcap, htherm, hrsp, hplace, .inl hd⟩
  cases x
  case fieldDiag => exact ⟨.refl _, hl s.fuses _ rfl, id⟩
  all_goals exact ⟨hk _, hl _ _ rfl, id⟩

theorem execLifecycle_sound (n : Nat) (x : LifecycleOp) : Answers (Sound s) (execLifecycle n x s) := by
  refine critCmd_answers (stable_sound s) (fun o t ht => ?_) ..
  have ht := ht.sound
  dsimp only
  split
  · exact ht
  split
  · exact ht
  · rename_i dest _ _ u he
    obtain ⟨hu, hne, hlc⟩ := Sound.transition he
    have hr : ∀ {v : State}, Quiet u v → Sound s ((v.setLife dest n).event 0x0013 dest.code t.life.code []) := by
      intro v hv
      have hvne : v.fuses.lc ≠ .scrap := by
        rw [hv.fuses, hlc]
        exact hne
      exact ((ht.trans hu).trans hv.sound).trans ((Sound.setLife hvne dest n).trans ((Quiet.refl _).event ..).sound)
    show Sound s (State.event ..)
    split
    · exact hr ((Quiet.refl u).refuseZeroising ..)
    · exact hr (.refl u)

theorem execDebugSet_sound (n : Nat) (e : Entry) : Answers (Sound s) (execDebugSet n e s) := by
  refine critCmd_answers (stable_sound s) (fun o t ht => ?_) ..
  extract_lets level slot ok
  clear_value level slot
  split
  · rename_i hok
    refine ht.sound.trans ⟨.refl _, fun ⟨hle, hlim, hcap, htherm, hrsp, hplace, _⟩ => ⟨hle, hlim, hcap, htherm, hrsp, hplace, ?_⟩, id⟩
    show level = 0 ∨ (level = 1 ∧ t.life = .fieldDiag) ∨ (level = 2 ∧ (t.life = .makerTest ∨ t.life = .returned))
    simp only [ok] at hok
    split at hok
    · exact .inl rfl
    · simp only [Bool.and_eq_true, beq_iff_eq] at hok
      exact .inr (.inl ⟨rfl, hok.1⟩)
    · simp only [Bool.and_eq_true, Bool.or_eq_true, beq_iff_eq] at hok
      exact .inr (.inr ⟨rfl, hok.1⟩)
    · cases hok
  · exact ht.sound

theorem burnRepair_sound {t : State} (ht : Sound s t) (slot : Nat) (stuck : BitVec 64) (inRange : Bool) {burn : Fuses → Fuses}
    (hb : t.fuses.Keeps (burn t.fuses)) (hlc : (burn t.fuses).lc = t.fuses.lc) : (burnRepair t slot stuck inRange burn).All (Sound s) := by
  unfold burnRepair
  split
  · exact ht
  split
  · exact ht
  split
  · exact ht
  · exact ht.trans (.burn hb hlc)

/-- What a repair list holds it still holds with an entry added. -/
theorem mem_addOnce {α : Type} [BEq α] {l : List α} {a x : α} (h : x ∈ l) : x ∈ (if l.contains a then l else l ++ [a]) := by
  split
  · exact h
  · exact List.mem_append_left _ h

theorem execFuseProg_sound (n : Nat) (e : Entry) (stuck : BitVec 64) : Answers (Sound s) (execFuseProg n e stuck s) := by
  refine critCmd_answers (stable_sound s) (fun o t ht => ?_) ..
  replace ht := ht.sound
  extract_lets v slot customer want _ u
  split
  · split
    · exact ht
    split
    · exact ht
    split
    · exact ht
    split
    · exact ht
    · have hu : Sound s u := by
        refine ht.trans (.burn ⟨?_, id, le_rfl, fun _ => id, fun _ => id, id, rfl, id⟩ rfl)
        ext i hi
        simp only [BitVec.getElem_and, BitVec.getElem_or]
        cases t.fuses.svn[i] <;> simp
      split
      · exact hu
      · exact hu
  · split
    · exact ht
    split
    · exact ht
    split
    · exact ht
    split
    · exact ht
    · exact ht.trans (.burn ⟨BitVec.and_self, fun _ => rfl, le_rfl, fun _ => id, fun _ => id, id, rfl, id⟩ rfl)
  · exact burnRepair_sound ht _ _ _ ⟨BitVec.and_self, id, le_rfl, fun _ => mem_addOnce, fun _ => id, id, rfl, id⟩ rfl
  · exact burnRepair_sound ht _ _ _ ⟨BitVec.and_self, id, le_rfl, fun _ => id, fun _ => mem_addOnce, id, rfl, id⟩ rfl
  · exact ht

end Sound

/-! ### The health monitor -/

section Quiet
variable {s₀ s : State}

theorem execSpliceApply_quiet (k array row : Nat) : Answers (Quiet s) (execSpliceApply k array row s) := by
  have h := Quiet.refl s
  unfold execSpliceApply
  extract_lets +onlyGivenNames x rows
  split
  · exact .next h
  · exact .next (Quiet.event (Quiet.healthCount (Quiet.editFlash h.editCore _) ..) ..)

theorem execPageRetire_quiet (t : Tier) (f fresh : Nat) : Answers (Quiet s) (execPageRetire t f fresh s) := by
  have h := Quiet.refl s
  unfold execPageRetire
  extract_lets +onlyGivenNames key poison due
  split
  · exact .next h
  · have hp : Quiet s { s with parts := s.parts.map fun (e : Nat × PartBlock) => (e.1, { e.2 with mem := e.2.mem.moveFrame t f fresh }) } := by
      refine h.withParts fun e he => ?_
      obtain ⟨x, hx, rfl⟩ := List.mem_map.mp he
      obtain ⟨hm, hs⟩ := h.part_mem hx
      exact ⟨hm, hs⟩
    refine .next (Quiet.event (Quiet.healthCount ?_ ..) ..)
    exact hp.same rfl

theorem Quiet.sample (h : Quiet s₀ s) (r : Readings) : Quiet s₀ (s.sample r) := h.editHealth

theorem execSensorReadTimeout_quiet (i : Nat) : Answers (Quiet s) (execSensorReadTimeout i s) := by
  have h := Quiet.refl s
  unfold execSensorReadTimeout
  split
  · exact .next h
  · exact .next h.editHealth

theorem Quiet.scorePeriod (h : Quiet s₀ s) : Quiet s₀ s.scorePeriod := h.editHealth

theorem Quiet.healthSecure (h : Quiet s₀ s) : Quiet s₀ s.healthSecure := by
  unfold State.healthSecure
  extract_lets t u
  have ht : Quiet s₀ t := h.event ..
  split
  · have hu : Quiet s₀ u := by
      refine .foldl (fun v p hv => ?_) _ ht
      dsimp only
      split
      · exact hv.editPart
      · exact hv
    exact hu.editHealth
  · exact ht

theorem Quiet.healthHalt (h : Quiet s₀ s) : Quiet s₀ s.healthHalt := by
  unfold State.healthHalt
  refine .foldl (fun v p hv => ?_) _ (Quiet.editHealth (h.event ..))
  dsimp only
  split
  · exact hv
  split
  · exact hv.editPart
  · exact hv.stopWith ..

theorem Quiet.healthLevels (h : Quiet s₀ s) (old : Nat) : Quiet s₀ (s.healthLevels old) := by
  unfold State.healthLevels
  extract_lets x t _ u v
  have ht : Quiet s₀ t := by
    simp only [t]
    split
    · exact h.editHealth
    · exact h
  have hu : Quiet s₀ u := by
    simp only [u]
    split
    · exact ht.editHealth
    · exact ht
  have hv : Quiet s₀ v := by
    simp only [v]
    split
    · exact hu.healthSecure
    · exact hu
  split
  · exact hv.healthHalt
  · exact hv

theorem execRailDroop_quiet (k : Nat) : Answers (Quiet s) (execRailDroop k s) := by
  have h := Quiet.refl s
  unfold execRailDroop
  extract_lets +onlyGivenNames x
  split
  · exact .next (Quiet.editHealth (Quiet.healthCount h.editCore ..))
  · exact .next h

theorem execDroopRearm_quiet (k : Nat) : Answers (Quiet s) (execDroopRearm k s) := .next (Quiet.refl s).editCore

theorem Quiet.leanRaise (h : Quiet s₀ s) (k stream : Nat) : Quiet s₀ (s.leanRaise k stream) := by
  unfold State.leanRaise
  extract_lets x y i
  have hy : y.scratch = (s.core k).scratch :=
    (Core.count_scratch ..).trans (iteProp_keeps (π := Core.scratch) (Core.count_scratch ..) rfl)
  split
  · exact h.editCore hy
  · have hz : ({ y with island := { i with offset := i.offset - 1, raises := i.raises + 1 } } : Core).scratch = (s.core k).scratch := hy
    exact Quiet.event (h.editCore hz) ..

theorem execLeanTimingError_quiet (k stream : Nat) (sameWindow : Bool) : Answers (Quiet s) (execLeanTimingError k stream sameWindow s) := by
  have h := Quiet.refl s
  unfold execLeanTimingError
  extract_lets x n _ t _ u
  have ht : Quiet s t := h.editCore (Core.count_scratch ..)
  have hu : Quiet s u := ht.editHealth
  refine .next ?_
  split
  · exact hu.leanRaise ..
  · exact hu

theorem execLeanCalm_quiet (k : Nat) : Answers (Quiet s) (execLeanCalm k s) := .next (Quiet.refl s).editCore

end Quiet

section Sound
variable {s : State}

/-- A power ceiling in its range (R604). -/
theorem Sound.pwrCap {x : Nat} (hx : 800 ≤ s.health.pwrCap → s.health.pwrCap ≤ 2200 → 800 ≤ x ∧ x ≤ 2200) :
    Sound s { s with health := { s.health with pwrCap := x } } :=
  .health fun ⟨hle, hlim, ⟨hlo, hhi⟩, hrest⟩ => ⟨hle, hlim, hx hlo hhi, hrest⟩

theorem Sound.powerStep (s : State) (p v : Nat) : Sound s { s with health := s.health.powerStep p v } := by
  unfold Health.powerStep
  dsimp only
  split
  · exact .pwrCap fun _ _ => by omega
  split
  · exact .pwrCap fun _ _ => by omega
  · exact .refl s

/-- A thermal ceiling in its range (R605). -/
theorem Sound.thermCap {d x : Nat} (hx : 800 ≤ s.thermCap d → s.thermCap d ≤ 2200 → 800 ≤ x ∧ x ≤ 2200) :
    Sound s { s with health := { s.health with thermCap := sput 2200 s.health.thermCap d x } } := by
  refine .health fun ⟨hle, hlim, hcap, htherm, hrest⟩ => ⟨hle, hlim, hcap, fun i => ?_, hrest⟩
  show 800 ≤ sget 2200 (sput 2200 s.health.thermCap d x) i ∧ sget 2200 (sput 2200 s.health.thermCap d x) i ≤ 2200
  rw [sget_sput]
  split
  · exact hx (htherm d).1 (htherm d).2
  · exact htherm i

theorem Sound.thermStep (s : State) (d : Nat) : Sound s (s.thermStep d) := by
  unfold State.thermStep
  extract_lets old new _ t
  have ht : Sound s t := by
    refine .thermCap fun hlo hhi => ?_
    simp only [new, old]
    split
    · omega
    · split_ifs
      · exact ⟨le_max_left .., max_le (by omega) (by omega)⟩
      · exact ⟨hlo, hhi⟩
      · exact ⟨le_min (by omega) (by omega), min_le_left ..⟩
  split
  · exact ht.trans ((Quiet.refl t).healthCount ..).sound
  · exact ht

theorem execHealthPeriod_sound (r : Readings) : Answers (Sound s) (execHealthPeriod r s) := by
  have h := ((Quiet.refl s).sample r).scorePeriod
  unfold execHealthPeriod
  extract_lets old t u v
  have hu : Sound s u := h.sound.trans (.powerStep ..)
  have hf : ∀ (l : List Nat) {x : State}, Sound s x → Sound s (l.foldl (fun s d => s.thermStep d) x) := fun l x hx =>
    foldl_holds (P := Sound s) (fun x d hx => hx.trans (.thermStep x d)) l hx
  exact .next ((hf _ hu).trans ((Quiet.refl _).applyFreqs.healthLevels old).sound)

theorem execOvercurrentFast_sound (amps : Nat) : Answers (Sound s) (execOvercurrentFast amps s) := by
  unfold execOvercurrentFast
  split
  · exact .next (.refl s)
  · refine .next (Sound.trans (.pwrCap fun _ _ => ?_) (((Quiet.refl _).healthCount ..).applyFreqs).sound)
    omega

end Sound

/-! ### DMA.KVAPP -/

section Quiet
variable {s₀ s : State}

theorem Quiet.addSubpage (h : Quiet s₀ s) {p n cache u : Nat} {q : State × Nat} (e : s.addSubpage p n cache u = some q) : Quiet s₀ q.1 := by
  unfold State.addSubpage at e
  dsimp only at e
  split at e
  · cases e
  · split at e
    · obtain ⟨t, ht, rfl⟩ := Option.map_eq_some_iff.mp e
      have hm := h.unitMapped ht
      refine Quiet.setSess (Quiet.countPart ?_ ..) ..
      exact hm.setMem ((((hm.bytes p).fill ..).fill ..).fill ..)
    · cases e

theorem Quiet.resolve (h : Quiet s₀ s) {p n cache u : Nat} {q : State × Nat} (e : s.resolve p n cache u = .ok q) : Quiet s₀ q.1 := by
  unfold State.resolve at e
  dsimp only at e
  split at e
  · cases e
  split at e
  · cases e
  split at e
  · split at e
    · cases e; exact h
    · cases e
  split at e
  · cases e; exact h.addSubpage ‹_›
  · cases e

theorem Quiet.kvRun {r : Run} (h : Quiet s₀ r.s) (C : KvRun) (va ea tokens lo hi : Nat) : Quiet s₀ (r.kvRun C va ea tokens lo hi).s := by
  unfold Run.kvRun
  extract_lets d b row0 sa xs
  generalize hg : r.get C.by' sa (2 * d.dm32) = g
  have hr : Quiet s₀ g.1.s := hg ▸ h.runGet ..
  obtain ⟨r₁, bs⟩ := g
  dsimp -zeta only
  extract_lets +onlyGivenNames raw
  generalize finiteMax xs.flatten = f
  obtain ⟨a, q⟩ := f
  dsimp -zeta only
  extract_lets +onlyGivenNames hd fresh r₂ scale
  have h₂ : Quiet s₀ r₂.s := by
    simp only [r₂]
    split
    · exact hr.runPut ..
    · exact hr
  refine foldl_holds (P := fun r : Run => Quiet s₀ r.s) (fun r x hx => ?_) _ h₂
  obtain ⟨u, x⟩ := x
  dsimp -zeta only
  split
  · exact hx
  · extract_lets +onlyGivenNames cells r₃ row r₄
    have h₃ : Quiet s₀ r₃.s := hx.convEffects ..
    have h₄ : Quiet s₀ r₄.s :=
      foldl_holds (P := fun r : Run => Quiet s₀ r.s) (fun _ _ hy => Quiet.runPutAll hy ..) _ h₃
    split
    · exact h₄
    · exact h₄.observe ..

theorem Quiet.kvSubpage {r : Run} (h : Quiet s₀ r.s) (C : KvRun) (p cache tokens u : Nat) : Quiet s₀ (r.kvSubpage C p cache tokens u).s := by
  unfold Run.kvSubpage
  dsimp only
  split
  · exact h
  split
  · exact h
  · exact foldl_holds (P := fun r : Run => Quiet s₀ r.s) (fun _ _ hx => hx.kvRun ..) _ (h.resolve ‹_›)

theorem Quiet.kvAppend (h : Quiet s₀ s) (k c : Nat) (b : Option (Nat × Nat)) (d : KvDesc) (f p : Nat) (x : Sess) :
    Quiet s₀ (s.kvAppend k c b d f p x).s :=
  foldl_holds (P := fun r : Run => Quiet s₀ r.s) (fun _ _ hx => hx.kvSubpage ..) _ h

theorem Quiet.runKv (h : Quiet s₀ s) (k : Nat) (o : InFlight) (j : KvJob) : Quiet s₀ (s.runKv k o j) := by
  unfold State.runKv
  extract_lets d p r e u v
  have hr : Quiet s₀ r.s := by
    simp only [r]
    split
    · exact h
    · exact h.kvAppend ..
  have hu : Quiet s₀ u := by
    simp only [u]
    split
    · exact hr
    · exact hr.setSess ..
  have hv : Quiet s₀ v := hu.modOp ..
  refine Quiet.startFarOf ?_ ..
  split
  · exact hv.faultAt ..
  · exact hv

theorem dmaKvappIssue_quiet (k c : Nat) (w : W64) : (dmaKvappIssue k c w s).All (Quiet s) := by
  have h := Quiet.refl s
  unfold dmaKvappIssue
  extract_lets
  split
  · trivial
  split
  · exact Quiet.faultLast (Quiet.faultAt (h.launch ..) ..) k
  extract_lets
  split
  · trivial
  · exact Quiet.launch (h.touchAt ..) ..

theorem execUnitStart_quiet (k : Nat) (u : UnitId) : Answers (Quiet s) (execUnitStart k u s) := by
  have h := Quiet.refl s
  unfold execUnitStart
  extract_lets +onlyGivenNames x
  split
  · exact .next h
  split
  · exact .next h
  extract_lets +onlyGivenNames y
  split
  · exact .next (h.startTile ..)
  · refine .next ?_
    cases hf : s.startFab k _ _ with
    | none => exact h
    | some t => exact h.startFab hf
  · exact .next (Quiet.runKv h.editCore ..)
  · split
    · exact .next h.editCore
    · exact .next h.editCore
  · exact .next h.editCore

end Quiet
end Sys2Proof.Machine
end

section
/-! PROOFS. Start-up, resets, trips and power failures are sound. -/

-- One proof at a time: in parallel the many `unfold`s wait for each other, with a thread for each that waits.
set_option Elab.async false

namespace Sys2Proof.Machine
/-! ### Start-up and resets -/

section Quiet
variable {s₀ s : State}

theorem Quiet.endEverything (h : Quiet s₀ s) (st : RecStatus) (f : FaultCode) : Quiet s₀ (s.endEverything st f) :=
  .foldl (fun _ _ ht => Quiet.endAll (.foldl (fun _ _ hu => hu.abandon _) _ ht) ..) _ h

theorem Quiet.editBoot (h : Quiet s₀ s) (b : Boot) : Quiet s₀ { s with boot := b } := h.same rfl
theorem Quiet.restart (h : Quiet s₀ s) (n : Nat) (f : Flash) (b : Boot) : Quiet s₀ { s with time := n, flash := f, boot := b } := h.same rfl

theorem Quiet.strapStage (h : Quiet s₀ s) (w : StageWork) : Quiet s₀ (s.strapStage w) := by
  unfold State.strapStage
  split
  · exact h.editBoot _
  · dsimp only
    split
    · exact h.editBoot _
    · exact (h.editBoot _).healthCount ..

theorem Quiet.checkStore (h : Quiet s₀ s) : Quiet s₀ s.checkStore := by
  unfold State.checkStore
  split
  · exact Quiet.event h.editHusk ..
  · exact h.editHusk

theorem Quiet.makeKeyPair (h : Quiet s₀ s) : Quiet s₀ s.makeKeyPair := by
  unfold State.makeKeyPair
  split
  · exact h.editFlash _
  · exact h

theorem Quiet.bootBank (h : Quiet s₀ s) (b : Bool) : Quiet s₀ (s.bootBank b) := h.editBoot _

theorem Quiet.chooseBank (h : Quiet s₀ s) : Quiet s₀ s.chooseBank.1 := by
  unfold State.chooseBank
  extract_lets safe rest
  have hr : ∀ {t : State}, Quiet s₀ t → Quiet s₀ (rest t).1 := by
    intro t ht
    simp only [rest]
    split
    · exact ht.bootBank _
    split
    · exact ht.bootBank _
    · exact ht
  split
  · split
    · exact hr h
    split
    · exact h.bootBank _
    · exact hr (h.restart s.time _ _)
  · exact hr h

theorem Quiet.loadFabrec (h : Quiet s₀ s) : Quiet s₀ s.loadFabrec := by
  unfold State.loadFabrec
  split
  · exact h.editFabric
  · have hb := h.editBoot { s.boot with fabricOff := true }
    exact hb.editFabric

theorem Quiet.testRow (h : Quiet s₀ s) (r : Nat × Nat × Nat) : Quiet s₀ (s.testRow r) := by
  unfold State.testRow
  dsimp only
  split
  · exact h
  split
  · exact h.retirePosition ..
  · exact h.editFlash _

theorem Quiet.testCore (h : Quiet s₀ s) (c : Nat) : Quiet s₀ (s.testCore c) := by
  unfold State.testCore
  split
  · exact h
  · exact h.retirePosition ..

theorem Quiet.loadSplices (h : Quiet s₀ s) (k : Nat) : Quiet s₀ (s.loadSplices k) := by
  unfold State.loadSplices
  dsimp only
  split
  · exact h
  · exact h.editCore

theorem Quiet.fillAlias (h : Quiet s₀ s) (k : Nat) : Quiet s₀ (s.fillAlias k) := by
  unfold State.fillAlias
  split
  · cases hs : s.takeSpare k 0 with
    | none => exact h.editCore
    | some t => exact h.takeSpare hs
  · exact h

theorem Quiet.loadCores (h : Quiet s₀ s) : Quiet s₀ s.loadCores := by
  delta State.loadCores
  generalize List.range 512 = l
  generalize List.range 4 = d
  extract_lets bad t u
  have ht : Quiet s₀ t := h.same rfl
  exact .foldl (fun _ k hx => hx.loadSplices k) _ (.foldl (fun _ k hx => hx.fillAlias k) _ ht)

theorem Quiet.fabricStage (h : Quiet s₀ s) (up : List Nat) : Quiet s₀ (s.fabricStage up) := by
  delta State.fabricStage
  generalize List.range 4096 = l
  exact h.editFabric

theorem Quiet.becomeReady (h : Quiet s₀ s) : Quiet s₀ s.becomeReady := by
  unfold State.becomeReady
  extract_lets b flash _ t n u
  have ht : Quiet s₀ t := h.same rfl
  have hu : Quiet s₀ u := .foldl (fun _ _ hx => hx.event ..) _ ht
  split
  · exact hu.event ..
  · exact hu

end Quiet

section Sound
variable {s t : State}

theorem cleared_wf (hwf : s.memoryWf = true) : s.cleared.memoryWf = true := by
  obtain ⟨-, -, hh, hr, -⟩ := s.memoryWf_iff.mp hwf
  have hc : s.cleared.cores = [] := rfl
  have hp : s.cleared.parts = [] := rfl
  refine s.cleared.memoryWf_iff.mpr ⟨?_, ?_, hh, hr, rfl⟩
  · rw [hc]
    exact fun _ he => absurd he List.not_mem_nil
  · rw [hp]
    exact fun _ he => absurd he List.not_mem_nil

/-- After a reset the registers hold their reset values, which are lawful. -/
theorem cleared_lawful (s : State) : s.cleared.Lawful := by
  obtain ⟨hle, hlim, hcap, htherm, hrsp, hplace, -⟩ := State.reset_lawful
  exact ⟨hle, hlim, hcap, htherm, hrsp, hplace, .inl rfl⟩

theorem Sound.cleared (h : Sound s t) : Sound s t.cleared :=
  ⟨h.fuses.trans (.refl _), fun _ => cleared_lawful t, fun hw => cleared_wf (h.wf hw)⟩

theorem Sound.editBoot (h : Sound s t) (b : Boot) : Sound s { t with boot := b } := h.trans ((Quiet.refl t).editBoot b).sound

theorem Sound.powerDown (h : Sound s t) (st : RecStatus) (f : FaultCode) (cut : Bool) : Sound s (t.powerDown st f cut) :=
  (h.trans ((Quiet.refl t).endEverything st f).sound).cleared.editBoot _

theorem Sound.moduleReset (h : Sound s t) : Sound s t.moduleReset :=
  (h.trans ((Quiet.refl t).endEverything ..).sound).cleared.editBoot _

theorem Sound.stage15 (h : Sound s t) (f : FaultCode) : Sound s (t.stage15 f) := by
  unfold State.stage15
  dsimp only
  split
  · exact h.cleared.trans ((Quiet.refl _).restart ..).sound
  · exact h.editBoot _

theorem Sound.trip (h : Sound s t) (f : FaultCode) : Sound s (t.trip f) := by
  unfold State.trip
  extract_lets b u
  have hu : Sound s u := h.trans ((Quiet.refl t).endEverything ..).sound
  exact Sound.stage15 (hu.cleared.trans ((Quiet.refl _).restart u.time u.cleared.flash b).sound) f

/-- ZEROISING cleared, with what it kept for its record. -/
theorem Sound.endZeroising (h : Sound s t) :
    Sound s { t with fuses := { t.fuses with zeroising := false }, flash := { t.flash with zeroing := none } } :=
  ⟨h.fuses, h.lawful, h.wf⟩

theorem Sound.resumeZeroise (h : Sound s t) : Sound s t.resumeZeroise := by
  delta State.resumeZeroise
  split
  · have hz := h.trans (Quiet.refl t).zeroise.sound
    generalize t.zeroise = v at hz ⊢
    have hw := hz.endZeroising
    dsimp only at hw ⊢
    generalize { v with fuses := { v.fuses with zeroising := false }, flash := { v.flash with zeroing := none } } = w at hw ⊢
    generalize v.flash.zeroing = z
    obtain - | ⟨n, o, old⟩ := z
    · exact hw.trans (Quiet.event (Quiet.refl w).free ..).sound
    · exact hw.trans (Quiet.event ((Quiet.refl w).admDone ..) ..).sound
  · exact h

theorem Sound.romStage (h : Sound s t) : Sound s t.romStage := by
  have hr := (h.trans (Quiet.refl t).checkStore.sound).resumeZeroise
  have hk := hr.trans (Quiet.refl _).makeKeyPair.sound
  unfold State.romStage
  generalize t.checkStore.resumeZeroise.makeKeyPair = u at hk ⊢
  have hc := hk.trans (Quiet.refl u).chooseBank.sound
  dsimp only
  generalize u.chooseBank = c at hc ⊢
  obtain ⟨v, b⟩ := c
  cases b
  · exact hc.stage15 _
  · have hf : Quiet v { v with frames := { v.frames with retired := v.flash.repair.frames } } := Quiet.same (.refl v) rfl
    exact (hc.trans hf.loadFabrec.sound).editBoot _

theorem Sound.memStage (h : Sound s t) (w : StageWork) : Sound s (t.memStage w) := by
  unfold State.memStage
  extract_lets r new all _ _ u
  have hu : Sound s u := h.trans ((Quiet.refl t).restart t.time ..).sound
  split
  · exact hu.stage15 _
  · exact hu.editBoot _

theorem Sound.testStage (h : Sound s t) (w : StageWork) : Sound s (t.testStage w) := by
  unfold State.testStage
  split
  · exact h.stage15 _
  · have hr : Quiet t (w.badRows.foldl (fun s r => s.testRow r) t) := .foldl (fun _ _ hx => hx.testRow _) _ (.refl t)
    have hc : Quiet t (w.badCores.foldl (fun s c => s.testCore c) (w.badRows.foldl (fun s r => s.testRow r) t)) :=
      .foldl (fun _ _ hx => hx.testCore _) _ hr
    exact (h.trans hc.loadCores.sound).editBoot _

theorem execEnChange_sound (level : Bool) : Answers (Sound s) (execEnChange level s) := by
  unfold execEnChange
  split
  · exact .next (.refl s)
  split
  · exact .next (Sound.refl s).cleared
  · exact .next ((Sound.refl s).powerDown ..)

theorem execSysReset_sound : Answers (Sound s) (execSysReset s) := by
  unfold execSysReset
  split
  · exact .next (Sound.refl s).moduleReset
  · exact .next (.refl s)

theorem execModuleReset_sound (i : Nat) : Answers (Sound s) (execModuleReset i s) := by
  unfold execModuleReset
  split
  · exact .next (.refl s)
  split
  · exact .next ((Quiet.refl s).emit _).sound
  · exact .next ((Quiet.refl s).emit _).sound.moduleReset

theorem execPerstRelease_quiet (n : Nat) : Answers (Quiet s) (execPerstRelease n s) := by
  unfold execPerstRelease
  refine .next ?_
  split
  · exact ((Quiet.refl s).setPort ..).portBack n
  · exact .refl s

theorem execStageComplete_sound (w : StageWork) : Answers (Sound s) (execStageComplete w s) := by
  have h := Sound.refl s
  unfold execStageComplete
  extract_lets go
  have hgo : ∀ (n : Nat) {t : State}, Sound s t → Sound s (go n t) := fun _ _ ht => ht.editBoot _
  split
  · exact .next h
  split
  · exact .next ((Quiet.refl s).strapStage w).sound
  · exact .next h.romStage
  · exact .next (hgo 4 h)
  · exact .next (hgo 5 h)
  · exact .next (hgo 6 (h.editBoot _))
  · exact .next (h.memStage w)
  · exact .next (h.testStage w)
  · exact .next ((Quiet.refl s).fabricStage _).becomeReady.sound
  · exact .next h

theorem execStageTimeout_sound : Answers (Sound s) (execStageTimeout s) := by
  have h := Sound.refl s
  unfold execStageTimeout
  split
  · exact .next h
  split
  · exact .next (h.editBoot _)
  · exact .next ((Quiet.refl s).checkStore.sound.stage15 _)
  · exact .next (h.stage15 _)
  · exact .next (h.stage15 _)
  · exact .next (h.stage15 _)
  · exact .next (h.stage15 _)
  · exact .next (h.stage15 _)
  · exact .next ((Quiet.refl s).fabricStage _).becomeReady.sound
  · exact .next h

/-- What a zeroisation cut short keeps: the debug level may be one that RETURN does not allow, until the power-down clears it. -/
structure Burned (s t : State) : Prop where
  fuses : s.fuses.Keeps t.fuses
  wf : s.memoryWf = true → t.memoryWf = true

theorem Quiet.burned (h : Quiet s t) : Burned s t := ⟨h.sound.fuses, h.wf⟩

theorem stable_burned (s : State) : Stable s (Burned s) :=
  ⟨Quiet.burned, fun h g => ⟨h.fuses.trans g.sound.fuses, g.wf ∘ h.wf⟩⟩

theorem Burned.powerDown (h : Burned s t) (st : RecStatus) (f : FaultCode) (cut : Bool) : Sound s (t.powerDown st f cut) := by
  obtain ⟨hf, hw⟩ := (stable_burned s).step h ((Quiet.refl t).endEverything st f)
  have hc : Sound s (t.endEverything st f).cleared := ⟨hf.trans (.refl _), fun _ => cleared_lawful _, fun h0 => cleared_wf (hw h0)⟩
  exact hc.editBoot _

theorem zeroisingCut_burned (n : Nat) (e : Entry) : Burned s (s.zeroisingCut n e) := by
  have hs := (Quiet.refl s).burned
  unfold State.zeroisingCut
  extract_lets r
  have hr : Answers (Burned s) r := by
    refine critCmd_answers (stable_burned s) (fun o t ht => ?_) ..
    split
    · rename_i u _ hu
      obtain ⟨-, hne, -⟩ := Sound.transition hu
      exact (stable_burned s).step (t := { t with fuses := { t.fuses with lc := .returned, zeroising := true } })
        ⟨ht.sound.fuses.trans ⟨BitVec.and_self, id, le_rfl, fun _ => id, fun _ => id, id, rfl, fun hc => absurd hc hne⟩, ht.wf⟩
        ((Quiet.refl _).editFlash _)
    · trivial
  obtain ⟨t, e, ht⟩ := hr
  rw [e]
  dsimp only
  split
  · exact ht
  · exact hs

theorem execPowerFailure_sound (x : PowerCut) : Answers (Sound s) (execPowerFailure x s) := by
  unfold execPowerFailure
  split
  · dsimp only
    split
    · exact .next ((zeroisingCut_burned ..).powerDown ..)
    · exact .next ((Sound.refl s).powerDown ..)
  · exact .next (.refl s)

theorem execOvercurrentTrip_sound (amps : Nat) : Answers (Sound s) (execOvercurrentTrip amps s) := by
  unfold execOvercurrentTrip
  split
  · exact .next ((Sound.refl s).powerDown ..)
  · exact .next (.refl s)

theorem execAonRailFault_sound : Answers (Sound s) (execAonRailFault s) := by
  unfold execAonRailFault
  split
  · exact .next ((Sound.refl s).cleared.editBoot _)
  · exact .next (.refl s)

/-- A trip under its condition. -/
theorem tripIf_sound (c : Prop) [Decidable c] (f : FaultCode) : Answers (Sound s) (if c then .next (s.trip f) else .next s) := by
  split
  · exact .next ((Sound.refl s).trip f)
  · exact .next (.refl s)

end Sound
end Sys2Proof.Machine
end

section
/-! PROOFS. Management, host copies and inbound streams are quiet. -/

-- One proof at a time: in parallel the many `unfold`s wait for each other, with a thread for each that waits.
set_option Elab.async false

namespace Sys2Proof.Machine
/-! ### Management -/

section Quiet
variable {s₀ s : State}

theorem Quiet.answer (h : Quiet s₀ s) (i : Nat) (r : Reply) : Quiet s₀ (s.answer i r) := by
  unfold State.answer
  split
  · exact h.emit _
  · exact h

theorem Quiet.editMgmt (h : Quiet s₀ s) (m : Mgmt) : Quiet s₀ { s with mgmt := m } := h.same rfl

theorem Quiet.spdm (h : Quiet s₀ s) (i : Nat) (r : Reply) : Quiet s₀ (s.spdm i r) := by
  unfold State.spdm
  split
  · exact h
  · exact h.answer ..

theorem Quiet.sign (h : Quiet s₀ s) (msg : List Byte) : Quiet s₀ (s.sign msg).2 := h.same rfl

theorem execMctpControl_quiet (i : Nat) (x : MctpRequest) : Answers (Quiet s) (execMctpControl i x s) := by
  have h := Quiet.refl s
  unfold execMctpControl
  dsimp only
  split
  · exact .next h
  split
  · exact .next (h.healthCount ..)
  split
  · exact .next (Quiet.answer (h.editMgmt _) ..)
  · exact .next (h.answer ..)

theorem execSetEventReceiver_quiet (i : Nat) (eid : Byte) : Answers (Quiet s) (execSetEventReceiver i eid s) := by
  have h := Quiet.refl s
  unfold execSetEventReceiver
  split
  · exact .next (Quiet.answer (h.editMgmt _) ..)
  · exact .next h

theorem execPlatformEventMessage_quiet : Answers (Quiet s) (execPlatformEventMessage s) := by
  unfold execPlatformEventMessage
  split
  · exact .next (Quiet.same (.refl s) rfl)
  · exact .next (.refl s)

theorem execFabrecWrite_quiet (i : Nat) (record : BitVec 128) : Answers (Quiet s) (execFabrecWrite i record s) := by
  have h := Quiet.refl s
  unfold execFabrecWrite
  split
  · exact .next h
  split
  · exact .next (Quiet.answer (h.editFlash _) ..)
  · exact .next (h.answer ..)

theorem Quiet.recoverImage (h : Quiet s₀ s) (i : Nat) (image : List Byte) (flashOk : Bool) : Quiet s₀ (s.recoverImage i image flashOk) := by
  unfold State.recoverImage
  extract_lets _ t f
  have ht : Quiet s₀ t := h.same rfl
  split
  · exact ht.answer ..
  split
  · exact Quiet.answer (ht.editFlash _) ..
  · exact Quiet.answer (ht.editFlash _) ..

theorem execFwRecover_quiet (i : Nat) (chunk : List Byte) (last flashOk : Bool) : Answers (Quiet s) (execFwRecover i chunk last flashOk s) := by
  have h := Quiet.refl s
  unfold execFwRecover
  split
  · exact .next h
  split
  · exact .next (h.answer ..)
  dsimp only
  split
  · exact .next (h.recoverImage ..)
  · exact .next (Quiet.answer (h.editMgmt _) ..)

theorem execGetCertificate_quiet (i slot offset len : Nat) : Answers (Quiet s) (execGetCertificate i slot offset len s) := by
  unfold execGetCertificate
  dsimp only
  split
  · exact .next ((Quiet.refl s).spdm ..)
  · exact .next ((Quiet.refl s).spdm ..)

theorem execChallenge_quiet (i slot : Nat) (nonce : BitVec 256) : Answers (Quiet s) (execChallenge i slot nonce s) := by
  unfold execChallenge
  split
  · exact .next ((Quiet.refl s).spdm ..)
  · exact .next (Quiet.spdm ((Quiet.refl s).sign (leBytes 32 nonce.toNat)) ..)

theorem execGetMeasurements_quiet (i index : Nat) (sign : Bool) (nonce : BitVec 256) :
    Answers (Quiet s) (execGetMeasurements i index sign nonce s) := by
  unfold execGetMeasurements
  split
  · exact .next ((Quiet.refl s).spdm ..)
  extract_lets l blocks
  split
  · exact .next (Quiet.spdm ((Quiet.refl s).sign (leBytes 32 nonce.toNat ++ blocks.flatMap (·.2))) ..)
  · exact .next ((Quiet.refl s).spdm ..)

theorem Quiet.runTest (h : Quiet s₀ s) (op : TestOp) : Quiet s₀ (s.runTest op) := by
  unfold State.runTest
  split
  · split
    · exact (h.coreRead ‹_›).emit _
    · exact h.emit _
  · exact h.editCore (Core.regWrite_scratch ..)
  · exact h.emit _
  · split
    · exact h.setCore ((h.scratch _).sput ..)
    · exact h
  · exact h.emit _
  · split
    · exact h.setMem ((h.bytes _).sput ..)
    · exact h
  · split
    · exact h.emit _
    · exact h.free.emit _
  · split
    · exact h.setMem ((h.bytes _).sput ..)
    · exact h
  · exact h.emit _
  · split
    · exact h.editHealth
    · exact h
  · exact h.emit _
  · dsimp only
    split
    · exact h
    · exact h.editFlash _
  · exact h.emit _
  · exact h.emit _

theorem execTestPortAccess_quiet (op : TestOp) : Answers (Quiet s) (execTestPortAccess op s) := by
  have h := Quiet.refl s
  unfold execTestPortAccess
  split
  · exact .next (Quiet.runTest (h.editMgmt _) op)
  · exact .next (h.editMgmt _)

/-! ### Host copies and inbound streams -/

theorem CmdRes.mended_quiet {r : CmdRes} (h : r.All (Quiet s)) (p : Nat) (mem : MemErr) : (r.mended p mem).All (Quiet s) := by
  cases r with
  | done t v => exact Quiet.mend h p mem
  | fail t f => exact Quiet.mend h p mem
  | owes t => exact h
  | hold => trivial

theorem execHcopy_quiet (p : Nat) (e : Entry) (host : Option Nat) (mem : MemErr) : Answers (Quiet s) (execHcopy p e host mem s) := by
  refine partCmd_quiet (fun o t ht => ?_) ..
  extract_lets ha va n u port toHost
  split
  · exact ht
  have hu : Quiet s u := ht.strike ..
  generalize u.hcopyStop p _ va n host = g
  obtain ⟨k, f⟩ := g
  dsimp -zeta only
  extract_lets v w
  have hv : Quiet s v := by
    simp only [v]
    split
    · exact (hu.setHostMem ((hu.hostMemOf _).writeBytes ..)).setMem (Canonical.note (hu.bytes p) va k false)
    · exact hu.setMem ((hu.bytes p).store ..)
  have hw : Quiet s w := hv.startFarOwn p
  refine CmdRes.mended_quiet ?_ ..
  cases f with
  | none => exact hw
  | some c => exact hw

theorem Quiet.discardBurst (h : Quiet s₀ s) (p i : Nat) : Quiet s₀ (s.discardBurst p i) := by
  unfold State.discardBurst
  extract_lets x
  split
  · exact h
  · extract_lets t
    have ht : Quiet s₀ t := h.editPart
    split
    · split
      · exact ht.failItem ..
      · exact ht
    · exact ht

theorem execStreamCfg_quiet (p : Nat) (e : Entry) : Answers (Quiet s) (execStreamCfg p e s) := by
  refine partCmd_quiet (fun o t ht => ?_) ..
  dsimp only
  split
  · exact ht
  · exact Quiet.editPart (ht.discardBurst ..)

theorem keepChunk_quiet {t : State} (ht : Quiet s t) (p i : Nat) (bs : List Byte) (seq : W32) (last : Bool) :
    (keepChunk p i bs seq last t).All (Quiet s) := by
  unfold keepChunk
  extract_lets x a u y v
  split
  · exact ht
  · have hu : Quiet s u := Quiet.startFarOwn (ht.setMem ((ht.bytes p).store ..)) p
    have hv : Quiet s v := hu.editPart
    show Quiet s (ite ..)
    split
    · exact hv.signal ..
    · exact hv

theorem execChunk_quiet (p : Nat) (e : Entry) (hostOk : Bool) : Answers (Quiet s) (execChunk p e hostOk s) := by
  refine partCmd_quiet (fun o t ht => ?_) ..
  extract_lets +onlyGivenNames i first last seq ha n b x
  split
  · exact ht
  split
  · exact ht
  extract_lets +onlyGivenNames bs
  split
  · exact keepChunk_quiet (Quiet.editPart (ht.discardBurst ..)) ..
  split
  · split
    · exact keepChunk_quiet ht ..
    · refine Quiet.countPart ?_ ..
      split
      · exact ht.discardBurst ..
      · exact ht
  · exact ht.countPart ..

end Quiet
end Sys2Proof.Machine
end

section
/-! PROOFS. Every command answers a next state and is sound; so is every step. -/

-- One proof at a time: in parallel the many `unfold`s wait for each other, with a thread for each that waits.
set_option Elab.async false

namespace Sys2Proof.Machine
/-! ### Every command -/

section Quiet
variable {s : State}

theorem execSclCmp_quiet (k c : Nat) (w : W64) : Answers (Quiet s) (execSclCmp k c w s) :=
  issue_quiet (m := .go _) ((Quiet.refl s).putP ..)

theorem execSclAdd_quiet (k c : Nat) (w : W64) : Answers (Quiet s) (execSclAdd k c w s) := issue_quiet (sclResult_quiet k c w fun a b i => a + b + i)

theorem execSclMul_quiet (k c : Nat) (w : W64) : Answers (Quiet s) (execSclMul k c w s) := issue_quiet (sclResult_quiet k c w fun a b _ => a * b)

theorem execSclLih_quiet (k c : Nat) (w : W64) : Answers (Quiet s) (execSclLih k c w s) :=
  issue_quiet (sclResult_quiet k c w fun a _ i => (i <<< 32) ||| (a &&& 0xFFFFFFFF#64))

theorem execSclJr_quiet (k c : Nat) (w : W64) : Answers (Quiet s) (execSclJr k c w s) :=
  issue_quiet (m := .jump _ _) ((Quiet.refl s).putS ..)

theorem execSclIflush_quiet (k c : Nat) (w : W64) : Answers (Quiet s) (execSclIflush k c w s) :=
  issue_quiet (m := .go _) (Quiet.refl s).editCore

theorem execSyncSignal_quiet (k c : Nat) (w : W64) : Answers (Quiet s) (execSyncSignal k c w s) :=
  issue_quiet (unitIssue_all (syncIssue_all (f := fun _ => .go _) (fun _ => ((Quiet.refl s).signal ..).launch ..) k c w) k .sync)

theorem execSyncWait_quiet (k c : Nat) (w : W64) : Answers (Quiet s) (execSyncWait k c w s) :=
  issue_quiet (syncIssue_all (f := fun _ => .go _) (fun _ => (Quiet.refl s).waitOn (.refl s) ..) k c w)

theorem execSessStep_quiet (k c : Nat) (w : W64) : Answers (Quiet s) (execSessStep k c w s) :=
  issue_quiet (m := .go _) ((Quiet.refl s).enterWait ..)

end Quiet

/-- A quiet answer is a sound one. -/
theorem quietly {s : State} {o : Host.Outcome State Fault Refusal} (h : Answers (Quiet s) o) : Answers (Sound s) o := h.mono fun _ => Quiet.sound

/-- Every command answers a next state, and that state keeps the fuses, the ruled registers' rules and the memories' canonical form. -/
theorem exec_sound (i : Instr) (s : State) : Answers (Sound s) (exec i s) :=
  match i with
  | .sclAdd core ctx w => quietly (execSclAdd_quiet core ctx w)
  | .sclSub .. => quietly (sclOp_quiet ..)
  | .sclAnd .. => quietly (sclOp_quiet ..)
  | .sclOr .. => quietly (sclOp_quiet ..)
  | .sclXor .. => quietly (sclOp_quiet ..)
  | .sclShl .. => quietly (sclOp_quiet ..)
  | .sclShr .. => quietly (sclOp_quiet ..)
  | .sclSra .. => quietly (sclOp_quiet ..)
  | .sclMin .. => quietly (sclOp_quiet ..)
  | .sclMax .. => quietly (sclOp_quiet ..)
  | .sclMinu .. => quietly (sclOp_quiet ..)
  | .sclMaxu .. => quietly (sclOp_quiet ..)
  | .sclSubi .. => quietly (sclOpi_quiet ..)
  | .sclAndi .. => quietly (sclOpi_quiet ..)
  | .sclOri .. => quietly (sclOpi_quiet ..)
  | .sclXori .. => quietly (sclOpi_quiet ..)
  | .sclShli .. => quietly (sclOpi_quiet ..)
  | .sclShri .. => quietly (sclOpi_quiet ..)
  | .sclSrai .. => quietly (sclOpi_quiet ..)
  | .sclMini .. => quietly (sclOpi_quiet ..)
  | .sclMaxi .. => quietly (sclOpi_quiet ..)
  | .sclMinui .. => quietly (sclOpi_quiet ..)
  | .sclMaxui .. => quietly (sclOpi_quiet ..)
  | .sclMul core ctx w => quietly (execSclMul_quiet core ctx w)
  | .sclCmp core ctx w => quietly (execSclCmp_quiet core ctx w)
  | .sclLih core ctx w => quietly (execSclLih_quiet core ctx w)
  | .sclLd .. => quietly (issue_quiet (sclLoad_quiet ..))
  | .sclLdw .. => quietly (issue_quiet (sclLoad_quiet ..))
  | .sclSt .. => quietly (issue_quiet (sclStore_quiet ..))
  | .sclStw .. => quietly (issue_quiet (sclStore_quiet ..))
  | .sclBr core ctx w => quietly (execSclBr_quiet core ctx w)
  | .sclJr core ctx w => quietly (execSclJr_quiet core ctx w)
  | .sclTld core ctx w => quietly (execSclTld_quiet core ctx w)
  | .sclCsrr core ctx w => quietly (execSclCsrr_quiet core ctx w)
  | .sclCsrw core ctx w => quietly (execSclCsrw_quiet core ctx w)
  | .sclFence core ctx w => quietly (execSclFence_quiet core ctx w)
  | .sclHalt core ctx w => quietly (execSclHalt_quiet core ctx w)
  | .sclIflush core ctx w => quietly (execSclIflush_quiet core ctx w)
  | .dmaCopy .. => quietly (issue_quiet (unitIssue_all (mended_all (dmaCopyIssue_quiet ..) ..) ..))
  | .dmaLin .. => quietly (issue_quiet (unitIssue_all (mended_all (dmaLinIssue_quiet ..) ..) ..))
  | .dmaList .. => quietly (issue_quiet (unitIssue_all (dmaListIssue_quiet ..) ..))
  | .dmaKvapp .. => quietly (issue_quiet (unitIssue_all (dmaKvappIssue_quiet ..) ..))
  | .arrStream .. => quietly (issue_quiet (unitIssue_all (arrIssue_quiet ..) ..))
  | .arrCam .. => quietly (issue_quiet (unitIssue_all (camIssue_quiet ..) ..))
  | .epiLoad core ctx w => quietly (execEpiLoad_quiet core ctx w)
  | .epiSzero core ctx w => quietly (execEpiSzero_quiet core ctx w)
  | .epiSdrain core ctx w => quietly (execEpiSdrain_quiet core ctx w)
  | .vecAdd .. => quietly (vecOp2_quiet ..)
  | .vecSub .. => quietly (vecOp2_quiet ..)
  | .vecMul .. => quietly (vecOp2_quiet ..)
  | .vecMin .. => quietly (vecOp2_quiet ..)
  | .vecMax .. => quietly (vecOp2_quiet ..)
  | .vecFma .. => quietly (vecPut_quiet ..)
  | .vecCmp .. => quietly (vecPut_quiet ..)
  | .vecExp2 .. => quietly (vecFn_quiet ..)
  | .vecLog2 .. => quietly (vecFn_quiet ..)
  | .vecRcp .. => quietly (vecFn_quiet ..)
  | .vecRsqrt .. => quietly (vecFn_quiet ..)
  | .vecAct .. => quietly (vecPut_quiet ..)
  | .vecDact .. => quietly (vecPut_quiet ..)
  | .vecRsum .. => quietly (vecRed_quiet ..)
  | .vecRmax .. => quietly (vecRed_quiet ..)
  | .vecLd core ctx w => quietly (execVecLd_quiet core ctx w)
  | .vecSt core ctx w => quietly (execVecSt_quiet core ctx w)
  | .vecBcast .. => quietly (vecPut_quiet ..)
  | .vecTload core ctx w => quietly (execVecTload_quiet core ctx w)
  | .vecSadd core ctx w => quietly (execVecSadd_quiet core ctx w)
  | .tabStream .. => quietly (issue_quiet (unitIssue_all (tabIssue_quiet ..) ..))
  | .tabLog .. => quietly (issue_quiet (unitIssue_all (tabIssue_quiet ..) ..))
  | .quantCfg core ctx w => quietly (execQuantCfg_quiet core ctx w)
  | .quantStep core ctx w => quietly (execQuantStep_quiet core ctx w)
  | .quantClr core ctx w => quietly (execQuantClr_quiet core ctx w)
  | .quantCheck core ctx w => quietly (execQuantCheck_quiet core ctx w)
  | .quantPropose core ctx w => quietly (execQuantPropose_quiet core ctx w)
  | .guardSel core ctx w => quietly (execGuardSel_quiet core ctx w)
  | .guardRun .. => quietly (issue_quiet (unitIssue_all (guardIssue_quiet ..) ..))
  | .slotGet .. => quietly (issue_quiet (slotWait_quiet ..))
  | .slotPut .. => quietly (issue_quiet (slotWait_quiet ..))
  | .slotFill .. => quietly (issue_quiet (slotSignal_quiet ..))
  | .slotDrain .. => quietly (issue_quiet (slotSignal_quiet ..))
  | .syncSignal core ctx w => quietly (execSyncSignal_quiet core ctx w)
  | .syncWait core ctx w => quietly (execSyncWait_quiet core ctx w)
  | .syncFadd core ctx w => quietly (execSyncFadd_quiet core ctx w)
  | .syncCmp core ctx w => quietly (execSyncCmp_quiet core ctx w)
  | .sessItem core ctx w => quietly (execSessItem_quiet core ctx w)
  | .sessEnd core ctx w => quietly (execSessEnd_quiet core ctx w)
  | .sessStep core ctx w => quietly (execSessStep_quiet core ctx w)
  | .sessNext core ctx w => quietly (execSessNext_quiet core ctx w)
  | .sessHint core ctx w => quietly (execSessHint_quiet core ctx w)
  | .fabGet .. => quietly (issue_quiet (unitIssue_all (fabIssue_quiet ..) ..))
  | .fabPut .. => quietly (issue_quiet (unitIssue_all (fabIssue_quiet ..) ..))
  | .unitStart core unit => quietly (execUnitStart_quiet core unit)
  | .accRepeat core id => quietly (execAccRepeat_quiet core id)
  | .outputWordWrite core id => quietly (execOutputWordWrite_quiet core id)
  | .tileDone core id => quietly (execTileDone_quiet core id)
  | .guardedRingUnit core id ring => quietly (execGuardedRingUnit_quiet core id ring)
  | .scatterAddIssue core bank waited => quietly (execScatterAddIssue_quiet core bank waited)
  | .narrowPromote core => quietly (execNarrowPromote_quiet core)
  | .instrComplete core id => quietly (execInstrComplete_quiet core id)
  | .waitSatisfied obj => quietly (execWaitSatisfied_quiet obj)
  | .watchdogExpiry core who => quietly (execWatchdogExpiry_quiet core who)
  | .xiTimeout core id => quietly (execXiTimeout_quiet core id)
  | .dmaListEntry core id mem => quietly (execDmaListEntry_quiet core id mem)
  | .stepBoundary part fail => quietly (execStepBoundary_quiet part fail)
  | .programEnd part => quietly (execProgramEnd_quiet part)
  | .req part e => quietly (execReq_quiet part e)
  | .cancel part e => quietly (execCancel_quiet part e)
  | .start part e fabric => quietly (execStart_quiet part e fabric)
  | .stop part e => quietly (execStop_quiet part e)
  | .memMap part e => quietly (execMemMap_quiet part e)
  | .memUnmap part e => quietly (execMemUnmap_quiet part e)
  | .hcopy part e host mem => quietly (execHcopy_quiet part e host mem)
  | .streamCfg part e => quietly (execStreamCfg_quiet part e)
  | .chunk part e hostOk => quietly (execChunk_quiet part e hostOk)
  | .cxlWin part e => quietly (execCxlWin_quiet part e)
  | .kvArena part e => quietly (execKvArena_quiet part e)
  | .sessOpen part e => quietly (execSessOpen_quiet part e)
  | .sessClose part e => quietly (execSessClose_quiet part e)
  | .sessTrim part e => quietly (execSessTrim_quiet part e)
  | .sessQuery part e hostOk => quietly (execSessQuery_quiet part e hostOk)
  | .sessionRelease session => quietly (execSessionRelease_quiet session)
  | .winGrant part e => quietly (execWinGrant_quiet part e)
  | .winClose part e => quietly (execWinClose_quiet part e)
  | .winFree part e => quietly (execWinFree_quiet part e)
  | .spillWinGrant port e backed => quietly (execSpillWinGrant_quiet port e backed)
  | .spillWinClose port e localRoom => quietly (execSpillWinClose_quiet port e localRoom)
  | .spillWinFree port e => quietly (execSpillWinFree_quiet port e)
  | .windowClosed win => quietly (execWindowClosed_quiet win)
  | .winImport part e => quietly (execWinImport_quiet part e)
  | .winForget part e => quietly (execWinForget_quiet part e)
  | .repair part e fabric => quietly (execRepair_quiet part e fabric)
  | .partCreate port e => quietly (execPartCreate_quiet port e)
  | .partDestroy port e => quietly (execPartDestroy_quiet port e)
  | .partReshape port e => quietly (execPartReshape_quiet port e)
  | .routeLoad port e hostOk => quietly (execRouteLoad_quiet port e hostOk)
  | .takeover port e => quietly (execTakeover_quiet port e)
  | .keyLoad port e hostOk => quietly (execKeyLoad_quiet port e hostOk)
  | .keyRotate port e hostOk => quietly (execKeyRotate_quiet port e hostOk)
  | .keyErase port e => quietly (execKeyErase_quiet port e)
  | .fwLoad port e hostOk flashOk => quietly (execFwLoad_quiet port e hostOk flashOk)
  | .debugSet port e => execDebugSet_sound port e
  | .lifecycle port e => execLifecycle_sound port e
  | .fuseProg port e stuck => execFuseProg_sound port e stuck
  | .authDelayEnd slot => quietly (execAuthDelayEnd_quiet slot)
  | .ringTailWrite port ring value => quietly (execRingTailWrite_quiet port ring value)
  | .cplHeadWrite port ring value => quietly (execCplHeadWrite_quiet port ring value)
  | .ringCtlWrite port ring value => quietly (execRingCtlWrite_quiet port ring value)
  | .secCfgWrite port part value room => quietly (execSecCfgWrite_quiet port part value room)
  | .healthLevelWrite iface halt value => execHealthLevelWrite_sound iface halt value
  | .watchdogWrite core ctx value => quietly (execWatchdogWrite_quiet core ctx value)
  | .leanReqWrite iface die group value => quietly (execLeanReqWrite_quiet iface die group value)
  | .freqSet port die group mhz => quietly (execFreqSet_quiet port die group mhz)
  | .registerWrite who value => execRegisterWrite_sound who value
  | .rcCounterRead who => quietly (execRcCounterRead_quiet who)
  | .counterLoRead core ctx timebase dst => quietly (execCounterLoRead_quiet core ctx timebase dst)
  | .keyLastLoRead who slot => quietly (execKeyLastLoRead_quiet who slot)
  | .rngOutRead core ctx stream word dst => quietly (execRngOutRead_quiet core ctx stream word dst)
  | .cxlMemAccess port write offset len data => quietly (execCxlMemAccess_quiet port write offset len data)
  | .irqModExpiry part => quietly (execIrqModExpiry_quiet part)
  | .streamGapExpiry .. => quietly (.next ((Quiet.refl _).discardBurst ..))
  | .portReset port => quietly (execPortReset_quiet port)
  | .rdReq pkt mem => quietly (execRdReq_quiet pkt mem)
  | .rdRsp pkt => quietly (execRdRsp_quiet pkt)
  | .wr pkt => quietly (execWr_quiet pkt)
  | .wrAck pkt => quietly (execWrAck_quiet pkt)
  | .nack pkt => quietly (execNack_quiet pkt)
  | .probe pkt => quietly (execProbe_quiet pkt)
  | .probeRsp pkt => quietly (execProbeRsp_quiet pkt)
  | .packetForward port pkt busy => quietly (execPacketForward_quiet port pkt busy)
  | .parkRelease dir vc => quietly (execParkRelease_quiet dir vc)
  | .linkCrcError port => quietly (execLinkCrcError_quiet port)
  | .linkRetrainEnd port ok => quietly (execLinkRetrainEnd_quiet port ok)
  | .fabBurstSend tag => quietly (execFabBurstSend_quiet tag)
  | .fabGapExpiry owner src tag burst => quietly (execFabGapExpiry_quiet owner src tag burst)
  | .fabRspTimeout tag burst => quietly (execFabRspTimeout_quiet tag burst)
  | .spillProbeTimeout owner => quietly (execSpillProbeTimeout_quiet owner)
  | .takeoverProbeTimeout => quietly execTakeoverProbeTimeout_quiet
  | .winnowEpoch => quietly execWinnowEpoch_quiet
  | .unitMoveDone part va tier die frame => quietly (execUnitMoveDone_quiet part va tier die frame)
  | .spillRecallDone win => quietly (execSpillRecallDone_quiet win)
  | .pageRetire tier frame fresh => quietly (execPageRetire_quiet tier frame fresh)
  | .coreFail core cause => quietly (execCoreFail_quiet core cause)
  | .spliceApply core array row => quietly (execSpliceApply_quiet core array row)
  | .substitution core => quietly (execSubstitution_quiet core)
  | .repairWaitTimeout part => quietly (execRepairWaitTimeout_quiet part)
  | .haltWaitTimeout part => quietly (execHaltWaitTimeout_quiet part)
  | .healthPeriod r => execHealthPeriod_sound r
  | .leanTimingError core stream sameWindow => quietly (execLeanTimingError_quiet core stream sameWindow)
  | .leanCalm core => quietly (execLeanCalm_quiet core)
  | .enChange level => execEnChange_sound level
  | .sysReset => execSysReset_sound
  | .moduleReset iface => execModuleReset_sound iface
  | .stageComplete work => execStageComplete_sound work
  | .stageTimeout => execStageTimeout_sound
  | .powerFailure above => execPowerFailure_sound above
  | .railFault => tripIf_sound ..
  | .aonRailFault => execAonRailFault_sound
  | .railDroop core => quietly (execRailDroop_quiet core)
  | .refclkLoss => tripIf_sound ..
  | .hostRefclkLoss .. => quietly (.next ((Quiet.refl _).portDown ..))
  | .thermalTrip .. => tripIf_sound ..
  | .overcurrentFast amps => execOvercurrentFast_sound amps
  | .overcurrentTrip amps => execOvercurrentTrip_sound amps
  | .sensorReadTimeout sensor => quietly (execSensorReadTimeout_quiet sensor)
  | .regRead iface block offset => quietly (execRegRead_quiet iface block offset)
  | .regWrite iface block offset value => execRegWrite_sound iface block offset value
  | .fabrecWrite iface record => quietly (execFabrecWrite_quiet iface record)
  | .fwRecover iface chunk last flashOk => quietly (execFwRecover_quiet iface chunk last flashOk)
  | .mctpControl iface request => quietly (execMctpControl_quiet iface request)
  | .mctpPacketTimeout .. => quietly (.next ((Quiet.refl _).healthCount ..))
  | .i2cBusReset .. => quietly (.next ((Quiet.refl _).healthCount ..))
  | .setEventReceiver iface eid => quietly (execSetEventReceiver_quiet iface eid)
  | .pldmSensorRead .. => quietly (.next ((Quiet.refl _).answer ..))
  | .getVersion .. => quietly (.next ((Quiet.refl _).answer ..))
  | .getCapabilities .. => quietly (.next ((Quiet.refl _).spdm ..))
  | .negotiateAlgorithms .. => quietly (.next ((Quiet.refl _).spdm ..))
  | .getDigests .. => quietly (.next ((Quiet.refl _).spdm ..))
  | .getCertificate iface slot offset len => quietly (execGetCertificate_quiet iface slot offset len)
  | .challenge iface slot nonce => quietly (execChallenge_quiet iface slot nonce)
  | .getMeasurements iface index sign nonce => quietly (execGetMeasurements_quiet iface index sign nonce)
  | .testPortAccess op => quietly (execTestPortAccess_quiet op)
  | .unlistedCodeEntry .. => quietly (unlistedEntry_quiet ..)
  | .ringFetchFail ring => quietly (execRingFetchFail_quiet ring)
  | .icacheLineFill core ctx poisoned => quietly (execIcacheLineFill_quiet core ctx poisoned)
  | .perstRelease port => quietly (execPerstRelease_quiet port)
  | .pllRefclkMissing => quietly (.next ((Quiet.refl _).editBoot _))
  | .pllRefclkReturn => quietly (.next ((Quiet.refl _).editBoot _))
  | .droopRearm core => quietly (execDroopRearm_quiet core)
  | .inputGlitch .. => quietly (.next ((Quiet.refl _).healthCount ..))
  | .trstN => quietly (.next ((Quiet.refl _).editMgmt _))
  | .platformEventMessage => quietly execPlatformEventMessage_quiet
  | .unsupportedRequest .. => quietly (.next ((Quiet.refl _).spdm ..))
  | .pldmBaseRequest .. => quietly (.next ((Quiet.refl _).answer ..))

theorem step_sound (s : State) : Answers (Sound s) (step s) := by
  unfold step
  split
  · exact .next (Quiet.refl s).tick.sound
  · rename_i c rest _
    have hs : Quiet s { s with pending := rest } := Quiet.same (.refl s) rfl
    exact (exec_sound c _).mono fun _ ht => hs.sound.trans ht

/-- What a step leads to is sound. -/
theorem step_next_sound {s t : State} (h : step s = .next t) : Sound s t := by
  obtain ⟨u, hu, hs⟩ := step_sound s
  rw [hu] at h
  cases h
  exact hs

/-- Settles O57: each command's arm answers a next state, of which more is said by `exec_sound`. -/
theorem everyCommandAnswersANextState : Obligations.EveryCommandAnswersANextState := fun i s =>
  (exec_sound i s).imp fun _ h => h.1

/-- Settles O58: every step is sound, command by command. -/
theorem stepsKeepRegistersLawful : Obligations.StepsKeepRegistersLawful := fun _ _ =>
  ⟨fun hl h => (step_next_sound h).lawful hl, fun hw h => (step_next_sound h).wf hw⟩

/-- Settles O59: every step is sound, command by command. -/
theorem fusesAreNeverTakenBack : Obligations.FusesAreNeverTakenBack := fun _ _ h => (step_next_sound h).fuses

end Sys2Proof.Machine
end

section
/-! PROOFS. The queue: a step runs its front command, and an idle block counts a nanosecond (R307, R81, R90). -/

-- One proof at a time: in parallel the many `unfold`s wait for each other, with a thread for each that waits.
set_option Elab.async false

namespace Sys2Proof.Machine

/-- What a table reads after a function on each entry, where the function keeps the default. -/
theorem sget_mapKeyed {α : Type} {d : α} {f : Nat → α → α} (m : Sparse α) (k : Nat) (hd : f k d = d) :
    sget d (m.map fun e => (e.1, f e.1 e.2)) k = f k (sget d m k) := by
  induction m with
  | nil => exact hd.symm
  | cons e m ih =>
    obtain ⟨j, x⟩ := e
    simp only [List.map_cons, sget]
    split
    · rename_i h
      rw [h]
    · exact ih

/-- What the stalls of streams change of a core: counters, the cycles since the latch swaps, and what the tiles in flight count. -/
structure Stalls (x y : Core) : Prop where
  core : y = { x with cnt := y.cnt, ops := y.ops, sheaf := { x.sheaf with since := y.sheaf.since } }
  ops : y.ops.map (fun o => (o.id, o.ctx, o.unit, o.started)) = x.ops.map fun o => (o.id, o.ctx, o.unit, o.started)

theorem Stalls.refl (x : Core) : Stalls x x := ⟨rfl, rfl⟩

theorem Stalls.trans {x y z : Core} (h : Stalls x y) (g : Stalls y z) : Stalls x z := by
  refine ⟨?_, g.ops.trans h.ops⟩
  have hg := g.core
  rw [h.core] at hg
  exact hg

theorem Core.count_stalls (x : Core) (off n : Nat) : Stalls x (x.count off n) := by
  unfold Core.count
  split
  · exact .refl x
  · exact ⟨rfl, rfl⟩

theorem Core.modTile_stalls (x : Core) (id : Nat) (j : Job) : Stalls x (x.modOp id fun o => { o with job := j }) := by
  refine ⟨rfl, ?_⟩
  simp only [Core.modOp, List.map_map]
  refine List.map_congr_left fun y _ => ?_
  simp only [Function.comp_apply]
  split <;> rfl

theorem Core.stall_stalls (x : Core) (n : Nat) (o : InFlight) : Stalls x (x.stall n o) := by
  have hc := x.count_stalls (0x228 + 0x10 * o.streamOf) n
  unfold Core.stall
  extract_lets st y _ z
  have hz : Stalls x z := hc.trans ⟨rfl, rfl⟩
  split
  · exact hz.trans (z.modTile_stalls ..)
  · exact hz

theorem Core.pass_stalls (x : Core) (n : Nat) : Stalls x (x.pass n) := by
  unfold Core.pass
  have hf : ∀ (l : List InFlight) (y : Core), Stalls x y → Stalls x (l.foldl (fun x o => x.stall n o) y) := by
    intro l
    induction l with
    | nil => exact fun _ h => h
    | cons o l ih => exact fun y h => ih _ (h.trans (y.stall_stalls n o))
  exact hf _ _ (.refl x)

/-- No stream held back: the core stands. -/
theorem Core.pass_none {x : Core} (h : ∀ o ∈ x.ops, x.stalled o = false) (n : Nat) : x.pass n = x := by
  unfold Core.pass
  rw [List.filter_eq_nil_iff.mpr fun o ho => by simp [h o ho]]
  rfl

/-- A nanosecond passes in each core. -/
theorem State.tick_core (s : State) (k : Nat) :
    s.tick.core k = (s.core k).pass ((s.groupAt (groupOf k)).cycles (s.time + 1) - (s.groupAt (groupOf k)).cycles s.time) :=
  sget_mapKeyed (f := fun (j : Nat) (x : Core) => x.pass ((s.groupAt (groupOf j)).cycles (s.time + 1) - (s.groupAt (groupOf j)).cycles s.time)) _ _ rfl

/-- Settles O1: a step is `exec` on the queue's rest, and idling passes a nanosecond in each core. -/
theorem stepRunsTheFrontCommand : Obligations.StepRunsTheFrontCommand := by
  refine ⟨fun _ _ _ => rfl, fun s hs => ⟨s.tick, ?_, rfl, fun k => ?_⟩⟩
  · unfold step
    rw [hs]
  · rw [State.tick_core]
    obtain ⟨hcore, hops⟩ := (s.core k).pass_stalls ((s.groupAt (groupOf k)).cycles (s.time + 1) - (s.groupAt (groupOf k)).cycles s.time)
    exact ⟨hcore, hops, fun h => Core.pass_none h _⟩

end Sys2Proof.Machine
end

section
/-! PROOFS. Vectors and records: what an interrupt sends, and where a completion record is written (R505 to R509). -/

-- One proof at a time: in parallel the many `unfold`s wait for each other, with a thread for each that waits.
set_option Elab.async false

namespace Sys2Proof.Machine
/-! ### Vectors and records -/

/-- Only vectors have been raised: they left the module, or their pending bits are set (R509). -/
structure Signals (s t : State) : Prop where
  frame : t = { s with out := t.out, ports := t.ports }
  port : ∀ n, t.port n = { s.port n with pendingVectors := (t.port n).pendingVectors }

theorem Signals.refl (s : State) : Signals s s := ⟨rfl, fun _ => rfl⟩

theorem Signals.trans {s t u : State} (h : Signals s t) (g : Signals t u) : Signals s u := by
  obtain ⟨hf, hp⟩ := h
  obtain ⟨gf, gp⟩ := g
  refine ⟨?_, fun n => ?_⟩
  · rw [hf] at gf
    exact gf
  · rw [gp n, hp n]

theorem State.interrupt_signals (s : State) (n v : Nat) : Signals s (s.interrupt n v) := by
  refine ⟨s.interrupt_frame n v, fun j => ?_⟩
  unfold State.interrupt
  extract_lets x
  split
  · rfl
  split
  · rw [State.port_setPort]
    split
    · subst_vars; rfl
    · rfl
  · rfl

/-- A record that frees no request changes host memory where it is written, and raises vectors. -/
theorem writeRecord_signals (v : Vectors) (c : CplRing) {r : HeldRec} (hr : r.frees = none) (s : State) :
    Signals (s.setHostMem v.port (writeBytes (s.hostMemOf v.port) (c.ring.base.toNat + 32 * c.ring.tail)
      (leBytes 32 (if c.phase then r.bits ||| 0x10000#256 else r.bits).toNat))) (writeRecord v c r s).2 := by
  unfold writeRecord
  rw [hr]
  extract_lets b a t u last _ c' w
  have hw : Signals t w := by
    simp only [w]
    split
    · exact u.interrupt_signals ..
    · exact .refl u
  rcases Bool.eq_false_or_eq_true c'.needsCpl with hn | hn
  · rw [if_pos hn]
    exact hw.trans (w.interrupt_signals ..)
  · rw [if_neg (c := c'.needsCpl = true) (by simp [hn])]
    exact hw

theorem writeRecord_ring (v : Vectors) (c : CplRing) (r : HeldRec) (s : State) :
    let last := 2 ^ c.ring.log2 ≤ c.ring.tail + 1
    (writeRecord v c r s).1 = { c with
      ring := { c.ring with tail := if last then 0 else c.ring.tail + 1 }
      phase := if last then !c.phase else c.phase
      since := (writeRecord v c r s).1.since } := by
  intro last
  unfold writeRecord
  extract_lets b a t u last' _ c' w
  have hc : c' = { c with ring := { c.ring with tail := if last then 0 else c.ring.tail + 1 }, phase := if last then !c.phase else c.phase,
                          since := c'.since } := by
    simp only [c', last', last, decide_eq_true_eq]
    rfl
  split
  · exact congrArg (fun x : CplRing => { x with since := 0 }) hc
  · exact hc

/-- A ring that takes no record now: disabled, full, or of a port out of traffic (R507, R508; log 66). -/
theorem drainHeld_closed {v : Vectors} {held : List HeldRec} {c : CplRing} {s : State}
    (h : c.ring.en = false ∨ c.ring.isFull = true ∨ s.portUp v.port = false) : drainHeld v held c s = ({ c with held := held }, s) := by
  cases held with
  | nil => rfl
  | cons r rest =>
    rw [drainHeld, if_neg]
    simp only [Bool.and_eq_true, Bool.not_eq_true']
    rintro ⟨⟨hen, hfull⟩, hup⟩
    simp only [hen, hfull, hup, Bool.true_eq_false, Bool.false_eq_true, or_self] at h

theorem drainHeld_single {v : Vectors} {r : HeldRec} {c : CplRing} {s : State} (hen : c.ring.en = true) (hfull : c.ring.isFull = false)
    (hup : s.portUp v.port = true) : drainHeld v [r] c s = ({ (writeRecord v c r s).1 with held := [] }, (writeRecord v c r s).2) := by
  rw [drainHeld, if_pos (by simp only [hen, hfull, hup, Bool.not_false, Bool.and_self])]
  rfl

/-- Settling a ring: what it drains, FULL as the ring then is, and vectors raised (R507). -/
theorem settleCpl_drain (v : Vectors) (c : CplRing) (s : State) :
    (settleCpl v c s).1 = { (drainHeld v c.held c s).1 with full := (settleCpl v c s).1.full } ∧
      Signals (drainHeld v c.held c s).2 (settleCpl v c s).2 := by
  refine ⟨rfl, ?_⟩
  unfold settleCpl
  dsimp only
  split
  · exact State.interrupt_signals ..
  · exact .refl _

/-! ### The record of a command -/



/-- The words of a record read back (R505). -/
theorem recWord_mkRecord (w0 w1 w2 w3 w4 w5 w6 w7 : Nat) (i : Nat) (hi : i < 8) :
    recWord (mkRecord w0 w1 w2 w3 w4 w5 w6 w7) i = [w0, w1, w2, w3, w4, w5, w6, w7].getD i 0 % 2 ^ 32 := by
  have h : ∀ v, v % 2 ^ 32 < 2 ^ 32 := fun v => Nat.mod_lt _ (Nat.two_pow_pos 32)
  have h0 := h w0; have h1 := h w1; have h2 := h w2; have h3 := h w3
  have h4 := h w4; have h5 := h w5; have h6 := h w6; have h7 := h w7
  simp only [recWord, mkRecord, BitVec.toNat_ofNat, bits_low]
  interval_cases i <;> simp only [List.getD_cons_zero, List.getD_cons_succ] <;> omega

theorem RecStatus.code_le (st : RecStatus) : st.code ≤ 2 := by cases st <;> decide

theorem settleCpl_part (v : Vectors) (c : CplRing) (s : State) (q : Nat) : (settleCpl v c s).2.part q = s.part q := by
  rw [State.of_offRec (settleCpl_offRec v c s)]
  rfl

/-- A partition whose ring is settled keeps all but that ring. -/
theorem State.settlePart_part (s : State) (p q : Nat) :
    (s.settlePart p).part q = if q = p then { s.part p with cpl := (settleCpl (s.part p).vectors (s.part p).cpl s).1 } else s.part q := by
  unfold State.settlePart
  dsimp only
  rw [State.part_setPart, settleCpl_part, settleCpl_part]

section CmdDone
variable {s : State} {p : Nat}

/-- A record posted while nothing is written waits behind those held. -/
theorem State.postPart_held (r : HeldRec)
    (h : (s.part p).cpl.ring.en = false ∨ (s.part p).cpl.ring.isFull = true ∨ s.portUp (s.part p).port = false) :
    (s.postPart p r).hostMem = s.hostMem ∧ ((s.postPart p r).part p).cpl.held = (s.part p).cpl.held ++ [r] := by
  unfold State.postPart
  extract_lets b
  generalize hs : s.setPart p { b with cpl := { b.cpl with held := b.cpl.held ++ [r] } } = t
  have hb : t.part p = { b with cpl := { b.cpl with held := b.cpl.held ++ [r] } } := by rw [← hs, State.part_setPart_self]
  have hup : ∀ n, t.portUp n = s.portUp n := fun n => by rw [← hs]; rfl
  obtain ⟨hcpl, hsig⟩ := settleCpl_drain (t.part p).vectors (t.part p).cpl t
  have hclosed : (t.part p).cpl.ring.en = false ∨ (t.part p).cpl.ring.isFull = true ∨ t.portUp (t.part p).vectors.port = false := by
    rw [hb, hup]
    exact h
  rw [drainHeld_closed hclosed] at hcpl hsig
  refine ⟨?_, ?_⟩
  · calc (t.settlePart p).hostMem = (settleCpl (t.part p).vectors (t.part p).cpl t).2.hostMem := rfl
      _ = t.hostMem := by rw [hsig.frame]
      _ = s.hostMem := by rw [← hs]; rfl
  · rw [State.settlePart_part, if_pos rfl]
    show (settleCpl (t.part p).vectors (t.part p).cpl t).1.held = _
    rw [hcpl]
    show (t.part p).cpl.held = _
    rw [hb]

/-- A record posted with room in the ring and nothing held: where it is written, the ring after it, and what else may change. -/
theorem State.postPart_written {r : HeldRec} (hr : r.frees = none) (hen : (s.part p).cpl.ring.en = true)
    (hfull : (s.part p).cpl.ring.isFull = false) (hheld : (s.part p).cpl.held = []) (hup : s.portUp (s.part p).port = true) :
    let b := s.part p
    let a := b.cpl.ring.base.toNat + 32 * b.cpl.ring.tail
    let last := 2 ^ b.cpl.ring.log2 ≤ b.cpl.ring.tail + 1
    let t := s.postPart p r
    t.hostMemOf b.port = writeBytes (s.hostMemOf b.port) a (leBytes 32 (if b.cpl.phase then r.bits ||| 0x10000#256 else r.bits).toNat) ∧
      (∃ since full, t.part p = { b with cpl := { b.cpl with
        ring := { b.cpl.ring with tail := if last then 0 else b.cpl.ring.tail + 1 }
        phase := if last then !b.cpl.phase else b.cpl.phase, since := since, full := full } }) ∧
      t = { s with parts := t.parts, hostMem := t.hostMem, out := t.out, ports := t.ports } ∧ (∀ q, q ≠ p → t.part q = s.part q) ∧
      (∀ n, t.port n = { s.port n with pendingVectors := (t.port n).pendingVectors }) := by
  intro b a last
  unfold State.postPart
  dsimp only
  generalize hs : s.setPart p { s.part p with cpl := { (s.part p).cpl with held := (s.part p).cpl.held ++ [r] } } = u
  have hb : u.part p = { b with cpl := { b.cpl with held := [r] } } := by
    rw [← hs, State.part_setPart_self, hheld]
    rfl
  obtain ⟨hcpl, hsig⟩ := settleCpl_drain (u.part p).vectors (u.part p).cpl u
  have hwr := writeRecord_signals (u.part p).vectors (u.part p).cpl hr u
  have hring := writeRecord_ring (u.part p).vectors (u.part p).cpl r u
  have hone : drainHeld (u.part p).vectors (u.part p).cpl.held (u.part p).cpl u =
      ({ (writeRecord (u.part p).vectors (u.part p).cpl r u).1 with held := [] }, (writeRecord (u.part p).vectors (u.part p).cpl r u).2) := by
    rw [hb]
    refine drainHeld_single hen hfull ?_
    rw [← hs]
    exact hup
  rw [hone] at hcpl hsig
  have hall := hwr.trans hsig
  obtain ⟨since, hring⟩ : ∃ since, (writeRecord (u.part p).vectors (u.part p).cpl r u).1 = { (u.part p).cpl with
      ring := { (u.part p).cpl.ring with tail := if 2 ^ (u.part p).cpl.ring.log2 ≤ (u.part p).cpl.ring.tail + 1 then 0 else (u.part p).cpl.ring.tail + 1 }
      phase := if 2 ^ (u.part p).cpl.ring.log2 ≤ (u.part p).cpl.ring.tail + 1 then !(u.part p).cpl.phase else (u.part p).cpl.phase
      since := since } := ⟨_, hring⟩
  obtain ⟨full, hcpl⟩ : ∃ full, (settleCpl (u.part p).vectors (u.part p).cpl u).1 =
      { (writeRecord (u.part p).vectors (u.part p).cpl r u).1 with held := [], full := full } := ⟨_, hcpl⟩
  refine ⟨?_, ⟨since, full, ?_⟩, ?_, fun q hq => ?_, fun n => ?_⟩
  · show (settleCpl (u.part p).vectors (u.part p).cpl u).2.hostMemOf b.port = _
    rw [hall.frame, hb, ← hs]
    exact State.hostMemOf_setHostMem_self ..
  · rw [State.settlePart_part, if_pos rfl, hcpl, hring, hb, hheld]
  · have hx := State.of_offRec (settleCpl_offRec (u.part p).vectors (u.part p).cpl u)
    have hreqs : (settleCpl (u.part p).vectors (u.part p).cpl u).2.reqs = u.reqs := by
      rw [hall.frame]
      rfl
    rw [hreqs] at hx
    refine (congrArg (fun x : State => { x with parts := (u.settlePart p).parts }) hx).trans ?_
    subst hs
    rfl
  · rw [State.settlePart_part, if_neg hq, ← hs, State.part_setPart, if_neg hq]
  · exact (hall.port n).trans (by rw [← hs]; rfl)

end CmdDone

/-- Settles O27: the record's words, and what `postPart` does with a record that waits or is written. -/
theorem recordsAreWrittenAtTheTail : Obligations.RecordsAreWrittenAtTheTail := by
  intro p o st f result s b r rec'
  have hword : ∀ i, i < 8 → recWord rec' i = [st.code * 2 ^ 14 + 2 ^ 17, o.index, f.toNat, result, 0, 0, o.tag.toNat, s.time].getD i 0 % 2 ^ 32 :=
    fun i hi => recWord_mkRecord _ _ _ _ _ _ _ _ i hi
  refine ⟨⟨?_, hword 1 (by decide), ?_, hword 3 (by decide), hword 4 (by decide), hword 5 (by decide), ?_, hword 7 (by decide)⟩,
    fun h => State.postPart_held _ h, fun hen hfull hheld hup => ?_⟩
  · rw [hword 0 (by decide)]
    have hcode := st.code_le
    exact Nat.mod_eq_of_lt (show st.code * 2 ^ 14 + 2 ^ 17 < 2 ^ 32 by omega)
  · rw [hword 2 (by decide)]
    exact Nat.mod_eq_of_lt (Nat.lt_of_lt_of_le f.isLt (by decide))
  · rw [hword 6 (by decide)]
    exact Nat.mod_eq_of_lt o.tag.isLt
  · intro t at'
    obtain ⟨hmem, ⟨since, full, hpart⟩, hframe, hparts, hports⟩ :=
      State.postPart_written (r := cmdRecord s o st f result) rfl hen hfull hheld hup
    change t.hostMemOf b.port = writeBytes (s.hostMemOf b.port) at' (leBytes 32 (if b.cpl.phase then rec' ||| 0x10000#256 else rec').toNat) at hmem
    change t.part p = _ at hpart
    refine ⟨fun i hi => ?_, fun a ha => ?_, ?_, ?_, ?_, hframe, hparts, hports, ?_⟩
    · rw [hmem, sget_writeBytes_inside _ _ _ _ (by rwa [leBytes_length]), leBytes_getD _ hi]
    · rw [hmem]
      exact sget_writeBytes_outside _ _ _ _ (by rwa [leBytes_length])
    · rw [hpart]
    · rw [hpart]
    · rw [hpart]
      exact hheld
    · rw [hpart]

end Sys2Proof.Machine
end

section
/-! PROOFS. Ring entries and registers (R471 to R478, R497). -/

-- One proof at a time: in parallel the many `unfold`s wait for each other, with a thread for each that waits.
set_option Elab.async false

namespace Sys2Proof.Machine
/-! ### Entries of a command ring (R475, R478) -/

/-- Each non-critical command of a command ring is a `partCmd` of its CODE and body. -/
theorem cmdRows_partCmd (host : Option Nat) (m : MemErr) (fab : Option FabFault) (ok : Bool) : ∀ row ∈ cmdRows host m fab ok,
    ∀ (p : Nat) (e : Entry) (s : State), ∃ f, exec (row.1 p e) s = partCmd p row.2.1 e row.2.2 s f := by
  simp only [cmdRows, List.cons_append, List.nil_append, List.forall_mem_cons, List.not_mem_nil, false_implies, implies_true, and_true]
  refine ⟨?_, ?_, ?_, ?_, ?_, ?_, ?_, ?_, ?_, ?_, ?_, ?_, ?_, ?_, ?_, ?_⟩
  all_goals
    intro p e s
    simp only [exec]
    exact ⟨_, rfl⟩

/-! ### Vectors raised (R509) -/

theorem State.interrupt_raised (s : State) (n v : Nat) : Raised s (s.interrupt n v) n v := by
  unfold Raised State.interrupt
  extract_lets x
  by_cases hr : x.released = false
  · simp only [x] at hr
    rw [if_pos hr, if_pos (by simp only [x, hr, Bool.not_false])]
    exact ⟨rfl, rfl⟩
  · have hr' : ¬(!x.released) = true := by simpa using hr
    rw [if_neg hr, if_neg hr']
    by_cases hm : x.d3hot = true ∨ x.masked.contains v = true
    · rw [if_pos hm, if_pos (by simpa using hm)]
      refine ⟨rfl, ?_⟩
      rw [State.port_setPort_self]
      by_cases hc : v ∈ x.pendingVectors <;> simp [hc]
    · rw [if_neg hm, if_neg (by simpa using hm)]
      exact ⟨rfl, rfl⟩

/-- What has been raised from a state has been raised from one with the same vectors. -/
theorem Raised.of_same {s u t : State} {n v : Nat} (h : Raised u t n v) (hout : u.out = s.out) (hrel : (u.port n).released = (s.port n).released)
    (hd3 : (u.port n).d3hot = (s.port n).d3hot) (hmask : (u.port n).masked = (s.port n).masked)
    (hpend : (u.port n).pendingVectors = (s.port n).pendingVectors) : Raised s t n v := by
  unfold Raised at h ⊢
  rwa [hout, hrel, hd3, hmask, hpend] at h

theorem State.interrupt_port_ne (s : State) {n m : Nat} (v : Nat) (h : m ≠ n) : (s.interrupt n v).port m = s.port m := by
  unfold State.interrupt
  extract_lets x
  split
  · rfl
  split
  · rw [State.port_setPort, if_neg h]
  · rfl

theorem State.interrupt_part (s : State) (n v q : Nat) : (s.interrupt n v).part q = s.part q := by
  rw [State.interrupt_frame]
  rfl

/-- A partition's block replaced, and a vector of its port raised. -/
theorem setPart_interrupt (s : State) (p : Nat) (b : PartBlock) (n v : Nat) :
    let t := (s.setPart p b).interrupt n v
    OnlyPart { s with out := t.out, ports := t.ports } t p ∧ t.part p = b ∧ Raised s t n v := by
  intro t
  refine ⟨⟨?_, fun q hq => ?_⟩, ?_, ((s.setPart p b).interrupt_raised n v).of_same rfl rfl rfl rfl rfl⟩
  · have hparts : t.parts = (s.setPart p b).parts := State.interrupt_parts ..
    rw [hparts]
    exact (s.setPart p b).interrupt_frame n v
  · rw [State.interrupt_part, State.part_setPart, if_neg hq]
    rfl
  · rw [State.interrupt_part, State.part_setPart_self]

/-- A partition's block replaced, and its event vector raised. -/
theorem setPart_evtVector (s : State) (p : Nat) (b : PartBlock) :
    let t := (s.setPart p b).evtVector p
    OnlyPart { s with out := t.out, ports := t.ports } t p ∧ t.part p = b ∧ Raised s t b.port b.grant.vecEvt := by
  have h := setPart_interrupt s p b b.port b.grant.vecEvt
  unfold State.evtVector
  rwa [State.part_setPart_self]

/-- A port's block replaced but for its vectors, and a vector of the port raised. -/
theorem setPort_interrupt (s : State) (n : Nat) (b : Port) (v : Nat) (hrel : b.released = (s.port n).released) (hd3 : b.d3hot = (s.port n).d3hot)
    (hmask : b.masked = (s.port n).masked) (hpend : b.pendingVectors = (s.port n).pendingVectors) :
    let t := (s.setPort n b).interrupt n v
    t.port n = { b with pendingVectors := (t.port n).pendingVectors } ∧ (∀ m, m ≠ n → t.port m = s.port m) ∧
      t = { s with out := t.out, ports := t.ports } ∧ Raised s t n v := by
  intro t
  obtain ⟨hframe, hport⟩ := (s.setPort n b).interrupt_signals n v
  refine ⟨?_, fun m hm => ?_, hframe, ?_⟩
  · have hn := hport n
    rwa [State.port_setPort_self] at hn
  · rw [State.interrupt_port_ne _ _ hm, State.port_setPort, if_neg hm]
  · refine ((s.setPort n b).interrupt_raised n v).of_same rfl ?_ ?_ ?_ ?_
    all_goals rw [State.port_setPort_self]
    all_goals assumption

/-! ### Ring registers (R474 to R476) -/

theorem HostRing.writeTail_in {r : HostRing} {v : W32} (h : v.toNat % 2 ^ 16 < 2 ^ r.log2) : r.writeTail v = ({ r with tail := v.toNat % 2 ^ 16 }, false) := by
  simp only [HostRing.writeTail, bits_low, if_neg (Nat.not_le.mpr h)]

theorem HostRing.writeTail_out {r : HostRing} {v : W32} (h : 2 ^ r.log2 ≤ v.toNat % 2 ^ 16) : r.writeTail v = (r.stop, true) := by
  simp only [HostRing.writeTail, bits_low, if_pos h]

theorem HostRing.writeHead_eq (r : HostRing) (v : W32) :
    r.writeHead v = { r with head := if 2 ^ r.log2 ≤ v.toNat % 2 ^ 16 then r.head else v.toNat % 2 ^ 16 } := by
  simp only [HostRing.writeHead, bits_low]
  split <;> rfl

/-- A write of a partition's ring registers by a port that does not own it. -/
theorem ringWrites_elsewhere {s : State} {n p : Nat} (v : W32) (h : s.owns n p = false) :
    exec (.ringTailWrite n (.cmd p) v) s = .next s ∧ exec (.ringTailWrite n (.req p) v) s = .next s ∧
      exec (.cplHeadWrite n (.cmd p) v) s = .next s ∧ exec (.ringCtlWrite n (.cmd p) v) s = .next s := by
  have hn : ¬s.owns n p = true := by simp [h]
  exact ⟨if_neg hn, if_neg hn, if_neg hn, if_neg hn⟩

section Owned
variable {s : State} {n p : Nat} (v : W32) (h : s.owns n p = true)
include h



theorem ringTailWrite_cmd : exec (.ringTailWrite n (.cmd p) v) s = .next (if ((s.part p).cmd.writeTail v).2 then
    (s.setPart p { s.part p with cmd := ((s.part p).cmd.writeTail v).1 }).evtVector p
    else s.setPart p { s.part p with cmd := ((s.part p).cmd.writeTail v).1 }) := if_pos h

theorem ringTailWrite_req : exec (.ringTailWrite n (.req p) v) s = .next (if ((s.part p).req.writeTail v).2 then
    (s.setPart p { s.part p with req := ((s.part p).req.writeTail v).1 }).evtVector p
    else s.setPart p { s.part p with req := ((s.part p).req.writeTail v).1 }) := if_pos h

/-- A partition's TAILs: within the ring's size they move, beyond it the ring halts and the event vector is raised. -/
theorem ringTailWrites_owned :
    let b := s.part p
    let value := v.toNat % 2 ^ 16
    (value < 2 ^ b.cmd.log2 → exec (.ringTailWrite n (.cmd p) v) s = .next (s.setPart p { b with cmd := { b.cmd with tail := value } })) ∧
    (2 ^ b.cmd.log2 ≤ value → ∃ t, exec (.ringTailWrite n (.cmd p) v) s = .next t ∧
      OnlyPart { s with out := t.out, ports := t.ports } t p ∧
      t.part p = { b with cmd := { b.cmd with halt := true, en := false } } ∧ Raised s t b.port b.grant.vecEvt) ∧
    (value < 2 ^ b.req.log2 → exec (.ringTailWrite n (.req p) v) s = .next (s.setPart p { b with req := { b.req with tail := value } })) ∧
    (2 ^ b.req.log2 ≤ value → ∃ t, exec (.ringTailWrite n (.req p) v) s = .next t ∧
      OnlyPart { s with out := t.out, ports := t.ports } t p ∧
      t.part p = { b with req := { b.req with halt := true, en := false } } ∧ Raised s t b.port b.grant.vecEvt) := by
  intro b value
  refine ⟨fun hin => ?_, fun hout => ?_, fun hin => ?_, fun hout => ?_⟩
  · rw [ringTailWrite_cmd v h, HostRing.writeTail_in hin]
    rfl
  · rw [ringTailWrite_cmd v h, HostRing.writeTail_out hout]
    exact ⟨_, rfl, setPart_evtVector s p { b with cmd := b.cmd.stop }⟩
  · rw [ringTailWrite_req v h, HostRing.writeTail_in hin]
    rfl
  · rw [ringTailWrite_req v h, HostRing.writeTail_out hout]
    exact ⟨_, rfl, setPart_evtVector s p { b with req := b.req.stop }⟩

theorem ringCtlWrite_cmd :
    let b := s.part p
    exec (.ringCtlWrite n (.cmd p) v) s = .next ((s.setPart p { b with
      req := { b.req with en := v.getLsbD 0, halt := b.req.halt && !v.getLsbD 8 }
      cmd := { b.cmd with en := v.getLsbD 1, halt := b.cmd.halt && !v.getLsbD 9 }
      cpl := { b.cpl with ring := { b.cpl.ring with en := v.getLsbD 2 } } }).settlePart p |>.destroyHeld p) := if_pos h

theorem cplHeadWrite_cmd :
    let b := s.part p
    exec (.cplHeadWrite n (.cmd p) v) s = .next ((s.setPart p { b with cpl := { b.cpl with ring := { b.cpl.ring with
      head := if 2 ^ b.cpl.ring.log2 ≤ v.toNat % 2 ^ 16 then b.cpl.ring.head else v.toNat % 2 ^ 16 } } }).settlePart p |>.destroyHeld p) := by
  intro b
  rw [← HostRing.writeHead_eq]
  exact if_pos h

end Owned

/-- A ring whose fetch fails halts, and its partition's event vector is raised (R476). -/
theorem ringFetchFail_part {s : State} {p : Nat} :
    (s.canFetchCmd p = true → ∃ t, exec (.ringFetchFail (.cmd p)) s = .next t ∧
      t.part p = { s.part p with cmd := { (s.part p).cmd with halt := true, en := false } } ∧ Raised s t (s.part p).port (s.part p).grant.vecEvt) ∧
    (s.canFetchReq p = true → ∃ t, exec (.ringFetchFail (.req p)) s = .next t ∧
      t.part p = { s.part p with req := { (s.part p).req with halt := true, en := false } } ∧ Raised s t (s.part p).port (s.part p).grant.vecEvt) := by
  refine ⟨fun h => ⟨_, if_pos h, ?_⟩, fun h => ⟨_, if_pos h, ?_⟩⟩
  · obtain ⟨-, hpart, hraised⟩ := setPart_evtVector s p { s.part p with cmd := (s.part p).cmd.stop }
    exact ⟨hpart, hraised⟩
  · obtain ⟨-, hpart, hraised⟩ := setPart_evtVector s p { s.part p with req := (s.part p).req.stop }
    exact ⟨hpart, hraised⟩

/-- Records written since the last VEC_CPL raise it (R509). -/
theorem irqModExpiry_due {s : State} {p : Nat} (hfree : (s.part p).state ≠ .free) (hsince : (s.part p).cpl.since ≠ 0) (hirq : (s.part p).cpl.irqUs ≠ 0) :
    ∃ t, exec (.irqModExpiry p) s = .next t ∧ t.part p = { s.part p with cpl := { (s.part p).cpl with since := 0 } } ∧
      Raised s t (s.part p).port (s.part p).grant.vecCpl := by
  refine ⟨_, if_pos (by simp [hfree, hsince, hirq]), ?_⟩
  obtain ⟨-, hpart, hraised⟩ := setPart_interrupt s p { s.part p with cpl := { (s.part p).cpl with since := 0 } } (s.part p).port (s.part p).grant.vecCpl
  exact ⟨hpart, hraised⟩

/-- An entry of a command ring whose CODE R478 does not list there. -/
theorem unlistedCodeEntry_cmd {s : State} {p : Nat} {e : Entry} (hfetch : s.canFetchCmd p = true) (hcode : eCode e ∉ cmdRingCodes) :
    exec (.unlistedCodeEntry (.cmd p) e) s = s.cmdFails p e (s.takeCmd p) fltCmdUnknown :=
  if_pos (by simp [hfetch, hcode])

/-! ### The admin ring of a port -/

section Admin
variable {s : State} {n : Nat} (v : W32)

theorem adminWrites_portDown (h : s.portUp n = false) :
    exec (.ringTailWrite n (.adm n) v) s = .next s ∧ exec (.ringCtlWrite n (.adm n) v) s = .next s ∧ exec (.cplHeadWrite n (.adm n) v) s = .next s := by
  have hn : ¬(n = n ∧ s.portUp n = true) := by simp [h]
  exact ⟨if_neg hn, if_neg hn, if_neg hn⟩

/-- An admin ring halts, and the port's event vector is raised. -/
theorem adminRing_stop (s : State) (n : Nat) :
    let a := s.port n
    let t := (s.setPort n { a with adm := a.adm.stop }).interrupt n (adminVectors n).evt
    t.port n = { a with adm := { a.adm with halt := true, en := false }, pendingVectors := (t.port n).pendingVectors } ∧
      (∀ m, m ≠ n → t.port m = s.port m) ∧ t = { s with out := t.out, ports := t.ports } ∧ Raised s t n (Config.adminVector n) :=
  setPort_interrupt s n { s.port n with adm := (s.port n).adm.stop } _ rfl rfl rfl rfl

section Up
variable (h : s.portUp n = true)
include h

theorem ringTailWrite_adm : exec (.ringTailWrite n (.adm n) v) s = .next (if ((s.port n).adm.writeTail v).2 then
    (s.setPort n { s.port n with adm := ((s.port n).adm.writeTail v).1 }).interrupt n (adminVectors n).evt
    else s.setPort n { s.port n with adm := ((s.port n).adm.writeTail v).1 }) := if_pos ⟨rfl, h⟩

theorem ringTailWrite_adm_in (hin : v.toNat % 2 ^ 16 < 2 ^ (s.port n).adm.log2) : exec (.ringTailWrite n (.adm n) v) s =
    .next (s.setPort n { s.port n with adm := { (s.port n).adm with tail := v.toNat % 2 ^ 16 } }) := by
  rw [ringTailWrite_adm v h, HostRing.writeTail_in hin]
  rfl

theorem ringTailWrite_adm_out (hout : 2 ^ (s.port n).adm.log2 ≤ v.toNat % 2 ^ 16) : exec (.ringTailWrite n (.adm n) v) s =
    .next ((s.setPort n { s.port n with adm := (s.port n).adm.stop }).interrupt n (adminVectors n).evt) := by
  rw [ringTailWrite_adm v h, HostRing.writeTail_out hout]
  rfl

theorem ringCtlWrite_adm :
    let a := s.port n
    exec (.ringCtlWrite n (.adm n) v) s = .next ((s.setPort n { a with
      adm := { a.adm with en := v.getLsbD 0, halt := a.adm.halt && !v.getLsbD 8 }
      acpl := { a.acpl with ring := { a.acpl.ring with en := v.getLsbD 2 } } }).settlePort n) := if_pos ⟨rfl, h⟩

theorem cplHeadWrite_adm :
    let a := s.port n
    exec (.cplHeadWrite n (.adm n) v) s = .next ((s.setPort n { a with acpl := { a.acpl with ring := { a.acpl.ring with
      head := if 2 ^ a.acpl.ring.log2 ≤ v.toNat % 2 ^ 16 then a.acpl.ring.head else v.toNat % 2 ^ 16 } } }).settlePort n) := by
  intro a
  rw [← HostRing.writeHead_eq]
  exact if_pos ⟨rfl, h⟩

end Up

theorem ringFetchFail_adm (h : s.canFetchAdm n = true) : ∃ t, exec (.ringFetchFail (.adm n)) s = .next t ∧
    t.port n = { s.port n with adm := { (s.port n).adm with halt := true, en := false }, pendingVectors := (t.port n).pendingVectors } ∧
      Raised s t n (Config.adminVector n) := by
  obtain ⟨hport, -, -, hraised⟩ := adminRing_stop s n
  exact ⟨_, if_pos h, hport, hraised⟩

theorem unlistedCodeEntry_adm {e : Entry} (hfetch : s.canFetchAdm n = true) (hcode : eCode e ∉ admRingCodes) (hlc : s.fuses.lc ≠ .scrap) :
    exec (.unlistedCodeEntry (.adm n) e) s = .next ((s.takeAdm n).admDone n (s.admOwed n e) .failed fltCmdUnknown 0) := by
  have h : exec (.unlistedCodeEntry (.adm n) e) s =
      .next ((s.takeAdm n).admDone n (s.admOwed n e) .failed (if s.fuses.lc = .scrap then fltLifecycle else fltCmdUnknown) 0) :=
    if_pos (by simp [hfetch, hcode])
  rwa [if_neg hlc] at h

end Admin

/-- Settles O28: a command's row by `partCmd`'s cases, a register by its write, a vector by what it raises. -/
theorem ringEntriesAndRegisters : Obligations.RingEntriesAndRegisters := by
  refine ⟨fun host m fab ok row hrow p e s => ?_, fun n p v s => ?_⟩
  · obtain ⟨f, hf⟩ := cmdRows_partCmd host m fab ok row hrow p e s
    refine ⟨fun hclosed => ?_, fun hcode => ?_, fun hcode hfetch hbad => ?_⟩
    · rw [hf, partCmd_closed hclosed]
    · rw [hf, partCmd_other hcode]
      rfl
    · rw [hf, partCmd_bad hcode hfetch hbad]
      rfl
  · intro b value
    obtain ⟨hcmdFail, hreqFail⟩ := ringFetchFail_part (s := s) (p := p)
    refine ⟨ringWrites_elsewhere v, fun howns => ?_, hcmdFail, hreqFail, irqModExpiry_due, fun e => unlistedCodeEntry_cmd, adminWrites_portDown v,
      ringTailWrite_adm_in v, fun hup hout => ⟨_, ringTailWrite_adm_out v hup hout, adminRing_stop s n⟩, ringCtlWrite_adm v, cplHeadWrite_adm v,
      ringFetchFail_adm, fun e => unlistedCodeEntry_adm⟩
    obtain ⟨hcmdIn, hcmdOut, hreqIn, hreqOut⟩ := ringTailWrites_owned v howns
    exact ⟨hcmdIn, hcmdOut, hreqIn, hreqOut, ringCtlWrite_cmd v howns, cplHeadWrite_cmd v howns⟩

end Sys2Proof.Machine
end

section
/-! PROOFS. Pages mapped and unmapped, and the arena (R401, R489). -/

-- One proof at a time: in parallel the many `unfold`s wait for each other, with a thread for each that waits.
set_option Elab.async false

namespace Sys2Proof.Machine
/-! ### Pages mapped one after another (R400, R489) -/

theorem mem_insertUnit {base : Nat} {u : PUnit} {l : List (Nat × PUnit)} {x : Nat × PUnit} : x ∈ insertUnit base u l ↔ x = (base, u) ∨ x ∈ l := by
  induction l with
  | nil => simp [insertUnit]
  | cons e l ih =>
    unfold insertUnit
    split
    · exact List.mem_cons
    · simp only [List.mem_cons, ih]
      tauto

/-- From `s` to `u` the pages at `l` have been mapped in partition `p`, zero-filled. -/
structure PagesMapped (p : Nat) (s u : State) (l : List Nat) : Prop where
  frame : OnlyPart { s with fabric := { s.fabric with trans := u.fabric.trans, waiting := u.fabric.waiting } } u p
  part : u.part p = { s.part p with mem := (u.part p).mem, cnt := (u.part p).cnt }
  cnt : ∀ off, off ≠ 0x1024 → sget 0 (u.part p).cnt off = sget 0 (s.part p).cnt off
  units : ∀ x ∈ (u.mem p).units, x ∈ (s.mem p).units ∨ x.1 ∈ l
  keeps : ∀ x ∈ (s.mem p).units, x ∈ (u.mem p).units
  new : ∀ a ∈ l, ∃ x : PUnit, x.sub = false ∧ (a, x) ∈ (u.mem p).units
  near : (∀ x ∈ (u.mem p).units, x ∈ (s.mem p).units ∨ x.2.tier ≠ .F) → u.fabric = s.fabric ∧ (u.part p).cnt = (s.part p).cnt
  bytes : ∀ a, sget 0 (u.mem p).bytes a = if ∃ b ∈ l, b ≤ a ∧ a < b + 2097152 then 0 else sget 0 (s.mem p).bytes a

theorem OnlyPart.trans_fabric {p : Nat} {s t u : State}
    (h : OnlyPart { s with fabric := { s.fabric with trans := t.fabric.trans, waiting := t.fabric.waiting } } t p)
    (g : OnlyPart { t with fabric := { t.fabric with trans := u.fabric.trans, waiting := u.fabric.waiting } } u p) :
    OnlyPart { s with fabric := { s.fabric with trans := u.fabric.trans, waiting := u.fabric.waiting } } u p := by
  obtain ⟨ht, hp⟩ := h
  obtain ⟨hu, gp⟩ := g
  refine ⟨?_, fun q hq => (gp q hq).trans (hp q hq)⟩
  rw [ht] at hu
  exact hu

theorem PagesMapped.nil (p : Nat) (s : State) : PagesMapped p s s [] :=
  ⟨⟨rfl, fun _ _ => rfl⟩, rfl, fun _ _ => rfl, fun _ h => .inl h, fun _ h => h, nofun, fun _ => ⟨rfl, rfl⟩, fun a => by simp⟩

/-- The unit that `mapUnit` places. -/
theorem PagesMapped.of_mapUnit {p a : Nat} {s t : State} (e : s.mapUnit p a false 0 = some t) (hfresh : ∀ y ∈ (s.mem p).units, y.1 ≠ a) :
    PagesMapped p s t [a] := by
  unfold State.mapUnit at e
  obtain ⟨⟨tier, d, n⟩, -, rfl⟩ := Option.map_eq_some_iff.mp e
  dsimp only
  generalize hx : ({ sub := false, tier := tier, die := d, frame := n } : PUnit) = x
  have hsub : x.sub = false := by rw [← hx]
  have htier : x.tier = tier := by rw [← hx]
  have hsize : x.size = 2097152 := by rw [PUnit.size, hsub]; rfl
  generalize hv : s.setMem p { s.mem p with units := insertUnit a x (s.mem p).units, bytes := sclear (s.mem p).bytes a x.size } = v
  have hpart : v.part p = { s.part p with mem := { s.mem p with units := insertUnit a x (s.mem p).units, bytes := sclear (s.mem p).bytes a x.size } } := by
    rw [← hv]
    exact State.part_setPart_self ..
  have hframe : OnlyPart s v p := by
    rw [← hv]
    exact ⟨rfl, fun q hq => (State.part_setPart ..).trans (if_neg hq)⟩
  have hall : ∀ u : State, OnlyPart { v with fabric := { v.fabric with trans := u.fabric.trans, waiting := u.fabric.waiting } } u p →
      u.part p = { v.part p with cnt := (u.part p).cnt } → (∀ off, off ≠ 0x1024 → sget 0 (u.part p).cnt off = sget 0 (v.part p).cnt off) →
      (tier ≠ .F → u = v) → PagesMapped p s u [a] := by
    intro u hu hup hcnt hnear
    have hmem : u.mem p = { s.mem p with units := insertUnit a x (s.mem p).units, bytes := sclear (s.mem p).bytes a x.size } := by
      rw [State.mem, hup, hpart]
    refine ⟨?_, ?_, fun off ho => ?_, fun y hy => ?_, fun y hy => ?_, fun b hb => ⟨x, hsub, ?_⟩, fun h => ?_, fun b => ?_⟩
    · obtain ⟨hf, hp⟩ := hu
      obtain ⟨gf, gp⟩ := hframe
      refine ⟨?_, fun q hq => (hp q hq).trans (gp q hq)⟩
      rw [gf] at hf
      exact hf
    · rw [hup, hpart]
    · rw [hcnt off ho, hpart]
    · rw [hmem] at hy
      obtain rfl | hy := mem_insertUnit.mp hy
      · exact .inr (.head _)
      · exact .inl hy
    · rw [hmem]
      exact mem_insertUnit.mpr (.inr hy)
    · rw [hmem, List.mem_singleton.mp hb]
      exact mem_insertUnit.mpr (.inl rfl)
    · have hin : (a, x) ∈ (u.mem p).units := by
        rw [hmem]
        exact mem_insertUnit.mpr (.inl rfl)
      obtain hold | hnear' := h _ hin
      · exact absurd rfl (hfresh _ hold)
      · rw [hnear (htier ▸ hnear'), hpart]
        exact ⟨by rw [← hv]; rfl, rfl⟩
    · rw [hmem]
      simp only [sget_sclear, hsize, List.mem_singleton, exists_eq_left]
  split
  · rename_i hF
    have hkeeps := State.startOwn_keeps (v.setPart p ((v.part p).count 0x1024 1)) { job := v.unitJob a x 0 x.size true, part := p, base := a, move := false }
    have hoff := State.startOwn_offOwn (v.setPart p ((v.part p).count 0x1024 1)) { job := v.unitJob a x 0 x.size true, part := p, base := a, move := false }
    generalize (v.setPart p ((v.part p).count 0x1024 1)).startOwn _ = u at hkeeps hoff ⊢
    have hparts : ∀ q, u.part q = (v.setPart p ((v.part p).count 0x1024 1)).part q := fun q => by simp only [State.part, hkeeps.2]
    have hp : u.part p = (v.part p).count 0x1024 1 := (hparts p).trans (State.part_setPart_self ..)
    refine hall u ⟨?_, fun q hq => ?_⟩ ?_ (fun off ho => ?_) (fun h => absurd hF h)
    · exact State.of_offOwn hoff
    · exact (hparts q).trans ((State.part_setPart ..).trans (if_neg hq))
    · rw [hp]
      rfl
    · rw [hp]
      exact sget_sput_ne ho
  · exact hall v ⟨rfl, fun _ _ => rfl⟩ rfl (fun _ _ => rfl) fun _ => rfl

theorem PagesMapped.cons {p a : Nat} {s t u : State} {l : List Nat} (h : PagesMapped p s t [a]) (g : PagesMapped p t u l) :
    PagesMapped p s u (a :: l) := by
  refine ⟨h.frame.trans_fabric g.frame, ?_, fun off ho => (g.cnt off ho).trans (h.cnt off ho), fun x hx => ?_, fun x hx => g.keeps x (h.keeps x hx),
    fun b hb => ?_, fun hnear => ?_, fun b => ?_⟩
  · have hg := g.part
    rw [h.part] at hg
    exact hg
  · obtain hx | hx := g.units x hx
    · exact (h.units x hx).imp_right fun hx => List.mem_cons.mpr (.inl (List.mem_singleton.mp hx))
    · exact .inr (.tail _ hx)
  · obtain rfl | hb := List.mem_cons.mp hb
    · obtain ⟨x, hsub, hx⟩ := h.new b (List.mem_singleton.mpr rfl)
      exact ⟨x, hsub, g.keeps _ hx⟩
    · exact g.new b hb
  · obtain ⟨hf, hc⟩ := h.near fun x hx => hnear x (g.keeps x hx)
    obtain ⟨gf, gc⟩ := g.near fun x hx => (hnear x hx).imp_left (h.keeps x)
    exact ⟨gf.trans hf, gc.trans hc⟩
  · rw [g.bytes, h.bytes]
    simp only [List.mem_cons, List.not_mem_nil, or_false, exists_eq_left, exists_eq_or_imp]
    by_cases ha : a ≤ b ∧ b < a + 2097152 <;> simp [ha]

theorem foldl_bind_none {α β : Type} (f : α → β → Option β) (l : List α) : l.foldl (fun u a => u.bind fun u => f a u) none = none := by
  induction l with
  | nil => rfl
  | cons a l ih => exact ih

/-- MEM_MAP's pages, where the storage backs them all. -/
theorem mapPages_spec {p : Nat} {l : List Nat} {s u : State} (e : l.foldl (fun u a => u.bind fun u => u.mapUnit p a false 0) (some s) = some u)
    (hnodup : l.Nodup) (hfresh : ∀ a ∈ l, ∀ y ∈ (s.mem p).units, y.1 ≠ a) : PagesMapped p s u l := by
  induction l generalizing s with
  | nil =>
    obtain rfl := Option.some.inj e
    exact .nil p s
  | cons a l ih =>
    obtain ⟨ha, hnodup⟩ := List.nodup_cons.mp hnodup
    simp only [List.foldl_cons, Option.bind_some] at e
    cases ht : s.mapUnit p a false 0 with
    | none =>
      rw [ht] at e
      exact absurd ((foldl_bind_none (fun a (u : State) => u.mapUnit p a false 0) l).symm.trans e) nofun
    | some t =>
      have hs := PagesMapped.of_mapUnit ht (hfresh a (.head _))
      rw [ht] at e
      refine hs.cons (ih e hnodup fun b hb y hy heq => ?_)
      obtain hy | hy := hs.units y hy
      · exact hfresh b (.tail _ hb) y hy heq
      · rw [List.mem_singleton.mp hy] at heq
        exact ha (heq ▸ hb)

/-! ### Units dropped -/

theorem mem_dropAll (l : List (Nat × PUnit)) (m : Mem) (x : Nat × PUnit) :
    x ∈ (l.foldl (fun m x => m.drop x.1 x.2) m).units ↔ x ∈ m.units ∧ ∀ g ∈ l, x.1 ≠ g.1 := by
  induction l generalizing m with
  | nil => simp
  | cons g l ih =>
    rw [List.foldl_cons, ih]
    simp only [Mem.drop, List.mem_filter, bne_iff_ne, ne_eq, List.mem_cons, forall_eq_or_imp]
    tauto

theorem bytes_dropAll (l : List (Nat × PUnit)) (m : Mem) (a : Nat) :
    sget 0 (l.foldl (fun m x => m.drop x.1 x.2) m).bytes a = if ∃ g ∈ l, g.1 ≤ a ∧ a < g.1 + g.2.size then 0 else sget 0 m.bytes a := by
  induction l generalizing m with
  | nil => simp
  | cons g l ih =>
    rw [List.foldl_cons, ih]
    simp only [Mem.drop, sget_sclear, List.mem_cons, exists_eq_or_imp]
    by_cases hg : g.1 ≤ a ∧ a < g.1 + g.2.size
    · simp only [eq_true hg, true_or, if_true, ite_self]
    · simp only [eq_false hg, false_or, if_false]

/-! ### MEM_MAP, MEM_UNMAP and KV_ARENA (R489, R401) -/

theorem State.mem_takeCmd (s : State) (p : Nat) : (s.takeCmd p).mem p = s.mem p := by
  rw [State.mem, State.part_takeCmd]
  rfl

/-- A unit whose base is an address covers it. -/
theorem Mem.unitAt_isSome {m : Mem} {a : Nat} {x : PUnit} (h : (a, x) ∈ m.units) : (m.unitAt a).isSome = true := by
  have hsize : 0 < x.size := by
    unfold PUnit.size
    split <;> omega
  exact List.find?_isSome.mpr ⟨(a, x), h, by simp [hsize]⟩

theorem Mem.unitAt_mono {m n : Mem} (h : ∀ x ∈ m.units, x ∈ n.units) {a : Nat} (ha : (m.unitAt a).isSome = true) : (n.unitAt a).isSome = true := by
  obtain ⟨x, hx, hc⟩ := List.find?_isSome.mp ha
  exact List.find?_isSome.mpr ⟨x, h x hx, hc⟩

/-- The pages of a MEM_MAP entry that are not mapped. -/
def freshPages (b : PartBlock) (va pages : Nat) : List Nat :=
  ((List.range pages).filter fun i => (b.mem.unitAt (va + 2097152 * i)).isNone).map fun i => va + 2097152 * i

theorem mem_freshPages {b : PartBlock} {va pages a : Nat} :
    a ∈ freshPages b va pages ↔ ∃ i, i < pages ∧ (b.mem.unitAt (va + 2097152 * i)).isNone = true ∧ va + 2097152 * i = a := by
  simp [freshPages, and_assoc]

theorem freshPages_nodup (b : PartBlock) (va pages : Nat) : (freshPages b va pages).Nodup :=
  (List.nodup_range.filter _).map fun i j (h : va + 2097152 * i = va + 2097152 * j) => by omega

/-- No unit begins at a page that is not mapped. -/
theorem freshPages_base {b : PartBlock} {va pages a : Nat} (h : a ∈ freshPages b va pages) : ∀ y ∈ b.mem.units, y.1 ≠ a := by
  obtain ⟨i, -, hnone, rfl⟩ := mem_freshPages.mp h
  rintro ⟨c, y⟩ hy rfl
  rw [Option.isNone_iff_eq_none] at hnone
  have := Mem.unitAt_isSome hy
  rw [hnone] at this
  cases this

/-- The range of a MEM_MAP or KV_ARENA entry is aligned, not empty, above the scratchpads and below 2^48. -/
def mapSound (e : Entry) : Prop :=
  eBits e 0x08 0 48 % 2097152 = 0 ∧ eBits e 0x10 0 32 ≠ 0 ∧ 0x400000 ≤ eBits e 0x08 0 48 ∧ eBits e 0x08 0 48 + eBits e 0x10 0 32 * 2097152 ≤ 2 ^ 48

theorem State.not_free_of_canFetchCmd {s : State} {p : Nat} (h : s.canFetchCmd p = true) : (s.part p).state ≠ .free := by
  rintro hf
  simp [State.canFetchCmd, State.cmdOpen, hf] at h

section Map
variable {s : State} {p : Nat} {e : Entry} (h : s.Fetches p 0x05 e memBody)
include h

theorem exec_memMap_unsound (hbad : ¬mapSound e ∨ meetsArena (s.part p).arena (eBits e 0x08 0 48) (eBits e 0x10 0 32 * 2097152) = true) :
    exec (.memMap p e) s = s.cmdFails p e (s.takeCmd p) fltArgRange := by
  change execMemMap p e s = _
  refine partCmd_of_fail h ?_
  dsimp only
  rw [State.part_takeCmd]
  refine if_pos ?_
  unfold mapSound at hbad
  by_contra hn
  simp only [not_or, ne_eq, Nat.not_lt, not_not] at hn
  obtain ⟨h1, h2, h3, h4, h5⟩ := hn
  exact hbad.elim (fun hb => hb ⟨h1, h2, h3, h4⟩) h5

section Sound
variable (hsound : mapSound e) (harena : meetsArena (s.part p).arena (eBits e 0x08 0 48) (eBits e 0x10 0 32 * 2097152) = false)
include hsound harena

omit h in
theorem not_memMap_bad : ¬(eBits e 0x08 0 48 % 2097152 ≠ 0 ∨ eBits e 0x10 0 32 = 0 ∨ eBits e 0x08 0 48 < 0x400000 ∨
    2 ^ 48 < eBits e 0x08 0 48 + eBits e 0x10 0 32 * 2097152 ∨ meetsArena (s.part p).arena (eBits e 0x08 0 48) (eBits e 0x10 0 32 * 2097152) = true) := by
  obtain ⟨h1, h2, h3, h4⟩ := hsound
  rw [harena]
  rintro (hb | hb | hb | hb | hb)
  · exact hb h1
  · exact h2 hb
  · exact absurd h3 (Nat.not_le.mpr hb)
  · exact absurd h4 (Nat.not_le.mpr hb)
  · cases hb

theorem exec_memMap_quota (hquota : freshPages (s.part p) (eBits e 0x08 0 48) (eBits e 0x10 0 32) ≠ [] ∧
      (s.part p).grant.memQuota < (s.part p).memUse + (freshPages (s.part p) (eBits e 0x08 0 48) (eBits e 0x10 0 32)).length) :
    exec (.memMap p e) s = s.cmdFails p e (s.takeCmd p) fltMemQuota := by
  change execMemMap p e s = _
  refine partCmd_of_fail h ?_
  dsimp only
  rw [State.part_takeCmd, List.filter_map]
  exact (if_neg (not_memMap_bad hsound harena)).trans (if_pos hquota)

section Within
variable (hwithin : ¬(freshPages (s.part p) (eBits e 0x08 0 48) (eBits e 0x10 0 32) ≠ [] ∧
  (s.part p).grant.memQuota < (s.part p).memUse + (freshPages (s.part p) (eBits e 0x08 0 48) (eBits e 0x10 0 32)).length))
include hwithin

theorem exec_memMap_unbacked (hnone : (freshPages (s.part p) (eBits e 0x08 0 48) (eBits e 0x10 0 32)).foldl
      (fun u a => u.bind fun u => u.mapUnit p a false 0) (some (s.takeCmd p)) = none) :
    exec (.memMap p e) s = s.cmdFails p e (s.takeCmd p) fltMemQuota := by
  change execMemMap p e s = _
  refine partCmd_of_fail h ?_
  dsimp only
  rw [State.part_takeCmd, List.filter_map]
  refine (if_neg (not_memMap_bad hsound harena)).trans ((if_neg hwithin).trans ?_)
  change (match (freshPages (s.part p) (eBits e 0x08 0 48) (eBits e 0x10 0 32)).foldl _ (some (s.takeCmd p)) with | some u => _ | none => _) = _
  rw [hnone]

theorem exec_memMap_mapped {u : State} (hu : (freshPages (s.part p) (eBits e 0x08 0 48) (eBits e 0x10 0 32)).foldl
      (fun u a => u.bind fun u => u.mapUnit p a false 0) (some (s.takeCmd p)) = some u) :
    exec (.memMap p e) s = s.cmdIsDone p e u 0 := by
  change execMemMap p e s = _
  refine partCmd_of_done h ?_
  dsimp only
  rw [State.part_takeCmd, List.filter_map]
  refine (if_neg (not_memMap_bad hsound harena)).trans ((if_neg hwithin).trans ?_)
  change (match (freshPages (s.part p) (eBits e 0x08 0 48) (eBits e 0x10 0 32)).foldl _ (some (s.takeCmd p)) with | some u => _ | none => _) = _
  rw [hu]

end Within
end Sound
end Map

section Unmap
variable {s : State} {p : Nat} {e : Entry} (h : s.Fetches p 0x06 e memBody)
include h

theorem exec_memUnmap_unsound (hbad : eBits e 0x08 0 48 % 2097152 ≠ 0 ∨ eBits e 0x10 0 32 = 0) :
    exec (.memUnmap p e) s = s.cmdFails p e (s.takeCmd p) fltArgRange := by
  change execMemUnmap p e s = _
  exact partCmd_of_fail h (if_pos hbad)

/-- The pages that MEM_UNMAP frees. -/
def pagesGone (m : Mem) (e : Entry) : List (Nat × PUnit) :=
  m.units.filter fun x => !x.2.sub && decide (eBits e 0x08 0 48 ≤ x.1) && decide (x.1 < eBits e 0x08 0 48 + eBits e 0x10 0 32 * 2097152)

omit h in
theorem mem_pagesGone {m : Mem} {x : Nat × PUnit} : x ∈ pagesGone m e ↔
    x ∈ m.units ∧ x.2.sub = false ∧ eBits e 0x08 0 48 ≤ x.1 ∧ x.1 < eBits e 0x08 0 48 + eBits e 0x10 0 32 * 2097152 := by
  simp [pagesGone, and_assoc]

theorem exec_memUnmap_sound (hsound : ¬(eBits e 0x08 0 48 % 2097152 ≠ 0 ∨ eBits e 0x10 0 32 = 0)) :
    exec (.memUnmap p e) s =
      s.cmdIsDone p e ((s.takeCmd p).setMem p ((pagesGone (s.mem p) e).foldl (fun m x => m.drop x.1 x.2) (s.mem p))) 0 := by
  change execMemUnmap p e s = _
  refine partCmd_of_done h ((if_neg hsound).trans ?_)
  rw [State.mem_takeCmd]
  rfl

end Unmap

section Arena
variable {s : State} {p : Nat} {e : Entry} (h : s.Fetches p 0x10 e memBody)
include h

/-- A KV_ARENA entry is refused: an unsound range, a session that is open, or a unit in the range. -/
def arenaBad (s : State) (p : Nat) (e : Entry) : Prop :=
  ¬mapSound e ∨ (∃ x ∈ s.sess, x.2.part = p ∧ x.2.state ≠ .free) ∨
    ∃ x ∈ (s.part p).mem.units, x.1 < eBits e 0x08 0 48 + eBits e 0x10 0 32 * 2097152 ∧ eBits e 0x08 0 48 < x.1 + x.2.size

omit h in
theorem arenaBad_iff : arenaBad s p e ↔
    eBits e 0x08 0 48 % 2097152 ≠ 0 ∨ eBits e 0x10 0 32 = 0 ∨ (s.sess.any fun x => x.2.part == p && x.2.state != .free) = true ∨
      eBits e 0x08 0 48 < 0x400000 ∨ 2 ^ 48 < eBits e 0x08 0 48 + eBits e 0x10 0 32 * 2097152 ∨
      ((s.part p).mem.units.any fun x => decide (x.1 < eBits e 0x08 0 48 + eBits e 0x10 0 32 * 2097152) &&
        decide (eBits e 0x08 0 48 < x.1 + x.2.size)) = true := by
  simp only [arenaBad, List.any_eq_true, Bool.and_eq_true, beq_iff_eq, bne_iff_ne, decide_eq_true_eq]
  have hsound : ¬mapSound e ↔ eBits e 0x08 0 48 % 2097152 ≠ 0 ∨ eBits e 0x10 0 32 = 0 ∨ eBits e 0x08 0 48 < 0x400000 ∨
      2 ^ 48 < eBits e 0x08 0 48 + eBits e 0x10 0 32 * 2097152 := by
    rw [mapSound]
    simp only [not_and_or, not_not, Nat.not_le, ne_eq]
  rw [hsound]
  simp only [or_assoc, or_left_comm]

theorem exec_kvArena_bad (hbad : arenaBad s p e) : exec (.kvArena p e) s = s.cmdFails p e (s.takeCmd p) fltArgRange := by
  change execKvArena p e s = _
  refine partCmd_of_fail h ?_
  dsimp only
  rw [State.part_takeCmd]
  exact if_pos (arenaBad_iff.mp hbad)

theorem exec_kvArena_good (hgood : ¬arenaBad s p e) :
    exec (.kvArena p e) s =
      s.cmdIsDone p e (s.setPart p { s.part p with cmd := (s.part p).cmd.advance, arena := some (eBits e 0x08 0 48, eBits e 0x10 0 32) }) 0 := by
  change execKvArena p e s = _
  refine partCmd_of_done h ?_
  dsimp only
  rw [State.part_takeCmd]
  refine (if_neg fun hb => hgood (arenaBad_iff.mpr hb)).trans ?_
  exact congrArg (CmdRes.done · 0) (State.setPart_setPart s p _ (State.not_free_of_canFetchCmd h.2.1))

end Arena

theorem OnlyPart.takeCmd (s : State) (p : Nat) : OnlyPart s (s.takeCmd p) p :=
  ⟨rfl, fun _ hq => State.part_takeCmd_ne s hq⟩

theorem OnlyPart.trans {s t u : State} {p : Nat} (h : OnlyPart s t p) (g : OnlyPart t u p) : OnlyPart s u p := by
  obtain ⟨ht, hp⟩ := h
  obtain ⟨hu, gp⟩ := g
  refine ⟨?_, fun q hq => (gp q hq).trans (hp q hq)⟩
  rw [ht] at hu
  exact hu

/-- A MEM_MAP, from the entry taken on. -/
theorem PagesMapped.memMap {s X : State} {p : Nat} {l : List Nat} (h : PagesMapped p (s.takeCmd p) X l) :
    OnlyPart { s with fabric := { s.fabric with trans := X.fabric.trans, waiting := X.fabric.waiting } } X p ∧
    X.part p = { s.part p with cmd := (s.part p).cmd.advance, mem := (X.part p).mem, cnt := (X.part p).cnt } ∧
    (∀ off, off ≠ 0x1024 → sget 0 (X.part p).cnt off = sget 0 (s.part p).cnt off) ∧ (∀ x ∈ (s.part p).mem.units, x ∈ (X.mem p).units) ∧
    ((∀ x ∈ (X.mem p).units, x ∈ (s.part p).mem.units ∨ x.2.tier ≠ .F) → X.fabric = s.fabric ∧ (X.part p).cnt = (s.part p).cnt) := by
  have hp := State.part_takeCmd s p
  have hm := State.mem_takeCmd s p
  refine ⟨?_, ?_, fun off ho => ?_, fun x hx => h.keeps x ?_, fun hn => ?_⟩
  · obtain ⟨hf, hq⟩ := h.frame
    exact ⟨hf, fun q hne => (hq q hne).trans (State.part_takeCmd_ne s hne)⟩
  · have hpart := h.part
    rw [hp] at hpart
    exact hpart
  · rw [h.cnt off ho, hp]
  · rw [hm]
    exact hx
  · obtain ⟨hf, hc⟩ := h.near fun x hx => by rw [hm]; exact hn x hx
    rw [hp] at hc
    exact ⟨hf, hc⟩

/-- Settles O29. MEM_MAP's pages are followed one by one (`mapPages_spec`), MEM_UNMAP's freed units by `mem_dropAll` and `bytes_dropAll`. -/
theorem pagesAreMappedZeroFilled : Obligations.PagesAreMappedZeroFilled := by
  unfold Obligations.PagesAreMappedZeroFilled
  intro p e s va pages page b fresh sound new within backed
  have hlist : freshPages b va pages = new.map fun i => va + page * i := rfl
  have hlen : (freshPages b va pages).length = new.length := by rw [hlist, List.length_map]
  have hnil : freshPages b va pages ≠ [] ↔ new ≠ [] := by rw [hlist, ne_eq, List.map_eq_nil_iff]
  have hwithin : (freshPages b va pages ≠ [] ∧ b.grant.memQuota < b.memUse + (freshPages b va pages).length) ↔ ¬within := by
    simp only [within, hlen, hnil, not_or, Nat.not_le, ne_eq]
  have hbacked : (freshPages b va pages).foldl (fun u a => u.bind fun u => u.mapUnit p a false 0) (some (s.takeCmd p)) = backed := by
    rw [hlist, List.foldl_map]
  refine ⟨fun h => ⟨?_, ?_, exec_memMap_unsound h⟩, fun h => ⟨exec_memUnmap_unsound h, ?_⟩, fun h => ⟨?_, ?_, ?_, ?_⟩⟩
  · intro hsound harena hw hb
    obtain ⟨X, hX⟩ := Option.isSome_iff_exists.mp hb
    have hfold := hbacked.trans hX
    have hmapped : PagesMapped p (s.takeCmd p) X (freshPages b va pages) :=
      mapPages_spec hfold (freshPages_nodup ..) fun a ha => by rw [State.mem_takeCmd]; exact freshPages_base ha
    obtain ⟨hframe, hpart, hcnt, hkeeps, hnear⟩ := hmapped.memMap
    have hbytes := hmapped.bytes
    rw [State.mem_takeCmd] at hbytes
    refine ⟨X, exec_memMap_mapped h hsound harena (fun hn => hwithin.mp hn hw) hfold, hframe, hpart, hcnt, hkeeps, hnear, fun i hi => ?_,
      fun a ha => (hbytes a).trans (if_pos ?_), fun a ha => (hbytes a).trans (if_neg ?_)⟩
    · by_cases hi' : fresh i = true
      · obtain ⟨x, -, hx⟩ := hmapped.new (va + page * i) (mem_freshPages.mpr ⟨i, hi, hi', rfl⟩)
        exact Mem.unitAt_isSome hx
      · refine Mem.unitAt_mono hkeeps ?_
        exact Option.isSome_iff_ne_none.mpr fun hnone => hi' (Option.isNone_iff_eq_none.mpr hnone)
    · obtain ⟨i, hi, hi', hlo, hhi⟩ := ha
      exact ⟨va + page * i, mem_freshPages.mpr ⟨i, hi, hi', rfl⟩, hlo, by rw [Nat.mul_succ, ← Nat.add_assoc] at hhi; exact hhi⟩
    · rintro ⟨c, hc, hlo, hhi⟩
      obtain ⟨i, hi, hi', rfl⟩ := mem_freshPages.mp hc
      have hout := ha i hi hi'
      rw [Nat.mul_succ, ← Nat.add_assoc] at hout
      exact hout.elim (Nat.not_lt.mpr hlo) (Nat.not_le.mpr hhi)
  · rintro hsound harena hbad
    by_cases hw : within
    · exact exec_memMap_unbacked h hsound harena (fun hn => hwithin.mp hn hw) (hbacked.trans (hbad.resolve_left (not_not.mpr hw)))
    · exact exec_memMap_quota h hsound harena (hwithin.mpr hw)
  · intro halign hpages
    refine ⟨_, exec_memUnmap_sound h (by simp only [va, pages] at *; tauto), ?_⟩
    generalize hY : (pagesGone (s.mem p) e).foldl (fun m x => m.drop x.1 x.2) (s.mem p) = m
    generalize hX : (s.takeCmd p).setMem p m = X
    have hpart : X.part p = { b with cmd := b.cmd.advance, mem := m } := by
      rw [← hX]
      exact (State.part_setPart_self ..).trans (by rw [State.part_takeCmd])
    have hmem : X.mem p = m := by rw [State.mem, hpart]
    have hunits : ∀ x, x ∈ (X.mem p).units ↔ x ∈ b.mem.units ∧ ∀ g ∈ pagesGone (s.mem p) e, x.1 ≠ g.1 := by
      intro x
      rw [hmem, ← hY]
      exact mem_dropAll ..
    have hbytes : ∀ a, sget 0 (X.mem p).bytes a = if ∃ g ∈ pagesGone (s.mem p) e, g.1 ≤ a ∧ a < g.1 + g.2.size then 0 else sget 0 b.mem.bytes a := by
      intro a
      rw [hmem, ← hY]
      exact bytes_dropAll ..
    have hsize : ∀ g ∈ pagesGone (s.mem p) e, g.2.size = page := fun g hg => by
      rw [PUnit.size, (mem_pagesGone.mp hg).2.1]
      rfl
    refine ⟨?_, ?_, fun x hx => ?_, fun hnodup x hx hout => ?_, fun x hx hsub hlo hhi i hi => ?_, fun a ha => ?_⟩
    · rw [← hX]
      exact (OnlyPart.takeCmd s p).trans ⟨rfl, fun q hq => (State.part_setPart ..).trans (if_neg hq)⟩
    · rw [hpart]
    · obtain ⟨hin, hgone⟩ := (hunits x).mp hx
      refine ⟨hin, ?_⟩
      by_contra hcon
      simp only [not_or, Bool.not_eq_true, Nat.not_lt, Nat.not_le] at hcon
      obtain ⟨hsub, hlo, hhi⟩ := hcon
      exact hgone x (mem_pagesGone.mpr ⟨hin, hsub, hlo, hhi⟩) rfl
    · refine (hunits x).mpr ⟨hx, fun g hg heq => ?_⟩
      obtain ⟨hgin, hsub, hlo, hhi⟩ := mem_pagesGone.mp hg
      obtain rfl := List.inj_on_of_nodup_map hnodup hx hgin heq
      obtain hout | hout | hout := hout
      · rw [hsub] at hout
        cases hout
      · exact absurd hlo (Nat.not_le.mpr hout)
      · exact absurd hhi (Nat.not_lt.mpr hout)
    · have hg := mem_pagesGone.mpr ⟨hx, hsub, hlo, hhi⟩
      refine (hbytes _).trans (if_pos ⟨x, hg, Nat.le_add_right .., ?_⟩)
      rw [hsize x hg]
      omega
    · refine (hbytes a).trans (if_neg ?_)
      rintro ⟨g, hg, hlo, hhi⟩
      rw [hsize g hg] at hhi
      obtain ⟨hgin, hsub, hglo, hghi⟩ := mem_pagesGone.mp hg
      have := ha g hgin hsub hglo hghi
      omega
  · intro hsound hsess hunits
    refine exec_kvArena_good h ?_
    rintro (hbad | ⟨x, hx, hp, hne⟩ | ⟨x, hx, hlo, hhi⟩)
    · exact hbad hsound
    · exact hne (hsess x hx hp)
    · have := hunits x hx
      omega
  · exact fun hbad => exec_kvArena_bad h (.inl hbad)
  · exact fun hbad => exec_kvArena_bad h (.inr (.inl hbad))
  · exact fun hbad => exec_kvArena_bad h (.inr (.inr hbad))

end Sys2Proof.Machine
end

section
/-! PROOFS. What records, events, packets and memory errors leave of the partitions. -/

-- One proof at a time: in parallel the many `unfold`s wait for each other, with a thread for each that waits.
set_option Elab.async false

namespace Sys2Proof.Machine
/-! ### What records and events leave of the partitions (R505, R619) -/

/-- A relation that each step of a fold keeps, from the state before it. -/
theorem foldl_rel {α β : Type} {R : β → β → Prop} (hrefl : ∀ b, R b b) (htrans : ∀ {a b c}, R a b → R b c → R a c) {f : β → α → β}
    (h : ∀ b a, R b (f b a)) (l : List α) (b : β) : R b (l.foldl f b) := by
  induction l generalizing b with
  | nil => exact hrefl b
  | cons a l ih => exact htrans (h b a) (ih _)

/-- Of each partition's block, only the completion ring and the counters may have changed. -/
structure Recorded (s t : State) : Prop where
  part : ∀ q, t.part q = { s.part q with cpl := (t.part q).cpl, cnt := (t.part q).cnt }

theorem Recorded.of_parts {s t : State} (h : t.parts = s.parts) : Recorded s t := ⟨fun q => by rw [State.part, State.part, h]⟩
theorem Recorded.refl (s : State) : Recorded s s := .of_parts rfl

theorem Recorded.trans {s t u : State} (h : Recorded s t) (g : Recorded t u) : Recorded s u := by
  refine ⟨fun q => ?_⟩
  have hq := g.part q
  rw [h.part q] at hq
  exact hq

theorem State.settlePart_recorded (s : State) (p : Nat) : Recorded s (s.settlePart p) := by
  refine ⟨fun q => ?_⟩
  rw [State.settlePart_part]
  split
  · next h => rw [h]
  · rfl

theorem State.postPart_recorded (s : State) (p : Nat) (r : HeldRec) : Recorded s (s.postPart p r) := by
  refine Recorded.trans ⟨fun q => ?_⟩ (State.settlePart_recorded ..)
  rw [State.part_setPart]
  split
  · next h => rw [h]
  · rfl

theorem State.hostEvent_recorded (s : State) (p code d d2 : Nat) : Recorded s (s.hostEvent p code d d2) := by
  unfold State.hostEvent
  extract_lets b
  split
  · exact State.postPart_recorded ..
  · refine ⟨fun q => ?_⟩
    rw [State.part_setPart]
    split
    · next h => rw [h]; rfl
    · rfl

theorem State.event_recorded (s : State) (code d d2 : Nat) (ps : List Nat) : Recorded s (s.event code d d2 ps) := by
  refine Recorded.trans (.of_parts ?_) (foldl_rel .refl .trans (fun t p => State.hostEvent_recorded t p code d d2) ps _)
  exact iteProp_keeps (π := State.parts) rfl rfl

/-! ### Packets of the module's own -/

theorem State.inject_frame {s t : State} {x : Hdr} {bs : List Byte} (e : s.inject x bs = some t) : t = { s with fabric := t.fabric, out := t.out } := by
  unfold State.inject at e
  split at e
  · dsimp only at e
    split at e
    · cases e; rfl
    · cases e; rfl
  · cases e

theorem State.inject_parts (s : State) (x : Hdr) (bs : List Byte) : ((s.inject x bs).getD s).parts = s.parts := by
  cases h : s.inject x bs with
  | none => rfl
  | some t =>
    have ht := State.inject_frame h
    rw [Option.getD_some, ht]

theorem State.startProbes_parts (s : State) (owner : Nat) : (s.startProbes owner).parts = s.parts := by
  unfold State.startProbes
  split
  · exact foldl_keeps _ State.parts (fun t _ => State.inject_parts ..) _ _
  · rfl

/-! ### What befalls a partition's memory (R393, R526) -/

/-- Of each partition's block, only the completion ring, the counters, and of its memory the units' notes and the poison may have changed. -/
structure Struck (s t : State) : Prop where
  part : ∀ q, t.part q = { s.part q with cpl := (t.part q).cpl, cnt := (t.part q).cnt, mem :=
  { (s.part q).mem with units := (t.part q).mem.units, poison := (t.part q).mem.poison } }

theorem Recorded.struck {s t : State} (h : Recorded s t) : Struck s t := by
  refine ⟨fun q => ?_⟩
  have hq := h.part q
  have hmem : (t.part q).mem = (s.part q).mem := by rw [hq]
  rw [hmem]
  exact hq

theorem Struck.refl (s : State) : Struck s s := (Recorded.refl s).struck

theorem Struck.trans {s t u : State} (h : Struck s t) (g : Struck t u) : Struck s u := by
  refine ⟨fun q => ?_⟩
  have hq := g.part q
  rw [h.part q] at hq
  exact hq

theorem Struck.setMem (s : State) (p : Nat) (units : List (Nat × PUnit)) (poison : List Nat) :
    Struck s (s.setMem p { s.mem p with units := units, poison := poison }) := by
  refine ⟨fun q => ?_⟩
  rw [State.part_setMem]
  split
  · next hq => rw [hq]; rfl
  · rfl

theorem State.memError_struck (s : State) (p : Nat) (e : MemErr) : Struck s (s.memError p e) := by
  induction e generalizing s with
  | none => exact .refl s
  | fab va f => exact .refl s
  | seq a b ha hb => exact (ha s).trans (hb _)
  | ce va =>
    unfold State.memError
    split
    · refine Recorded.struck (.of_parts ?_)
      rfl
    · exact .refl s
  | ue va =>
    unfold State.memError
    extract_lets m u
    split
    · refine (Struck.setMem s p m.units (if m.poison.contains u then m.poison else u :: m.poison)).trans (Recorded.struck (.trans (.of_parts ?_) (State.event_recorded ..)))
      rfl
    · exact .refl s

theorem State.loseUnits_struck (s : State) (owner : Nat) (sel : PUnit → Bool) : Struck s (s.loseUnits owner sel) := by
  unfold State.loseUnits
  refine foldl_rel (fun b => .refl b) .trans (fun t x => ?_) _ _
  dsimp only
  split
  · exact .refl t
  · exact (Struck.setMem t x.1 ..).trans (State.event_recorded ..).struck

theorem State.spillFailed_struck (s : State) (u : PUnit) (f : FaultCode) : Struck s (s.spillFailed u f) := by
  unfold State.spillFailed
  split
  · exact State.loseUnits_struck ..
  · split
    · exact (Recorded.of_parts (State.startProbes_parts ..)).struck
    · exact .refl s

theorem State.cutOff_struck (s : State) (p va : Nat) (f : FaultCode) : Struck s (s.cutOff p va f) := by
  unfold State.cutOff
  split
  · split
    · have h := State.spillFailed_struck s ‹PUnit› f
      dsimp only
      split
      · exact h.trans (Struck.setMem _ p ..)
      · exact h
    · exact .refl s
  · exact .refl s

theorem State.strike_struck (s : State) (p : Nat) (e : MemErr) : Struck s (s.strike p e) := by
  induction e generalizing s with
  | none => exact .refl s
  | fab va f => exact State.cutOff_struck ..
  | seq a b ha hb => exact (ha s).trans (hb _)
  | ce va => exact State.memError_struck ..
  | ue va => exact State.memError_struck ..

theorem State.mend_struck (s : State) (p : Nat) (e : MemErr) : Struck s (s.mend p e) := by
  unfold State.mend
  split
  · exact Struck.setMem s p ..
  · exact .refl s

theorem Struck.bytes {s t : State} (h : Struck s t) (q : Nat) : (t.mem q).bytes = (s.mem q).bytes := by rw [State.mem, h.part q]; rfl
theorem Struck.port {s t : State} (h : Struck s t) (q : Nat) : (t.part q).port = (s.part q).port := by rw [h.part q]

end Sys2Proof.Machine
end

section
/-! PROOFS. Host copies (R490). -/

-- One proof at a time: in parallel the many `unfold`s wait for each other, with a thread for each that waits.
set_option Elab.async false

namespace Sys2Proof.Machine
/-! ### How far a host copy gets (R490) -/

section Stop
variable {u : State} {p va n : Nat} {isRead : Bool} {host : Option Nat}

theorem hcopyStop_whole (hcheck : u.check p isRead va n = none) (hhost : ∀ h, host = some h → n ≤ h) : u.hcopyStop p isRead va n host = (n, none) := by
  unfold State.hcopyStop
  rw [hcheck]
  cases host with
  | none => rfl
  | some h => simp only [if_neg (Nat.not_lt.mpr (hhost h rfl))]

theorem hcopyStop_host {h : Nat} (hcheck : u.check p isRead va n = none) (hh : h < n) : u.hcopyStop p isRead va n (some h) = (h, some fltHostTimeout) := by
  unfold State.hcopyStop
  rw [hcheck]
  simp only [if_pos hh]

theorem hcopyStop_mem {f : MemFail} {a : Nat} (hcheck : u.check p isRead va n = some (f, a)) (hhost : ∀ h, host = some h → n ≤ h) :
    u.hcopyStop p isRead va n host = (a - va, some f.code) := by
  unfold State.hcopyStop
  rw [hcheck]
  cases host with
  | none => rfl
  | some h => simp only [if_neg (Nat.not_lt.mpr (hhost h rfl))]

theorem hcopyStop_both {f : MemFail} {a h : Nat} (hcheck : u.check p isRead va n = some (f, a)) (hh : h < n) : u.hcopyStop p isRead va n (some h) =
    if h < a - va ∨ (h = a - va ∧ isRead = false) then (h, some fltHostTimeout) else (a - va, some f.code) := by
  unfold State.hcopyStop
  rw [hcheck]
  simp only [if_pos hh]

end Stop

/-! ### What a host copy moves (R490) -/

/-- The first `k` bytes of a host copy have been moved. -/
def State.hcopied (u : State) (p : Nat) (toHost : Bool) (ha va k : Nat) : State :=
  if toHost then
    (u.setHostMem (u.part p).port (writeBytes (u.hostMemOf (u.part p).port) ha (readBytes (u.mem p).bytes va k))).setMem p ((u.mem p).touch va k)
  else u.setMem p ((u.mem p).store va (readBytes (u.hostMemOf (u.part p).port) ha k))

theorem readBytes_getD (m : Sparse Byte) (a : Nat) {n i : Nat} (h : i < n) : (readBytes m a n).getD i 0 = sget 0 m (a + i) := by
  simp [readBytes, h]

/-- A copied range reads as its source; elsewhere nothing changes. -/
theorem sget_writeBytes_readBytes (m src : Sparse Byte) (a b n i : Nat) :
    sget 0 (writeBytes m a (readBytes src b n)) i = if a ≤ i ∧ i < a + n then sget 0 src (b + (i - a)) else sget 0 m i := by
  split
  · next h =>
    obtain ⟨j, rfl⟩ := Nat.exists_eq_add_of_le h.1
    have hj : j < n := by omega
    rw [sget_writeBytes_inside _ _ _ _ (by rw [readBytes_length]; exact hj), readBytes_getD _ _ hj, Nat.add_sub_cancel_left]
  · exact sget_writeBytes_outside _ _ _ _ (by rw [readBytes_length]; omega)

theorem farPart_near {va n : Nat} {put : Bool} {e : Nat × PUnit} (h : e.2.tier ≠ .F) : farPart va n put e = none := if_neg fun hf => h hf.1

section Copied
variable (u : State) (p : Nat) (toHost : Bool) (ha va k : Nat)

theorem State.hcopied_frame : u.hcopied p toHost ha va k = { u with parts := (u.hcopied p toHost ha va k).parts, hostMem := (u.hcopied p toHost ha va k).hostMem } := by
  unfold State.hcopied
  split <;> rfl

theorem State.part_hcopied_ne {q : Nat} (hq : q ≠ p) : (u.hcopied p toHost ha va k).part q = u.part q := by
  unfold State.hcopied
  split
  · rw [State.part_setMem, if_neg hq]
    rfl
  · rw [State.part_setMem, if_neg hq]

theorem State.hostMemOf_hcopied_ne {n : Nat} (hn : n ≠ (u.part p).port) : (u.hcopied p toHost ha va k).hostMemOf n = u.hostMemOf n := by
  unfold State.hcopied
  split
  · exact (State.hostMemOf_setHostMem ..).trans (if_neg hn)
  · rfl

theorem State.hcopied_far (hfar : (u.mem p).far = []) (hnear : ∀ x ∈ (u.mem p).units, x.2.tier ≠ .F) :
    ((u.hcopied p toHost ha va k).mem p).far = [] := by
  unfold State.hcopied
  split
  · rw [State.mem_setMem_self, Mem.touch_far fun e he => farPart_near (hnear e he)]
    exact hfar
  · rw [State.mem_setMem_self]
    exact (Mem.touch_far fun e he => farPart_near (hnear e he)).trans hfar

end Copied

theorem State.hcopied_out (u : State) (p ha va k : Nat) :
    ((u.hcopied p true ha va k).mem p).bytes = (u.mem p).bytes ∧
    (u.hcopied p true ha va k).hostMemOf (u.part p).port = writeBytes (u.hostMemOf (u.part p).port) ha (readBytes (u.mem p).bytes va k) := by
  rw [State.hcopied, if_pos rfl, State.mem_setMem_self]
  exact ⟨rfl, State.hostMemOf_setHostMem_self ..⟩

theorem State.hcopied_in (u : State) (p ha va k : Nat) :
    ((u.hcopied p false ha va k).mem p).bytes = writeBytes (u.mem p).bytes va (readBytes (u.hostMemOf (u.part p).port) ha k) ∧
    (u.hcopied p false ha va k).hostMem = u.hostMem := by
  rw [State.hcopied, if_neg nofun, State.mem_setMem_self]
  exact ⟨rfl, rfl⟩

/-- A sound HCOPY moves bytes up to its stop, and ends as the stop says. -/
theorem exec_hcopy {s : State} {p : Nat} {e : Entry} {host : Option Nat} {m : MemErr} (h : s.Fetches p 0x07 e hcopyBody)
    (hsound : ¬(eBits e 0x10 0 64 % 4 ≠ 0 ∨ eBits e 0x18 0 48 % 4 ≠ 0 ∨ eBits e 0x20 0 32 % 4 ≠ 0 ∨ eBits e 0x20 0 32 = 0 ∨ eBits e 0x18 0 48 < 0x400000)) :
    let u := (s.takeCmd p).strike p m
    let toHost := decide (eBits e 0x08 0 1 = 1)
    let stop := u.hcopyStop p toHost (eBits e 0x18 0 48) (eBits e 0x20 0 32) host
    let X := ((u.hcopied p toHost (eBits e 0x10 0 64) (eBits e 0x18 0 48) stop.1).startFarOwn p).mend p m
    exec (.hcopy p e host m) s = match stop.2 with
      | none => s.cmdIsDone p e X 0
      | some f => s.cmdFails p e X f := by
  intro u toHost stop X
  let v := if eBits e 0x08 0 1 = 1 then
      (u.setHostMem (u.part p).port (writeBytes (u.hostMemOf (u.part p).port) (eBits e 0x10 0 64)
        (readBytes (u.mem p).bytes (eBits e 0x18 0 48) stop.1))).setMem p ((u.mem p).touch (eBits e 0x18 0 48) stop.1)
    else u.setMem p ((u.mem p).store (eBits e 0x18 0 48) (readBytes (u.hostMemOf (u.part p).port) (eBits e 0x10 0 64) stop.1))
  have hv : v = u.hcopied p toHost (eBits e 0x10 0 64) (eBits e 0x18 0 48) stop.1 := by
    simp only [v, State.hcopied, toHost, decide_eq_true_eq]
  have hres : ∀ r, (match stop.2 with | none => CmdRes.done (v.startFarOwn p) 0 | some c => .fail (v.startFarOwn p) c).mended p m = r →
      exec (.hcopy p e host m) s = match r with
        | .done u r => s.cmdIsDone p e u r
        | .fail u c => s.cmdFails p e u c
        | .owes u => .next u
        | .hold => .next s := by
    rintro r rfl
    change execHcopy p e host m s = _
    unfold execHcopy
    rw [partCmd_go h]
    dsimp only
    rw [if_neg hsound] <;> rfl
  rw [hv] at hres
  cases hf : stop.2 with
  | none => exact hres _ (by rw [hf])
  | some c => exact hres _ (by rw [hf])

/-- What follows a copy: the transfers of Tier F that it touched, and the units mended. -/
theorem State.mend_startFarOwn {v X : State} {p : Nat} {m : MemErr} (hX : (v.startFarOwn p).mend p m = X) :
    X = { v with parts := X.parts, fabric := { v.fabric with trans := X.fabric.trans, waiting := X.fabric.waiting } } ∧
    (∀ q, q ≠ p → X.part q = v.part q) ∧ (∀ q, (X.mem q).bytes = (v.mem q).bytes) ∧ ((v.mem p).far = [] → X.fabric = v.fabric) := by
  have hmend : X = { v.startFarOwn p with parts := X.parts } := by
    rw [← hX, State.mend]
    split <;> rfl
  refine ⟨?_, fun q hq => ?_, fun q => ?_, fun h => ?_⟩
  · have hown := State.of_offOwn (State.startFarOwn_offOwn v p)
    rw [hmend, hown]
  · have hfar : (v.startFarOwn p).part q = v.part q := by
      obtain hp | hp := State.startFarOwn_parts v p
      · rw [State.part, State.part, hp]
      · refine (?_ : _ = (v.setMem p { v.mem p with far := [] }).part q).trans ((State.part_setPart ..).trans (if_neg hq))
        rw [State.part, State.part, hp]
    rw [← hfar, ← hX, State.mend]
    split
    · exact (State.part_setPart ..).trans (if_neg hq)
    · rfl
  · rw [← hX]
    exact ((State.mend_struck ..).bytes q).trans (State.startFarOwn_bytes ..)
  · rw [hmend, State.startFarOwn_of_near h]

/-- Settles O30. -/
theorem hostCopyMovesBytesUpToAFailure : Obligations.HostCopyMovesBytesUpToAFailure := by
  unfold Obligations.HostCopyMovesBytesUpToAFailure
  intro p e host m s h ha va n toHost u port stop h1 h2 h3 h4 h5
  refine ⟨hcopyStop_whole, ?_, fun f a => hcopyStop_mem, ?_, ?_⟩
  · rintro k hcheck rfl hk
    exact hcopyStop_host hcheck hk
  · rintro f a k hcheck rfl hk
    have hboth := hcopyStop_both hcheck hk
    exact hboth.trans (by simp only [decide_eq_false_iff_not])
  have hport : (u.part p).port = port := by
    rw [(State.strike_struck ..).port, State.part_takeCmd]
  have hbytes : (u.mem p).bytes = (s.mem p).bytes := by
    rw [(State.strike_struck ..).bytes, State.mem_takeCmd]
  let k := stop.1
  obtain ⟨v, hv⟩ : ∃ v, u.hcopied p (decide toHost) ha va k = v := ⟨_, rfl⟩
  obtain ⟨X, hX⟩ : ∃ X, (v.startFarOwn p).mend p m = X := ⟨_, rfl⟩
  have hexec : exec (.hcopy p e host m) s = match stop.2 with
      | none => s.cmdIsDone p e X 0
      | some f => s.cmdFails p e X f := by
    rw [← hX, ← hv]
    exact exec_hcopy h (by omega)
  refine ⟨X, hexec, ?_⟩
  obtain ⟨hframe, hparts, hXbytes, hnear⟩ := State.mend_startFarOwn hX
  have hvu : v = { u with parts := v.parts, hostMem := v.hostMem } := by
    rw [← hv]
    exact State.hcopied_frame ..
  have hfab : v.fabric = u.fabric := by rw [hvu]
  have hhost : ∀ q, X.hostMemOf q = v.hostMemOf q := fun q => by rw [hframe]; rfl
  refine ⟨?_, fun hfar hunits => ?_, fun q hq => ?_, fun q hq => ?_, fun hto => ?_, fun hfrom => ?_⟩
  · have hto : X = { u with parts := X.parts, hostMem := v.hostMem, fabric := { u.fabric with trans := X.fabric.trans, waiting := X.fabric.waiting } } := by
      rw [hvu] at hframe
      exact hframe
    have hmem : X.hostMem = v.hostMem := by rw [hto]
    rw [hmem]
    exact hto
  · refine (hnear ?_).trans hfab
    rw [← hv]
    exact State.hcopied_far u p _ ha va k hfar hunits
  · rw [hparts q hq, ← hv]
    exact State.part_hcopied_ne u p _ ha va k hq
  · rw [hhost, ← hv]
    exact State.hostMemOf_hcopied_ne u p _ ha va k (hport ▸ hq)
  · obtain ⟨hmem, hcopy⟩ := State.hcopied_out u p ha va k
    rw [decide_eq_true hto] at hv
    rw [hv, hport] at hcopy
    rw [hv] at hmem
    refine ⟨(hXbytes p).trans (hmem.trans hbytes), fun a => ?_⟩
    rw [hhost, hcopy, hbytes]
    exact sget_writeBytes_readBytes ..
  · obtain ⟨hmem, hsame⟩ := State.hcopied_in u p ha va k
    rw [decide_eq_false hfrom] at hv
    rw [hv] at hmem hsame
    rw [hport, hbytes] at hmem
    refine ⟨?_, fun a => ?_⟩
    · rw [hframe]
      exact hsame
    · rw [hXbytes, hmem]
      exact sget_writeBytes_readBytes ..

end Sys2Proof.Machine
end

section
/-! PROOFS. Inbound streams (R501 to R503). -/

-- One proof at a time: in parallel the many `unfold`s wait for each other, with a thread for each that waits.
set_option Elab.async false

namespace Sys2Proof.Machine
/-! ### Bursts of inbound streams (R501 to R503) -/

/-- A field of one bit of an entry, by its bit in the word. -/
theorem bit_eBits {e : Entry} {off i : Nat} (hi : i < 32) : bit (eBits e off 0 32) i = decide (eBits e off i 1 = 1) := by
  rw [bit, eBits, bits, Nat.testBit_mod_two_pow, decide_eq_true hi, Bool.true_and, Nat.testBit_div_two_pow, Nat.testBit_eq_decide_div_mod_eq, eBits, bits,
    Nat.add_zero, Nat.add_comm i, pow_one]

theorem PartBlock.stream_setStream (b : PartBlock) (i : Nat) (x : InStream) : (b.setStream i x).stream i = x := sget_sput_self ..

theorem State.failItem_parts (s : State) (r i : Nat) (f : FaultCode) : (s.failItem r i f).parts = s.parts := by rw [State.failItem_frame]
theorem State.failItem_objs (s : State) (r i : Nat) (f : FaultCode) : (s.failItem r i f).objs = s.objs := by rw [State.failItem_frame]

theorem State.discardBurst_none {s : State} {p i : Nat} (h : ((s.part p).stream i).burst = none) : s.discardBurst p i = s := by
  simp only [State.discardBurst, h]

/-- A burst discarded: its offset goes back to its start, and nothing is signalled. -/
theorem State.discardBurst_some {s : State} {p i start : Nat} (h : ((s.part p).stream i).burst = some start) :
    (s.discardBurst p i).part p = ((s.part p).setStream i { (s.part p).stream i with burst := none, item := none, offset := start }).count 0x74 1 ∧
    (s.discardBurst p i).objs = s.objs := by
  simp only [State.discardBurst, h]
  split
  · split
    · rw [State.part, State.failItem_parts, State.failItem_objs]
      exact ⟨State.part_setPart_self .., rfl⟩
    · exact ⟨State.part_setPart_self .., rfl⟩
  · exact ⟨State.part_setPart_self .., rfl⟩

theorem State.discardBurst_keeps (s : State) (p i : Nat) : ((s.discardBurst p i).part p).mem = (s.part p).mem ∧ (s.discardBurst p i).objs = s.objs := by
  cases h : ((s.part p).stream i).burst with
  | none => rw [State.discardBurst_none h]; exact ⟨rfl, rfl⟩
  | some start =>
    obtain ⟨hpart, hobjs⟩ := State.discardBurst_some h
    exact ⟨by rw [hpart]; rfl, hobjs⟩

theorem State.check_setPart (s : State) (p : Nat) {b : PartBlock} (h : b.mem = (s.part p).mem) (q : Nat) : (s.setPart p b).check q = s.check q := by
  have hmem : (s.setPart p b).mem q = s.mem q := by
    rw [State.mem, State.part_setPart]
    split
    · next hq => rw [h, hq]; rfl
    · rfl
  funext isRead va n
  simp only [State.check, State.failOf, hmem]
  rfl

/-! ### A chunk kept (R502) -/

/-- The state after a kept chunk of `bs`. -/
def State.keptChunk (t : State) (p i : Nat) (bs : List Byte) (seq : W32) (last : Bool) : State :=
  let x := (t.part p).stream i
  let u := (t.setMem p ((t.mem p).store (x.dst + x.offset) bs)).startFarOwn p
  let v := u.setPart p ((u.part p).setStream i { x with
    offset := (x.offset + bs.length) % x.dbytes, expected := some (seq + 1),
    burst := if last then none else x.burst, item := if last then none else x.item })
  if last then v.signal x.obj 1 else v

theorem keepChunk_done {t : State} {p i : Nat} {bs : List Byte} {seq : W32} {last : Bool}
    (h : t.check p false (((t.part p).stream i).dst + ((t.part p).stream i).offset) bs.length = none) :
    keepChunk p i bs seq last t = .done (t.keptChunk p i bs seq last) 0 := by
  unfold keepChunk
  extract_lets x a
  simp only [x, a, h]
  rfl

theorem State.part_signal (s : State) (n : Nat) (a : W32) (p : Nat) : (s.signal n a).part p = s.part p := rfl

section Kept
variable (t : State) (p i : Nat) (bs : List Byte) (seq : W32) (last : Bool)

theorem State.keptChunk_part : (t.keptChunk p i bs seq last).part p = (((t.setMem p ((t.mem p).store
      (((t.part p).stream i).dst + ((t.part p).stream i).offset) bs)).startFarOwn p).part p).setStream i { (t.part p).stream i with
    offset := (((t.part p).stream i).offset + bs.length) % ((t.part p).stream i).dbytes, expected := some (seq + 1),
    burst := if last then none else ((t.part p).stream i).burst, item := if last then none else ((t.part p).stream i).item } := by
  unfold State.keptChunk
  cases last
  · exact State.part_setPart_self ..
  · exact State.part_setPart_self ..

theorem State.keptChunk_stream : ((t.keptChunk p i bs seq last).part p).stream i = { (t.part p).stream i with
    offset := (((t.part p).stream i).offset + bs.length) % ((t.part p).stream i).dbytes, expected := some (seq + 1),
    burst := if last then none else ((t.part p).stream i).burst, item := if last then none else ((t.part p).stream i).item } := by
  rw [State.keptChunk_part, PartBlock.stream_setStream]

theorem State.keptChunk_bytes : ((t.keptChunk p i bs seq last).mem p).bytes =
    writeBytes (t.mem p).bytes (((t.part p).stream i).dst + ((t.part p).stream i).offset) bs := by
  rw [State.mem, State.keptChunk_part]
  exact (State.startFarOwn_bytes ..).trans (congrArg Mem.bytes (State.mem_setMem_self t p _))

theorem State.keptChunk_obj (o : Nat) :
    (t.keptChunk p i bs seq last).obj o = if last = true ∧ o = ((t.part p).stream i).obj then t.obj o + 1 else t.obj o := by
  have hobjs : ∀ m : State, (m.startFarOwn p).objs = m.objs := fun m => by rw [State.of_offOwn (State.startFarOwn_offOwn m p)]
  unfold State.keptChunk
  extract_lets x u v
  have hv : v.objs = t.objs := hobjs _
  have hobj : ∀ n, v.obj n = t.obj n := fun n => by rw [State.obj, hv]; rfl
  cases last with
  | false => simpa using hobj o
  | true =>
    rw [if_pos rfl, State.signal, State.obj_setObj]
    simp only [true_and, hobj]
    split
    · next h => rw [h]
    · rfl

end Kept

/-- The stream of a FIRST chunk, its burst begun. -/
def State.beginBurst (u : State) (p : Nat) (e : Entry) : State :=
  u.setPart p ((u.part p).setStream (eBits e 0x08 0 4) { (u.part p).stream (eBits e 0x08 0 4) with
    burst := some ((u.part p).stream (eBits e 0x08 0 4)).offset, item := u.burstItem p (BitVec.ofNat 32 (eBits e 0x1C 0 32)) (eBits e 0x20 0 32) })

/-- The bytes of a chunk. -/
def chunkBytes (s : State) (p : Nat) (e : Entry) : List Byte := readBytes (s.hostMemOf (s.part p).port) (eBits e 0x10 0 64) (eBits e 0x18 0 32)

/-- How a sound CHUNK whose bytes the host answers ends. -/
def chunkRes (s : State) (p : Nat) (e : Entry) : CmdRes :=
  let i := eBits e 0x08 0 4
  let seq := BitVec.ofNat 32 (eBits e 0x0C 0 32)
  let keep := keepChunk p i (chunkBytes s p e) seq (decide (eBits e 0x08 5 1 = 1))
  if eBits e 0x08 4 1 = 1 then keep (((s.takeCmd p).discardBurst p i).beginBurst p e)
  else match ((s.part p).stream i).burst, ((s.part p).stream i).expected with
    | some _, some ex =>
      if seq = ex then keep (s.takeCmd p)
      else
        let t := if ex.ult seq then (s.takeCmd p).discardBurst p i else s.takeCmd p
        .done (t.setPart p ((t.part p).count 0x70 1)) 1
    | _, _ => .done ((s.takeCmd p).setPart p (((s.takeCmd p).part p).count 0x70 1)) 1

section Chunk
variable {s : State} {p : Nat} {e : Entry} (h : s.Fetches p 0x09 e chunkBody)
  (hsound : ¬(((s.part p).stream (eBits e 0x08 0 4)).configured = false ∨ ((s.part p).stream (eBits e 0x08 0 4)).dbytes < eBits e 0x18 0 32 ∨
    eBits e 0x18 0 32 = 0 ∨ eBits e 0x18 0 32 % 4 ≠ 0 ∨ eBits e 0x10 0 64 % 4 ≠ 0))
include h hsound

theorem exec_chunk_done {u : State} {r : Nat} (hr : chunkRes s p e = .done u r) : exec (.chunk p e true) s = s.cmdIsDone p e u r := by
  change execChunk p e true s = _
  refine partCmd_of_done h ?_
  have hstream : ((s.takeCmd p).part p).stream = (s.part p).stream := by
    rw [State.part_takeCmd]
    rfl
  have hport : ((s.takeCmd p).part p).port = (s.part p).port := by rw [State.part_takeCmd]
  dsimp only
  rw [hstream, hport, if_neg hsound]
  exact hr

end Chunk

section Res
variable {s : State} {p : Nat} {e : Entry}

theorem chunkRes_first (hfirst : eBits e 0x08 4 1 = 1) : chunkRes s p e = keepChunk p (eBits e 0x08 0 4) (chunkBytes s p e)
    (BitVec.ofNat 32 (eBits e 0x0C 0 32)) (decide (eBits e 0x08 5 1 = 1)) (((s.takeCmd p).discardBurst p (eBits e 0x08 0 4)).beginBurst p e) :=
  if_pos hfirst

variable (hfirst : ¬eBits e 0x08 4 1 = 1)
include hfirst

/-- A chunk dropped is counted. -/
theorem chunkRes_noBurst (hburst : ((s.part p).stream (eBits e 0x08 0 4)).burst = none) :
    chunkRes s p e = .done ((s.takeCmd p).setPart p (((s.takeCmd p).part p).count 0x70 1)) 1 := by
  refine (if_neg hfirst).trans ?_
  rw [hburst]

variable {ex : W32} (hburst : ((s.part p).stream (eBits e 0x08 0 4)).burst.isSome = true) (hex : ((s.part p).stream (eBits e 0x08 0 4)).expected = some ex)
include hburst hex

theorem chunkRes_burst : chunkRes s p e = if BitVec.ofNat 32 (eBits e 0x0C 0 32) = ex then
      keepChunk p (eBits e 0x08 0 4) (chunkBytes s p e) (BitVec.ofNat 32 (eBits e 0x0C 0 32)) (decide (eBits e 0x08 5 1 = 1)) (s.takeCmd p)
    else
      let t := if ex.ult (BitVec.ofNat 32 (eBits e 0x0C 0 32)) then (s.takeCmd p).discardBurst p (eBits e 0x08 0 4) else s.takeCmd p
      .done (t.setPart p ((t.part p).count 0x70 1)) 1 := by
  obtain ⟨start, hstart⟩ := Option.isSome_iff_exists.mp hburst
  refine (if_neg hfirst).trans ?_
  rw [hstart, hex]

end Res

/-- Settles O31: the chunk's own effect by `chunkRes`, what a kept chunk leaves by the lemmas about `State.keptChunk`. -/
theorem streamsKeepChunksInSequence : Obligations.StreamsKeepChunksInSequence := by
  unfold Obligations.StreamsKeepChunksInSequence
  intro p e s b
  refine ⟨?_, ?_, fun i => ⟨fun hnone => ?_, fun start hstart => ?_⟩⟩
  · intro i gap u h h1 h2 h3 h4 h5
    change execStreamCfg p e s = _
    refine partCmd_of_done h ?_
    dsimp only
    refine if_neg ?_
    rw [State.part_takeCmd]
    rintro (hb | hb | hb | ⟨hb, hb'⟩ | hb)
    · exact hb h1
    · exact hb h2
    · exact h3 hb
    · have : gap = eBits e 0x20 0 24 := rfl
      omega
    · exact absurd (h5.symm.trans hb) nofun
  · intro i first last seq ha n u x h hcfg hlen hn hn4 ha4
    have hsound : ¬((b.stream i).configured = false ∨ (b.stream i).dbytes < n ∨ n = 0 ∨ n % 4 ≠ 0 ∨ ha % 4 ≠ 0) := by
      rw [hcfg]
      simp only [Bool.true_eq_false, false_or]
      omega
    have hdrop : (s.takeCmd p).setPart p (((s.takeCmd p).part p).count 0x70 1) = s.setPart p ({ b with cmd := b.cmd.advance }.count 0x70 1) := by
      rw [State.part_takeCmd]
      exact State.setPart_setPart s p _ (State.not_free_of_canFetchCmd h.2.1)
    have hfirst' : first = decide (eBits e 0x08 4 1 = 1) := bit_eBits (by omega)
    have hlast' : last = decide (eBits e 0x08 5 1 = 1) := bit_eBits (by omega)
    refine ⟨fun hseq hcheck => ?_, fun hfirst hburst => ?_, fun ex hfirst hburst hex hlt => ?_, fun ex hfirst hburst hex hlt => ?_⟩
    · have hlen : (chunkBytes s p e).length = n := readBytes_length ..
      obtain ⟨t, hres, hx, hmem, hobjs, hcheck'⟩ : ∃ t, chunkRes s p e = keepChunk p i (chunkBytes s p e) seq (decide (eBits e 0x08 5 1 = 1)) t ∧
          (t.part p).stream i = { x with burst := if first then some x.offset else x.burst
                                         item := if first then u.burstItem p (BitVec.ofNat 32 (eBits e 0x1C 0 32)) (eBits e 0x20 0 32) else x.item } ∧
          (t.mem p).bytes = b.mem.bytes ∧ t.objs = s.objs ∧ t.check p = u.check p := by
        cases hf : first with
        | true =>
          obtain ⟨hmem, hobjs⟩ := State.discardBurst_keeps (s.takeCmd p) p i
          have hu : u = (s.takeCmd p).discardBurst p i := if_pos hf
          rw [← hu] at hmem hobjs
          refine ⟨u.beginBurst p e, ?_, ?_, ?_, hobjs, ?_⟩
          · rw [hu]
            exact chunkRes_first (of_decide_eq_true (hfirst'.symm.trans hf))
          · rw [State.beginBurst, State.part_setPart_self]
            exact PartBlock.stream_setStream ..
          · rw [State.beginBurst, State.mem, State.part_setPart_self]
            refine (congrArg Mem.bytes hmem).trans ?_
            rw [State.part_takeCmd]
          · unfold State.beginBurst
            refine State.check_setPart u p ?_ p
            rfl
        | false =>
          have hu : u = s.takeCmd p := if_neg (by rw [hf]; nofun)
          obtain ⟨hburst, hex⟩ := hseq.resolve_left (by rw [hf]; nofun)
          refine ⟨u, ?_, rfl, ?_, by rw [hu]; rfl, rfl⟩
          · rw [hu]
            exact (chunkRes_burst (of_decide_eq_false (hfirst'.symm.trans hf)) hburst hex).trans (if_pos rfl)
          · rw [hu, State.mem_takeCmd]
            rfl
      refine ⟨_, exec_chunk_done h hsound (hres.trans (keepChunk_done ?_)), ?_, fun a => ?_, fun o => ?_⟩
      · rw [hcheck', hx, hlen]
        exact hcheck
      · rw [State.keptChunk_stream, hx, hlen, ← hlast']
      · rw [State.keptChunk_bytes, hx, hmem]
        exact sget_writeBytes_readBytes ..
      · rw [State.keptChunk_obj, hx, ← hlast', State.obj, hobjs]
        rfl
    · rw [exec_chunk_done h hsound (chunkRes_noBurst (of_decide_eq_false (hfirst'.symm.trans hfirst)) hburst), hdrop]
    · rw [← hdrop]
      refine exec_chunk_done h hsound ((chunkRes_burst (of_decide_eq_false (hfirst'.symm.trans hfirst)) hburst hex).trans ((if_neg ?_).trans ?_))
      · rintro rfl
        exact Nat.lt_irrefl _ hlt
      · dsimp only
        rw [if_neg]
        rw [BitVec.ult_iff_lt, BitVec.lt_def]
        exact Nat.lt_asymm hlt
    · intro d
      refine exec_chunk_done h hsound ((chunkRes_burst (of_decide_eq_false (hfirst'.symm.trans hfirst)) hburst hex).trans ((if_neg ?_).trans ?_))
      · rintro rfl
        exact Nat.lt_irrefl _ hlt
      · dsimp only
        rw [if_pos]
        · rw [BitVec.ult_iff_lt, BitVec.lt_def]
          exact hlt
  · exact congrArg Host.Outcome.next (State.discardBurst_none hnone)
  · obtain ⟨hpart, hobjs⟩ := State.discardBurst_some hstart
    refine ⟨_, rfl, ?_, ?_, hobjs⟩
    · rw [hpart]
      exact PartBlock.stream_setStream ..
    · rw [hpart]
      rfl

end Sys2Proof.Machine
end

section
/-! PROOFS. Sessions (R403 to R417). -/

-- One proof at a time: in parallel the many `unfold`s wait for each other, with a thread for each that waits.
set_option Elab.async false

namespace Sys2Proof.Machine
/-! ### Sessions (R403 to R409, R417) -/

theorem State.sessOf_takeCmd (s : State) (p n : Nat) : (s.takeCmd p).sessOf n = s.sessOf n := rfl

theorem State.sessFor_none {s : State} {p n : Nat} (h : (s.sessOf n).state = .free ∨ (s.sessOf n).part ≠ p) : s.sessFor p n = none := by
  refine if_neg ?_
  rw [Bool.and_eq_true, bne_iff_ne, beq_iff_eq]
  tauto

theorem State.sessFor_some {s : State} {p n : Nat} (hstate : (s.sessOf n).state ≠ .free) (hpart : (s.sessOf n).part = p) :
    s.sessFor p n = some (s.sessOf n) := by
  refine if_pos ?_
  rw [Bool.and_eq_true, bne_iff_ne, beq_iff_eq]
  exact ⟨hstate, hpart⟩

theorem foldl_sess {α : Type} {f : State → α → State} (h : ∀ s a, (f s a).sess = s.sess) (l : List α) (s : State) (n : Nat) :
    (l.foldl f s).sessOf n = s.sessOf n := by
  rw [State.sessOf, foldl_keeps f State.sess h]
  rfl

theorem State.sessOf_freeSubs (s : State) (p : Nat) (vas : List Nat) (n : Nat) : (s.freeSubs p vas).sessOf n = s.sessOf n := by
  refine foldl_sess (fun t va => ?_) ..
  split <;> rfl

theorem State.sessOf_clearEntries (s : State) (p : Nat) (x : Sess) (hs : List HeldSub) (n : Nat) : (s.clearEntries p x hs).sessOf n = s.sessOf n := by
  refine foldl_sess (fun t h => ?_) ..
  dsimp only
  split <;> rfl

/-- Freeing what awaits release leaves the rest of the session. -/
theorem State.sessOf_flushSess (s : State) (n : Nat) :
    (s.flushSess n).sessOf n = { s.sessOf n with awaiting := ((s.flushSess n).sessOf n).awaiting } := by
  unfold State.flushSess
  extract_lets x
  split
  · rw [State.sessOf_freeSubs, State.sessOf_setSess_self]
  · rfl

theorem firstFrom_none {f : Nat → Bool} {n k : Nat} (h : ∀ j, k ≤ j → j < k + n → f j = false) : firstFrom f n k = none := by
  induction n generalizing k with
  | zero => rfl
  | succ n ih =>
    rw [firstFrom, h k (Nat.le_refl k) (by omega), if_neg nofun]
    exact ih fun j hj hlt => h j (by omega) (by omega)

theorem firstFrom_some {f : Nat → Bool} {n k i : Nat} (hk : k ≤ i) (hi : i < k + n) (hf : f i = true) (hlow : ∀ j, k ≤ j → j < i → f j = false) :
    firstFrom f n k = some i := by
  induction n generalizing k with
  | zero => omega
  | succ n ih =>
    rw [firstFrom]
    split
    · next hfk =>
      refine congrArg some (Nat.le_antisymm hk (Nat.le_of_not_lt fun hlt => ?_))
      rw [hlow k (Nat.le_refl k) hlt] at hfk
      cases hfk
    · next hfk =>
      obtain rfl | hlt := Nat.eq_or_lt_of_le hk
      · exact absurd hf hfk
      · exact ih hlt (by omega) fun j hj => hlow j (by omega)

section Open
variable {s : State} {p : Nat} {e : Entry}

/-- The session of a SESS_OPEN entry. -/
def entrySess (p : Nat) (e : Entry) : Sess :=
  { state := .open, part := p, fmtK := eBits e 0x08 0 1, fmtV := eBits e 0x08 1 1, dm32 := eBits e 0x08 2 4,
    layers := eBits e 0x0C 0 12, heads := eBits e 0x0C 12 8, plBase := eBits e 0x10 0 48, spc := eBits e 0x18 0 16 }

/-- The bytes of a session's page list. -/
def Sess.listBytes (x : Sess) : Nat := x.layers * x.heads * 2 * x.spc * 256

/-- A partition's memory with a session's page list cleared. -/
def Mem.clearList (m : Mem) (x : Sess) : Mem :=
  { m with bytes := sclear m.bytes x.plBase x.listBytes,
           poison := m.poison.filter fun u => !(decide (x.plBase ≤ 64 * u) && decide (64 * u < x.plBase + x.listBytes)) }

variable (h : s.Fetches p 0x11 e sessOpenBody)
  (hsound : ¬((entrySess p e).dm32 = 0 ∨ 8 < (entrySess p e).dm32 ∨ (entrySess p e).layers = 0 ∨ (entrySess p e).heads = 0 ∨ (entrySess p e).spc = 0 ∨
    (entrySess p e).plBase % 256 ≠ 0 ∨ (s.part p).arena = none ∨ (entrySess p e).plBase < 0x400000 ∨
    2 ^ 48 < (entrySess p e).plBase + (entrySess p e).listBytes ∨
    (s.part p).mem.mapped (entrySess p e).plBase (entrySess p e).listBytes = false))
include h hsound

theorem exec_sessOpen_full (hfull : firstFrom (fun i => (s.sessOf i).state == .free) 262144 0 = none) :
    exec (.sessOpen p e) s = s.cmdFails p e (s.takeCmd p) fltSessFull := by
  change execSessOpen p e s = _
  refine partCmd_of_fail h ?_
  dsimp only
  rw [State.part_takeCmd]
  refine (if_neg hsound).trans ?_
  change (match firstFrom (fun i => (s.sessOf i).state == .free) 262144 0 with | none => _ | some i => _) = _
  rw [hfull]

theorem exec_sessOpen_some {i : Nat} (hfirst : firstFrom (fun i => (s.sessOf i).state == .free) 262144 0 = some i) :
    exec (.sessOpen p e) s =
      s.cmdIsDone p e (((s.takeCmd p).setMem p ((s.part p).mem.clearList (entrySess p e))).setSess i (entrySess p e)) i := by
  change execSessOpen p e s = _
  refine partCmd_of_done h ?_
  dsimp only
  rw [State.part_takeCmd]
  refine (if_neg hsound).trans ?_
  change (match firstFrom (fun i => (s.sessOf i).state == .free) 262144 0 with | none => _ | some i => _) = _
  rw [hfirst]
  rfl

end Open

section Named
variable {s : State} {p : Nat} {e : Entry}

theorem exec_sessClose_unknown (h : s.Fetches p 0x12 e sessBody) (hs : s.sessFor p (eBits e 0x08 0 18) = none) :
    exec (.sessClose p e) s = s.cmdFails p e (s.takeCmd p) fltSessUnknown := by
  change execSessClose p e s = _
  refine partCmd_of_fail h ?_
  change (match s.sessFor p (eBits e 0x08 0 18) with | none => _ | some x => _) = _
  rw [hs]

theorem exec_sessTrim_unknown (h : s.Fetches p 0x13 e (sessBody ++ [(0x10, 0, 64)])) (hs : s.sessFor p (eBits e 0x08 0 18) = none) :
    exec (.sessTrim p e) s = s.cmdFails p e (s.takeCmd p) fltSessUnknown := by
  change execSessTrim p e s = _
  refine partCmd_of_fail h ?_
  change (match s.sessFor p (eBits e 0x08 0 18) with | none => _ | some x => _) = _
  rw [hs]

section Query
variable (h : s.Fetches p 0x14 e (sessBody ++ [(0x10, 0, 64)])) (halign : eBits e 0x10 0 64 % 64 = 0)
include h halign

theorem exec_sessQuery_unknown (hs : s.sessFor p (eBits e 0x08 0 18) = none) (ok : Bool) :
    exec (.sessQuery p e ok) s = s.cmdFails p e (s.takeCmd p) fltSessUnknown := by
  change execSessQuery p e ok s = _
  refine partCmd_of_fail h ((if_neg (not_not.mpr halign)).trans ?_)
  change (match s.sessFor p (eBits e 0x08 0 18) with | none => _ | some x => _) = _
  rw [hs]

variable {x : Sess} (hs : s.sessFor p (eBits e 0x08 0 18) = some x)
include hs

theorem exec_sessQuery_unanswered : exec (.sessQuery p e false) s = s.cmdFails p e (s.takeCmd p) fltHostTimeout := by
  change execSessQuery p e false s = _
  refine partCmd_of_fail h ((if_neg (not_not.mpr halign)).trans ?_)
  change (match s.sessFor p (eBits e 0x08 0 18) with | none => _ | some x => _) = _
  rw [hs]
  rfl

theorem exec_sessQuery_answered : exec (.sessQuery p e true) s = s.cmdIsDone p e ((s.takeCmd p).setHostMem (s.part p).port
    (writeBytes (s.hostMemOf (s.part p).port) (eBits e 0x10 0 64) (x.bytes (s.part p).mem))) 0 := by
  have hport : ((s.takeCmd p).part p).port = (s.part p).port := by rw [State.part_takeCmd]
  change execSessQuery p e true s = _
  refine partCmd_of_done h ((if_neg (not_not.mpr halign)).trans ?_)
  change (match s.sessFor p (eBits e 0x08 0 18) with | none => _ | some x => _) = _
  rw [hs]
  dsimp only
  rw [if_pos rfl, hport, State.mem_takeCmd]
  rfl

end Query

/-- A subpage that a SESS_TRIM to the tokens from `lo` to `hi` gives up. -/
def Sess.trims (x : Sess) (lo hi : Nat) (h : HeldSub) : Bool :=
  lo == hi || decide (h.u * x.tokens h.cache + x.tokens h.cache ≤ lo) || decide (hi ≤ h.u * x.tokens h.cache)

/-- A session trimmed (R408). -/
def State.trimmed (t : State) (p n : Nat) (x : Sess) (lo hi : Nat) : State :=
  ((t.clearEntries p x (x.held.filter (x.trims lo hi))).setSess n { x with
    held := x.held.filter (fun h => !x.trims lo hi h), awaiting := x.awaiting ++ (x.held.filter (x.trims lo hi)).map (·.va),
    high := min x.high hi }).flushSess n

theorem State.sessOf_trimmed (t : State) (p n : Nat) (x : Sess) (lo hi : Nat) :
    ((t.trimmed p n x lo hi).sessOf n).held = x.held.filter (fun h => !x.trims lo hi h) ∧ ((t.trimmed p n x lo hi).sessOf n).high = min x.high hi := by
  rw [State.trimmed, State.sessOf_flushSess, State.sessOf_setSess_self]
  exact ⟨rfl, rfl⟩

theorem Sess.not_trims {x : Sess} {lo hi : Nat} {h : HeldSub} : (!x.trims lo hi h) = true ↔
    lo ≠ hi ∧ lo < h.u * x.tokens h.cache + x.tokens h.cache ∧ h.u * x.tokens h.cache < hi := by
  simp [Sess.trims, and_assoc]

section Trim
variable (h : s.Fetches p 0x13 e (sessBody ++ [(0x10, 0, 64)])) {x : Sess} (hs : s.sessFor p (eBits e 0x08 0 18) = some x)
include h hs

theorem exec_sessTrim_bad (hlt : eBits e 0x14 0 32 < eBits e 0x10 0 32) :
    exec (.sessTrim p e) s = s.cmdFails p e (s.takeCmd p) fltArgRange := by
  change execSessTrim p e s = _
  refine partCmd_of_fail h ?_
  change (match s.sessFor p (eBits e 0x08 0 18) with | none => _ | some x => _) = _
  rw [hs]
  exact if_pos hlt

theorem exec_sessTrim_good (hle : eBits e 0x10 0 32 ≤ eBits e 0x14 0 32) : exec (.sessTrim p e) s =
    s.cmdIsDone p e ((s.takeCmd p).trimmed p (eBits e 0x08 0 18) x (eBits e 0x10 0 32) (eBits e 0x14 0 32)) 0 := by
  change execSessTrim p e s = _
  refine partCmd_of_done h ?_
  change (match s.sessFor p (eBits e 0x08 0 18) with | none => _ | some x => _) = _
  rw [hs]
  exact if_neg (Nat.not_lt.mpr hle)

end Trim

section Close
variable (h : s.Fetches p 0x12 e sessBody) {x : Sess} (hs : s.sessFor p (eBits e 0x08 0 18) = some x)
include h hs

theorem exec_sessClose_closing (hstate : x.state = .closing) :
    exec (.sessClose p e) s = .next ((s.takeCmd p).setSess (eBits e 0x08 0 18) { x with closers := x.closers ++ [s.cmdOwed p e] }) := by
  change execSessClose p e s = _
  refine partCmd_of_owes h ?_
  change (match s.sessFor p (eBits e 0x08 0 18) with | none => _ | some x => _) = _
  rw [hs]
  exact if_pos hstate

theorem exec_sessClose_open (hstate : x.state = .open) :
    let n := eBits e 0x08 0 18
    let t := (((s.takeCmd p).clearEntries p x x.held).setSess n
      { x with state := .closing, held := [], awaiting := x.awaiting ++ x.held.map (·.va), closers := [s.cmdOwed p e] })
    let u := (t.queuedOf n).foldl (fun t r => t.endItems r .cancelled 0 fun _ => true) t
    exec (.sessClose p e) s = .next (if (u.sessOf n).assigned = 0 then u.releaseSess n else u) := by
  intro n t u
  change execSessClose p e s = _
  refine partCmd_of_owes h ?_
  change (match s.sessFor p (eBits e 0x08 0 18) with | none => _ | some x => _) = _
  rw [hs]
  exact if_neg (by rw [hstate]; nofun)

end Close
end Named

/-- Settles O32. -/
theorem sessionsOpenCloseAndRelease : Obligations.SessionsOpenCloseAndRelease := by
  unfold Obligations.SessionsOpenCloseAndRelease
  intro p e s b
  refine ⟨?_, ?_, ?_⟩
  · intro x n h h1 h2 h3 h4 h5 h6 h7 h8 h9 h10
    have hsound : ¬(x.dm32 = 0 ∨ 8 < x.dm32 ∨ x.layers = 0 ∨ x.heads = 0 ∨ x.spc = 0 ∨ x.plBase % 256 ≠ 0 ∨ b.arena = none ∨ x.plBase < 0x400000 ∨
        2 ^ 48 < x.plBase + n ∨ b.mem.mapped x.plBase n = false) := by
      rw [h10]
      simp only [Nat.pos_iff_ne_zero.mp h1, Nat.not_lt.mpr h2, h3, h4, h5, h6, h7, Nat.not_lt.mpr h8, Nat.not_lt.mpr h9, ne_eq, not_true_eq_false,
        Bool.true_eq_false, or_self, not_false_eq_true]
    refine ⟨fun i hi hfree hlow => ?_, fun hfull => exec_sessOpen_full h hsound (firstFrom_none fun j _ hj => ?_)⟩
    · refine ⟨_, exec_sessOpen_some h hsound (firstFrom_some (Nat.zero_le i) (by omega) ?_ fun j _ hj => ?_), fun j => ?_, fun a => ?_, ?_, fun q hq => ?_⟩
      · rw [hfree]; rfl
      · exact beq_eq_false_iff_ne.mpr (hlow j hj)
      · exact State.sessOf_setSess ..
      · refine (congrArg (fun m : Mem => sget 0 m.bytes a) (State.mem_setMem_self (s.takeCmd p) p _)).trans (sget_sclear ..)
      · rfl
      · exact (State.part_setPart ..).trans ((if_neg hq).trans (State.part_takeCmd_ne s hq))
    · exact beq_eq_false_iff_ne.mpr (hfull j (by omega))
  · intro n x o
    refine ⟨fun hunknown => ⟨fun h => ?_, fun h => ?_, fun h ha ok => ?_⟩, fun h hpart => ⟨fun hstate => ?_, fun hstate => ?_⟩,
      fun h hstate hpart => ⟨fun hlt => ?_, fun hle => ?_⟩, fun h hstate hpart ha => ⟨?_, ?_⟩⟩
    · exact exec_sessClose_unknown h (State.sessFor_none hunknown)
    · exact exec_sessTrim_unknown h (State.sessFor_none hunknown)
    · exact exec_sessQuery_unknown h ha (State.sessFor_none hunknown) ok
    · exact exec_sessClose_closing h (State.sessFor_some (by rw [hstate]; nofun) hpart) hstate
    · exact exec_sessClose_open h (State.sessFor_some (by rw [hstate]; nofun) hpart) hstate
    · exact exec_sessTrim_bad h (State.sessFor_some hstate hpart) hlt
    · obtain ⟨hheld, hhigh⟩ := State.sessOf_trimmed (s.takeCmd p) p n x (eBits e 0x10 0 32) (eBits e 0x14 0 32)
      refine ⟨_, exec_sessTrim_good h (State.sessFor_some hstate hpart) hle, hhigh, fun g => ?_⟩
      rw [hheld, List.mem_filter, Sess.not_trims]
    · exact exec_sessQuery_unanswered h ha (State.sessFor_some hstate hpart)
    · exact exec_sessQuery_answered h ha (State.sessFor_some hstate hpart)
  · intro n x
    refine ⟨fun hn => if_pos hn, fun hstate hzero => ⟨?_, State.sessOf_setSess_self ..⟩, fun hstate hzero => ?_⟩
    · refine (if_neg ?_).trans (if_pos hstate)
      rw [hstate, hzero]
      simp
    · refine (if_neg ?_).trans ((if_neg ?_).trans (congrArg Host.Outcome.next (if_pos hzero)))
      · rw [hstate, hzero]
        simp
      · rw [hstate]
        nofun

end Sys2Proof.Machine
end

section
/-! PROOFS. Requests (R420, R421, R494 to R500). -/

-- One proof at a time: in parallel the many `unfold`s wait for each other, with a thread for each that waits.
set_option Elab.async false

namespace Sys2Proof.Machine
/-! ### Requests (R420, R421, R494 to R500) -/

section Req
variable {s : State} {p : Nat} {e : Entry}

theorem exec_req_closed (h : s.canFetchReq p = false) : exec (.req p e) s = .next s := by
  change execReq p e s = _
  unfold execReq unlistedEntry
  simp only [h, Bool.false_and, Bool.false_eq_true, if_false, ite_self]

theorem exec_req_otherCode (h : eCode e ≠ 0x01) : exec (.req p e) s = exec (.unlistedCodeEntry (.req p) e) s := if_pos h

theorem exec_unlistedReq_closed (h : s.canFetchReq p = false) : exec (.unlistedCodeEntry (.req p) e) s = .next s :=
  if_neg (by rw [h]; nofun)

theorem exec_ringFetchFailReq_closed (h : s.canFetchReq p = false) : exec (.ringFetchFail (.req p)) s = .next s :=
  if_neg (by rw [h]; nofun)

theorem canFetchReq_of_full (h : (s.part p).grant.reqMax ≤ s.inFlight p) : s.canFetchReq p = false := by
  simp only [State.canFetchReq, decide_eq_false (Nat.not_lt.mpr h), Bool.and_false]

/-- The request of a REQ entry. -/
def entryRequest (s : State) (p : Nat) (e : Entry) : Request :=
  { part := p, tag := eTag e, session := if eBits e 0x08 18 1 = 1 then some (eBits e 0x08 0 18) else none, count := eBits e 0x0C 0 32, seq := s.reqSeq }

/-- The session that a REQ entry names, if it names one, is open to its partition. -/
def State.knowsSess (s : State) (p : Nat) : Option Nat → Bool
  | some i => (s.sessOf i).state == .open && (s.sessOf i).part == p
  | none => true

theorem State.knowsSess_iff {s : State} {p : Nat} {sess : Option Nat} :
    s.knowsSess p sess = true ↔ ∀ i, sess = some i → (s.sessOf i).state = .open ∧ (s.sessOf i).part = p := by
  cases sess with
  | none => simp [State.knowsSess]
  | some i => simp [State.knowsSess]

/-- The state with the entry taken and its request in the table. -/
def State.takeReq (s : State) (p r : Nat) (q : Request) : State :=
  { s.setPart p { s.part p with req := (s.part p).req.advance } with reqs := s.reqs ++ [(r, q)], reqSeq := s.reqSeq + 1 }

/-- A request that is not queued: its items fail. -/
def State.failReq (u : State) (r : Nat) (q : Request) (f : FaultCode) : State :=
  (u.setRequest r { q with session := none }).endItems r .failed f fun _ => true

theorem exec_req_sound {r : Nat} (hfetch : s.canFetchReq p = true) (hcode : eCode e = 0x01) (hauth : eAuth e = false) (hok : entryOk reqBody e = true)
    (hr : firstFrom (fun r => (s.request r).isNone) 16384 0 = some r) :
    let q := entryRequest s p e
    let u := s.takeReq p r q
    exec (.req p e) s = if eBits e 0x0C 0 32 = 0 then .next (u.postPart p (emptyRecord s r (eTag e) .done 0 (some r)))
      else if !s.knowsSess p q.session then .next (u.failReq r q fltSessUnknown)
      else match u.check p false ((s.part p).grant.reqTable + 64 * r) 64 with
        | some _ => .next (u.failReq r q fltMemUnmapped)
        | none => .next (((u.setMem p ((u.mem p).store ((s.part p).grant.reqTable + 64 * r) (requestBytes e))).startFarOwn p).enqueue r q) := by
  intro q u
  change execReq p e s = _
  refine (if_neg (not_not.mpr hcode)).trans ((if_pos hfetch).trans ((if_neg (by rw [hauth, hok]; nofun)).trans ?_))
  change (match firstFrom (fun r => (s.request r).isNone) 16384 0 with | none => _ | some r => _) = _
  rw [hr]
  rfl

theorem State.check_takeReq (s : State) (p r : Nat) (q : Request) : (s.takeReq p r q).check p = s.check p := by
  refine Eq.trans ?_ (State.check_setPart s p (b := { s.part p with req := (s.part p).req.advance }) rfl p)
  rfl

end Req

/-- Settles O33. -/
theorem requestsQueueAndCancel : Obligations.RequestsQueueAndCancel := by
  unfold Obligations.RequestsQueueAndCancel
  intro p e s b t
  refine ⟨exec_req_closed, exec_req_otherCode, fun hfetch hcode => ?_, fun hfetch hcode hbad => ?_, fun hfull => ?_, fun hfetch hcode hauth hok => ?_,
    fun h => ?_⟩
  · exact if_pos (by rw [hfetch, Bool.true_and]; exact bne_iff_ne.mpr hcode)
  · refine (if_neg (not_not.mpr hcode)).trans ((if_pos hfetch).trans (if_pos ?_))
    obtain hbad | hbad := hbad
    · rw [hbad, Bool.true_or]
    · rw [hbad, Bool.not_false, Bool.or_true]
  · have hclosed := canFetchReq_of_full hfull
    exact ⟨exec_req_closed hclosed, exec_unlistedReq_closed hclosed, exec_ringFetchFailReq_closed hclosed⟩
  · intro r hr hfree hlow n sess known q u fails
    have hfirst : firstFrom (fun r => (s.request r).isNone) 16384 0 = some r :=
      firstFrom_some (Nat.zero_le r) (by omega) (by rw [hfree]; rfl) fun j _ hj => by
        rw [Option.isNone_eq_false_iff]
        exact Option.isSome_iff_ne_none.mpr (hlow j hj)
    have hexec := exec_req_sound hfetch hcode hauth hok hfirst
    have hknown : s.knowsSess p (entryRequest s p e).session = true ↔ known := State.knowsSess_iff
    have hcheck : u.check p = s.check p := State.check_takeReq s p r q
    have hpart : u.part p = { b with req := b.req.advance } := State.part_setPart_self ..
    have hmem : u.mem p = b.mem := by rw [State.mem, hpart]
    refine ⟨fun hn => ?_, fun hn hk => ?_, fun hn hk hc => ?_, fun hn hk hc => ?_⟩
    · exact hexec.trans (if_pos hn)
    · exact hexec.trans ((if_neg hn).trans (if_pos (by rw [Bool.not_eq_true']; exact Bool.eq_false_iff.mpr (hknown.not.mpr hk))))
    · obtain ⟨f, hf⟩ := Option.ne_none_iff_exists'.mp hc
      refine hexec.trans ((if_neg hn).trans ((if_neg (by rw [hknown.mpr hk]; nofun)).trans ?_))
      change (match u.check p false _ _ with | some _ => _ | none => _) = _
      rw [hcheck, hf]
      rfl
    · refine hexec.trans ((if_neg hn).trans ((if_neg (by rw [hknown.mpr hk]; nofun)).trans ?_))
      change (match u.check p false _ _ with | some _ => _ | none => _) = _
      rw [hcheck, hc]
      change Host.Outcome.next (((u.setMem p ((u.mem p).store _ _)).startFarOwn p).enqueue r q) = _
      rw [hmem]
  · intro hit
    refine ⟨_, ?_, fun hnil => ?_, rfl⟩
    · change execCancel p e s = _
      exact partCmd_of_done h rfl
    · rw [hnil]
      rfl

end Sys2Proof.Machine
end

section
/-! PROOFS. The remote window table and CXL.mem (R458, R504). -/

-- One proof at a time: in parallel the many `unfold`s wait for each other, with a thread for each that waits.
set_option Elab.async false

namespace Sys2Proof.Machine
/-! ### The remote window table (R458) -/

theorem gapBad_eq_false {us : Nat} : gapBad us = false ↔ us = 0 ∨ (10 ≤ us ∧ us ≤ 10000000) := by
  simp only [gapBad, Bool.and_eq_false_iff, Bool.or_eq_false_iff, bne_eq_false_iff_eq, decide_eq_false_iff_not, Nat.not_lt]

/-- The entry of the remote window table that WIN_IMPORT writes. -/
def entryImport (e : Entry) : RemoteWin :=
  { module := eBits e 0x08 12 12, ebase := eBits e 0x10 0 45, size := eBits e 0x18 0 45, key := BitVec.ofNat 64 (eBits e 0x28 0 64),
    epoch := eBits e 0x0C 0 16, gapUs := gapOf (eBits e 0x30 0 24) }

section Import
variable {s : State} {p : Nat} {e : Entry}

theorem exec_winImport_good (h : s.Fetches p 0x1B e winImportBody)
    (hgood : ¬(eBits e 0x18 0 45 = 0 ∨ eBits e 0x08 12 12 = s.fabric.id ∨ eBits e 0x18 0 45 % 65536 ≠ 0 ∨ eBits e 0x10 0 45 % 65536 ≠ 0 ∨
      2 ^ 45 < eBits e 0x10 0 45 + eBits e 0x18 0 45 ∨ gapBad (eBits e 0x30 0 24) = true)) :
    exec (.winImport p e) s = s.cmdIsDone p e
      (s.setPart p { s.part p with cmd := (s.part p).cmd.advance, rwins := sput {} (s.part p).rwins (eBits e 0x08 0 12) (entryImport e) }) 0 := by
  change execWinImport p e s = _
  refine partCmd_of_done h ?_
  refine (if_neg hgood).trans ?_
  dsimp only
  rw [State.part_takeCmd]
  exact congrArg (CmdRes.done · 0) (State.setPart_setPart s p _ (State.not_free_of_canFetchCmd h.2.1))

theorem exec_winImport_empty (h : s.Fetches p 0x1B e winImportBody) (hsize : eBits e 0x18 0 45 = 0) :
    exec (.winImport p e) s = s.cmdFails p e (s.takeCmd p) fltArgRange := by
  change execWinImport p e s = _
  exact partCmd_of_fail h (if_pos (.inl hsize))

theorem exec_winForget (h : s.Fetches p 0x1C e winBody) : exec (.winForget p e) s =
    s.cmdIsDone p e (s.setPart p { s.part p with cmd := (s.part p).cmd.advance, rwins := sput {} (s.part p).rwins (eBits e 0x08 0 12) {} }) 0 := by
  change execWinForget p e s = _
  refine partCmd_of_done h ?_
  dsimp only
  rw [State.part_takeCmd]
  exact congrArg (CmdRes.done · 0) (State.setPart_setPart s p _ (State.not_free_of_canFetchCmd h.2.1))

end Import

/-! ### CXL.mem (R504) -/

section CxlWin
variable {s : State} {p : Nat} {e : Entry} (h : s.Fetches p 0x0A e winBody)
include h

omit h in
theorem State.port_part_takeCmd (s : State) (p : Nat) : ((s.takeCmd p).part p).port = (s.part p).port := by rw [State.part_takeCmd]

theorem exec_cxlWin_unbinds (hw : eBits e 0x08 0 12 = 0xFFF) : exec (.cxlWin p e) s =
    s.cmdIsDone p e ((s.takeCmd p).setPort (s.part p).port { s.port (s.part p).port with cxl := none }) 0 := by
  change execCxlWin p e s = _
  refine partCmd_of_done h ?_
  dsimp only
  rw [State.port_part_takeCmd]
  exact if_pos hw

variable (hw : eBits e 0x08 0 12 ≠ 0xFFF)
include hw

theorem exec_cxlWin_binds (hown : ¬((s.win (eBits e 0x08 0 12)).state = .free ∨ (s.win (eBits e 0x08 0 12)).owner ≠ p)) : exec (.cxlWin p e) s =
    s.cmdIsDone p e ((s.takeCmd p).setPort (s.part p).port { s.port (s.part p).port with cxl := some (p, eBits e 0x08 0 12) }) 0 := by
  change execCxlWin p e s = _
  refine partCmd_of_done h ?_
  dsimp only
  rw [State.port_part_takeCmd]
  exact (if_neg hw).trans (if_neg hown)

theorem exec_cxlWin_refused (hown : (s.win (eBits e 0x08 0 12)).state = .free ∨ (s.win (eBits e 0x08 0 12)).owner ≠ p) :
    exec (.cxlWin p e) s = s.cmdFails p e (s.takeCmd p) fltArgRange := by
  change execCxlWin p e s = _
  exact partCmd_of_fail h ((if_neg hw).trans (if_pos hown))

end CxlWin

section CxlMem
variable {s : State} {n p w off : Nat}

theorem exec_cxlMem_down (h : s.portUp n = false) (wr : Bool) (off len : Nat) (data : List Byte) : exec (.cxlMemAccess n wr off len data) s = .next s :=
  if_pos (by rw [h]; rfl)

theorem exec_cxlMem_unbound (h : s.portUp n = true) (hcxl : (s.port n).cxl = none) (wr : Bool) (off len : Nat) (data : List Byte) :
    exec (.cxlMemAccess n wr off len data) s = .next (if wr then s else s.emit (.data (List.replicate len none))) := by
  change execCxlMemAccess n wr off len data s = _
  unfold execCxlMemAccess
  rw [h, hcxl]
  rfl

variable (h : s.portUp n = true) (hcxl : (s.port n).cxl = some (p, w))

include h hcxl in
theorem exec_cxlMem_write (len : Nat) (data : List Byte) : exec (.cxlMemAccess n true off len data) s =
    if s.cxlOpen p w = true ∧ off + data.length ≤ (s.win w).size ∧ (s.check (s.win w).owner false ((s.win w).lva + off) data.length).isNone = true then
      .next ((s.setMem (s.win w).owner ((s.mem (s.win w).owner).store ((s.win w).lva + off) data)).startFarOwn (s.win w).owner)
    else .next (s.setPart p ((s.part p).count 0x7C 1)) := by
  change execCxlMemAccess n true off len data s = _
  unfold execCxlMemAccess
  rw [h, hcxl]
  rfl

include h hcxl in
theorem exec_cxlMem_read (len : Nat) (data : List Byte) : exec (.cxlMemAccess n false off len data) s = .next ((if s.cxlOpen p w then
      (s.setMem (s.win w).owner ((s.mem (s.win w).owner).touch ((s.win w).lva + off) len)).startFarOwn (s.win w).owner else s).emit
        (.data (s.cxlRead p w off len))) := by
  change execCxlMemAccess n false off len data s = _
  unfold execCxlMemAccess
  rw [h, hcxl]
  rfl

theorem State.cxlOpen_iff : s.cxlOpen p w = true ↔ (s.win w).state = .open ∧ (s.win w).owner = p := by
  rw [State.cxlOpen, Bool.and_eq_true, beq_iff_eq, beq_iff_eq]

/-- A byte of a bound window as a host reads it. -/
theorem State.cxlRead_getD {len i : Nat} (hi : i < len) : (s.cxlRead p w off len).getD i none =
    if (s.win w).state = .open ∧ (s.win w).owner = p ∧ off + i < (s.win w).size ∧
      s.failOf (s.win w).owner true (((s.win w).lva + off + i) / 64) = none
    then some (sget 0 (s.mem (s.win w).owner).bytes ((s.win w).lva + off + i)) else none := by
  have hopen : (!s.cxlOpen p w || decide ((s.win w).size ≤ off + i)) = true ↔ ¬(((s.win w).state = .open ∧ (s.win w).owner = p) ∧ off + i < (s.win w).size) := by
    rw [← State.cxlOpen_iff]
    simp only [Bool.or_eq_true, Bool.not_eq_true', decide_eq_true_eq, not_and_or, Bool.not_eq_true, Nat.not_lt]
  have hget : (s.cxlRead p w off len).getD i none = if (!s.cxlOpen p w || decide ((s.win w).size ≤ off + i)) = true then none
      else match s.failOf (s.win w).owner true (((s.win w).lva + off + i) / 64) with
        | some _ => none
        | none => some (sget 0 (s.mem (s.win w).owner).bytes ((s.win w).lva + off + i)) := by
    simp only [State.cxlRead, List.getD_eq_getElem?_getD, List.getElem?_map, List.getElem?_range hi, Option.map_some, Option.getD_some] <;> rfl
  rw [hget]
  simp only [hopen]
  by_cases hin : ((s.win w).state = .open ∧ (s.win w).owner = p) ∧ off + i < (s.win w).size
  · rw [if_neg (not_not.mpr hin)]
    obtain ⟨⟨hstate, howner⟩, hsize⟩ := hin
    cases hf : s.failOf (s.win w).owner true (((s.win w).lva + off + i) / 64) with
    | none => exact (if_pos ⟨hstate, howner, hsize, rfl⟩).symm
    | some f => exact (if_neg fun hc => nomatch hc.2.2.2).symm
  · rw [if_pos hin]
    exact (if_neg fun hc => hin ⟨⟨hc.1, hc.2.1⟩, hc.2.2.1⟩).symm

theorem State.sameParts_touch (s : State) (p va len : Nat) : SameParts s (s.setMem p ((s.mem p).touch va len)) := by
  intro q
  rw [State.part_setMem]
  split
  · next hq => rw [hq]; rfl
  · rfl

end CxlMem

/-- Settles O37. -/
theorem importsAndCxlWindows : Obligations.ImportsAndCxlWindows := by
  unfold Obligations.ImportsAndCxlWindows
  intro p n e s b
  refine ⟨?_, exec_winImport_empty, exec_winForget, fun h => ?_, exec_cxlMem_down, ?_, fun off len data h hcxl => ?_⟩
  · intro gap size base h h1 h2 h3 h4 h5 h6
    refine exec_winImport_good h ?_
    rintro (hb | hb | hb | hb | hb | hb)
    · exact h1 hb
    · exact h2 hb
    · exact hb h3
    · exact hb h4
    · exact absurd h5 (Nat.not_le.mpr hb)
    · rw [gapBad_eq_false.mpr h6] at hb
      cases hb
  · intro w t
    exact ⟨exec_cxlWin_unbinds h, fun hw hfree hown => exec_cxlWin_binds h hw (not_or.mpr ⟨hfree, not_not.mpr hown⟩), exec_cxlWin_refused h⟩
  · intro q w off len data h hcxl x
    refine ⟨fun h1 h2 h3 h4 => ?_, fun hbad => ?_, ?_⟩
    · exact (exec_cxlMem_write h hcxl len data).trans (if_pos ⟨State.cxlOpen_iff.mpr ⟨h1, h2⟩, h3, by rw [h4]; rfl⟩)
    · refine (exec_cxlMem_write h hcxl len data).trans (if_neg ?_)
      rintro ⟨hopen, hsize, hcheck⟩
      obtain ⟨hstate, howner⟩ := State.cxlOpen_iff.mp hopen
      obtain hbad | hbad | hbad | hbad := hbad
      · exact hbad hstate
      · exact hbad howner
      · exact absurd hsize (Nat.not_le.mpr hbad)
      · exact hbad (Option.isNone_iff_eq_none.mp hcheck)
    · refine ⟨_, _, exec_cxlMem_read h hcxl len data, ?_, by simp [State.cxlRead], ?_, fun i hi => State.cxlRead_getD hi⟩
      · split
        · rw [State.of_offOwn (State.startFarOwn_offOwn ..)]
          rfl
        · rfl
      · have hemit : ∀ t : State, SameParts s t → SameParts s (t.emit (.data (s.cxlRead q w off len))) := fun t ht => ht
        refine hemit _ ?_
        split
        · exact State.sameParts_startFarOwn (State.sameParts_touch s _ _ len) _
        · exact fun _ => rfl
  · exact ⟨exec_cxlMem_unbound h hcxl true off len data, exec_cxlMem_unbound h hcxl false off len data⟩

end Sys2Proof.Machine
end

section
/-! PROOFS. Critical commands and Husk's checks (R552 to R560). -/

-- One proof at a time: in parallel the many `unfold`s wait for each other, with a thread for each that waits.
set_option Elab.async false

namespace Sys2Proof.Machine
/-! ### Critical commands on their rings (R477, R478, R557 to R560) -/

/-- Each critical command is a `critCmd` of its ring, CODE and body. -/
theorem critRows_critCmd (p n : Nat) (work : RefillWork) (mw : List (Nat × Entry)) (a b : Bool) (stuck : BitVec 64) :
    ∀ row ∈ critRows p n work mw a b stuck, ∀ (e : Entry) (s : State), ∃ f, exec (row.make e) s = critCmd row.ring row.code e row.body s f := by
  simp only [critRows, List.cons_append, List.nil_append, List.forall_mem_cons, List.not_mem_nil, false_implies, implies_true, and_true]
  refine ⟨?_, ?_, ?_, ?_, ?_, ?_, ?_, ?_, ?_, ?_, ?_, ?_, ?_, ?_, ?_, ?_, ?_, ?_, ?_⟩
  all_goals
    intro e s
    simp only [exec]
    exact ⟨_, rfl⟩

theorem unlistedEntry_closed {s : State} {r : RingName} (e : Entry) (h : s.ringOpen r = false) : unlistedEntry r e s = .next s := by
  cases r with
  | req p =>
    have hf : s.canFetchReq p = false := h
    exact if_neg (by rw [hf]; nofun)
  | cmd p =>
    have hf : s.cmdOpen p = false := h
    exact if_neg (by rw [State.canFetchCmd, hf]; nofun)
  | adm n =>
    have hf : s.admOpen n = false := h
    exact if_neg (by rw [State.canFetchAdm, hf]; nofun)

section Crit
variable {s : State} {r : RingName} {code : Nat} {e : Entry} {body : List (Nat × Nat × Nat)} (f : Owed → State → CmdRes)

theorem critCmd_other (h : eCode e ≠ code) : critCmd r code e body s f = unlistedEntry r e s := if_pos h

theorem critCmd_closed (h : s.ringOpen r = false) : critCmd r code e body s f = .next s := by
  by_cases hcode : eCode e ≠ code
  · rw [critCmd_other f hcode, unlistedEntry_closed e h]
  · exact (if_neg hcode).trans (if_pos (by rw [h]; rfl))

/-- An entry behind one that Husk has set aside, or that is still waiting itself. -/
theorem critCmd_setAside (hcode : eCode e = code) {d : Delayed} (hd : s.setAside r = some d) (hwait : d.passed = false ∨ d.entry ≠ e) :
    critCmd r code e body s f = .next s := by
  cases hopen : s.ringOpen r with
  | false => exact critCmd_closed f hopen
  | true =>
    unfold critCmd
    simp only [hcode, hopen, hd, ne_eq, not_true_eq_false, Bool.not_true, Bool.false_eq_true, if_false]
    refine if_neg ?_
    rw [Bool.and_eq_true, beq_iff_eq]
    rintro ⟨hpassed, hentry⟩
    exact hwait.elim (fun hw => nomatch hpassed.symm.trans hw) fun hw => hw hentry

variable (hcode : eCode e = code) (hopen : s.ringOpen r = true) (haside : s.setAside r = none)
include hcode hopen haside

theorem critCmd_barred {c : FaultCode} (hbar : s.critBarred e = some c) :
    critCmd r code e body s f = .next ((s.takeRing r).ringDone r (s.owedOn r e) .failed c 0) := by
  unfold critCmd
  simp only [hcode, hopen, haside, hbar, ne_eq, not_true_eq_false, Bool.not_true, Bool.false_eq_true, if_false]

variable (hbar : s.critBarred e = none)
include hbar

theorem critCmd_throttled (hstreak : 16 ≤ (s.slot (eSlot e)).streak) : critCmd r code e body s f =
    .next { s with husk := { s.husk with delayed := s.husk.delayed ++ [{ slot := eSlot e, ring := r, entry := e, passed := false }] } } := by
  unfold critCmd
  simp only [hcode, hopen, haside, hbar, hstreak, ne_eq, not_true_eq_false, Bool.not_true, Bool.false_eq_true, if_false, if_true]

theorem critCmd_refused (hstreak : (s.slot (eSlot e)).streak < 16) {c : FaultCode} (hverify : s.verify r e = .error c) :
    critCmd r code e body s f = s.huskRefuses r e c := by
  unfold critCmd
  simp only [hcode, hopen, haside, hbar, hverify, Nat.not_le.mpr hstreak, ne_eq, not_true_eq_false, Bool.not_true, Bool.false_eq_true, if_false]
  rfl

end Crit

/-! ### The three checks (R557, R560) -/

section Verify
variable {s : State} {r : RingName} {e : Entry}

theorem verify_keySlot (h : s.slotAllows r e = false) : s.verify r e = .error fltKeySlot := if_pos (by rw [h]; rfl)

theorem verify_replay (h : s.slotAllows r e = true) (hc : eCounter e ≤ (s.slot (eSlot e)).last.toNat) : s.verify r e = .error fltAuthReplay :=
  (if_neg (by rw [h]; nofun)).trans (if_pos hc)

theorem verify_tag (h : s.slotAllows r e = true) (hc : (s.slot (eSlot e)).last.toNat < eCounter e) (ht : eBits e 0x70 0 128 ≠ s.authTag r e) :
    s.verify r e = .error fltAuthTag :=
  (if_neg (by rw [h]; nofun)).trans ((if_neg (Nat.not_le.mpr hc)).trans (if_pos ht))

end Verify



theorem State.event_slot (s : State) (code d d2 : Nat) (ps : List Nat) (j : Nat) : (s.event code d d2 ps).slot j = s.slot j := by
  rw [State.of_offEvent (State.event_offEvent s code d d2 ps)]
  rfl

/-- A refusal leaves every LAST; a refused tag adds to the streak of its slot. -/
theorem State.authRefused_slot (s : State) (i : Nat) (c : FaultCode) (j : Nat) : ((s.authRefused i c).slot j).last = (s.slot j).last ∧
    ((s.authRefused i c).slot j).streak = if j = i ∧ c = fltAuthTag then (s.slot j).streak + 1 else (s.slot j).streak := by
  unfold State.authRefused
  dsimp only
  rw [State.event_slot]
  by_cases hc : c = fltKeySlot
  · rw [if_pos hc, if_neg (by rintro ⟨-, h⟩; rw [hc] at h; exact absurd h (by decide))]
    exact ⟨rfl, rfl⟩
  · rw [if_neg hc, State.slot_setSlot]
    by_cases hj : j = i
    · subst hj
      simp only [if_true, true_and]
    · simp only [hj, false_and, if_false, and_self]

/-! ### AUTH_DELAY_END (R560) -/

section DelayEnd
variable {s : State} {i : Nat} {d : Delayed} (hd : s.husk.delayed.find? (fun d => d.slot == i && !d.passed) = some d)
include hd

theorem exec_authDelayEnd_refused {c : FaultCode} (hv : s.verify d.ring d.entry = .error c) : exec (.authDelayEnd i) s =
    .next (((({ s with husk := { s.husk with delayed := s.husk.delayed.filter fun x => x.ring != d.ring } }).authRefused i c).takeRing d.ring).ringDone
      d.ring (s.owedOn d.ring d.entry) .failed c 0) := by
  change execAuthDelayEnd i s = _
  unfold execAuthDelayEnd
  rw [hd]
  simp only [hv]

theorem exec_authDelayEnd_passed {u : State} (hv : s.verify d.ring d.entry = .ok u) : exec (.authDelayEnd i) s =
    .next { u with husk := { u.husk with delayed := u.husk.delayed.map fun x => if x.ring = d.ring then { x with passed := true } else x } } := by
  change execAuthDelayEnd i s = _
  unfold execAuthDelayEnd
  rw [hd]
  simp only [hv]

end DelayEnd

theorem exec_authDelayEnd_none {s : State} {i : Nat} (h : ∀ d ∈ s.husk.delayed, d.slot ≠ i ∨ d.passed = true) : exec (.authDelayEnd i) s = .next s := by
  have hd : s.husk.delayed.find? (fun d => d.slot == i && !d.passed) = none := by
    refine List.find?_eq_none.mpr fun d hd => ?_
    rw [Bool.and_eq_true, beq_iff_eq, Bool.not_eq_true']
    rintro ⟨hslot, hpassed⟩
    exact (h d hd).elim (fun hne => hne hslot) fun hp => nomatch hp.symm.trans hpassed
  change execAuthDelayEnd i s = _
  unfold execAuthDelayEnd
  rw [hd]

/-- Settles O38. -/
theorem huskChecksInOrder : Obligations.HuskChecksInOrder := by
  unfold Obligations.HuskChecksInOrder
  intro p n work mw a b stuck e s
  refine ⟨fun row hrow => ?_, s.authRefused_slot, fun i d hd => ?_, fun i => exec_authDelayEnd_none⟩
  · intro r k
    obtain ⟨f, hf⟩ := critRows_critCmd p n work mw a b stuck row hrow e s
    rw [hf]
    refine ⟨critCmd_other f, critCmd_closed f, fun d hcode => critCmd_setAside f hcode, fun hcode hopen haside => ⟨fun c => ?_, fun hbar => ?_, fun hbar hstreak => ?_⟩, ?_⟩
    · exact critCmd_barred f hcode hopen haside
    · exact critCmd_throttled f hcode hopen haside hbar
    · have hrefused := fun c => critCmd_refused (c := c) (body := row.body) f hcode hopen haside hbar hstreak
      exact ⟨fun h => hrefused _ (verify_keySlot h), fun h hc => hrefused _ (verify_replay h hc), fun h hc ht => hrefused _ (verify_tag h hc ht)⟩
    · intro hopen haside hbar hstreak hslot hlast htag hcode hok
      exact critCmd_bad hcode hopen haside hbar hstreak hslot hlast htag hok f
  · intro t
    refine ⟨fun c => exec_authDelayEnd_refused hd, fun u hu => ⟨_, exec_authDelayEnd_passed hd hu, ?_⟩⟩
    obtain ⟨-, -, -, rfl⟩ := verify_inv hu
    refine ⟨?_, rfl, rfl, rfl, rfl, { d with passed := true }, ?_, rfl, rfl⟩
    · exact congrArg KeySlot.last ((State.slot_setSlot ..).trans (if_pos rfl))
    · exact List.mem_map.mpr ⟨d, List.mem_of_find?_eq_some hd, if_pos rfl⟩

end Sys2Proof.Machine
end

section
/-! PROOFS. KEY_LOAD, KEY_ROTATE and KEY_ERASE (R561 to R563). -/

-- One proof at a time: in parallel the many `unfold`s wait for each other, with a thread for each that waits.
set_option Elab.async false

namespace Sys2Proof.Machine
/-! ### A critical command by its answer (R478, R558) -/

section
variable {s u : State} {r : RingName} {code : Nat} {e : Entry} {body : List (Nat × Nat × Nat)} {f : Owed → State → CmdRes} (h : s.Passes r code e body)
include h

theorem critCmd_of_fail {c : FaultCode} (hf : f (s.owedOn r e) (s.husked r e) = .fail u c) : critCmd r code e body s f = s.critFails r e u c := by
  rw [critCmd_go h, hf]

theorem critCmd_of_done {v : Nat} (hf : f (s.owedOn r e) (s.husked r e) = .done u v) : critCmd r code e body s f = s.critIsDone r e u v := by
  rw [critCmd_go h, hf]

theorem critCmd_of_owes (hf : f (s.owedOn r e) (s.husked r e) = .owes u) : critCmd r code e body s f = .next u := by
  rw [critCmd_go h, hf]

end

/-! ### KEY_LOAD, KEY_ROTATE and KEY_ERASE (R561 to R563) -/

section KeyCmd
variable {n : Nat} {e : Entry} {use : SlotUse} {rotate hostOk : Bool} {t : State}

theorem keyCmd_badRange (h : eBits e 0x08 0 4 = 15 ∨ eBits e 0x10 0 64 % 64 ≠ 0) : keyCmd n e hostOk use rotate t = .fail t fltArgRange := if_pos h

variable (hrange : ¬(eBits e 0x08 0 4 = 15 ∨ eBits e 0x10 0 64 % 64 ≠ 0))
include hrange

theorem keyCmd_badSlot (h : t.slotUse (eBits e 0x08 0 4) ≠ use ∨ t.life = .makerTest ∨ t.life = .returned) :
    keyCmd n e hostOk use rotate t = .fail t fltKeySlot := (if_neg hrange).trans (if_pos h)

variable (hslot : ¬(t.slotUse (eBits e 0x08 0 4) ≠ use ∨ t.life = .makerTest ∨ t.life = .returned))
include hslot

theorem keyCmd_unanswered : keyCmd n e false use rotate t = .fail t fltHostTimeout := by
  unfold keyCmd
  extract_lets target addr barred
  split
  · contradiction
  split
  · rfl
  · contradiction

theorem keyCmd_badKey (hkey : t.unwrapKey (readBytes (t.hostMemOf n) (eBits e 0x10 0 64) 256) (eBits e 0x18 0 256) (eBits e 0x08 0 4) (eCounter e) = none) :
    keyCmd n e true use rotate t = .fail t fltKeyUnwrap := by
  unfold keyCmd
  generalize eBits e 0x08 0 4 = target at *
  generalize eBits e 0x10 0 64 = addr at *
  generalize eBits e 0x18 0 256 = digest at *
  simp only [if_neg hrange, if_neg hslot, hkey, Bool.not_true, Bool.false_eq_true, if_false]

theorem keyCmd_key {key : List Byte}
    (hkey : t.unwrapKey (readBytes (t.hostMemOf n) (eBits e 0x10 0 64) 256) (eBits e 0x18 0 256) (eBits e 0x08 0 4) (eCounter e) = some key) :
    keyCmd n e true use rotate t = if rotate && (t.setSlot (eBits e 0x08 0 4) ((t.slot (eBits e 0x08 0 4)).load e key)).noKeeper then .fail t fltArgRange
      else .done (t.setSlot (eBits e 0x08 0 4) ((t.slot (eBits e 0x08 0 4)).load e key)).durable 0 := by
  unfold keyCmd
  generalize eBits e 0x08 0 4 = target at *
  generalize eBits e 0x10 0 64 = addr at *
  generalize eBits e 0x18 0 256 = digest at *
  simp only [if_neg hrange, if_neg hslot, hkey, Bool.not_true, Bool.false_eq_true, if_false]

end KeyCmd

theorem exec_keyCmds (n : Nat) : ∀ row ∈ [((0x50, SlotUse.empty), Instr.keyLoad n), ((0x51, SlotUse.active), Instr.keyRotate n)],
    ∀ (e : Entry) (h : Bool) (s : State), exec (row.2 e h) s = critCmd (.adm n) row.1.1 e keyBody s fun _ t => keyCmd n e h row.1.2 (decide (row.1.1 = 0x51)) t := by
  simp only [List.forall_mem_cons, List.not_mem_nil, false_implies, implies_true, and_true]
  exact ⟨fun _ _ _ => rfl, fun _ _ _ => rfl⟩

section KeyErase
variable {n : Nat} {e : Entry} {s : State} (h : s.Passes (.adm n) 0x52 e [(0x08, 0, 4)])
include h

theorem exec_keyErase_maker (hi : eBits e 0x08 0 4 = 15) : exec (.keyErase n e) s = s.critFails (.adm n) e (s.husked (.adm n) e) fltArgRange := by
  change execKeyErase n e s = _
  exact critCmd_of_fail h (if_pos hi)

variable (hi : eBits e 0x08 0 4 ≠ 15)
include hi

theorem exec_keyErase_empty (hempty : (s.husked (.adm n) e).slotUse (eBits e 0x08 0 4) = .empty) :
    exec (.keyErase n e) s = s.critIsDone (.adm n) e (s.husked (.adm n) e) 0 := by
  change execKeyErase n e s = _
  exact critCmd_of_done h ((if_neg hi).trans (if_pos hempty))

variable (hloaded : (s.husked (.adm n) e).slotUse (eBits e 0x08 0 4) ≠ .empty)
include hloaded

theorem exec_keyErase_lastKeeper (hkeep : ((s.husked (.adm n) e).setSlot (eBits e 0x08 0 4) ((s.husked (.adm n) e).slot (eBits e 0x08 0 4)).erase).noKeeper = true) :
    exec (.keyErase n e) s = s.critFails (.adm n) e (s.husked (.adm n) e) fltArgRange := by
  change execKeyErase n e s = _
  exact critCmd_of_fail h ((if_neg hi).trans ((if_neg hloaded).trans (if_pos hkeep)))

theorem exec_keyErase_erases (hkeep : ¬((s.husked (.adm n) e).setSlot (eBits e 0x08 0 4) ((s.husked (.adm n) e).slot (eBits e 0x08 0 4)).erase).noKeeper = true) :
    exec (.keyErase n e) s = s.critIsDone (.adm n) e
      ((s.husked (.adm n) e).setSlot (eBits e 0x08 0 4) ((s.husked (.adm n) e).slot (eBits e 0x08 0 4)).erase).durable 0 := by
  change execKeyErase n e s = _
  exact critCmd_of_done h ((if_neg hi).trans ((if_neg hloaded).trans (if_neg hkeep)))

end KeyErase

/-- Settles O39. -/
theorem keySlotsAreLoadedAndErased : Obligations.KeySlotsAreLoadedAndErased := by
  unfold Obligations.KeySlotsAreLoadedAndErased
  intro n e s i addr
  refine ⟨fun row hrow => ?_, ?_, fun block digest i counter h => if_pos h⟩
  · intro code t r h
    simp only [exec_keyCmds n row hrow]
    refine ⟨fun hbad hok => critCmd_of_fail h (keyCmd_badRange hbad), fun h1 h2 hbad hok => critCmd_of_fail h (keyCmd_badSlot (not_or.mpr ⟨h1, not_not.mpr h2⟩) hbad),
      fun h1 h2 h3 h4 h5 => ?_⟩
    have hrange : ¬(i = 15 ∨ addr % 64 ≠ 0) := not_or.mpr ⟨h1, not_not.mpr h2⟩
    have hslot : ¬(t.slotUse i ≠ row.1.2 ∨ t.life = .makerTest ∨ t.life = .returned) := not_or.mpr ⟨not_not.mpr h3, not_or.mpr ⟨h4, h5⟩⟩
    refine ⟨critCmd_of_fail h (keyCmd_unanswered hrange hslot), ?_⟩
    cases hkey : t.unwrapKey (readBytes (t.hostMemOf n) addr 256) (eBits e 0x18 0 256) i (eCounter e) with
    | none => exact critCmd_of_fail h (keyCmd_badKey hrange hslot hkey)
    | some key =>
      have hload := keyCmd_key (rotate := decide (code = 0x51)) hrange hslot hkey
      by_cases hk : code = 0x51 ∧ (t.setSlot i ((t.slot i).load e key)).noKeeper = true
      · exact (critCmd_of_fail h (hload.trans (if_pos (by rw [decide_eq_true hk.1]; exact hk.2)))).trans (if_pos hk).symm
      · exact (critCmd_of_done h (hload.trans (if_neg (by rw [Bool.and_eq_true, decide_eq_true_iff]; exact hk)))).trans (if_neg hk).symm
  · intro t r h
    exact ⟨exec_keyErase_maker h, exec_keyErase_empty h, fun hi hloaded => by
      intro u
      split
      · next hk => exact exec_keyErase_lastKeeper h hi hloaded hk
      · next hk => exact exec_keyErase_erases h hi hloaded hk⟩

end Sys2Proof.Machine
end

section
/-! PROOFS. FW_LOAD, DEBUG_SET and FUSE_PROG (R564, R567, R573). -/

-- One proof at a time: in parallel the many `unfold`s wait for each other, with a thread for each that waits.
set_option Elab.async false

namespace Sys2Proof.Machine
/-! ### FW_LOAD (R564) -/

section FwLoad
variable {n : Nat} {e : Entry} {s : State} (h : s.Passes (.adm n) 0x53 e [(0x08, 0, 64), (0x10, 0, 32), (0x18, 0, 384)])
include h

theorem exec_fwLoad_badRange (hbad : eBits e 0x08 0 64 % 64 ≠ 0 ∨ eBits e 0x10 0 32 % 4 ≠ 0 ∨ 16777216 < eBits e 0x10 0 32) (host flash : Bool) :
    exec (.fwLoad n e host flash) s = s.critFails (.adm n) e (s.husked (.adm n) e) fltArgRange := by
  change execFwLoad n e host flash s = _
  exact critCmd_of_fail h (if_pos hbad)

variable (hrange : ¬(eBits e 0x08 0 64 % 64 ≠ 0 ∨ eBits e 0x10 0 32 % 4 ≠ 0 ∨ 16777216 < eBits e 0x10 0 32))
include hrange

theorem exec_fwLoad_unanswered (flash : Bool) : exec (.fwLoad n e false flash) s = s.critFails (.adm n) e (s.husked (.adm n) e) fltHostTimeout := by
  change execFwLoad n e false flash s = _
  exact critCmd_of_fail h ((if_neg hrange).trans (if_pos rfl))

section Bad
variable {c : FaultCode} (himage : (s.husked (.adm n) e).imageBad (readBytes ((s.husked (.adm n) e).hostMemOf n) (eBits e 0x08 0 64) (eBits e 0x10 0 32))
  (eBits e 0x18 0 384) = some c)
include himage

theorem exec_fwLoad_badImage (flash : Bool) : exec (.fwLoad n e true flash) s = s.critFails (.adm n) e (s.husked (.adm n) e) c := by
  change execFwLoad n e true flash s = _
  refine critCmd_of_fail h ((if_neg hrange).trans ((if_neg Bool.false_ne_true).trans ?_))
  dsimp only
  rw [himage]

end Bad

variable (himage : (s.husked (.adm n) e).imageBad (readBytes ((s.husked (.adm n) e).hostMemOf n) (eBits e 0x08 0 64) (eBits e 0x10 0 32))
  (eBits e 0x18 0 384) = none)
include himage

theorem exec_fwLoad_loads : exec (.fwLoad n e true true) s = s.critIsDone (.adm n) e { s.husked (.adm n) e with flash :=
    { (s.husked (.adm n) e).flash.setBank (!(s.husked (.adm n) e).flash.active)
        (some (readBytes ((s.husked (.adm n) e).hostMemOf n) (eBits e 0x08 0 64) (eBits e 0x10 0 32))) with
      pending := some (!(s.husked (.adm n) e).flash.active) } } 0 := by
  change execFwLoad n e true true s = _
  refine critCmd_of_done h ((if_neg hrange).trans ((if_neg Bool.false_ne_true).trans ?_))
  dsimp only
  rw [himage]
  rfl

theorem exec_fwLoad_badFlash : exec (.fwLoad n e true false) s = s.critFails (.adm n) e
    { s.husked (.adm n) e with flash := (s.husked (.adm n) e).flash.emptyBank (!(s.husked (.adm n) e).flash.active) } fltFwSig := by
  change execFwLoad n e true false s = _
  refine critCmd_of_fail h ((if_neg hrange).trans ((if_neg Bool.false_ne_true).trans ?_))
  dsimp only
  rw [himage]
  rfl

end FwLoad

/-- An image's checks: the digest and the signature first, then the rollback number. -/
theorem State.imageBad_eq (t : State) (image : List Byte) (digest : Nat) : t.imageBad image digest =
    if leNat (sha384 image) ≠ digest ∨ t.fuses.makerKey = false ∨ Config.imageSigned image = false then some fltFwSig
    else if Config.imageSvn image < t.fuses.svnMin then some fltFwRollback else none := by
  simp only [State.imageBad, State.imageSigned, Bool.and_eq_false_iff]

theorem Flash.emptyBank_bank (f : Flash) (b : Bool) : (f.emptyBank b).bank b = none ∧ (f.emptyBank b).pending ≠ some b := by
  refine ⟨by cases b <;> rfl, ?_⟩
  simp only [Flash.emptyBank]
  split
  · nofun
  · next h => exact h

/-! ### DEBUG_SET (R567) -/

/-- The debug level that a slot may set in a lifecycle state. -/
def debugAllowed (t : State) (slot level : Nat) : Prop :=
  level = 0 ∨ (level = 1 ∧ t.life = .fieldDiag ∧ slot ≠ 15) ∨ (level = 2 ∧ (t.life = .makerTest ∨ t.life = .returned) ∧ slot = 15)

theorem debugAllowed_iff (t : State) (slot level : Nat) : (match level with
      | 0 => true
      | 1 => t.life == .fieldDiag && slot != 15
      | 2 => (t.life == .makerTest || t.life == .returned) && slot == 15
      | _ => false) = true ↔ debugAllowed t slot level := by
  unfold debugAllowed
  split
  · simp
  · simp
  · simp
  · next h0 h1 h2 => exact ⟨nofun, fun h => h.elim (fun h => (h0 h).elim) fun h => h.elim (fun h => (h1 h.1).elim) fun h => (h2 h.1).elim⟩

section DebugSet
variable {n : Nat} {e : Entry} {s : State} (h : s.Passes (.adm n) 0x54 e [(0x08, 0, 2)])
include h

theorem exec_debugSet_allowed (hok : debugAllowed (s.husked (.adm n) e) (eSlot e) (eBits e 0x08 0 2)) : exec (.debugSet n e) s =
    s.critIsDone (.adm n) e { s.husked (.adm n) e with husk := { (s.husked (.adm n) e).husk with debug := eBits e 0x08 0 2 } } 0 := by
  change execDebugSet n e s = _
  exact critCmd_of_done h (if_pos ((debugAllowed_iff ..).mpr hok))

theorem exec_debugSet_refused (hok : ¬debugAllowed (s.husked (.adm n) e) (eSlot e) (eBits e 0x08 0 2)) : exec (.debugSet n e) s =
    s.critFails (.adm n) e (s.husked (.adm n) e) fltLifecycle := by
  change execDebugSet n e s = _
  exact critCmd_of_fail h (if_neg ((debugAllowed_iff ..).not.mpr hok))

end DebugSet

/-! ### FUSE_PROG (R573) -/

/-- A customer slot programs fuses in PROVISION and FIELD. -/
def fuseCustomer (t : State) (slot : Nat) : Prop := (t.life = .provision ∨ t.life = .field) ∧ slot ≠ 15

/-- The maker slot programs fuses in MAKER_TEST and RETURN. -/
def fuseMaker (t : State) (slot : Nat) : Prop := (t.life = .makerTest ∨ t.life = .returned) ∧ slot = 15

theorem fuseCustomer_iff {t : State} {slot : Nat} :
    ((t.life == .provision || t.life == .field) && slot != 15) = true ↔ fuseCustomer t slot := by
  simp only [fuseCustomer, Bool.and_eq_true, Bool.or_eq_true, beq_iff_eq, bne_iff_ne]

theorem fuseMaker_iff {t : State} {slot : Nat} :
    (!(t.life == .makerTest || t.life == .returned) || slot != 15) = true ↔ ¬fuseMaker t slot := by
  simp only [fuseMaker, Bool.or_eq_true, Bool.not_eq_true', Bool.or_eq_false_iff, beq_eq_false_iff_ne, bne_iff_ne, not_and_or, not_or]

section BurnRepair
variable {t : State} {slot : Nat} {stuck : BitVec 64} {burn : Fuses → Fuses} {inRange : Bool}

theorem burnRepair_other (h : ¬fuseMaker t slot) : burnRepair t slot stuck inRange burn = .fail t fltLifecycle := if_pos (fuseMaker_iff.mpr h)

variable (h : fuseMaker t slot)
include h

theorem burnRepair_range (hrange : inRange = false) : burnRepair t slot stuck inRange burn = .fail t fltArgRange :=
  (if_neg (fuseMaker_iff.not.mpr (not_not.mpr h))).trans (if_pos (by rw [hrange]; rfl))

variable (hrange : inRange = true)
include hrange

theorem burnRepair_burns : burnRepair t slot stuck inRange burn =
    if stuck.toNat % 2 = 1 then .fail t fltFuse else .done { t with fuses := burn t.fuses } 0 := by
  refine (if_neg (fuseMaker_iff.not.mpr (not_not.mpr h))).trans ((if_neg (by rw [hrange]; nofun)).trans ?_)
  simp only [Nat.testBit_zero, decide_eq_true_eq]

end BurnRepair

/-- The answer of FUSE_PROG, by its field. -/
def fuseRes (e : Entry) (stuck : BitVec 64) (t : State) : Nat → CmdRes
  | 0 =>
    if !((t.life == .provision || t.life == .field) && eSlot e != 15) then .fail t fltLifecycle
    else if 64 < eBits e 0x10 0 64 then .fail t fltArgRange
    else if eBits e 0x10 0 64 ≤ t.fuses.svnMin then .done t 0
    else if t.svn < eBits e 0x10 0 64 then .fail t fltArgRange
    else
      let want := BitVec.ofNat 64 (2 ^ eBits e 0x10 0 64 - 1)
      let u := { t with fuses := { t.fuses with svn := t.fuses.svn ||| (want &&& ~~~stuck) } }
      if u.fuses.svn &&& want = want then .done u 0 else .fail u fltFuse
  | 1 =>
    if !((t.life == .provision || t.life == .field) && eSlot e != 15) then .fail t fltLifecycle
    else if eBits e 0x10 0 64 ≠ 1 then .fail t fltArgRange
    else if t.fuses.diagDisable then .done t 0
    else if stuck.toNat.testBit 0 then .fail t fltFuse
    else .done { t with fuses := { t.fuses with diagDisable := true } } 0
  | 2 => burnRepair t (eSlot e) stuck (decide (eBits e 0x10 0 64 < 1024) && decide (bits (eBits e 0x10 0 64) 5 5 * 8 + bits (eBits e 0x10 0 64) 2 3 < 136)) fun f =>
    { f with cores := if f.cores.contains (bits (eBits e 0x10 0 64) 0 2 * 256 + (bits (eBits e 0x10 0 64) 5 5 * 8 + bits (eBits e 0x10 0 64) 2 3)) then f.cores
                      else f.cores ++ [bits (eBits e 0x10 0 64) 0 2 * 256 + (bits (eBits e 0x10 0 64) 5 5 * 8 + bits (eBits e 0x10 0 64) 2 3)] }
  | 3 => burnRepair t (eSlot e) stuck (decide (eBits e 0x10 0 64 < 2 ^ 17) && decide (bits (eBits e 0x10 0 64) 11 6 < 34)) fun f =>
    { f with rows := if f.rows.contains (bits (eBits e 0x10 0 64) 7 2 * 128 + bits (eBits e 0x10 0 64) 0 7, bits (eBits e 0x10 0 64) 9 2, bits (eBits e 0x10 0 64) 11 6)
                     then f.rows
                     else f.rows ++ [(bits (eBits e 0x10 0 64) 7 2 * 128 + bits (eBits e 0x10 0 64) 0 7, bits (eBits e 0x10 0 64) 9 2, bits (eBits e 0x10 0 64) 11 6)] }
  | _ => .fail t fltLifecycle

theorem exec_fuseProg (n : Nat) (e : Entry) (stuck : BitVec 64) (s : State) : exec (.fuseProg n e stuck) s =
    critCmd (.adm n) 0x56 e [(0x08, 0, 4), (0x10, 0, 64)] s fun _ t => fuseRes e stuck t (eBits e 0x08 0 4) := by
  change execFuseProg n e stuck s = _
  unfold execFuseProg fuseRes
  rfl

section FuseRes
variable {e : Entry} {stuck : BitVec 64} {t : State}

theorem fuseRes_notCustomer {field : Nat} (hfield : field = 0 ∨ field = 1) (h : ¬fuseCustomer t (eSlot e)) :
    fuseRes e stuck t field = .fail t fltLifecycle := by
  have hno : (!((t.life == .provision || t.life == .field) && eSlot e != 15)) = true := by
    rw [Bool.not_eq_true']
    exact Bool.eq_false_iff.mpr (fuseCustomer_iff.not.mpr h)
  obtain rfl | rfl := hfield
  · exact if_pos hno
  · exact if_pos hno

theorem fuseRes_notMaker {field : Nat} (hfield : field = 2 ∨ field = 3) (h : ¬fuseMaker t (eSlot e)) :
    fuseRes e stuck t field = .fail t fltLifecycle := by
  obtain rfl | rfl := hfield
  all_goals
    unfold fuseRes
    exact burnRepair_other h

theorem fuseRes_unlisted {field : Nat} (h : 3 < field) : fuseRes e stuck t field = .fail t fltLifecycle := by
  obtain ⟨k, rfl⟩ := Nat.exists_eq_add_of_le' h
  rfl

section Maker
variable (h : fuseMaker t (eSlot e))
include h

theorem fuseRes_core_bad (hbad : 1024 ≤ eBits e 0x10 0 64 ∨ 136 ≤ bits (eBits e 0x10 0 64) 5 5 * 8 + bits (eBits e 0x10 0 64) 2 3) :
    fuseRes e stuck t 2 = .fail t fltArgRange := by
  unfold fuseRes
  refine burnRepair_range h ?_
  simpa only [Bool.and_eq_false_iff, decide_eq_false_iff_not, Nat.not_lt] using hbad

theorem fuseRes_core_burns {core : Nat} (hcore : bits (eBits e 0x10 0 64) 0 2 * 256 + (bits (eBits e 0x10 0 64) 5 5 * 8 + bits (eBits e 0x10 0 64) 2 3) = core)
    (hv : eBits e 0x10 0 64 < 1024) (hpos : bits (eBits e 0x10 0 64) 5 5 * 8 + bits (eBits e 0x10 0 64) 2 3 < 136) :
    fuseRes e stuck t 2 = if stuck.toNat % 2 = 1 then .fail t fltFuse
      else .done { t with fuses := { t.fuses with cores := if core ∈ t.fuses.cores then t.fuses.cores else t.fuses.cores ++ [core] } } 0 := by
  unfold fuseRes
  rw [hcore]
  refine (burnRepair_burns h (by simp only [Bool.and_eq_true, decide_eq_true_eq]; exact ⟨hv, hpos⟩)).trans ?_
  simp only [List.contains_iff_mem]

theorem fuseRes_row_bad (hbad : 2 ^ 17 ≤ eBits e 0x10 0 64 ∨ 34 ≤ bits (eBits e 0x10 0 64) 11 6) : fuseRes e stuck t 3 = .fail t fltArgRange := by
  unfold fuseRes
  refine burnRepair_range h ?_
  simpa only [Bool.and_eq_false_iff, decide_eq_false_iff_not, Nat.not_lt] using hbad

theorem fuseRes_row_burns {row : Nat × Nat × Nat}
    (hrow : (bits (eBits e 0x10 0 64) 7 2 * 128 + bits (eBits e 0x10 0 64) 0 7, bits (eBits e 0x10 0 64) 9 2, bits (eBits e 0x10 0 64) 11 6) = row)
    (hv : eBits e 0x10 0 64 < 2 ^ 17) (hdie : bits (eBits e 0x10 0 64) 11 6 < 34) :
    fuseRes e stuck t 3 = if stuck.toNat % 2 = 1 then .fail t fltFuse
      else .done { t with fuses := { t.fuses with rows := if row ∈ t.fuses.rows then t.fuses.rows else t.fuses.rows ++ [row] } } 0 := by
  unfold fuseRes
  rw [hrow]
  refine (burnRepair_burns h (by simp only [Bool.and_eq_true, decide_eq_true_eq]; exact ⟨hv, hdie⟩)).trans ?_
  simp only [List.contains_iff_mem]

end Maker

section Customer
variable (h : fuseCustomer t (eSlot e))
include h

theorem not_not_fuseCustomer : ¬(!((t.life == .provision || t.life == .field) && eSlot e != 15)) = true := by
  rw [fuseCustomer_iff.mpr h]
  nofun

theorem fuseRes_svn_beyond (hv : 64 < eBits e 0x10 0 64) : fuseRes e stuck t 0 = .fail t fltArgRange :=
  (if_neg (not_not_fuseCustomer h)).trans (if_pos hv)

theorem fuseRes_diag_bad (hv : eBits e 0x10 0 64 ≠ 1) : fuseRes e stuck t 1 = .fail t fltArgRange :=
  (if_neg (not_not_fuseCustomer h)).trans (if_pos hv)

theorem fuseRes_diag_burned (hv : eBits e 0x10 0 64 = 1) (hd : t.fuses.diagDisable = true) : fuseRes e stuck t 1 = .done t 0 :=
  (if_neg (not_not_fuseCustomer h)).trans ((if_neg (not_not.mpr hv)).trans (if_pos hd))

theorem fuseRes_diag_burns (hv : eBits e 0x10 0 64 = 1) (hd : t.fuses.diagDisable = false) : fuseRes e stuck t 1 =
    if stuck.toNat % 2 = 1 then .fail t fltFuse else .done { t with fuses := { t.fuses with diagDisable := true } } 0 := by
  refine (if_neg (not_not_fuseCustomer h)).trans ((if_neg (not_not.mpr hv)).trans ((if_neg (by rw [hd]; nofun)).trans ?_))
  simp only [Nat.testBit_zero, decide_eq_true_eq]

variable (hv : eBits e 0x10 0 64 ≤ 64)
include hv

theorem fuseRes_svn_burned (hle : eBits e 0x10 0 64 ≤ t.fuses.svnMin) : fuseRes e stuck t 0 = .done t 0 :=
  (if_neg (not_not_fuseCustomer h)).trans ((if_neg (Nat.not_lt.mpr hv)).trans (if_pos hle))

variable (hlt : t.fuses.svnMin < eBits e 0x10 0 64)
include hlt

theorem fuseRes_svn_newer (hsvn : t.svn < eBits e 0x10 0 64) : fuseRes e stuck t 0 = .fail t fltArgRange :=
  (if_neg (not_not_fuseCustomer h)).trans ((if_neg (Nat.not_lt.mpr hv)).trans ((if_neg (Nat.not_le.mpr hlt)).trans (if_pos hsvn)))

theorem fuseRes_svn_burns (hsvn : eBits e 0x10 0 64 ≤ t.svn) (hstuck : stuck = 0) : fuseRes e stuck t 0 =
    .done { t with fuses := { t.fuses with svn := t.fuses.svn ||| BitVec.ofNat 64 (2 ^ eBits e 0x10 0 64 - 1) } } 0 := by
  refine (if_neg (not_not_fuseCustomer h)).trans ((if_neg (Nat.not_lt.mpr hv)).trans ((if_neg (Nat.not_le.mpr hlt)).trans
    ((if_neg (Nat.not_lt.mpr hsvn)).trans ?_)))
  have hall : BitVec.ofNat 64 (2 ^ eBits e 0x10 0 64 - 1) &&& ~~~stuck = BitVec.ofNat 64 (2 ^ eBits e 0x10 0 64 - 1) := by
    rw [hstuck]
    exact BitVec.and_allOnes
  dsimp only
  rw [hall]
  refine if_pos ?_
  ext i hi
  rw [BitVec.getElem_and, BitVec.getElem_or, Bool.and_comm, Bool.or_comm]
  cases (BitVec.ofNat 64 (2 ^ eBits e 0x10 0 64 - 1))[i] <;> rfl

end Customer
end FuseRes

/-- Settles O40. -/
theorem firmwareDebugLevelAndFuses : Obligations.FirmwareDebugLevelAndFuses := by
  unfold Obligations.FirmwareDebugLevelAndFuses
  intro n e s r
  refine ⟨?_, ?_, fun stuck => ?_⟩
  · intro t len addr image h
    refine ⟨fun hbad host flash => exec_fwLoad_badRange h hbad host flash, fun h1 h2 h3 => ?_⟩
    have hrange : ¬(addr % 64 ≠ 0 ∨ len % 4 ≠ 0 ∨ 16777216 < len) := not_or.mpr ⟨not_not.mpr h1, not_or.mpr ⟨not_not.mpr h2, Nat.not_lt.mpr h3⟩⟩
    refine ⟨exec_fwLoad_unanswered h hrange, ?_⟩
    intro bad b
    have himage := State.imageBad_eq t image (eBits e 0x18 0 384)
    obtain ⟨hbank, hpending⟩ := Flash.emptyBank_bank t.flash b
    by_cases hbad : bad
    · have hc := himage.trans (if_pos hbad)
      exact ⟨(exec_fwLoad_badImage h hrange hc true).trans (if_pos hbad).symm, { t with flash := t.flash.emptyBank b },
        (exec_fwLoad_badImage h hrange hc false).trans (if_pos hbad).symm, hbank, hpending, rfl⟩
    by_cases hsvn : Config.imageSvn image < t.fuses.svnMin
    · have hc := (himage.trans (if_neg hbad)).trans (if_pos hsvn)
      exact ⟨(exec_fwLoad_badImage h hrange hc true).trans ((if_neg hbad).trans (if_pos hsvn)).symm, { t with flash := t.flash.emptyBank b },
        (exec_fwLoad_badImage h hrange hc false).trans ((if_neg hbad).trans (if_pos hsvn)).symm, hbank, hpending, rfl⟩
    · have hc := (himage.trans (if_neg hbad)).trans (if_neg hsvn)
      exact ⟨(exec_fwLoad_loads h hrange hc).trans ((if_neg hbad).trans (if_neg hsvn)).symm, { t with flash := t.flash.emptyBank b },
        (exec_fwLoad_badFlash h hrange hc).trans ((if_neg hbad).trans (if_neg hsvn)).symm, hbank, hpending, rfl⟩
  · intro t level h
    split
    · next hok => exact exec_debugSet_allowed h hok
    · next hok => exact exec_debugSet_refused h hok
  · intro t v customer maker fails done h
    have hfails : ∀ c, fuseRes e stuck t (eBits e 0x08 0 4) = .fail t c → fails c := fun c hc =>
      (exec_fuseProg n e stuck s).trans (critCmd_of_fail h hc)
    have hdone : ∀ x, fuseRes e stuck t (eBits e 0x08 0 4) = .done { t with fuses := x } 0 → done x := fun x hx =>
      (exec_fuseProg n e stuck s).trans (critCmd_of_done h hx)
    have hburns : ∀ {field x}, eBits e 0x08 0 4 = field →
        fuseRes e stuck t field = (if stuck.toNat % 2 = 1 then .fail t fltFuse else .done { t with fuses := x } 0) →
        if stuck.toNat % 2 = 1 then fails fltFuse else done x := by
      rintro field x rfl hx
      split
      · next hs => exact hfails _ (hx.trans (if_pos hs))
      · next hs => exact hdone _ (hx.trans (if_neg hs))
    refine ⟨fun hf => ⟨fun hc => hfails _ ?_, fun hc hv => hfails _ ?_, fun hc hv hle => hdone _ ?_, fun hc hv hlt hsvn => hfails _ ?_,
        fun hc hv hlt hsvn hstuck => hdone _ ?_⟩,
      fun hf => ⟨fun hc => hfails _ ?_, fun hc hv => hfails _ ?_, fun hc hv hd => hdone _ ?_, fun hc hv hd => ?_⟩,
      fun hf hm => hfails _ (fuseRes_notMaker hf hm), ?_, ?_, fun hf => hfails _ (fuseRes_unlisted hf)⟩
    · rw [hf]; exact fuseRes_notCustomer (.inl rfl) hc
    · rw [hf]; exact fuseRes_svn_beyond hc hv
    · rw [hf]; exact fuseRes_svn_burned hc hv hle
    · rw [hf]; exact fuseRes_svn_newer hc hv hlt hsvn
    · rw [hf]; exact fuseRes_svn_burns hc hv hlt hsvn hstuck
    · rw [hf]; exact fuseRes_notCustomer (.inr rfl) hc
    · rw [hf]; exact fuseRes_diag_bad hc hv
    · rw [hf]; exact fuseRes_diag_burned hc hv hd
    · exact hburns hf (fuseRes_diag_burns hc hv hd)
    · intro pos core hf hm
      refine ⟨fun hbad => hfails _ ?_, fun hv hpos => ?_⟩
      · rw [hf]; exact fuseRes_core_bad hm hbad
      · exact hburns hf (fuseRes_core_burns hm rfl hv hpos)
    · intro row hf hm
      refine ⟨fun hbad => hfails _ ?_, fun hv hrow => ?_⟩
      · rw [hf]; exact fuseRes_row_bad hm hbad
      · exact hburns hf (fuseRes_row_burns hm rfl hv hrow)

end Sys2Proof.Machine
end

section
/-! PROOFS. What ends of items, programs and partitions leave of Husk and its stores. -/

-- One proof at a time: in parallel the many `unfold`s wait for each other, with a thread for each that waits.
set_option Elab.async false

namespace Sys2Proof.Machine
/-! ### What ends of items, programs and partitions leave of Husk and its stores -/

/-- The flash, the fuses, and Husk without the entries set aside. -/
def State.sealed (s : State) : Flash × Fuses × Husk := (s.flash, s.fuses, { s.husk with delayed := [] })

theorem State.sealed_flash {s t : State} (h : t.sealed = s.sealed) : t.flash = s.flash := congrArg Prod.fst h
theorem State.sealed_fuses {s t : State} (h : t.sealed = s.sealed) : t.fuses = s.fuses := congrArg (fun x => x.2.1) h
theorem State.sealed_husk {s t : State} (h : t.sealed = s.sealed) : { t.husk with delayed := [] } = { s.husk with delayed := [] } :=
  congrArg (fun x => x.2.2) h

theorem State.sealed_slot {s t : State} (h : t.sealed = s.sealed) (i : Nat) : t.slot i = s.slot i := by
  rw [State.slot, State.sealed_flash h]
  rfl

section Sealed
variable (s : State)

theorem State.postPart_sealed (p : Nat) (r : HeldRec) : (s.postPart p r).sealed = s.sealed := (congrArg State.sealed (State.postPart_offPart s p r) :)
theorem State.cmdDone_sealed (p : Nat) (o : Owed) (st : RecStatus) (f : FaultCode) (r : Nat) : (s.cmdDone p o st f r).sealed = s.sealed :=
  State.postPart_sealed ..
theorem State.admDone_sealed (n : Nat) (o : Owed) (st : RecStatus) (f : FaultCode) (r : Nat) : (s.admDone n o st f r).sealed = s.sealed :=
  (congrArg State.sealed (State.admDone_offPort s n o st f r) :)
theorem State.owedDone_sealed (w : OwedAt) (st : RecStatus) (f : FaultCode) : (s.owedDone w st f).sealed = s.sealed := by
  cases w with
  | part p o => exact State.cmdDone_sealed ..
  | adm n o => exact State.admDone_sealed ..
theorem State.event_sealed (code d d2 : Nat) (ps : List Nat) : (s.event code d d2 ps).sealed = s.sealed :=
  (congrArg State.sealed (State.event_offEvent s code d d2 ps) :)

theorem State.endItem_sealed (r i : Nat) (st : RecStatus) (f : FaultCode) : (s.endItem r i st f).sealed = s.sealed :=
  (congrArg State.sealed (State.endItem_offItem s r i st f) :)

theorem State.endItems_sealed (r : Nat) (st : RecStatus) (f : FaultCode) (sel : ItemInfo → Bool) : (s.endItems r st f sel).sealed = s.sealed := by
  unfold State.endItems
  split
  · rfl
  · exact foldl_keeps _ State.sealed (fun _ _ => ite_keeps (π := State.sealed) (State.endItem_sealed ..) rfl) _ _

theorem State.endAll_sealed (p : Nat) (st : RecStatus) (f : FaultCode) : (s.endAll p st f).sealed = s.sealed :=
  foldl_keeps _ State.sealed (fun _ _ => State.endItems_sealed ..) _ _

theorem State.startRecord_sealed (p : Nat) (st : RecStatus) (f : FaultCode) : (s.startRecord p st f).sealed = s.sealed := by
  unfold State.startRecord
  dsimp only
  split
  · exact State.cmdDone_sealed ..
  · rfl

theorem State.abandon_sealed (k : Nat) : (s.abandon k).sealed = s.sealed := rfl

theorem State.takeSpare_sealed (k : Nat) (chaff : W32) : ((s.takeSpare k chaff).getD s).sealed = s.sealed := by
  unfold State.takeSpare
  split <;> rfl

theorem State.fillFailed_sealed (p : Nat) : (s.fillFailed p).sealed = s.sealed :=
  foldl_keeps _ State.sealed (fun _ _ => ite_keeps (π := State.sealed) (State.takeSpare_sealed ..) rfl) _ _

theorem State.closersDone_sealed (p : Nat) : (s.closersDone p).sealed = s.sealed := by
  unfold State.closersDone
  extract_lets sess wins late _ _ t u v
  have ht : t.sealed = s.sealed := rfl
  have hu : u.sealed = t.sealed := foldl_keeps _ State.sealed (fun _ _ => foldl_keeps _ State.sealed (fun _ _ => State.cmdDone_sealed ..) _ _) _ _
  have hv : v.sealed = u.sealed := foldl_keeps _ State.sealed (fun _ _ => by
    split
    · exact State.owedDone_sealed ..
    · rfl) _ _
  refine (foldl_keeps _ State.sealed (fun _ _ => ?_) _ _).trans (hv.trans (hu.trans ht))
  exact (State.cmdDone_sealed ..).trans rfl

theorem State.destroyItems_sealed (p : Nat) : (s.destroyItems p).sealed = s.sealed := (State.closersDone_sealed ..).trans (State.endAll_sealed ..)

theorem State.destroyPart_sealed (p : Nat) : (s.destroyPart p).sealed = s.sealed := by
  unfold State.destroyPart
  extract_lets t
  have ht : t.sealed = s.sealed := foldl_keeps _ State.sealed (fun _ _ => State.abandon_sealed ..) _ _
  exact ht

theorem State.destroyOn_sealed (p n : Nat) (o : Owed) : (s.destroyOn p n o).sealed = s.sealed := by
  unfold State.destroyOn
  split
  · exact (State.admDone_sealed ..).trans (State.destroyPart_sealed ..)
  · rfl

theorem State.programOver_sealed (p : Nat) : (s.programOver p).sealed = s.sealed := by
  unfold State.programOver
  extract_lets b _ t u v
  have ht : t.sealed = s.sealed := rfl
  have hu : u.sealed = t.sealed := foldl_keeps _ State.sealed (fun _ _ => State.cmdDone_sealed ..) _ _
  have hv : v.sealed = s.sealed := (State.fillFailed_sealed ..).trans (hu.trans ht)
  split
  · exact (State.destroyOn_sealed ..).trans ((State.destroyItems_sealed ..).trans hv)
  · exact hv

theorem State.stopEnd_sealed (p : Nat) (items start : FaultCode) : (s.stopEnd p items start).sealed = s.sealed := by
  unfold State.stopEnd
  extract_lets t u v
  have ht : t.sealed = s.sealed := by
    refine foldl_keeps _ State.sealed (fun _ _ => ?_) _ _
    rfl
  have hu : u.sealed = t.sealed := iteProp_keeps (π := State.sealed) (State.endAll_sealed ..) (State.endAll_sealed ..)
  have hv : v.sealed = u.sealed := iteProp_keeps (π := State.sealed) (State.startRecord_sealed ..) (State.startRecord_sealed ..)
  exact (State.programOver_sealed ..).trans (hv.trans (hu.trans ht))

theorem State.forceDestroy_sealed (p : Nat) : (s.forceDestroy p).sealed = s.sealed := by
  unfold State.forceDestroy
  extract_lets t u v
  have ht : t.sealed = s.sealed := State.stopEnd_sealed ..
  have hv : v.sealed = s.sealed := (State.destroyPart_sealed ..).trans ((State.destroyItems_sealed ..).trans ht)
  split
  · exact ht
  · split
    · exact (State.admDone_sealed ..).trans hv
    · exact hv

theorem State.freeWindows_sealed : s.freeWindows.sealed = s.sealed := by
  unfold State.freeWindows
  exact foldl_keeps _ State.sealed (fun _ _ => State.owedDone_sealed ..) _ _

theorem State.evict_sealed : s.evict.sealed = s.sealed :=
  (State.freeWindows_sealed _).trans (foldl_keeps _ State.sealed (fun _ _ => State.forceDestroy_sealed ..) _ _)

theorem State.endEverything_sealed (st : RecStatus) (f : FaultCode) : (s.endEverything st f).sealed = s.sealed :=
  foldl_keeps _ State.sealed (fun _ _ => (State.endAll_sealed ..).trans (foldl_keeps _ State.sealed (fun _ _ => State.abandon_sealed ..) _ _)) _ _

end Sealed

end Sys2Proof.Machine
end

section
/-! PROOFS. LIFECYCLE and zeroisation (R569 to R572). -/

-- One proof at a time: in parallel the many `unfold`s wait for each other, with a thread for each that waits.
set_option Elab.async false

namespace Sys2Proof.Machine
/-! ### The transitions of the lifecycle (R569) -/

section Transition
variable {t : State} {slot : Nat}

theorem transition_provision (h : t.life = .makerTest) : t.transition .provision slot =
    if slot = 15 ∧ t.flash.keyPair = true ∧ t.fuses.makerKey = true then .ok t else .error fltLifecycle := by
  simp only [State.transition, h, Bool.and_eq_true, beq_iff_eq, and_assoc]

theorem transition_field (h : t.life = .provision) : t.transition .field slot = if slot = 15 then .error fltLifecycle else .ok t := by
  simp only [State.transition, h, beq_iff_eq]

theorem transition_fieldDiag (h : t.life = .field) : t.transition .fieldDiag slot = if slot = 15 ∨ t.fuses.diagDisable = true then .error fltLifecycle
    else if ∃ x ∈ t.parts, x.2.state ≠ .free then .error fltPartBusy else .ok t := by
  simp only [State.transition, h, Bool.or_eq_true, beq_iff_eq, List.any_eq_true, bne_iff_ne]

theorem transition_field_back (h : t.life = .fieldDiag) : t.transition .field slot = if slot = 15 then .error fltLifecycle else .ok t.clearAll := by
  simp only [State.transition, h, beq_iff_eq]

theorem transition_returned (h : t.life = .provision ∨ t.life = .field ∨ t.life = .fieldDiag) :
    t.transition .returned slot = if slot = 15 then .error fltLifecycle else .ok t.zeroise := by
  obtain h | h | h := h
  all_goals simp only [State.transition, h, beq_iff_eq]

theorem transition_scrap (h : t.life = .provision ∨ t.life = .field ∨ t.life = .fieldDiag) :
    t.transition .scrap slot = if slot = 15 then .error fltLifecycle else .ok t.scrap := by
  obtain h | h | h := h
  all_goals simp only [State.transition, h, beq_iff_eq]

theorem transition_refurb (h : t.life = .returned) : t.transition .provision slot =
    if slot = 15 ∧ t.fuses.refurb < 3 then .ok { t with fuses := { t.fuses with refurb := t.fuses.refurb + 1 } } else .error fltLifecycle := by
  simp only [State.transition, h, Bool.and_eq_true, beq_iff_eq, decide_eq_true_eq]

theorem transition_scrap_maker (h : t.life = .makerTest ∨ t.life = .returned) :
    t.transition .scrap slot = if slot = 15 then .ok t.scrap else .error fltLifecycle := by
  obtain h | h := h
  all_goals simp only [State.transition, h, beq_iff_eq]

theorem transition_unlisted {dest : LifeState} (h : (t.life, dest) ∉ [(.makerTest, .provision), (.provision, .field), (.field, .fieldDiag),
    (.fieldDiag, .field), (.provision, .returned), (.field, .returned), (.fieldDiag, .returned), (.returned, .provision), (.makerTest, .scrap),
    (.returned, .scrap), (.provision, .scrap), (.field, .scrap), (.fieldDiag, .scrap)]) : t.transition dest slot = .error fltLifecycle := by
  unfold State.transition
  generalize t.life = life at h ⊢
  split
  case h_14 => rfl
  all_goals exact absurd (by simp) h

end Transition

section Exec
variable {n : Nat} {e : Entry} {mw : List (Nat × Entry)} {s : State} (h : s.Passes (.adm n) 0x55 e [(0x08, 0, 3)])
include h

theorem exec_lifecycle_unlisted (hdest : lifeOf (eBits e 0x08 0 3) = none) :
    exec (.lifecycle n { entry := e, meanwhile := mw }) s = s.critFails (.adm n) e (s.husked (.adm n) e) fltLifecycle := by
  change execLifecycle n { entry := e, meanwhile := mw } s = _
  refine critCmd_of_fail h ?_
  dsimp only
  rw [hdest]

variable {dest : LifeState} (hdest : lifeOf (eBits e 0x08 0 3) = some dest)
include hdest

theorem exec_lifecycle_refused {c : FaultCode} (ht : (s.husked (.adm n) e).transition dest (eSlot e) = .error c) :
    exec (.lifecycle n { entry := e, meanwhile := mw }) s = s.critFails (.adm n) e (s.husked (.adm n) e) c := by
  change execLifecycle n { entry := e, meanwhile := mw } s = _
  refine critCmd_of_fail h ?_
  dsimp only
  rw [hdest]
  dsimp only
  rw [ht]

theorem exec_lifecycle_goes {u : State} (ht : (s.husked (.adm n) e).transition dest (eSlot e) = .ok u) :
    exec (.lifecycle n { entry := e, meanwhile := mw }) s = s.critIsDone (.adm n) e
      (((if dest = .returned then u.refuseZeroising n mw else u).setLife dest n).event 0x0013 dest.code (s.husked (.adm n) e).life.code []) 0 := by
  change execLifecycle n { entry := e, meanwhile := mw } s = _
  refine critCmd_of_done h ?_
  dsimp only
  rw [hdest]
  dsimp only
  rw [ht]

end Exec

theorem lifeOf_unlisted {code : Nat} (h : 5 < code) : lifeOf code = none := by
  obtain ⟨k, rfl⟩ := Nat.exists_eq_add_of_le' h
  rfl

theorem State.setLife_debug (u : State) (dest : LifeState) (n : Nat) : (u.setLife dest n).husk.debug = 0 := by cases dest <;> rfl

theorem State.setLife_life (u : State) (dest : LifeState) (n : Nat) (h : u.fuses.lc = .field ∨ dest ≠ .fieldDiag) : (u.setLife dest n).life = dest := by
  cases dest
  case fieldDiag =>
    obtain h | h := h
    · exact if_pos ⟨h, rfl⟩
    · exact absurd rfl h
  all_goals exact if_neg fun hc => nomatch hc.2

/-- A reset leaves the fused state: FIELD_DIAG is in a register alone. -/
theorem State.moduleReset_life (s : State) : s.moduleReset.life = s.fuses.lc := by
  have hfuses : s.moduleReset.fuses = (s.endEverything .cancelled 0).fuses := rfl
  have hdiag : s.moduleReset.husk.diag = false := rfl
  rw [State.life, hfuses, State.sealed_fuses (s.endEverything_sealed .cancelled 0), if_neg]
  rintro ⟨-, hd⟩
  exact nomatch hdiag.symm.trans hd

theorem State.refuseZeroising_single (s : State) (n m : Nat) (x : Entry) : s.refuseZeroising n [(m, x)] =
    if m ≠ n ∧ s.canFetchAdm m = true ∧ eCode x ∈ admRingCodes then (s.takeAdm m).admDone m (s.admOwed m x) .failed fltLifecycle 0 else s := by
  simp only [State.refuseZeroising, List.foldl_cons, List.foldl_nil, Bool.and_eq_true, bne_iff_ne, List.contains_iff_mem, and_assoc]

/-! ### Zeroisation (R571) -/

theorem State.eraseKeys_slot (s : State) {i : Nat} (hi : i < 15) : s.eraseKeys.slot i = (s.slot i).erase := by
  have hfold : ∀ (l : List Nat) (hl : l.Nodup) (s : State),
      (l.foldl (fun s n => s.setSlot n (s.slot n).erase) s).slot i = if i ∈ l then (s.slot i).erase else s.slot i := by
    intro l
    induction l with
    | nil => exact fun _ _ => rfl
    | cons n l ih =>
      intro hl s
      obtain ⟨hn, hl⟩ := List.nodup_cons.mp hl
      rw [List.foldl_cons, ih hl, State.slot_setSlot]
      by_cases hin : i = n
      · subst hin
        simp only [hn, if_false, if_true, List.mem_cons, true_or]
      · simp only [hin, if_false, List.mem_cons, false_or]
  exact (hfold _ List.nodup_range s).trans (if_pos (List.mem_range.mpr hi))

theorem State.zeroMemory_slot (s : State) (i : Nat) : s.zeroMemory.slot i = s.slot i := by
  delta State.zeroMemory
  generalize List.range 512 = l
  dsimp only
  have ht : ∀ t : State, t.flash = s.flash → t.slot i = s.slot i := fun t h => by rw [State.slot, h]; rfl
  exact ht _ (foldl_keeps (fun s k => s.setCore k (s.core k).zeroised) State.flash (fun _ _ => rfl) l s)

theorem State.zeroMemory_wins (s : State) : s.zeroMemory.fabric.wins = s.fabric.wins := by
  delta State.zeroMemory
  generalize List.range 512 = l
  extract_lets t f
  have ht : t.fabric = s.fabric := foldl_keeps (fun s k => s.setCore k (s.core k).zeroised) State.fabric (fun _ _ => rfl) l s
  have hf : f = s.fabric := ht
  clear_value f
  have hwins : f.wins = s.fabric.wins := congrArg Fabric.wins hf
  exact hwins

theorem State.eraseKeys_fabric (s : State) : s.eraseKeys.fabric = s.fabric := by
  delta State.eraseKeys
  generalize List.range 15 = l
  exact foldl_keeps (fun s n => s.setSlot n (s.slot n).erase) State.fabric (fun _ _ => rfl) l s

theorem State.core_foldl_setCore (f : Core → Core) {l : List Nat} (hl : l.Nodup) (s : State) (j : Nat) :
    (l.foldl (fun s k => s.setCore k (f (s.core k))) s).core j = if j ∈ l then f (s.core j) else s.core j :=
by
  have hcore : ∀ (s : State) (k j : Nat), (s.setCore k (f (s.core k))).core j = if j = k then f (s.core k) else s.core j :=
    fun s k j => State.core_setCore s k j _
  have hframe : ∀ (s : State) (k : Nat), s.setCore k (f (s.core k)) = { s with cores := (s.setCore k (f (s.core k))).cores } := fun s k => rfl
  exact (State.foldl_core hframe (f := fun _ x => f x) hcore hl s).2 j

theorem State.core_of_cores {s t : State} (h : t.cores = s.cores) (k : Nat) : t.core k = s.core k := by rw [State.core, State.core, h]

theorem State.zeroMemory_scratch (s : State) {k : Nat} (hk : k < 512) : (s.zeroMemory.core k).scratch = [] := by
  have hrange : k ∈ List.range 512 := List.mem_range.mpr hk
  have hnodup : (List.range 512).Nodup := List.nodup_range
  delta State.zeroMemory
  generalize List.range 512 = l at hrange hnodup ⊢
  extract_lets t f
  have hcore : t.core k = (s.core k).zeroised := (State.core_foldl_setCore Core.zeroised hnodup s k).trans (if_pos hrange)
  clear_value f t
  refine Eq.trans (congrArg Core.scratch (State.core_of_cores (s := t) ?_ k)) ?_
  · rfl
  · rw [hcore]
    exact Core.zeroised_scratch (s.core k)

theorem State.durable_slot (s : State) (i : Nat) : s.durable.slot i = s.slot i := rfl
theorem State.durable_fabric (s : State) : s.durable.fabric = s.fabric := rfl

theorem State.zeroise_slot (s : State) {i : Nat} (hi : i < 15) : s.zeroise.slot i = { cntFail := (s.slot i).cntFail, streak := (s.slot i).streak } := by
  rw [State.zeroise, State.zeroMemory_slot, State.durable_slot, State.eraseKeys_slot s.evict hi, State.sealed_slot s.evict_sealed]
  rfl

theorem State.owedDone_fabric (s : State) (w : OwedAt) (st : RecStatus) (f : FaultCode) : (s.owedDone w st f).fabric = s.fabric := by
  cases w with
  | part p o => exact (congrArg State.fabric (State.cmdDone_offPart s p o st f 0) :)
  | adm n o => exact (congrArg State.fabric (State.admDone_offPort s n o st f 0) :)

theorem State.freeWindows_wins (s : State) : s.freeWindows.fabric.wins = [] := by
  unfold State.freeWindows
  exact congrArg Fabric.wins (foldl_keeps _ State.fabric (fun _ _ => State.owedDone_fabric ..) _ _)

theorem State.zeroise_wins (s : State) : s.zeroise.fabric.wins = [] := by
  rw [State.zeroise, State.zeroMemory_wins, State.durable_fabric, State.eraseKeys_fabric]
  exact State.freeWindows_wins _

/-- Settles O41: each transition by its own row of `State.transition`. -/
theorem lifecycleTransitions : Obligations.LifecycleTransitions := by
  unfold Obligations.LifecycleTransitions
  intro n e mw s r t maker op goes fails h
  refine ⟨fun dest hdest => ?_, fun hlast => exec_lifecycle_unlisted h (lifeOf_unlisted hlast),
    fun dest u => ⟨State.setLife_debug .., State.setLife_life u dest n⟩, fun hp => ⟨_, if_pos hp, State.moduleReset_life s⟩,
    State.refuseZeroising_single s n, ?_⟩
  · have hgoes : ∀ u, t.transition dest (eSlot e) = .ok u → goes dest u := fun u hu => exec_lifecycle_goes h hdest hu
    have hfails : ∀ c, t.transition dest (eSlot e) = .error c → fails c := fun c hc => exec_lifecycle_refused h hdest hc
    have hallowed : ∀ {p : Prop} [Decidable p] {u c}, t.transition dest (eSlot e) = (if p then .ok u else .error c) →
        if p then goes dest u else fails c := by
      intro p _ u c hif
      split
      · next hp => exact hgoes _ (hif.trans (if_pos hp))
      · next hp => exact hfails _ (hif.trans (if_neg hp))
    have hbarred : ∀ {p : Prop} [Decidable p] {u c}, t.transition dest (eSlot e) = (if p then .error c else .ok u) →
        if p then fails c else goes dest u := by
      intro p _ u c hif
      split
      · next hp => exact hfails _ (hif.trans (if_pos hp))
      · next hp => exact hgoes _ (hif.trans (if_neg hp))
    refine ⟨?_, ?_, ?_, ?_, ?_, ?_, ?_, ?_, fun hno => hfails _ (transition_unlisted hno)⟩
    · rintro hl rfl
      exact hallowed (transition_provision hl)
    · rintro hl rfl
      exact hbarred (transition_field hl)
    · rintro hl rfl hno
      exact hfails _ ((transition_fieldDiag hl).trans (if_pos hno))
    · rintro hl rfl hm hd
      refine hbarred ((transition_fieldDiag hl).trans (if_neg ?_))
      rintro (hno | hno)
      · exact hm hno
      · exact nomatch hd.symm.trans hno
    · rintro hl rfl
      exact hbarred (transition_field_back hl)
    · rintro hl (rfl | rfl)
      · rw [if_pos rfl]
        exact hbarred (transition_returned hl)
      · rw [if_neg (c := LifeState.scrap = .returned) (by decide)]
        exact hbarred (transition_scrap hl)
    · rintro hl rfl
      exact hallowed (transition_refurb hl)
    · rintro hl rfl
      exact hallowed (transition_scrap_maker hl)
  · exact ⟨fun i hi => State.zeroise_slot t hi, rfl, rfl, State.zeroise_wins t, fun k hk => State.zeroMemory_scratch _ hk⟩

end Sys2Proof.Machine
end

section
/-! PROOFS. Windows (R394, R453 to R460). -/

-- One proof at a time: in parallel the many `unfold`s wait for each other, with a thread for each that waits.
set_option Elab.async false

namespace Sys2Proof.Machine
/-! ### Windows (R453 to R460, R394) -/

/-- R454's checks, for a command that may name `owner` only. -/
def grantWrong (owner : Nat) (e : Entry) (t : State) : Prop :=
  (readGrant e).2.owner ≠ owner ∨ (readGrant e).2.size = 0 ∨ (readGrant e).2.size % 65536 ≠ 0 ∨ (readGrant e).2.ebase % 65536 ≠ 0 ∨
  2 ^ 45 < (readGrant e).2.ebase + (readGrant e).2.size ∨ (eBits e 0x30 0 24 ≠ 0 ∧ (eBits e 0x30 0 24 < 10 ∨ 10000000 < eBits e 0x30 0 24)) ∨
  (∃ o ∈ t.fabric.wins, o.1 ≠ eBits e 0x08 0 12 ∧ o.2.state ≠ .free ∧ (readGrant e).2.ebase < o.2.ebase + o.2.size ∧
    o.2.ebase < (readGrant e).2.ebase + (readGrant e).2.size) ∨
  (t.win (eBits e 0x08 0 12)).state = .open ∨ (t.win (eBits e 0x08 0 12)).state = .closing ∨
  ((t.win (eBits e 0x08 0 12)).state = .closed ∧ (t.win (eBits e 0x08 0 12)).owner ≠ owner) ∨
  (owner ≠ 16 ∧ ((readGrant e).2.lva % 65536 ≠ 0 ∨ (readGrant e).2.lva < 0x400000 ∨ 2 ^ 48 < (readGrant e).2.lva + (readGrant e).2.size))

theorem grantBad_iff (owner : Nat) (e : Entry) (t : State) :
    t.grantBad owner (eBits e 0x08 0 12) (readGrant e).2 (eBits e 0x30 0 24) = true ↔ grantWrong owner e t := by
  simp only [State.grantBad, grantWrong, gapBad, overlaps, Bool.or_eq_true, Bool.and_eq_true, bne_iff_ne, beq_iff_eq, decide_eq_true_eq, List.any_eq_true,
    or_assoc, and_assoc]

/-- The window of a grant opens. -/
def State.opened (t : State) (e : Entry) : State := t.openWin (eBits e 0x08 0 12) (readGrant e).2

section WinGrant
variable {p : Nat} {e : Entry} {s : State} (h : s.Passes (.cmd p) 0x18 e winGrantBody)
include h

theorem exec_winGrant_refused (hbad : grantWrong p e (s.husked (.cmd p) e)) :
    exec (.winGrant p e) s = s.critFails (.cmd p) e (s.husked (.cmd p) e) fltArgRange := by
  change execWinGrant p e s = _
  exact critCmd_of_fail h (if_pos ((grantBad_iff ..).mpr hbad))

theorem exec_winGrant_opens (hgood : ¬grantWrong p e (s.husked (.cmd p) e)) :
    exec (.winGrant p e) s = s.critIsDone (.cmd p) e ((s.husked (.cmd p) e).opened e) 0 := by
  change execWinGrant p e s = _
  exact critCmd_of_done h (if_neg ((grantBad_iff ..).not.mpr hgood))

end WinGrant

/-- A spill window's storage, zero-filled. -/
def State.clearSpill (t : State) (x : Window) : State :=
  { t with fabric := { t.fabric with
      spill := sclear t.fabric.spill x.ebase x.size
      spillPoison := t.fabric.spillPoison.filter fun u => !(decide (x.ebase ≤ 64 * u) && decide (64 * u < x.ebase + x.size)) } }

section SpillWinGrant
variable {n : Nat} {e : Entry} {s : State} (h : s.Passes (.adm n) 0x45 e winGrantBody)
include h

theorem exec_spillWinGrant_refused (hbad : grantWrong 16 e (s.husked (.adm n) e)) (backed : Bool) :
    exec (.spillWinGrant n e backed) s = s.critFails (.adm n) e (s.husked (.adm n) e) fltArgRange := by
  change execSpillWinGrant n e backed s = _
  exact critCmd_of_fail h (if_pos ((grantBad_iff ..).mpr hbad))

variable (hgood : ¬grantWrong 16 e (s.husked (.adm n) e))
include hgood

theorem exec_spillWinGrant_full {backed : Bool}
    (hfull : backed = false ∨ (s.husked (.adm n) e).freeL < ((readGrant e).2.size + 2097151) / 2097152) :
    exec (.spillWinGrant n e backed) s = s.critFails (.adm n) e (s.husked (.adm n) e) fltSpillFull := by
  change execSpillWinGrant n e backed s = _
  refine critCmd_of_fail h ((if_neg ((grantBad_iff ..).not.mpr hgood)).trans (if_pos ?_))
  rw [Bool.or_eq_true, Bool.not_eq_true', decide_eq_true_eq]
  exact hfull

theorem exec_spillWinGrant_opens (hroom : ((readGrant e).2.size + 2097151) / 2097152 ≤ (s.husked (.adm n) e).freeL) :
    exec (.spillWinGrant n e true) s = s.critIsDone (.adm n) e (((s.husked (.adm n) e).opened e).clearSpill (readGrant e).2) 0 := by
  change execSpillWinGrant n e true s = _
  refine critCmd_of_done h ((if_neg ((grantBad_iff ..).not.mpr hgood)).trans (if_neg ?_))
  rw [Bool.not_true, Bool.false_or, decide_eq_true_eq]
  exact Nat.not_lt.mpr hroom

end SpillWinGrant

section Close
variable {p n : Nat} {e : Entry} {s : State}

theorem winClose_refused_iff {x : Window} {owner : Nat} : (x.state != .open || x.owner != owner) = true ↔ ¬(x.state = .open ∧ x.owner = owner) := by
  rw [Bool.or_eq_true, bne_iff_ne, bne_iff_ne, not_and_or]

theorem exec_winClose_closes (h : s.Passes (.cmd p) 0x19 e winBody) {x : Window} (hx : (s.husked (.cmd p) e).win (eBits e 0x08 0 12) = x)
    (hopen : x.state = .open ∧ x.owner = p) :
    exec (.winClose p e) s = .next ((s.husked (.cmd p) e).setWin (eBits e 0x08 0 12) (x.close (some (.part p (s.owedOn (.cmd p) e))))) := by
  subst hx
  change execWinClose p e s = _
  exact critCmd_of_owes h (if_neg (winClose_refused_iff.not.mpr (not_not.mpr hopen)))

theorem exec_winClose_refused (h : s.Passes (.cmd p) 0x19 e winBody)
    (hopen : ¬(((s.husked (.cmd p) e).win (eBits e 0x08 0 12)).state = .open ∧ ((s.husked (.cmd p) e).win (eBits e 0x08 0 12)).owner = p)) :
    exec (.winClose p e) s = s.critFails (.cmd p) e (s.husked (.cmd p) e) fltArgRange := by
  change execWinClose p e s = _
  exact critCmd_of_fail h (if_pos (winClose_refused_iff.mpr hopen))

theorem spillClose_refused_iff {x : Window} : (x.state != .open || x.owner != 16 || x.recalling) = true ↔
    ¬(x.state = .open ∧ x.owner = 16 ∧ x.recalling = false) := by
  rw [Bool.or_eq_true, Bool.or_eq_true, bne_iff_ne, bne_iff_ne, not_and_or, not_and_or, Bool.not_eq_false, or_assoc]

section Spill
variable (h : s.Passes (.adm n) 0x46 e winBody) {x : Window} (hx : (s.husked (.adm n) e).win (eBits e 0x08 0 12) = x)
include h hx

theorem exec_spillWinClose_refused (hno : ¬(x.state = .open ∧ x.owner = 16 ∧ x.recalling = false)) (room : Bool) :
    exec (.spillWinClose n e room) s = s.critFails (.adm n) e (s.husked (.adm n) e) fltArgRange := by
  subst hx
  change execSpillWinClose n e room s = _
  exact critCmd_of_fail h (if_pos (spillClose_refused_iff.mpr hno))

variable (hopen : x.state = .open ∧ x.owner = 16 ∧ x.recalling = false)
include hopen

theorem exec_spillWinClose_full : exec (.spillWinClose n e false) s = s.critFails (.adm n) e (s.husked (.adm n) e) fltSpillFull := by
  subst hx
  change execSpillWinClose n e false s = _
  exact critCmd_of_fail h ((if_neg (spillClose_refused_iff.not.mpr (not_not.mpr hopen))).trans (if_pos rfl))

theorem exec_spillWinClose_recalls : exec (.spillWinClose n e true) s = .next ((s.husked (.adm n) e).setWin (eBits e 0x08 0 12)
    { x with recalling := true, closer := some (.adm n (s.owedOn (.adm n) e)) }) := by
  subst hx
  change execSpillWinClose n e true s = _
  exact critCmd_of_owes h ((if_neg (spillClose_refused_iff.not.mpr (not_not.mpr hopen))).trans (if_neg nofun))

end Spill

theorem freeWin_eq (owner : Nat) (e : Entry) (t : State) :
    freeWin owner e t = if (t.win (eBits e 0x08 0 12)).state = .closed ∧ (t.win (eBits e 0x08 0 12)).owner = owner
      then .done (t.setWin (eBits e 0x08 0 12) {}) 0 else .fail t fltArgRange := by
  unfold freeWin
  dsimp only
  by_cases hc : (t.win (eBits e 0x08 0 12)).state = .closed ∧ (t.win (eBits e 0x08 0 12)).owner = owner
  · rw [if_pos hc, if_neg]
    rw [hc.1, hc.2, Bool.or_eq_true, bne_iff_ne, bne_iff_ne]
    simp
  · rw [if_neg hc, if_pos]
    rw [Bool.or_eq_true, bne_iff_ne, bne_iff_ne, ← not_and_or]
    exact hc

theorem exec_frees {r : RingName} {code owner : Nat} (h : s.Passes r code e winBody) :
    if ((s.husked r e).win (eBits e 0x08 0 12)).state = .closed ∧ ((s.husked r e).win (eBits e 0x08 0 12)).owner = owner
    then critCmd r code e winBody s (fun _ t => freeWin owner e t) = s.critIsDone r e ((s.husked r e).setWin (eBits e 0x08 0 12) {}) 0
    else critCmd r code e winBody s (fun _ t => freeWin owner e t) = s.critFails r e (s.husked r e) fltArgRange := by
  split
  · next hc => exact critCmd_of_done h ((freeWin_eq ..).trans (if_pos hc))
  · next hc => exact critCmd_of_fail h ((freeWin_eq ..).trans (if_neg hc))

end Close

section Closed
variable {s : State} {i : Nat}

theorem State.setWin_setWin (s : State) (i : Nat) {x : Window} (y : Window) (hx : x.state ≠ .free) : (s.setWin i x).setWin i y = s.setWin i y := by
  have hlisted : x ≠ {} := fun h => hx (congrArg Window.state h)
  simp only [State.setWin, sput_sput_self {} s.fabric.wins i hlisted]

theorem exec_windowClosed_waits (h : (s.win i).state ≠ .closing ∨ s.winInflight i ≠ 0) : exec (.windowClosed i) s = .next s :=
  if_neg fun hc => h.elim (fun h => h hc.1) fun h => h hc.2

theorem exec_windowClosed_closes (hstate : (s.win i).state = .closing) (hzero : s.winInflight i = 0) : exec (.windowClosed i) s =
    .next (match (s.win i).closer with
      | some o => (s.setWin i { s.win i with state := .closed, closer := none }).owedDone o .done 0
      | none => s.setWin i { s.win i with state := .closed, closer := none }) := by
  refine (if_pos ⟨hstate, hzero⟩).trans (congrArg Host.Outcome.next ?_)
  unfold State.closeOwed
  rw [State.win_setWin_self]
  cases hc : (s.win i).closer with
  | none => dsimp only
  | some o =>
    dsimp only
    rw [State.setWin_setWin _ _ _ (by nofun)]

theorem exec_spillRecallDone_waits (h : (s.win i).recalling = false ∨ (s.win i).state ≠ .open) : exec (.spillRecallDone i) s = .next s :=
  if_neg fun hc => h.elim (fun h => nomatch hc.1.symm.trans h) fun h => h hc.2

theorem exec_spillRecallDone_closes (hrecall : (s.win i).recalling = true) (hopen : (s.win i).state = .open) :
    exec (.spillRecallDone i) s = .next (s.setWin i ((s.win i).close (s.win i).closer)) := if_pos ⟨hrecall, hopen⟩

end Closed

theorem readGrant_key (e : Entry) : (readGrant e).2.key.toNat = eBits e 0x28 0 64 := by
  change (BitVec.ofNat 64 (eBits e 0x28 0 64)).toNat = _
  rw [BitVec.toNat_ofNat]
  exact Nat.mod_eq_of_lt (Nat.mod_lt _ (Nat.two_pow_pos 64))

/-- Settles O42. -/
theorem windowsOpenCloseAndFree : Obligations.WindowsOpenCloseAndFree := by
  unfold Obligations.WindowsOpenCloseAndFree
  intro p n e s w a c g gap bad opened
  refine ⟨⟨rfl, rfl, rfl, rfl, rfl, readGrant_key e, rfl, rfl, rfl⟩, fun h => ⟨exec_winGrant_refused h, exec_winGrant_opens h⟩,
    fun h => ⟨fun hbad => exec_spillWinGrant_refused h hbad, fun hgood => ⟨exec_spillWinGrant_full h hgood (.inl rfl),
      fun hfull => exec_spillWinGrant_full h hgood (.inr hfull), fun hroom => ⟨_, exec_spillWinGrant_opens h hgood hroom, rfl, rfl, ?_⟩⟩⟩,
    fun h => ?_, fun h => ⟨fun hno => exec_spillWinClose_refused h rfl hno, fun h1 h2 h3 =>
      ⟨exec_spillWinClose_full h rfl ⟨h1, h2, h3⟩, exec_spillWinClose_recalls h rfl ⟨h1, h2, h3⟩⟩⟩,
    fun h => exec_frees h, fun h => exec_frees h, fun i => ⟨exec_windowClosed_waits, fun hstate hzero => ⟨fun hc => ?_, fun q o hc => ?_, fun q o hc => ?_⟩,
      exec_spillRecallDone_waits, exec_spillRecallDone_closes⟩⟩
  case refine_1 => exact sget_sclear 0 _ _ _
  case refine_2 =>
    dsimp only
    split
    · next hopen => exact exec_winClose_closes h rfl hopen
    · next hopen => exact exec_winClose_refused h hopen
  all_goals
    refine (exec_windowClosed_closes hstate hzero).trans ?_
    rw [hc] <;> rfl

end Sys2Proof.Machine
end

section
/-! PROOFS. PART_DESTROY and a request table with an entry listed twice (R488). -/

-- One proof at a time: in parallel the many `unfold`s wait for each other, with a thread for each that waits.
set_option Elab.async false

namespace Sys2Proof.Machine
/-! ### PART_DESTROY and a request table with an entry listed twice (R488) -/

theorem eBits_zero (off lo n : Nat) : eBits 0 off lo n = 0 := by
  simp [eBits, bits]

/-- A request of partition `p` with no items. -/
def bareRequest (p : Nat) : Request := { part := p, tag := 0, session := none, count := 0 }

/-- A state whose request table lists entry 0 twice: its first listing is partition 0's request, which `State.request` reads, its second partition 1's.
No ruled form of the state keeps a table of requests from this. -/
def doubleRequest : State := { reqs := [(0, bareRequest 0), (0, bareRequest 1)] }

theorem doubleRequest_request : doubleRequest.request 0 = some (bareRequest 0) := rfl

/-- When partition 0 goes, the second listing stands in the place of the first. -/
theorem doubleRequest_destroyPart_request : (doubleRequest.destroyPart 0).request 0 = some (bareRequest 1) := by
  have hreqs : (doubleRequest.destroyPart 0).reqs = [(0, bareRequest 1)] := rfl
  unfold State.request
  rw [hreqs]
  rfl

/-- Refutes O43: in the clause on `State.destroyPart`, a request that the destroyed partition leaves behind is said to be the one that stood in its entry
before, and that fails of a state whose request table lists an entry twice. -/
theorem not_partitionsAreCreatedAndDestroyed : ¬Obligations.PartitionsAreCreatedAndDestroyed := by
  unfold Obligations.PartitionsAreCreatedAndDestroyed
  intro h
  obtain ⟨-, -, ⟨-, -, -, -, -, h⟩, -⟩ := h 0 0 doubleRequest
  have h0 := h 0
  rw [eBits_zero, doubleRequest_destroyPart_request, doubleRequest_request] at h0
  exact absurd h0 (by decide)

end Sys2Proof.Machine
end

section
/-! PROOFS. Routes, takeover and the probe timeouts (R450, R451, R465 to R467). -/

-- One proof at a time: in parallel the many `unfold`s wait for each other, with a thread for each that waits.
set_option Elab.async false

namespace Sys2Proof.Machine
/-! ### Route loads (R450, R481) -/

/-- What a table lists of a function on given keys, the default left out. -/
theorem sget_listed {α : Type} [BEq α] [LawfulBEq α] (d : α) (f : Nat → α) (l : List Nat) {i : Nat} (hi : i ∈ l) :
    sget d ((l.map fun n => (n, f n)).filter fun e => e.2 != d) i = f i := by
  have hall : ∀ l : List Nat, sget d ((l.map fun n => (n, f n)).filter fun e => e.2 != d) i = if i ∈ l then f i else d := by
    intro l
    induction l with
    | nil => rfl
    | cons n l ih =>
      by_cases hn : n = i
      · subst hn
        by_cases hd : f n = d
        · simp [hd, ih]
        · simp [hd, sget]
      · have hni : ¬i = n := fun h => hn h.symm
        by_cases hd : f n = d
        · simp [hd, ih, hni]
        · simp [hd, sget, ih, hni, hn]
  rw [hall, if_pos hi]

theorem sget_routeTable (bs : List Byte) {i : Nat} (hi : i < 4096) : sget 0 (routeTable bs) i = (bs.getD (i / 2) 0).toNat / 16 ^ (i % 2) % 16 := by
  have hlisted : sget 0 (routeTable bs) i = routeEntry bs i := sget_listed 0 (routeEntry bs) _ (List.mem_range.mpr hi)
  rw [hlisted, routeEntry, bits, Nat.pow_mul]
  simp only [Nat.reducePow]

section RouteLoad
variable {n : Nat} {e : Entry} {s : State} (h : s.Passes (.adm n) 0x43 e [(0x08, 0, 64), (0x10, 0, 256)])
include h

theorem exec_routeLoad_misaligned (ha : eBits e 0x08 0 64 % 64 ≠ 0) (ok : Bool) :
    exec (.routeLoad n e ok) s = s.critFails (.adm n) e (s.husked (.adm n) e) fltArgRange := by
  change execRouteLoad n e ok s = _
  exact critCmd_of_fail h (if_pos ha)

variable (ha : eBits e 0x08 0 64 % 64 = 0)
include ha

theorem exec_routeLoad_unread : exec (.routeLoad n e false) s = s.critFails (.adm n) e (s.husked (.adm n) e) fltHostTimeout := by
  change execRouteLoad n e false s = _
  exact critCmd_of_fail h ((if_neg (not_not.mpr ha)).trans (if_pos rfl))

variable {bs : List Byte} (hbs : readBytes ((s.husked (.adm n) e).hostMemOf n) (eBits e 0x08 0 64) 2048 = bs)
include hbs

theorem exec_routeLoad_mismatch (hd : leNat (sha256 bs) ≠ eBits e 0x10 0 256) :
    exec (.routeLoad n e true) s = s.critFails (.adm n) e (s.husked (.adm n) e) fltArgRange := by
  subst hbs
  change execRouteLoad n e true s = _
  exact critCmd_of_fail h ((if_neg (not_not.mpr ha)).trans ((if_neg nofun).trans (if_pos hd)))

theorem execRouteLoad_installs (hd : leNat (sha256 bs) = eBits e 0x10 0 256) {t : State} (ht : s.husked (.adm n) e = t) :
    execRouteLoad n e true s = s.critIsDone (.adm n) e { t with fabric := { t.fabric with route := routeTable bs } } 0 := by
  subst hbs
  subst ht
  unfold execRouteLoad
  generalize routeTable = table
  refine critCmd_of_done h ?_
  dsimp only
  rw [if_neg (not_not.mpr ha), if_neg nofun, if_neg (not_not.mpr hd)]

theorem exec_routeLoad_installs (hd : leNat (sha256 bs) = eBits e 0x10 0 256) {t : State} (ht : s.husked (.adm n) e = t) :
    exec (.routeLoad n e true) s = s.critIsDone (.adm n) e { t with fabric := { t.fabric with route := routeTable bs } } 0 :=
  execRouteLoad_installs h ha hbs hd ht

theorem exec_routeLoad_routes (hd : leNat (sha256 bs) = eBits e 0x10 0 256) {t : State} (ht : s.husked (.adm n) e = t) :
    ∃ X, exec (.routeLoad n e true) s = s.critIsDone (.adm n) e X 0 ∧ X = { t with fabric := { t.fabric with route := X.fabric.route } } ∧
      ∀ i, i < 4096 → sget 0 X.fabric.route i = (bs.getD (i / 2) 0).toNat / 16 ^ (i % 2) % 16 :=
by
  have hdone := exec_routeLoad_installs h ha hbs hd ht
  have hlisted : ∀ i, i < 4096 → _ := fun i hi => sget_routeTable bs hi
  generalize routeTable bs = f at hdone hlisted
  exact ⟨_, hdone, rfl, hlisted⟩

end RouteLoad

/-! ### Packets of the module's own (R451, R452) -/

theorem State.sendVia_rest (s : State) (d : Nat) (q : Packet) : ∃ paths out, s.sendVia d q = { s with fabric := { s.fabric with paths := paths }, out := out } :=
  ⟨_, _, rfl⟩

/-- What a packet of the module's own may change: what waits for outputs, the ports of bursts, and what has left. -/
theorem State.inject_rest {s t : State} {x : Hdr} {bs : List Byte} (e : s.inject x bs = some t) :
    ∃ paths locals out, t = { s with fabric := { s.fabric with paths := paths, locals := locals }, out := out } := by
  unfold State.inject at e
  split at e
  · next d _ _ =>
    dsimp only at e
    split at e
    · cases e
      exact ⟨_, _, _, rfl⟩
    · cases e
      obtain ⟨paths, out, hsend⟩ := s.sendVia_rest d _
      exact ⟨paths, s.fabric.locals, out, hsend⟩
  · cases e

theorem State.inject_of_noRoute {s : State} {x : Hdr} (bs : List Byte) (h : s.noRoute x.dst = true) : s.inject x bs = none := by
  unfold State.noRoute at h
  unfold State.inject
  cases hhop : s.hopOf x.dst with
  | out d dl => rw [hhop] at h; cases h
  | _ => rfl

/-! ### TAKEOVER (R466, R467) -/

theorem State.keptFrom_iff (s : State) (q id : Nat) : s.keptFrom q id = true ↔ ∃ ws, (s.part q).kept = some (id, ws) ∧ ws ≠ [] := by
  unfold State.keptFrom
  cases (s.part q).kept with
  | none => simp
  | some k =>
    obtain ⟨m, ws⟩ := k
    simp only [Bool.and_eq_true, beq_iff_eq, Bool.not_eq_true', List.isEmpty_eq_false_iff, Option.some.injEq, Prod.mk.injEq]
    constructor
    · rintro ⟨rfl, h⟩
      exact ⟨ws, ⟨rfl, rfl⟩, h⟩
    · rintro ⟨_, ⟨rfl, rfl⟩, h⟩
      exact ⟨rfl, h⟩

theorem mem_maskParts {mask p : Nat} : p ∈ maskParts mask ↔ p < 16 ∧ mask.testBit p = true := by
  rw [maskParts, List.mem_filter, List.mem_range]

theorem maskParts_kept {t : State} {mask id : Nat} (h : ∀ p, p < 16 → mask.testBit p = true → t.keptFrom p id = true) :
    (maskParts mask).all (t.keptFrom · id) = true :=
  List.all_eq_true.mpr fun p hp => have hp := mem_maskParts.mp hp; h p hp.1 hp.2

/-- A partition that PMASK names holds no windows kept from the module. -/
theorem maskParts_unkept {t : State} {mask id p : Nat} (hp : p < 16) (hbit : mask.testBit p = true) (hkept : t.keptFrom p id = false) :
    (maskParts mask).all (t.keptFrom · id) = false :=
  List.all_eq_false.mpr ⟨p, mem_maskParts.mpr ⟨hp, hbit⟩, Bool.eq_false_iff.mp hkept⟩

/-- A takeover waits for the answer to its probe. -/
def State.awaits (t : State) (n : Nat) (o : Owed) (id mask : Nat) : State :=
  { t with fabric := { t.fabric with takeover := t.fabric.takeover ++ [{ port := n, owed := o, id := id, pmask := mask }] } }

/-- One PROBE leaves for a module, where the first hop takes it. -/
def State.probes (t : State) (id : Nat) : State := (t.inject { cls := clsProbe, dst := id, src := 0, tag := 0 } []).getD t

theorem State.probes_rest (t : State) (id : Nat) :
    ∃ paths locals out, t.probes id = { t with fabric := { t.fabric with paths := paths, locals := locals }, out := out } := by
  unfold State.probes
  cases hu : t.inject { cls := clsProbe, dst := id, src := 0, tag := 0 } [] with
  | none => exact ⟨_, _, _, rfl⟩
  | some u => exact State.inject_rest hu

theorem State.probes_of_noRoute {t : State} {id : Nat} (h : t.noRoute id = true) : t.probes id = t := by
  rw [State.probes, State.inject_of_noRoute _ h, Option.getD_none]

theorem State.awaits_probes_rest (t : State) (n : Nat) (o : Owed) (id mask : Nat) {u : State} (hu : (t.awaits n o id mask).probes id = u) :
    u.fabric.takeover = t.fabric.takeover ++ [{ port := n, owed := o, id := id, pmask := mask }] ∧ u =
      { t with fabric := { t.fabric with takeover := u.fabric.takeover, paths := u.fabric.paths, locals := u.fabric.locals }, out := u.out } := by
  obtain ⟨paths, locals, out, h⟩ := (t.awaits n o id mask).probes_rest id
  rw [hu] at h
  subst h
  exact ⟨rfl, rfl⟩

section Takeover
variable {n : Nat} {e : Entry} {s : State} (h : s.Passes (.adm n) 0x44 e [(0x08, 0, 12), (0x0C, 0, 16)])
include h

theorem exec_takeover_refused (hno : (s.husked (.adm n) e).fabric.standby = false ∨ (s.husked (.adm n) e).noWindows = false) :
    exec (.takeover n e) s = s.critFails (.adm n) e (s.husked (.adm n) e) fltArgRange := by
  change execTakeover n e s = _
  refine critCmd_of_fail h (if_pos ?_)
  rw [Bool.or_eq_true, Bool.not_eq_true', Bool.not_eq_true']
  exact hno

variable (hstandby : (s.husked (.adm n) e).fabric.standby = true) (hnone : (s.husked (.adm n) e).noWindows = true)
include hstandby hnone

omit h in
theorem takeover_ready : ¬(!(s.husked (.adm n) e).fabric.standby || !(s.husked (.adm n) e).noWindows) = true := by
  rw [hstandby, hnone]
  nofun

theorem exec_takeover_mismatch (hno : eBits e 0x0C 0 16 = 0 ∨
    (maskParts (eBits e 0x0C 0 16)).all ((s.husked (.adm n) e).keptFrom · (eBits e 0x08 0 12)) = false) :
    exec (.takeover n e) s = s.critFails (.adm n) e (s.husked (.adm n) e) fltRestoreMismatch := by
  change execTakeover n e s = _
  exact critCmd_of_fail h ((if_neg (takeover_ready hstandby hnone)).trans (if_pos hno))

theorem exec_takeover_probes (hmask : eBits e 0x0C 0 16 ≠ 0)
    (hkept : (maskParts (eBits e 0x0C 0 16)).all ((s.husked (.adm n) e).keptFrom · (eBits e 0x08 0 12)) = true) {t : State}
    (ht : s.husked (.adm n) e = t) : exec (.takeover n e) s = .next ((t.awaits n (s.owedOn (.adm n) e) (eBits e 0x08 0 12) (eBits e 0x0C 0 16)).probes (eBits e 0x08 0 12)) := by
  subst ht
  change execTakeover n e s = _
  refine critCmd_of_owes h ((if_neg (takeover_ready hstandby hnone)).trans (if_neg ?_))
  rw [hkept]
  exact not_or.mpr ⟨hmask, nofun⟩

end Takeover

/-! ### The probe's timeout (R466, R467) -/

/-- The state without its windows. -/
def State.offWins (s : State) : State := { s with fabric := { s.fabric with wins := [] } }

theorem State.eq_of_offWins {s t : State} (h : t.offWins = s.offWins) : t = { s with fabric := { s.fabric with wins := t.fabric.wins } } :=
  congrArg (fun u : State => { u with fabric := { u.fabric with wins := t.fabric.wins } }) h

theorem State.openKept_offWins (s : State) (mask : Nat) : (s.openKept mask).1.offWins = s.offWins := by
  unfold State.openKept
  refine foldl_keeps _ (fun x : State × Nat => x.1.offWins) ?_ _ _
  rintro ⟨s, n⟩ p
  dsimp only
  split
  · exact foldl_keeps (fun s (e : Nat × Window) => s.setWin e.1 { e.2 with state := .open, epoch := (e.2.epoch + 1) % 65536, closer := none })
      State.offWins (fun _ _ => rfl) _ _
  · rfl

theorem State.openKept_one {s : State} {mask p m i : Nat} {y : Window} (hp : maskParts mask = [p]) (hk : (s.part p).kept = some (m, [(i, y)])) :
    s.openKept mask = (s.setWin i { y with state := .open, epoch := (y.epoch + 1) % 65536, closer := none }, 1) := by
  unfold State.openKept
  rw [hp, List.foldl_cons, List.foldl_nil]
  dsimp only
  rw [hk]
  rfl

section Timeout
variable {s : State} {w : TakeoverWait} {rest : List TakeoverWait}

theorem exec_takeoverProbeTimeout_none (h : s.fabric.takeover = []) : exec .takeoverProbeTimeout s = .next s := by
  change execTakeoverProbeTimeout s = _
  unfold execTakeoverProbeTimeout
  rw [h]

theorem exec_takeoverProbeTimeout_refused (h : s.fabric.takeover = w :: rest) (hno : s.fabric.standby = false ∨ s.noWindows = false) :
    exec .takeoverProbeTimeout s =
      .next (({ s with fabric := { s.fabric with takeover := rest } } : State).admDone w.port w.owed .failed fltArgRange 0) := by
  change execTakeoverProbeTimeout s = _
  unfold execTakeoverProbeTimeout
  rw [h]
  refine if_pos ?_
  rw [Bool.or_eq_true, Bool.not_eq_true', Bool.not_eq_true']
  exact hno

theorem exec_takeoverProbeTimeout_takes (h : s.fabric.takeover = w :: rest) (hstandby : s.fabric.standby = true) (hnone : s.noWindows = true)
    {o : State × Nat} (ho : ({ s with fabric := { s.fabric with takeover := rest } } : State).openKept w.pmask = o) :
    exec .takeoverProbeTimeout s = .next (({ o.1 with fabric := { o.1.fabric with id := w.id, standby := false } }.event 0x0010 w.id o.2 []).admDone
      w.port w.owed .done 0 0) := by
  subst ho
  change execTakeoverProbeTimeout s = _
  unfold execTakeoverProbeTimeout
  rw [h]
  refine if_neg ?_
  change ¬(!s.fabric.standby || !s.noWindows) = true
  rw [hstandby, hnone]
  nofun

end Timeout

/-! ### SPILL_PROBE_TIMEOUT (R465) -/

theorem exec_spillProbeTimeout_ignored {s : State} {owner : Nat} (h : owner ∉ s.fabric.probing) (hroute : s.noRoute owner = false) :
    exec (.spillProbeTimeout owner) s = .next s := by
  refine if_neg ?_
  rw [hroute, Bool.or_false, List.contains_iff_mem]
  exact h

theorem exec_spillProbeTimeout_loses {s : State} {owner : Nat} (h : owner ∈ s.fabric.probing ∨ s.noRoute owner = true) :
    exec (.spillProbeTimeout owner) s = .next
      ((({ s with fabric := { s.fabric with probing := s.fabric.probing.filter (· != owner) } }) : State).loseUnits owner fun _ => true) := by
  refine if_pos ?_
  rw [Bool.or_eq_true, List.contains_iff_mem]
  exact h

/-- Settles O44. -/
theorem routesAndTakeover : Obligations.RoutesAndTakeover := by
  unfold Obligations.RoutesAndTakeover
  intro n e s r
  refine ⟨fun h => ⟨exec_routeLoad_misaligned h, fun ha => ⟨exec_routeLoad_unread h ha, exec_routeLoad_mismatch h ha rfl, fun hd =>
      exec_routeLoad_routes h ha rfl hd rfl⟩⟩,
    fun h => ⟨exec_takeover_refused h, fun hs hn hno => exec_takeover_mismatch h hs hn ?_, fun hs hn hmask hall => ?_⟩,
    s.keptFrom_iff, exec_takeoverProbeTimeout_none, fun w rest hw => ⟨exec_takeoverProbeTimeout_refused hw, fun hs hn =>
      ⟨exec_takeoverProbeTimeout_takes hw hs hn rfl, State.eq_of_offWins (State.openKept_offWins _ _), fun p m ws i y hp hk hws => ?_⟩⟩,
    fun owner => ⟨exec_spillProbeTimeout_ignored, exec_spillProbeTimeout_loses⟩⟩
  case refine_1 => exact hno.imp_right fun ⟨p, hp, hbit, hkept⟩ => maskParts_unkept hp hbit hkept
  case refine_2 =>
    obtain ⟨htake, hrest⟩ := State.awaits_probes_rest (s.husked r e) n (s.owedOn r e) (eBits e 0x08 0 12) (eBits e 0x0C 0 16) rfl
    exact ⟨_, exec_takeover_probes h hs hn hmask (maskParts_kept hall) rfl, htake, hrest,
      fun hroute => (congrArg State.out (State.probes_of_noRoute (t := (s.husked r e).awaits n (s.owedOn r e) _ _) hroute)).trans rfl⟩
  case refine_3 =>
    subst hws
    have ho := State.openKept_one (s := { s with fabric := { s.fabric with takeover := rest } }) hp hk
    exact ⟨congrArg Prod.snd ho, fun j => (congrArg (fun o : State × Nat => o.1.win j) ho).trans (State.win_setWin ..)⟩

end Sys2Proof.Machine
end

section
/-! PROOFS. Fabric requests at their owner (R456 to R462, R527). -/

-- One proof at a time: in parallel the many `unfold`s wait for each other, with a thread for each that waits.
set_option Elab.async false

namespace Sys2Proof.Machine
/-! ### The owner's checks (R456) -/

section Checks
variable {s : State} {p : Packet} {n : Nat} {write : Bool}

theorem State.checkReq_none (h : s.winAt p.offset = none) : s.checkReq p n write = .refuse nackKey none := by
  unfold State.checkReq
  rw [h]

variable {w : Nat} {x : Window} (h : s.winAt p.offset = some (w, x))
include h

/-- The checks as they come, of the window that covers the offset. -/
theorem State.checkReq_some : s.checkReq p n write = if p.key ≠ x.key.toNat then .refuse nackKey (some w)
    else if ((x.peerEn && x.peer != p.src) || !(if write then x.wr else x.rd)) = true then .refuse nackKey (some w)
    else if x.state ≠ .open ∨ p.epoch ≠ x.epoch then .refuse nackClosed (some w)
    else if x.ebase + x.size < p.offset + n then .refuse nackRange (some w)
    else if (!s.winMapped x p.offset n) = true then .refuse nackUnmapped (some w)
    else .ok w x := by
  unfold State.checkReq
  rw [h]

omit h in
theorem peerAllowed_iff : ((x.peerEn && x.peer != p.src) || !(if write then x.wr else x.rd)) = true ↔
    ¬((x.peerEn = true → x.peer = p.src) ∧ (if write = true then x.wr = true else x.rd = true)) := by
  rw [not_and_or, Bool.or_eq_true, Bool.and_eq_true, bne_iff_ne, Bool.not_eq_true', Classical.not_imp]
  cases write <;> simp

theorem State.checkReq_key
    (hno : p.key ≠ x.key.toNat ∨ ¬((x.peerEn = true → x.peer = p.src) ∧ (if write = true then x.wr = true else x.rd = true))) :
    s.checkReq p n write = .refuse nackKey (some w) := by
  rw [State.checkReq_some h]
  split
  · rfl
  · next hkey => exact if_pos (peerAllowed_iff.mpr (hno.resolve_left hkey))

variable (hkey : p.key = x.key.toNat) (hallowed : (x.peerEn = true → x.peer = p.src) ∧ (if write = true then x.wr = true else x.rd = true))
include hkey hallowed

theorem State.checkReq_allowed : s.checkReq p n write = if x.state ≠ .open ∨ p.epoch ≠ x.epoch then .refuse nackClosed (some w)
    else if x.ebase + x.size < p.offset + n then .refuse nackRange (some w)
    else if (!s.winMapped x p.offset n) = true then .refuse nackUnmapped (some w)
    else .ok w x := by
  rw [State.checkReq_some h, if_neg (not_not.mpr hkey), if_neg (peerAllowed_iff.not.mpr (not_not.mpr hallowed))]

theorem State.checkReq_closed (hno : x.state ≠ .open ∨ p.epoch ≠ x.epoch) : s.checkReq p n write = .refuse nackClosed (some w) :=
  (State.checkReq_allowed h hkey hallowed).trans (if_pos hno)

variable (hopen : x.state = .open) (hepoch : p.epoch = x.epoch)
include hopen hepoch

theorem State.checkReq_range (hno : x.ebase + x.size < p.offset + n) : s.checkReq p n write = .refuse nackRange (some w) := by
  rw [State.checkReq_allowed h hkey hallowed, if_neg (not_or.mpr ⟨not_not.mpr hopen, not_not.mpr hepoch⟩), if_pos hno]

theorem State.checkReq_mapped (hin : p.offset + n ≤ x.ebase + x.size) :
    s.checkReq p n write = if s.winMapped x p.offset n = true then .ok w x else .refuse nackUnmapped (some w) := by
  rw [State.checkReq_allowed h hkey hallowed, if_neg (not_or.mpr ⟨not_not.mpr hopen, not_not.mpr hepoch⟩), if_neg (Nat.not_lt.mpr hin)]
  cases s.winMapped x p.offset n <;> rfl

end Checks

/-- What a packet that passes the checks has found. -/
theorem State.of_checkReq_ok {s : State} {p : Packet} {n w : Nat} {write : Bool} {x : Window} (h : s.checkReq p n write = .ok w x) :
    p.offset + n ≤ x.ebase + x.size ∧ s.winMapped x p.offset n = true := by
  cases hat : s.winAt p.offset with
  | none => rw [State.checkReq_none hat] at h; cases h
  | some v =>
    rw [State.checkReq_some hat] at h
    by_cases h1 : p.key ≠ v.2.key.toNat
    · rw [if_pos h1] at h; cases h
    by_cases h2 : ((v.2.peerEn && v.2.peer != p.src) || !(if write then v.2.wr else v.2.rd)) = true
    · rw [if_neg h1, if_pos h2] at h; cases h
    by_cases h3 : v.2.state ≠ .open ∨ p.epoch ≠ v.2.epoch
    · rw [if_neg h1, if_neg h2, if_pos h3] at h; cases h
    by_cases h4 : v.2.ebase + v.2.size < p.offset + n
    · rw [if_neg h1, if_neg h2, if_neg h3, if_pos h4] at h; cases h
    by_cases h5 : (!s.winMapped v.2 p.offset n) = true
    · rw [if_neg h1, if_neg h2, if_neg h3, if_neg h4, if_pos h5] at h; cases h
    rw [if_neg h1, if_neg h2, if_neg h3, if_neg h4, if_neg h5] at h
    cases h
    exact ⟨Nat.not_lt.mp h4, by simpa using h5⟩

/-! ### RD_REQ (R456, R461, R527) -/

/-- The answer to a read of bytes that read: the burst's packets. -/
def State.answers (s : State) (p : Packet) (bs : List Byte) : State :=
  (burstPackets p.offset p.burst { cls := clsRdRsp, dst := p.src, src := 0, tag := p.tag } bs).foldl (fun u q => u.respond q.1 q.2) s

theorem State.answerRead_poison {s : State} {p : Packet} {x : Window} {n : Nat} (h : s.winRead x p.offset n = none) :
    s.answerRead p x n = s.nackTo p nackPoison := by
  unfold State.answerRead
  rw [h]

theorem State.answerRead_bytes {s : State} {p : Packet} {x : Window} {n : Nat} {bs : List Byte} (h : s.winRead x p.offset n = some bs) :
    s.answerRead p x n = s.answers p bs := by
  unfold State.answerRead
  rw [h]
  rfl

section WinRead
variable {s : State} {x : Window} {off n : Nat}

theorem State.winRead_spill_poison (hx : x.owner = 16) (h : ∃ i ∈ unitsOf off n, i ∈ s.fabric.spillPoison) : s.winRead x off n = none := by
  obtain ⟨i, hi, hp⟩ := h
  exact (if_pos hx).trans (if_pos (List.any_eq_true.mpr ⟨i, hi, List.contains_iff_mem.mpr hp⟩))

theorem State.winRead_spill (hx : x.owner = 16) (h : ∀ i ∈ unitsOf off n, i ∉ s.fabric.spillPoison) :
    s.winRead x off n = some (readBytes s.fabric.spill off n) := by
  refine (if_pos hx).trans (if_neg fun hany => ?_)
  obtain ⟨i, hi, hp⟩ := List.any_eq_true.mp hany
  exact h i hi (List.contains_iff_mem.mp hp)

theorem State.winRead_poison (hx : x.owner < 16) (h : (s.check x.owner true (x.lva + (off - x.ebase)) n).isSome = true) : s.winRead x off n = none :=
  (if_neg hx.ne).trans (if_pos h)

theorem State.winRead_part (hx : x.owner < 16) (h : s.check x.owner true (x.lva + (off - x.ebase)) n = none) :
    s.winRead x off n = some (readBytes (s.mem x.owner).bytes (x.lva + (off - x.ebase)) n) :=
  (if_neg hx.ne).trans (if_neg (by rw [h]; nofun))

end WinRead

section RdReq
variable {p : Packet} {s : State} (hgood : p.bad = false) (hdst : p.dst = s.fabric.id) (hcls : p.cls = clsRdReq)
include hgood hdst hcls

theorem exec_rdReq_refused {st : Nat} {w : Option Nat} (h : s.checkReq p (4 * (p.rdlen + 1)) false = .refuse st w) (m : MemErr) :
    exec (.rdReq p m) s = .next (s.refuseReq p st w) := by
  change execRdReq p m s = _
  refine (receive_here _ hgood hdst hcls).trans ?_
  dsimp only
  rw [h]

variable {w : Nat} {x : Window} (h : s.checkReq p (4 * (p.rdlen + 1)) false = .ok w x)
include h

theorem exec_rdReq_spill (hx : x.owner = 16) (m : MemErr) :
    exec (.rdReq p m) s = .next ((s.spillError m).answerRead p x (4 * (p.rdlen + 1))) := by
  change execRdReq p m s = _
  refine (receive_here _ hgood hdst hcls).trans ?_
  dsimp only
  rw [h]
  exact if_neg (by rw [hx]; decide)

theorem exec_rdReq_part (hx : x.owner < 16) (m : MemErr) {t u : State} (ht : s.strike x.owner m = t)
    (hu : (t.setMem x.owner ((t.mem x.owner).touch (x.lva + (p.offset - x.ebase)) (4 * (p.rdlen + 1)))).startFarOwn x.owner = u) :
    exec (.rdReq p m) s = .next ((u.answerRead p x (4 * (p.rdlen + 1))).mend x.owner m) := by
  subst ht
  subst hu
  change execRdReq p m s = _
  refine (receive_here _ hgood hdst hcls).trans ?_
  dsimp only
  rw [h]
  exact if_pos hx

end RdReq

/-! ### WR (R456, R457, R462) -/

/-- A burst joins those that the module knows. -/
def State.addBurst (s : State) (b : InBurst) : State := { s with fabric := { s.fabric with bursts := s.fabric.bursts ++ [b] } }

/-- The burst that a packet begins. -/
def openedBurst (p : Packet) (w : Nat) (overs : Bool) : InBurst :=
  { src := p.src, tag := p.tag, idx := p.burst, win := w, first := p.offset - 256 * p.idx, pkts := [], last := none, overs := overs }

theorem State.renewTag_of_seq {s : State} {p : Packet} (h : p.seq ≠ 0) : s.renewTag p = s := if_neg fun hc => h hc.1

theorem State.renewTag_of_noBursts {s : State} {p : Packet} (h : s.fabric.bursts = []) : s.renewTag p = s := by
  unfold State.renewTag
  dsimp only
  split
  · rw [h, List.filter_nil, ← h]
  · rfl

section Wr
variable {p : Packet} {s : State} (hgood : p.bad = false) (hdst : p.dst = s.fabric.id) (hcls : p.cls = clsWr) (hrenew : s.renewTag p = s)
include hgood hdst hcls hrenew

theorem exec_wr_late {b : InBurst} (hb : s.inBurst p.src p.tag p.burst = some b) (h : b.overs = true ∨ ∃ q ∈ b.pkts, q.1 = p.idx) :
    exec (.wr p) s = .next (s.fabCount 0x100 1) := by
  change execWr p s = _
  refine (receive_here _ hgood hdst hcls).trans ?_
  rw [hrenew]
  dsimp only
  rw [hb]
  refine if_pos ?_
  rw [Bool.or_eq_true, List.any_eq_true]
  exact h.imp_right fun ⟨q, hq, hidx⟩ => ⟨q, hq, beq_iff_eq.mpr hidx⟩

theorem exec_wr_joins {b : InBurst} (hb : s.inBurst p.src p.tag p.burst = some b) (hover : b.overs = false) (hnew : ∀ q ∈ b.pkts, q.1 ≠ p.idx) :
    exec (.wr p) s = .next (s.stage p b) := by
  change execWr p s = _
  refine (receive_here _ hgood hdst hcls).trans ?_
  rw [hrenew]
  dsimp only
  rw [hb]
  refine if_neg ?_
  rw [hover, Bool.false_or, List.any_eq_true]
  exact fun ⟨q, hq, hidx⟩ => hnew q hq (beq_iff_eq.mp hidx)

variable (hb : s.inBurst p.src p.tag p.burst = none)
include hb

theorem exec_wr_refused {st : Nat} {w : Option Nat} (h : s.checkReq p p.payload.length true = .refuse st w) : exec (.wr p) s =
    .next (((s.addBurst (openedBurst p (w.getD 0) true)).refuseReq p st w).commitReady 65536 p.src p.tag) := by
  change execWr p s = _
  refine (receive_here _ hgood hdst hcls).trans ?_
  rw [hrenew]
  dsimp only
  rw [hb]
  dsimp only
  rw [h]
  rfl

theorem exec_wr_begins {w : Nat} {x : Window} (h : s.checkReq p p.payload.length true = .ok w x) :
    exec (.wr p) s = .next ((s.addBurst (openedBurst p w false)).stage p (openedBurst p w false)) := by
  change execWr p s = _
  refine (receive_here _ hgood hdst hcls).trans ?_
  rw [hrenew]
  dsimp only
  rw [hb]
  dsimp only
  rw [h]
  rfl

end Wr

/-! ### A burst of one packet (R457) -/

/-- The module's only burst. -/
def State.withBurst (s : State) (b : InBurst) : State := { s with fabric := { s.fabric with bursts := [b] } }

theorem State.addBurst_eq_withBurst {s : State} (h : s.fabric.bursts = []) (b : InBurst) : s.addBurst b = s.withBurst b := by
  rw [State.addBurst, h]
  rfl

theorem State.setInBurst_withBurst (s : State) {b c : InBurst} (h : b.is c.src c.tag c.idx = true) : (s.withBurst b).setInBurst c = s.withBurst c := by
  simp only [State.setInBurst, State.withBurst, List.map_cons, List.map_nil, if_pos h]

theorem InBurst.is_self (b : InBurst) : b.is b.src b.tag b.idx = true := by simp [InBurst.is]

section CommitReady
variable {s : State} {b : InBurst} {src tag : Nat}

/-- A burst that has ended waits for nothing. -/
theorem State.commitReady_ended (fuel : Nat) (h : s.fabric.bursts = [b]) (hover : b.overs = true) : s.commitReady fuel src tag = s := by
  cases fuel with
  | zero => rfl
  | succ fuel =>
    have hnone : (s.fabric.bursts.filter fun b => b.src == src && b.tag == tag).find? (fun b => !b.overs && b.whole && (List.range b.idx).all fun i =>
        (s.fabric.bursts.filter fun b => b.src == src && b.tag == tag).any fun e => e.idx == i && e.overs) = none := by
      refine List.find?_eq_none.mpr fun x hx => ?_
      rw [h] at hx
      rw [List.mem_singleton.mp (List.mem_of_mem_filter hx), hover]
      nofun
    unfold State.commitReady
    dsimp only
    rw [hnone]

/-- The first burst of its transaction commits once it is whole. -/
theorem State.commitReady_whole (fuel : Nat) (h : s.fabric.bursts = [b]) (hover : b.overs = false) (hwhole : b.whole = true) (hidx : b.idx = 0) :
    s.commitReady (fuel + 1) b.src b.tag = (s.commit b).commitReady fuel b.src b.tag := by
  have hsome : (s.fabric.bursts.filter fun e => e.src == b.src && e.tag == b.tag).find? (fun e => !e.overs && e.whole && (List.range e.idx).all fun i =>
      (s.fabric.bursts.filter fun b' => b'.src == b.src && b'.tag == b.tag).any fun e => e.idx == i && e.overs) = some b := by
    rw [h]
    simp [hover, hwhole, hidx]
  conv => lhs; unfold State.commitReady
  dsimp only
  rw [hsome]

end CommitReady

/-- What a response of the module's own may change: what waits for outputs, the ports of bursts, what has left, and the counters. -/
theorem State.respond_rest (s : State) (x : Hdr) (bs : List Byte) : ∃ paths locals cnt out,
    s.respond x bs = { s with fabric := { s.fabric with paths := paths, locals := locals, cnt := cnt }, out := out } := by
  unfold State.respond
  cases hu : s.inject x bs with
  | none => exact ⟨_, _, _, _, rfl⟩
  | some u =>
    obtain ⟨paths, locals, out, h⟩ := State.inject_rest hu
    exact ⟨paths, locals, s.fabric.cnt, out, h⟩

/-- The burst of one packet, once it has come. -/
def wholeBurst (p : Packet) (w : Nat) : InBurst := { openedBurst p w false with pkts := [(p.idx, p.payload)], last := some p.idx }

theorem wholeBurst_bytes {p : Packet} (w : Nat) (h : p.idx = 0) : (wholeBurst p w).bytes = p.payload := by
  have hrange : List.range 16 = 0 :: List.range' 1 15 := rfl
  have hrest : ∀ i ∈ List.range' 1 15, ((([(0, p.payload)] : List (Nat × List Byte)).find? (·.1 == i)).map (·.2)).getD [] = [] := by
    intro i hi
    have hne : (0 == i) = false := beq_false_of_ne (by have := List.mem_range'_1.mp hi; omega)
    rw [List.find?_cons, hne] <;> rfl
  rw [InBurst.bytes, wholeBurst, h, hrange, List.flatMap_cons, List.flatMap_eq_nil_iff.mpr hrest, List.append_nil] <;> rfl

theorem wholeBurst_whole {p : Packet} (w : Nat) (h : p.idx = 0) : (wholeBurst p w).whole = true := by
  simp [InBurst.whole, wholeBurst, h]

section Single
variable {p : Packet} {s : State} {w : Nat} {x : Window} (hgood : p.bad = false) (hdst : p.dst = s.fabric.id) (hcls : p.cls = clsWr)
  (hnone : s.fabric.bursts = []) (hidx : p.idx = 0) (hburst : p.burst = 0) (hlast : p.last = true)
  (hok : s.checkReq p p.payload.length true = .ok w x) (hwin : s.win w = x) (hbase : x.ebase ≤ p.offset)
include hgood hdst hcls hnone hidx hburst hlast hok hwin hbase

/-- A write of one packet commits at once. -/
theorem exec_wr_single {u : State} (hu : (s.withBurst (wholeBurst p w)).commit (wholeBurst p w) = u)
    (hover : ∃ b : InBurst, b.overs = true ∧ u.fabric.bursts = [b]) : exec (.wr p) s = .next u := by
  obtain ⟨hin, hmapped⟩ := State.of_checkReq_ok hok
  obtain ⟨b, hb, hends⟩ := hover
  have hno : s.inBurst p.src p.tag p.burst = none := by rw [State.inBurst, hnone, List.find?_nil]
  rw [exec_wr_begins hgood hdst hcls (State.renewTag_of_noBursts hnone) hno hok, State.addBurst_eq_withBurst hnone]
  refine congrArg Host.Outcome.next ?_
  have hrange : ¬(x.ebase + x.size < p.offset + p.payload.length ∨ p.offset < x.ebase) := by omega
  have hset : (s.withBurst (openedBurst p w false)).setInBurst (wholeBurst p w) = s.withBurst (wholeBurst p w) :=
    State.setInBurst_withBurst s (InBurst.is_self (openedBurst p w false))
  unfold State.stage
  have hx : (s.withBurst (openedBurst p w false)).win (openedBurst p w false).win = x := hwin
  have hmap : (s.withBurst (openedBurst p w false)).winMapped x p.offset p.payload.length = true := hmapped
  dsimp only
  rw [hx, if_neg hrange, hmap, if_neg (by nofun), hlast, if_pos rfl]
  refine (congrArg (fun v => State.commitReady 65536 v p.src p.tag) hset).trans ?_
  calc (s.withBurst (wholeBurst p w)).commitReady 65536 p.src p.tag = u.commitReady 65535 p.src p.tag := by
        rw [← hu]
        exact State.commitReady_whole 65535 rfl rfl (wholeBurst_whole w hidx) hburst
    _ = u := State.commitReady_ended _ hends hb

end Single

theorem wholeBurst_first {p : Packet} (w : Nat) (h : p.idx = 0) : (wholeBurst p w).first = p.offset := by
  simp [wholeBurst, openedBurst, h]

section Commit
variable {p : Packet} {s : State} {w : Nat} {x : Window} (hidx : p.idx = 0) (hwin : s.win w = x) (hgone : x.gone = false)
include hidx hwin hgone

theorem State.commit_single_spill (hx : x.owner = 16) {t : State} (ht : s.withBurst (wholeBurst p w).ended = t) :
    (s.withBurst (wholeBurst p w)).commit (wholeBurst p w) =
      ({ t with fabric := t.fabric.spillStore p.offset p.payload } : State).respond ((wholeBurst p w).reply clsWrAck 0) [] := by
  have hset : (s.withBurst (wholeBurst p w)).setInBurst (wholeBurst p w).ended = t :=
    (State.setInBurst_withBurst s (b := wholeBurst p w) (c := (wholeBurst p w).ended) (InBurst.is_self (wholeBurst p w))).trans ht
  have hw : (s.withBurst (wholeBurst p w)).win (wholeBurst p w).win = x := hwin
  unfold State.commit
  dsimp only
  rw [hw, hset, hgone, if_neg (by nofun), if_pos hx, wholeBurst_bytes w hidx, wholeBurst_first w hidx]

theorem State.commit_single_part (hx : x.owner < 16) (hmapped : s.winMapped x p.offset p.payload.length = true) {t : State}
    (ht : s.withBurst (wholeBurst p w).ended = t) : (s.withBurst (wholeBurst p w)).commit (wholeBurst p w) =
      ((t.setMem x.owner ((t.mem x.owner).store (x.lva + (p.offset - x.ebase)) p.payload)).startFarOwn x.owner).respond
        ((wholeBurst p w).reply clsWrAck 0) [] := by
  have hset : (s.withBurst (wholeBurst p w)).setInBurst (wholeBurst p w).ended = t :=
    (State.setInBurst_withBurst s (b := wholeBurst p w) (c := (wholeBurst p w).ended) (InBurst.is_self (wholeBurst p w))).trans ht
  have hw : (s.withBurst (wholeBurst p w)).win (wholeBurst p w).win = x := hwin
  have hmap : t.winMapped x p.offset p.payload.length = true := ht ▸ hmapped
  unfold State.commit
  dsimp only
  rw [hw, hset, hgone, if_neg (by nofun), if_neg hx.ne, wholeBurst_bytes w hidx, wholeBurst_first w hidx, if_pos hmap]

end Commit

/-- Beginning transfers of a partition's Tier F changes its memory's notes alone. -/
theorem State.part_startFarOwn (s : State) (p q : Nat) :
    (s.startFarOwn p).part q = { s.part q with mem := (s.startFarOwn p).mem q } ∧ (q ≠ p → (s.startFarOwn p).part q = s.part q) := by
  obtain h | h := s.startFarOwn_parts p
  · have hq : (s.startFarOwn p).part q = s.part q := by rw [State.part, h] <;> rfl
    rw [State.mem, hq]
    exact ⟨rfl, fun _ => rfl⟩
  · have hq : (s.startFarOwn p).part q = (s.setMem p { s.mem p with far := [] }).part q := by rw [State.part, h] <;> rfl
    rw [State.mem, hq, State.part_setMem]
    exact ⟨rfl, fun hqp => by rw [if_neg hqp]⟩

theorem sget_writeBytes (bs : List Byte) (m : Sparse Byte) (a i : Nat) :
    sget 0 (writeBytes m a bs) i = if a ≤ i ∧ i < a + bs.length then bs.getD (i - a) 0 else sget 0 m i := by
  split
  · next h =>
    obtain ⟨j, rfl⟩ := Nat.exists_eq_add_of_le h.1
    rw [sget_writeBytes_inside _ _ _ _ (by omega), Nat.add_sub_cancel_left]
  · next h => exact sget_writeBytes_outside _ _ _ _ (by omega)

section SingleEffect
variable {p : Packet} {s : State} {w : Nat} {x : Window} (hgood : p.bad = false) (hdst : p.dst = s.fabric.id) (hcls : p.cls = clsWr)
  (hnone : s.fabric.bursts = []) (hidx : p.idx = 0) (hburst : p.burst = 0) (hlast : p.last = true)
  (hok : s.checkReq p p.payload.length true = .ok w x) (hwin : s.win w = x) (hgone : x.gone = false) (hbase : x.ebase ≤ p.offset)
include hgood hdst hcls hnone hidx hburst hlast hok hwin hgone hbase

theorem exec_wr_single_spill (hx : x.owner = 16) : ∃ u, exec (.wr p) s = .next u ∧
    u.fabric.spill = writeBytes s.fabric.spill p.offset p.payload ∧ u.parts = s.parts ∧ u.cores = s.cores := by
  have hcommit := State.commit_single_spill hidx hwin hgone hx rfl
  obtain ⟨paths, locals, cnt, out, hrest⟩ := State.respond_rest
    ({ s.withBurst (wholeBurst p w).ended with fabric := (s.withBurst (wholeBurst p w).ended).fabric.spillStore p.offset p.payload } : State)
    ((wholeBurst p w).reply clsWrAck 0) []
  exact ⟨_, exec_wr_single hgood hdst hcls hnone hidx hburst hlast hok hwin hbase (hcommit.trans hrest) ⟨_, rfl, rfl⟩, rfl, rfl, rfl⟩

theorem exec_wr_single_part (hx : x.owner < 16) {a : Nat} (ha : x.lva + (p.offset - x.ebase) = a) : ∃ u, exec (.wr p) s = .next u ∧
    (∀ i, sget 0 (u.mem x.owner).bytes i = if a ≤ i ∧ i < a + p.payload.length then p.payload.getD (i - a) 0 else sget 0 (s.mem x.owner).bytes i) ∧
    u.part x.owner = { s.part x.owner with mem := u.mem x.owner } ∧ (∀ q, q ≠ x.owner → u.part q = s.part q) ∧ u.cores = s.cores ∧
    u.hostMem = s.hostMem ∧ u.fabric.spill = s.fabric.spill := by
  have hcommit := State.commit_single_part hidx hwin hgone hx (State.of_checkReq_ok hok).2 rfl
  rw [ha] at hcommit
  obtain ⟨v, hv⟩ : ∃ v, (s.withBurst (wholeBurst p w).ended).setMem x.owner ((s.mem x.owner).store a p.payload) = v := ⟨_, rfl⟩
  have hvpart : ∀ q, v.part q = { s.part q with mem := if q = x.owner then (s.mem x.owner).store a p.payload else (s.part q).mem } := by
    intro q
    rw [← hv]
    exact State.part_setMem ..
  have hvrest : v.cores = s.cores ∧ v.hostMem = s.hostMem ∧ v.fabric.spill = s.fabric.spill ∧ v.fabric.bursts = [(wholeBurst p w).ended] := by
    rw [← hv]
    exact ⟨rfl, rfl, rfl, rfl⟩
  obtain ⟨hcores, hhost, hspill, hbursts⟩ := hvrest
  have hcommit : (s.withBurst (wholeBurst p w)).commit (wholeBurst p w) =
      (v.startFarOwn x.owner).respond ((wholeBurst p w).reply clsWrAck 0) [] := hcommit.trans (by rw [← hv] <;> rfl)
  obtain ⟨paths, locals, cnt, out, hrest⟩ := (v.startFarOwn x.owner).respond_rest ((wholeBurst p w).reply clsWrAck 0) []
  have hoff := State.of_offOwn (v.startFarOwn_offOwn x.owner)
  have hbytes : ((v.startFarOwn x.owner).mem x.owner).bytes = writeBytes (s.mem x.owner).bytes a p.payload := by
    rw [State.startFarOwn_bytes, State.mem, hvpart, if_pos rfl] <;> rfl
  have hpart := v.part_startFarOwn x.owner
  generalize v.startFarOwn x.owner = y at hcommit hrest hoff hbytes hpart
  have hy : y.cores = s.cores ∧ y.hostMem = s.hostMem ∧ y.fabric.spill = s.fabric.spill ∧ y.fabric.bursts = [(wholeBurst p w).ended] := by
    rw [hoff]
    exact ⟨hcores, hhost, hspill, hbursts⟩
  obtain ⟨hcores, hhost, hspill, hbursts⟩ := hy
  refine ⟨_, exec_wr_single hgood hdst hcls hnone hidx hburst hlast hok hwin hbase (hcommit.trans hrest) ⟨_, rfl, hbursts⟩, fun i => ?_, ?_,
    fun q hq => ?_, hcores, hhost, hspill⟩
  · exact (congrArg (sget 0 · i) hbytes).trans (sget_writeBytes ..)
  · refine ((hpart x.owner).1).trans ?_
    rw [hvpart] <;> rfl
  · refine ((hpart q).2 hq).trans ?_
    rw [hvpart, if_neg hq]

end SingleEffect

/-! ### Probes, storage errors and the gap timer (R461, R465, R466, R526) -/

theorem exec_request_bad {s : State} {p : Packet} (hbad : p.bad = true) {c : Instr} (hc : c ∈ [Instr.rdReq p .none, .wr p, .probe p, .probeRsp p]) :
    exec c s = .next (s.fabCount 0x110 1) := by
  simp only [List.mem_cons, List.not_mem_nil, or_false] at hc
  obtain rfl | rfl | rfl | rfl := hc
  all_goals exact receive_bad _ hbad

theorem exec_request_elsewhere {s : State} {p : Packet} (hbad : p.bad = false) (hdst : p.dst ≠ s.fabric.id) {c : Instr}
    (hc : c ∈ [Instr.rdReq p .none, .wr p, .probe p, .probeRsp p]) : exec c s = .next s := by
  simp only [List.mem_cons, List.not_mem_nil, or_false] at hc
  obtain rfl | rfl | rfl | rfl := hc
  all_goals exact receive_elsewhere _ hbad hdst

theorem State.spillError_ue {s : State} {off : Nat} (h : s.spillHeld off = true) : s.spillError (.ue off) =
    ({ s with fabric := { s.fabric with spillPoison := if off / 64 ∈ s.fabric.spillPoison then s.fabric.spillPoison
      else off / 64 :: s.fabric.spillPoison } }.healthCount 0x20C 1).event 0x000A 0xFFFFFFFF (off % 2097152 / 64) [] := by
  have hpoison : (if s.fabric.spillPoison.contains (off / 64) then s.fabric.spillPoison else off / 64 :: s.fabric.spillPoison) =
      if off / 64 ∈ s.fabric.spillPoison then s.fabric.spillPoison else off / 64 :: s.fabric.spillPoison := by
    simp only [List.contains_iff_mem]
  rw [← hpoison]
  exact if_pos h

theorem exec_fabGapExpiry_unknown {s : State} {src tag burst : Nat} (h : s.inBurst src tag burst = none) :
    exec (.fabGapExpiry true src tag burst) s = .next s := by
  change execFabGapExpiry true src tag burst s = _
  unfold execFabGapExpiry
  rw [if_pos rfl, h]

theorem exec_fabGapExpiry_owner {s : State} {src tag burst : Nat} {b : InBurst} (h : s.inBurst src tag burst = some b) :
    exec (.fabGapExpiry true src tag burst) s = .next (if b.overs = true then s else
      (((s.setInBurst { b with overs := true, pkts := [] }).fabCount 0x10C 1).respond (b.reply clsNack nackGap) []).commitReady 65536 src tag) := by
  change execFabGapExpiry true src tag burst s = _
  unfold execFabGapExpiry
  rw [if_pos rfl, h]
  dsimp only
  rw [apply_ite Host.Outcome.next] <;> rfl

/-- Settles O51. -/
theorem requestsAtTheirOwner : Obligations.RequestsAtTheirOwner := by
  unfold Obligations.RequestsAtTheirOwner
  intro p n tag burst src write s
  refine ⟨State.checkReq_none, fun w x h => ⟨State.checkReq_key h, fun hkey hallowed => ⟨State.checkReq_closed h hkey hallowed, fun hopen hepoch =>
      ⟨State.checkReq_range h hkey hallowed hopen hepoch, State.checkReq_mapped h hkey hallowed hopen hepoch⟩⟩⟩,
    fun c hc => ⟨fun hbad => exec_request_bad hbad hc, fun hbad hdst => exec_request_elsewhere hbad hdst hc⟩,
    fun hgood hdst => ⟨fun hcls => ⟨fun st w m h => exec_rdReq_refused hgood hdst hcls h m, fun w x m h hx => ⟨fun hp => ?_, fun hp => ?_⟩,
        fun w x m h hx => ⟨fun hp => ?_, fun hp => ?_⟩⟩,
      fun hcls => ⟨fun b hseq hb => exec_wr_late hgood hdst hcls (State.renewTag_of_seq hseq) hb,
        fun b hseq hb => exec_wr_joins hgood hdst hcls (State.renewTag_of_seq hseq) hb,
        fun hseq hb => ⟨fun st w h => exec_wr_refused hgood hdst hcls (State.renewTag_of_seq hseq) hb h,
          fun w x h => exec_wr_begins hgood hdst hcls (State.renewTag_of_seq hseq) hb h⟩,
        fun w x hnone hidx hburst hlast hok hwin hx hgone hbase =>
          exec_wr_single_spill hgood hdst hcls hnone hidx hburst hlast hok hwin hgone hbase hx,
        fun w x hnone hidx hburst hlast hok hwin hx hgone hbase =>
          exec_wr_single_part hgood hdst hcls hnone hidx hburst hlast hok hwin hgone hbase hx rfl⟩,
      fun hcls => receive_here _ hgood hdst hcls, fun hcls => receive_here _ hgood hdst hcls⟩,
    fun off => State.spillError_ue, exec_fabGapExpiry_unknown, fun b => exec_fabGapExpiry_owner⟩
  case refine_1 => rw [exec_rdReq_spill hgood hdst hcls h hx, State.answerRead_poison (State.winRead_spill_poison hx hp)]
  case refine_2 => rw [exec_rdReq_spill hgood hdst hcls h hx, State.answerRead_bytes (State.winRead_spill hx hp)] <;> rfl
  case refine_3 => rw [exec_rdReq_part hgood hdst hcls h hx m rfl rfl, State.answerRead_poison (State.winRead_poison hx hp)]
  case refine_4 => rw [exec_rdReq_part hgood hdst hcls h hx m rfl rfl, State.answerRead_bytes (State.winRead_part hx hp)] <;> rfl

end Sys2Proof.Machine
end

section
/-! PROOFS. Packets on their way, and links (R440, R441, R449 to R452). -/

-- One proof at a time: in parallel the many `unfold`s wait for each other, with a thread for each that waits.
set_option Elab.async false

namespace Sys2Proof.Machine
/-! ### A header with its VC and HOPS replaced (R444, R449) -/

/-- A header in pieces: below the VC, the VC, between, HOPS, above. -/
def headerOf (a v b h c : Nat) : Nat := a + v * 2 ^ 4 + b * 2 ^ 6 + h * 2 ^ 54 + c * 2 ^ 59

section Header
variable {a v b h c : Nat} (ha : a < 2 ^ 4) (hv : v < 2 ^ 2) (hb : b < 2 ^ 48) (hh : h < 2 ^ 5)
include ha hv hb hh

omit hb hh in
theorem headerOf_vc : bits (headerOf a v b h c) 4 2 = v := by
  simp only [bits, headerOf, Nat.reducePow] at *
  omega

theorem headerOf_hops : bits (headerOf a v b h c) 54 5 = h := by
  simp only [bits, headerOf, Nat.reducePow] at *
  omega

/-- Above HOPS a field is one of the upper piece. -/
theorem headerOf_upper (lo n : Nat) : bits (headerOf a v b h c) (59 + lo) n = bits c lo n := by
  have hdiv : headerOf a v b h c / 2 ^ 59 = c := by
    simp only [headerOf, Nat.reducePow] at *
    omega
  rw [bits, Nat.pow_add, ← Nat.div_div_eq_div_mul, hdiv, bits]

omit hb hh in
/-- Between VC and HOPS a field is one of the piece between. -/
theorem headerOf_between (lo n : Nat) (hn : lo + n ≤ 48) : bits (headerOf a v b h c) (6 + lo) n = bits b lo n := by
  have hdiv : headerOf a v b h c / 2 ^ 6 = b + 2 ^ 48 * (h + c * 2 ^ 5) := by
    simp only [headerOf, Nat.reducePow] at *
    omega
  have hpow : 2 ^ 48 * (h + c * 2 ^ 5) = 2 ^ lo * (2 ^ n * (2 ^ (48 - lo - n) * (h + c * 2 ^ 5))) := by
    rw [← Nat.mul_assoc, ← Nat.mul_assoc, ← Nat.pow_add, ← Nat.pow_add, show lo + n + (48 - lo - n) = 48 by omega]
  rw [bits, Nat.pow_add, ← Nat.div_div_eq_div_mul, hdiv, hpow, Nat.add_mul_div_left _ _ (Nat.two_pow_pos lo), Nat.add_mul_mod_self_left, bits]

end Header

section Hop
variable (p : Packet)

theorem vc_lt : p.vc < 2 ^ 2 := Nat.mod_lt _ (Nat.two_pow_pos 2)
theorem hops_lt : p.hops < 2 ^ 5 := Nat.mod_lt _ (Nat.two_pow_pos 5)

/-- The pieces of a packet's header below the VC, between VC and HOPS, and above HOPS. -/
def hdrLow : Nat := p.hdr.toNat % 2 ^ 4
def hdrMid : Nat := p.hdr.toNat / 2 ^ 6 % 2 ^ 48
def hdrHigh : Nat := p.hdr.toNat / 2 ^ 59

theorem hdrLow_lt : hdrLow p < 2 ^ 4 := Nat.mod_lt _ (Nat.two_pow_pos 4)
theorem hdrMid_lt : hdrMid p < 2 ^ 48 := Nat.mod_lt _ (Nat.two_pow_pos 48)

theorem hdr_pieces : p.hdr.toNat = headerOf (hdrLow p) p.vc (hdrMid p) p.hops (hdrHigh p) := by
  simp only [headerOf, hdrLow, hdrMid, hdrHigh, Packet.vc, Packet.hops, Packet.field, bits, Nat.reducePow]
  omega

theorem hdr_hop {v h : Nat} (hv : v < 2 ^ 2) (hh : h < 2 ^ 5) : (p.hop v h).hdr.toNat = headerOf (hdrLow p) v (hdrMid p) h (hdrHigh p) := by
  have hlt := p.hdr.isLt
  have hpieces := hdr_pieces p
  change (BitVec.ofNat 256 (p.hdr.toNat - p.vc * 2 ^ 4 - p.hops * 2 ^ 54 + bits v 0 2 * 2 ^ 4 + bits h 0 5 * 2 ^ 54)).toNat = _
  have hv' : bits v 0 2 = v := by rw [bits, Nat.pow_zero, Nat.div_one, Nat.mod_eq_of_lt hv]
  have hh' : bits h 0 5 = h := by rw [bits, Nat.pow_zero, Nat.div_one, Nat.mod_eq_of_lt hh]
  have hlow := hdrLow_lt p
  have hmid := hdrMid_lt p
  have hhigh : hdrHigh p < 2 ^ 197 := Nat.div_lt_of_lt_mul (by rw [← Nat.pow_add]; exact hlt)
  rw [hv', hh', BitVec.toNat_ofNat]
  generalize p.hdr.toNat = x at *
  generalize hdrLow p = a at *
  generalize hdrMid p = b at *
  generalize hdrHigh p = c at *
  generalize p.vc = v₀ at *
  generalize p.hops = h₀ at *
  have hsum : x - v₀ * 2 ^ 4 - h₀ * 2 ^ 54 + v * 2 ^ 4 + h * 2 ^ 54 = headerOf a v b h c := by
    simp only [headerOf, Nat.reducePow] at *
    omega
  rw [hsum]
  refine Nat.mod_eq_of_lt ?_
  simp only [headerOf, Nat.reducePow] at *
  omega

section
variable {v h : Nat} (hv : v < 2 ^ 2) (hh : h < 2 ^ 5)
include hv hh

/-- A hop leaves the fields below HOPS but the VC. -/
theorem field_hop_between (k n : Nat) (hk : 6 ≤ k) (hn : k + n ≤ 54) : (p.hop v h).field k n = p.field k n := by
  obtain ⟨lo, rfl⟩ := Nat.exists_eq_add_of_le hk
  have hn : lo + n ≤ 48 := by omega
  rw [Packet.field, hdr_hop p hv hh, headerOf_between (hdrLow_lt p) hv lo n hn, Packet.field, hdr_pieces p,
    headerOf_between (hdrLow_lt p) (vc_lt p) lo n hn]

/-- A hop leaves the fields above HOPS. -/
theorem field_hop_upper (k n : Nat) (hk : 59 ≤ k) : (p.hop v h).field k n = p.field k n := by
  obtain ⟨lo, rfl⟩ := Nat.exists_eq_add_of_le hk
  rw [Packet.field, hdr_hop p hv hh, headerOf_upper (hdrLow_lt p) hv (hdrMid_lt p) hh lo n, Packet.field, hdr_pieces p,
    headerOf_upper (hdrLow_lt p) (vc_lt p) (hdrMid_lt p) (hops_lt p) lo n]

theorem vc_hop : (p.hop v h).vc = v := by
  rw [Packet.vc, Packet.field, hdr_hop p hv hh]
  exact headerOf_vc (hdrLow_lt p) hv

theorem hops_hop : (p.hop v h).hops = h := by
  rw [Packet.hops, Packet.field, hdr_hop p hv hh]
  exact headerOf_hops (hdrLow_lt p) hv (hdrMid_lt p) hh

omit hv hh in
theorem payload_hop (v h : Nat) : (p.hop v h).payload = p.payload := by rw [Packet.hop]

/-- A hop keeps where a packet comes from and goes, its transaction, its place and its key. -/
theorem hop_keeps : (p.hop v h).payload = p.payload ∧ (p.hop v h).dst = p.dst ∧ (p.hop v h).src = p.src ∧ (p.hop v h).tag = p.tag ∧
    (p.hop v h).key = p.key ∧ (p.hop v h).offset = p.offset ∧ (p.hop v h).seq = p.seq :=
  ⟨payload_hop p v h, field_hop_between p hv hh 8 12 (by decide) (by decide), field_hop_between p hv hh 20 12 (by decide) (by decide),
    field_hop_between p hv hh 32 16 (by decide) (by decide), field_hop_upper p hv hh 128 64 (by decide), field_hop_upper p hv hh 64 45 (by decide),
    field_hop_upper p hv hh 208 32 (by decide)⟩

end

end Hop

/-! ### The VC of a hop (R445, R449) -/

theorem isRequest_iff (c : Nat) : isRequest c = true ↔ c = clsRdReq ∨ c = clsWr ∨ c = clsProbe := by
  simp [isRequest, or_assoc]

theorem vcBit_lt (old : Nat) (dateline turn : Bool) : (if dateline then 1 else if turn then 0 else old % 2) < 2 := by
  split
  · decide
  · split <;> omega

theorem vcOf_lt (cls old : Nat) (dateline turn : Bool) : vcOf cls old dateline turn < 2 ^ 2 := by
  have hlow := vcBit_lt old dateline turn
  unfold vcOf
  split <;> omega

theorem vcOf_dateline (cls old : Nat) (turn : Bool) : vcOf cls old true turn % 2 = 1 := by
  rw [vcOf, if_pos rfl]
  split <;> rfl

theorem vcOf_div_two (cls old : Nat) (dateline turn : Bool) : vcOf cls old dateline turn / 2 = 0 ↔ isRequest cls = true := by
  unfold vcOf
  have hlow := vcBit_lt old dateline turn
  generalize (if dateline then 1 else if turn then 0 else old % 2) = k at hlow
  split
  · next h => exact iff_of_true (by omega) h
  · next h => exact iff_of_false (by omega) h

/-! ### Forwarding (R451, R452) -/

/-- A refused packet: a request answers NACK, another is counted. -/
def State.turnedAway (t : State) (p : Packet) : State :=
  if p.cls = clsRdReq ∨ p.cls = clsWr ∨ p.cls = clsProbe then t.nackTo p nackUnreach else t.fabCount 0x100 1

/-- A header has arrived on a port: its replays are over. -/
def State.arrived (s : State) (n : Nat) : State := { s with fabric := { s.fabric with crc := sput 0 s.fabric.crc n 0 } }

section Route
variable {s : State} {dst d : Nat} (hd : sget 0 s.fabric.route dst % 8 = d)
include hd

theorem State.hopOf_here (h0 : d = 0) (hdst : dst = s.fabric.id) : s.hopOf dst = .here := by
  unfold State.hopOf
  dsimp only
  rw [hd, if_pos h0, if_pos hdst]

theorem State.hopOf_stray (h0 : d = 0) (hdst : dst ≠ s.fabric.id) : s.hopOf dst = .refused := by
  unfold State.hopOf
  dsimp only
  rw [hd, if_pos h0, if_neg hdst]

theorem State.hopOf_refused (h0 : d ≠ 0) (h : d = 7 ∨ s.dirDown d = true) : s.hopOf dst = .refused := by
  unfold State.hopOf
  dsimp only
  rw [hd, if_neg h0, if_pos h]

theorem State.hopOf_out (h0 : d ≠ 0) (h7 : d ≠ 7) (hdown : s.dirDown d = false) :
    s.hopOf dst = .out d (decide (sget 0 s.fabric.route dst / 8 % 2 = 1)) := by
  unfold State.hopOf
  dsimp only
  rw [hd, if_neg h0, if_neg (not_or.mpr ⟨h7, Bool.eq_false_iff.mp hdown⟩)]

end Route

theorem exec_packetForward_bad {p : Packet} (n : Nat) (s : State) (h : p.bad = true) (busy : Bool) :
    exec (.packetForward n p busy) s = .next ((s.arrived n).fabCount 0x110 1) := if_pos h

section Forward
variable {p : Packet} {n : Nat} {s : State} (hgood : p.bad = false) (busy : Bool)
include hgood

theorem exec_packetForward_here (h : s.hopOf p.dst = .here) : exec (.packetForward n p busy) s = .next (s.arrived n) := by
  refine (if_neg (Bool.eq_false_iff.mp hgood)).trans ?_
  change (match (s.hopOf p.dst) with | .here => _ | .refused => _ | .out _ _ => _) = _
  rw [h] <;> rfl

theorem exec_packetForward_refused (h : s.hopOf p.dst = .refused) : exec (.packetForward n p busy) s = .next ((s.arrived n).turnedAway p) := by
  refine (if_neg (Bool.eq_false_iff.mp hgood)).trans ?_
  have haway : (if isRequest p.cls then (s.arrived n).nackTo p nackUnreach else (s.arrived n).fabCount 0x100 1) = (s.arrived n).turnedAway p :=
    if_congr (isRequest_iff _) rfl rfl
  rw [← haway]
  change (match (s.hopOf p.dst) with | .here => _ | .refused => _ | .out _ _ => _) = _
  rw [h] <;> rfl

variable {d : Nat} {dl : Bool} (h : s.hopOf p.dst = .out d dl)
include h

theorem exec_packetForward_old (hhops : 30 ≤ p.hops) : exec (.packetForward n p busy) s = .next ((s.arrived n).turnedAway p) := by
  refine (if_neg (Bool.eq_false_iff.mp hgood)).trans ?_
  have haway : (if isRequest p.cls then (s.arrived n).nackTo p nackUnreach else (s.arrived n).fabCount 0x100 1) = (s.arrived n).turnedAway p :=
    if_congr (isRequest_iff _) rfl rfl
  rw [← haway]
  change (match (s.hopOf p.dst) with | .here => _ | .refused => _ | .out _ _ => _) = _
  rw [h]
  exact if_pos (Nat.succ_le_succ hhops)

theorem exec_packetForward_out (hhops : p.hops < 30) {q : Packet} (hq : p.hop (vcOf p.cls p.vc dl ((portDir n - 1) / 2 != (d - 1) / 2)) (p.hops + 1) = q) :
    exec (.packetForward n p busy) s =
      .next (if (busy || (s.arrived n).mustWait d q) = true then (s.arrived n).keepWaiting n d q else (s.arrived n).sendVia d q) := by
  subst hq
  refine (if_neg (Bool.eq_false_iff.mp hgood)).trans ?_
  change (match (s.hopOf p.dst) with | .here => _ | .refused => _ | .out _ _ => _) = _
  rw [h]
  exact if_neg (by omega)

end Forward

/-- Where a packet goes that leaves for another module. -/
theorem exec_packetForward_leaves {p : Packet} {n d r : Nat} {s : State} (hgood : p.bad = false) (hr : sget 0 s.fabric.route p.dst = r)
    (hd : r % 8 = d) (h0 : d ≠ 0) (h7 : d ≠ 7) (hdown : s.dirDown d = false) (hhops : p.hops < 30) (busy : Bool) :
    ∃ q : Packet, q.payload = p.payload ∧ q.hops = p.hops + 1 ∧ q.dst = p.dst ∧
      q.src = p.src ∧ q.tag = p.tag ∧ q.key = p.key ∧ q.offset = p.offset ∧ q.seq = p.seq ∧
      (r / 8 % 2 = 1 → q.vc % 2 = 1) ∧ (q.vc / 2 = 0 ↔ (p.cls = clsRdReq ∨ p.cls = clsWr ∨ p.cls = clsProbe)) ∧
      (busy = false → (s.arrived n).mustWait d q = false → exec (.packetForward n p busy) s = .next ((s.arrived n).sendVia d q)) ∧
      (busy = true ∨ (s.arrived n).mustWait d q = true → exec (.packetForward n p busy) s = .next ((s.arrived n).keepWaiting n d q)) := by
  have hout := State.hopOf_out (hr ▸ hd) h0 h7 hdown
  rw [hr] at hout
  have hh : p.hops + 1 < 2 ^ 5 := by omega
  have hsends := fun q (hq : p.hop _ _ = q) => exec_packetForward_out (n := n) hgood busy hout hhops hq
  obtain ⟨v, hv⟩ : ∃ v, vcOf p.cls p.vc (decide (r / 8 % 2 = 1)) ((portDir n - 1) / 2 != (d - 1) / 2) = v := ⟨_, rfl⟩
  have hvlt : v < 2 ^ 2 := hv ▸ vcOf_lt ..
  rw [hv] at hsends
  obtain ⟨hpayload, hdst, hsrc, htag, hkey, hoff, hseq⟩ := hop_keeps p hvlt hh
  refine ⟨p.hop v (p.hops + 1), hpayload, hops_hop p hvlt hh, hdst, hsrc, htag, hkey, hoff, hseq, fun hline => ?_, ?_, fun hbusy hwait => ?_,
    fun hwait => ?_⟩
  · rw [vc_hop p hvlt hh, ← hv, decide_eq_true hline]
    exact vcOf_dateline ..
  · rw [vc_hop p hvlt hh, ← hv]
    exact (vcOf_div_two ..).trans (isRequest_iff _)
  · rw [hsends _ rfl, hbusy, hwait] <;> rfl
  · rw [hsends _ rfl, if_pos (by rw [Bool.or_eq_true]; exact hwait)]

/-! ### Waiting for an output (R448, R452) -/

theorem State.responseWaits_iff (s : State) (d : Nat) :
    s.responseWaits d = true ↔ s.waitingAt (4 * d + 2) ≠ [] ∨ s.waitingAt (4 * d + 3) ≠ [] := by
  rw [State.responseWaits, Bool.not_eq_true', List.isEmpty_eq_false_iff, ne_eq, List.append_eq_nil_iff, not_and_or]

theorem State.mustWait_iff (s : State) (d : Nat) (p : Packet) : s.mustWait d p = true ↔
    ((p.cls = clsRdReq ∨ p.cls = clsWr ∨ p.cls = clsProbe) ∧ (s.waitingAt (4 * d + 2) ≠ [] ∨ s.waitingAt (4 * d + 3) ≠ [])) ∨
      ∃ x ∈ s.waitingAt (4 * d + p.vc), x.src = p.src ∧ x.tag = p.tag := by
  rw [State.mustWait, Bool.or_eq_true, Bool.and_eq_true, isRequest_iff, State.responseWaits_iff, List.any_eq_true]
  simp only [Bool.and_eq_true, beq_iff_eq]

theorem State.sendVia_out (s : State) (d : Nat) (p : Packet) : (s.sendVia d p).out = .packet (s.pathPort d p) p p.crc :: s.out := rfl

theorem State.pathPort_fresh {s : State} {d : Nat} {p : Packet} (h : s.fabric.paths.find? (·.is d p) = none) : s.pathPort d p = s.outPort d p.tag := by
  unfold State.pathPort
  rw [h]

theorem State.pathPort_kept {s : State} {d : Nat} {p : Packet} {x : Path} (h : s.fabric.paths.find? (·.is d p) = some x) (hburst : x.burst = p.burst)
    (hup : s.vport x.port = 1) : s.pathPort d p = x.port := by
  unfold State.pathPort
  rw [h]
  exact if_pos ⟨hburst, hup⟩

/-- A packet joins its port's input buffer. -/
def State.buffered (s : State) (n d : Nat) (p : Packet) : State :=
  { s with fabric := { s.fabric with inbuf := sput [] s.fabric.inbuf n (sget [] s.fabric.inbuf n ++ [(d, p)]) } }

theorem State.buffered_inbuf (s : State) (n d : Nat) (p : Packet) :
    sget [] (s.buffered n d p).fabric.inbuf n = sget [] s.fabric.inbuf n ++ [(d, p)] := sget_sput_self ..

section Keep
variable {s : State} {n d : Nat} {p : Packet} {held : List (Nat × Packet)} (hheld : sget [] s.fabric.inbuf n ++ [(d, p)] = held)
include hheld

theorem State.bufferHigh_buffered : (s.buffered n d p).bufferHigh n = true ↔ 98304 < (held.map fun x => 32 + x.2.payload.length).sum := by
  rw [State.bufferHigh, State.buffered_inbuf, hheld, decide_eq_true_iff] <;> rfl

theorem State.keepWaiting_low (h : (held.map fun x => 32 + x.2.payload.length).sum ≤ 98304) : s.keepWaiting n d p = s.buffered n d p :=
  if_neg ((State.bufferHigh_buffered hheld).not.mpr (Nat.not_lt.mpr h))

theorem State.keepWaiting_high (h : 98304 < (held.map fun x => 32 + x.2.payload.length).sum) :
    s.keepWaiting n d p = (s.buffered n d p).parkAll n (4 * d + p.vc) (held.filter (waitsFor (4 * d + p.vc))) := by
  refine (if_pos ((State.bufferHigh_buffered hheld).mpr h)).trans ?_
  change (s.buffered n d p).parkAll n _ ((sget [] (s.buffered n d p).fabric.inbuf n).filter _) = _
  rw [State.buffered_inbuf, hheld]

end Keep

theorem State.parkAll_room {s : State} {n key : Nat} {x : Nat × Packet} (rest : List (Nat × Packet))
    (h : s.parkUsed (n / 3) + (32 + x.2.payload.length) ≤ 134217728) : s.parkAll n key (x :: rest) = ({ s with fabric := { s.fabric with
      inbuf := sput [] s.fabric.inbuf n ((sget [] s.fabric.inbuf n).erase x)
      parked := sput [] s.fabric.parked key (sget [] s.fabric.parked key ++ [(n / 3, x.2)]) } }.fabCount 0x114 1).parkAll n key rest := if_pos h

theorem State.parkAll_full {s : State} {n key : Nat} {x : Nat × Packet} (rest : List (Nat × Packet))
    (h : 134217728 < s.parkUsed (n / 3) + (32 + x.2.payload.length)) : s.parkAll n key (x :: rest) = s := if_neg (Nat.not_le.mpr h)

/-! ### PARK_RELEASE (R452) -/

/-- The first number whose image is there. -/
theorem findSome?_range {α : Type} {f : Nat → Option α} {n j : Nat} {b : α} (hj : j < n) (hbefore : ∀ i, i < j → f i = none) (h : f j = some b) :
    (List.range n).findSome? f = some b := by
  refine List.findSome?_eq_some_iff.mpr ⟨List.range j, j, List.range' (j + 1) (n - j - 1), ?_, h, fun i hi => hbefore i (List.mem_range.mp hi)⟩
  have happend := List.range'_append_1 (s := 0) (m := j) (n := n - j - 1 + 1)
  rw [Nat.zero_add, show j + (n - j - 1 + 1) = n by omega] at happend
  rw [List.range_eq_range', List.range_eq_range', ← List.range'_succ, happend]

section Release
variable {s : State} {dir vc : Nat}

theorem exec_parkRelease_none (h : ∀ i, i < 14 → s.takeWaiting (4 * dir + vc) i = none) : exec (.parkRelease dir vc) s = .next s := by
  have hnone : s.serveNext (4 * dir + vc) = none :=
    List.findSome?_eq_none_iff.mpr fun j _ => Option.map_eq_none_iff.mpr (h _ (Nat.mod_lt _ (by decide)))
  change execParkRelease dir vc s = _
  unfold execParkRelease
  rw [hnone]

theorem State.serveNext_some {key j : Nat} {q : Packet} {u : State} (hj : j < 14)
    (hbefore : ∀ i, i < j → s.takeWaiting key ((sget 0 s.fabric.turn key + i) % 14) = none)
    (h : s.takeWaiting key ((sget 0 s.fabric.turn key + j) % 14) = some (q, u)) : s.serveNext key =
      some (q, { u with fabric := { u.fabric with turn := sput 0 u.fabric.turn key (((sget 0 s.fabric.turn key + j) % 14 + 1) % 14) } }) := by
  refine findSome?_range hj (fun i hi => Option.map_eq_none_iff.mpr (hbefore i hi)) ?_
  dsimp only
  rw [h] <;> rfl

theorem exec_parkRelease_some {j : Nat} {q : Packet} {u : State} {turn : Nat} (hturn : sget 0 s.fabric.turn (4 * dir + vc) = turn) (hj : j < 14)
    (hbefore : ∀ i, i < j → s.takeWaiting (4 * dir + vc) ((turn + i) % 14) = none)
    (h : s.takeWaiting (4 * dir + vc) ((turn + j) % 14) = some (q, u)) : exec (.parkRelease dir vc) s = .next (
      if s.dirDown dir = true ∨ (vc < 2 ∧ (s.waitingAt (4 * dir + 2) ≠ [] ∨ s.waitingAt (4 * dir + 3) ≠ [])) then s
      else ({ u with fabric := { u.fabric with turn := sput 0 u.fabric.turn (4 * dir + vc) (((turn + j) % 14 + 1) % 14) } }).sendVia dir q) := by
  subst hturn
  change execParkRelease dir vc s = _
  unfold execParkRelease
  rw [State.serveNext_some hj hbefore h, apply_ite Host.Outcome.next]
  refine if_congr ?_ rfl rfl
  rw [Bool.or_eq_true, Bool.and_eq_true, decide_eq_true_eq, State.responseWaits_iff]

theorem State.takeWaiting_parked (s : State) (key : Nat) : s.takeWaiting key 13 = match sget [] s.fabric.parked key with
    | [] => none
    | x :: rest => some (x.2, { s with fabric := { s.fabric with parked := sput [] s.fabric.parked key rest } }) := by
  unfold State.takeWaiting
  refine (if_neg (by decide)).trans ((if_neg (by decide)).trans ?_)
  cases sget [] s.fabric.parked key <;> rfl

theorem State.takeWaiting_locals (s : State) (key : Nat) : s.takeWaiting key 12 = match sget [] s.fabric.locals key with
    | [] => none
    | q :: rest => some (q, { s with fabric := { s.fabric with locals := sput [] s.fabric.locals key rest } }) := by
  unfold State.takeWaiting
  refine (if_neg (by decide)).trans ((if_pos rfl).trans ?_)
  cases sget [] s.fabric.locals key <;> rfl

end Release

/-! ### Links (R440) -/

section Link
variable {n : Nat} {s : State}

@[simp] theorem State.vport_setVport (s : State) (n v i : Nat) : (s.setVport n v).vport i = if i = n then v else s.vport i := sget_sput ..

theorem exec_linkCrcError_ignored (h : s.vport n ≠ 1) : exec (.linkCrcError n) s = .next s := if_pos h

theorem exec_linkCrcError_replays (h : s.vport n = 1) {c : Nat} (hc : sget 0 s.fabric.crc n = c) (hlow : c < 8) : exec (.linkCrcError n) s =
    .next (({ s with fabric := { s.fabric with crc := sput 0 s.fabric.crc n (c + 1) } }.fabCount 0x104 1).emit (.replay n)) := by
  subst hc
  exact (if_neg (not_not.mpr h)).trans (if_pos hlow)

theorem exec_linkCrcError_retrains (h : s.vport n = 1) {c : Nat} (hc : sget 0 s.fabric.crc n = c) (hhigh : 8 ≤ c) :
    exec (.linkCrcError n) s = .next ((s.arrived n).retrain n) := by
  subst hc
  exact (if_neg (not_not.mpr h)).trans (if_neg (Nat.not_lt.mpr hhigh))

theorem exec_linkRetrainEnd_ignored (ok : Bool) (h : s.vport n ≠ 2) : exec (.linkRetrainEnd n ok) s = .next s := if_pos h

/-- The count of failed retrainings of a port. -/
def State.setRetrain (s : State) (n v : Nat) : State := { s with fabric := { s.fabric with retrain := sput 0 s.fabric.retrain n v } }

theorem exec_linkRetrainEnd_up (h : s.vport n = 2) : exec (.linkRetrainEnd n true) s = .next ((s.setRetrain n 0).setVport n 1) :=
  if_neg (not_not.mpr h)

theorem exec_linkRetrainEnd_again (h : s.vport n = 2) {c : Nat} (hc : sget 0 s.fabric.retrain n = c) (hlow : c < 2) :
    exec (.linkRetrainEnd n false) s = .next ((s.setRetrain n (c + 1)).retrain n) := by
  subst hc
  exact (if_neg (not_not.mpr h)).trans (if_pos hlow)

theorem exec_linkRetrainEnd_down (h : s.vport n = 2) {c : Nat} (hc : sget 0 s.fabric.retrain n = c) (hhigh : 2 ≤ c) :
    exec (.linkRetrainEnd n false) s = .next (((s.setRetrain n 0).setVport n 3).event 0x000D n (portDir n - 1) []) := by
  subst hc
  exact (if_neg (not_not.mpr h)).trans (if_neg (Nat.not_lt.mpr hhigh))

theorem State.vport_setVport_self (s : State) (n v : Nat) : (s.setVport n v).vport n = v := (s.vport_setVport n v n).trans (if_pos rfl)

theorem State.vport_retrain (s : State) (n : Nat) : (s.retrain n).vport n = 2 := s.vport_setVport_self n 2

theorem State.cnt_retrain (s : State) (n : Nat) : sget 0 (s.retrain n).fabric.cnt 0x108 = cntAdd (sget 0 s.fabric.cnt 0x108) 1 := sget_sput_self ..

/-- A retraining changes the fabric and the health monitor's count. -/
theorem State.retrain_rest {s t : State} {n : Nat} (h : s = { t with fabric := s.fabric }) :
    s.retrain n = { t with fabric := (s.retrain n).fabric, health := (s.retrain n).health } := by
  rw [State.retrain, h] <;> rfl

theorem State.retrain_setRetrain (s : State) (n v : Nat) : sget 0 ((s.setRetrain n v).retrain n).fabric.retrain n = v := sget_sput_self ..
theorem State.retrained_setVport (s : State) (n v w : Nat) : sget 0 ((s.setRetrain n v).setVport n w).fabric.retrain n = v := sget_sput_self ..
theorem State.crc_arrived_retrain (s : State) (n : Nat) : sget 0 ((s.arrived n).retrain n).fabric.crc n = 0 := sget_sput_self 0 s.fabric.crc n 0

end Link

/-- Settles O52. -/
theorem packetsAndLinks : Obligations.PacketsAndLinks := by
  unfold Obligations.PacketsAndLinks
  intro n dir vc p s
  refine ⟨exec_packetForward_bad n s, fun hgood busy => ⟨fun h0 hdst => exec_packetForward_here hgood busy (State.hopOf_here rfl h0 hdst), ?_,
      fun h0 h7 hdown hhops => exec_packetForward_leaves hgood rfl rfl h0 h7 hdown hhops busy⟩,
    ⟨s.mustWait_iff dir p, ⟨_, s.sendVia_out dir p, State.pathPort_fresh, fun x => State.pathPort_kept⟩,
      ⟨State.keepWaiting_low rfl, State.keepWaiting_high rfl⟩, fun x rest => ⟨rfl, State.parkAll_room rest, State.parkAll_full rest⟩⟩,
    ⟨exec_parkRelease_none, fun j q u => exec_parkRelease_some rfl, s.takeWaiting_parked _, s.takeWaiting_locals _⟩,
    ⟨exec_linkCrcError_ignored, fun h => exec_linkCrcError_replays h rfl, fun h hc =>
      ⟨_, exec_linkCrcError_retrains h rfl hc, State.vport_retrain .., State.crc_arrived_retrain .., State.cnt_retrain .., State.retrain_rest rfl⟩⟩,
    exec_linkRetrainEnd_ignored, fun h => ⟨_, exec_linkRetrainEnd_up h, State.vport_setVport_self .., s.retrained_setVport .., fun i hi => ?_, rfl⟩,
    fun h hc => ⟨_, exec_linkRetrainEnd_again h rfl hc, State.vport_retrain .., State.retrain_setRetrain .., State.retrain_rest rfl⟩,
    fun h hc => ⟨_, exec_linkRetrainEnd_down h rfl hc, State.vport_setVport_self .., rfl⟩⟩
  · rintro (⟨h0, hdst⟩ | h7 | ⟨h0, hdown⟩ | ⟨h0, hhops⟩)
    · exact exec_packetForward_refused hgood busy (State.hopOf_stray rfl h0 hdst)
    · exact exec_packetForward_refused hgood busy (State.hopOf_refused rfl (by omega) (.inl h7))
    · exact exec_packetForward_refused hgood busy (State.hopOf_refused rfl h0 (.inr hdown))
    · by_cases hrefused : sget 0 s.fabric.route p.dst % 8 = 7 ∨ s.dirDown (sget 0 s.fabric.route p.dst % 8) = true
      · exact exec_packetForward_refused hgood busy (State.hopOf_refused rfl h0 hrefused)
      · obtain ⟨h7, hdown⟩ := not_or.mp hrefused
        exact exec_packetForward_old hgood busy (State.hopOf_out rfl h0 h7 (Bool.eq_false_iff.mpr hdown)) hhops
  · exact (State.vport_setVport ..).trans (if_neg hi)

end Sys2Proof.Machine
end

section
/-! PROOFS. Placement, retired frames and spliced rows (R390 to R398, R425, R464, R512, R528). -/

-- One proof at a time: in parallel the many `unfold`s wait for each other, with a thread for each that waits.
set_option Elab.async false

namespace Sys2Proof.Machine
/-! ### WINNOW_EPOCH (R395, R425) -/

/-- Every partition that is not FREE at the epoch's boundary. -/
def State.epoch (s : State) : State := { s with parts := s.parts.map fun e => (e.1, if e.2.state = .free then e.2 else e.2.epoch) }

theorem State.part_epoch {s : State} {q : Nat} (h : (s.part q).state ≠ .free) : s.epoch.part q = (s.part q).epoch :=
  (sget_mapKeyed (f := fun _ (b : PartBlock) => if b.state = .free then b else b.epoch) s.parts q (if_pos rfl)).trans (if_neg h)

theorem Mem.inTier_eq (m : Mem) (t : Tier) : m.inTier t = (m.units.map fun u => if u.2.tier = t then (if u.2.sub = true then 1 else 32) else 0).sum := rfl

theorem Mem.inTier_epoch (m : Mem) (t : Tier) : ({ m with units := m.units.map fun e => (e.1, e.2.epoch) } : Mem).inTier t = m.inTier t := by
  rw [Mem.inTier, List.map_map] <;> rfl

theorem PartBlock.res_epoch (b : PartBlock) {e : Nat × Tier} (he : e ∈ [(0, Tier.H), (1, .L), (2, .F)]) : sget 0 b.epoch.res e.1 = b.mem.inTier e.2 := by
  have hres : b.epoch.res = sput 0 (sput 0 (sput 0 b.res 0 (b.mem.inTier .H)) 1 (b.mem.inTier .L)) 2 (b.mem.inTier .F) := by
    simp only [PartBlock.epoch, Mem.inTier_epoch]
  simp only [List.mem_cons, List.not_mem_nil, or_false] at he
  obtain rfl | rfl | rfl := he
  all_goals simp [hres, sget_sput]

/-! ### What bars a move (R397, R398, R528) -/

theorem State.moveBarred_pinned {s : State} {u : PUnit} {tier : Tier} (hpin : u.pinned = true) (h : tier = .F ∨ (u.tier = .H ∧ tier ≠ .H)) :
    s.moveBarred u tier = true := by
  have hbar : (u.pinned && (tier == .F || (u.tier == .H && tier != .H))) = true := by
    simpa [hpin] using h
  rw [State.moveBarred, hbar, Bool.true_or, Bool.true_or]

theorem State.placeTakes_retired {s : State} {tier : Tier} {frame : Nat} (htier : tier ≠ .F) (h : frameKey tier frame ∈ s.frames.retired) (u : PUnit)
    (die : Nat) : s.placeTakes u tier die frame = false := by
  have huse : s.frameUsable tier frame = false := by
    rw [State.frameUsable, List.contains_iff_mem.mpr h, Bool.not_true, Bool.and_false]
  rw [State.placeTakes, if_neg htier, State.frameTakes, huse, Bool.false_and, Bool.and_false]

theorem State.placeTakes_spill {s : State} {u : PUnit} {tier : Tier} {die frame : Nat} (htier : tier = .F) (h : s.inSpillWin die frame u.size = false) :
    s.placeTakes u tier die frame = false := by
  rw [State.placeTakes, if_pos htier, State.spillFree, h, Bool.false_and]

section ToTransfer
variable {u : PUnit} {tier : Tier} {frame : Nat}

theorem PUnit.toTransfer_idle (h : u.moving = .idle) :
    u.toTransfer tier frame = if u.tier = .F then some false else if tier = .F then some true else none := by
  unfold PUnit.toTransfer
  rw [h]

theorem PUnit.toTransfer_got (h : u.moving = .got) : u.toTransfer tier frame = if tier = .F then some true else none := by
  unfold PUnit.toTransfer
  rw [h]

theorem PUnit.toTransfer_sent {f : Nat} (h : u.moving = .sent f) : u.toTransfer tier frame = if tier = .F ∧ f ≠ frame then some true else none := by
  unfold PUnit.toTransfer
  rw [h]

end ToTransfer

/-! ### Transfers of the module's own (R464) -/

theorem State.freeTag_any_of_room {s : State} (hroom : s.fabric.trans.length < 8192) :
    ∃ tag, s.freeTag none = some tag ∧ ∀ e ∈ s.fabric.trans, e.1 ≠ tag := by
  have hnodup : (List.range 8193).Nodup := List.nodup_range
  have hlen : (List.range 8193).length = 8193 := List.length_range
  unfold State.freeTag
  rw [if_neg (by omega)]
  dsimp only
  rw [List.map_id']
  generalize List.range 8193 = l at hnodup hlen
  cases hfind : l.find? fun t => !s.fabric.trans.any (·.1 == t) with
  | some tag => exact ⟨tag, rfl, by simpa using List.find?_some hfind⟩
  | none =>
    have htaken : ∀ i ∈ l, i ∈ s.fabric.trans.map (·.1) := by
      intro i hi
      obtain ⟨e, he, hei⟩ : ∃ e ∈ s.fabric.trans, e.1 = i := by simpa using List.find?_eq_none.mp hfind i hi
      exact List.mem_map.mpr ⟨e, he, hei⟩
    have hle := (hnodup.subperm htaken).length_le
    rw [hlen, List.length_map] at hle
    omega

/-- The transaction of a transfer of the module's own. -/
def OwnJob.trans (w : OwnJob) (tag : Nat) : Trans :=
  { core := 0, id := 0, next := 0, live := [], failed := false, own := some { w with job := { w.job with tag := some tag } } }

theorem State.startOwn_begins {s : State} (w : OwnJob) (hwait : s.fabric.waiting = []) (hroom : s.fabric.trans.length < 8192) :
    ∃ tag, (∀ y ∈ s.fabric.trans, y.1 ≠ tag) ∧ s.startOwn w = s.addTrans tag (w.trans tag) := by
  obtain ⟨tag, htag, hfree⟩ := State.freeTag_any_of_room hroom
  refine ⟨tag, hfree, ?_⟩
  unfold State.startOwn
  rw [hwait, htag] <;> rfl

theorem State.startOwn_waits {s : State} (w : OwnJob) (h : s.fabric.waiting ≠ [] ∨ 8192 ≤ s.fabric.trans.length) :
    s.startOwn w = { s with fabric := { s.fabric with waiting := s.fabric.waiting ++ [w] } } := by
  unfold State.startOwn
  split
  · next tag hwait htag =>
    obtain h | h := h
    · exact absurd hwait h
    · rw [State.freeTag_of_full h] at htag; cases htag
  · rfl

/-! ### UNIT_MOVE_DONE (R390 to R393, R397, R398, R425, R464) -/

@[simp] theorem State.spillWin_setImport_self (s : State) (n : Nat) : (s.setImport n (s.spillWin n)).spillWin n = s.spillWin n := by
  have hget : sget {} (s.setImport n (s.spillWin n)).fabric.imports n = s.spillWin n := sget_sput_self ..
  rw [State.spillWin, hget]
  dsimp only
  split
  · next hsize =>
    unfold State.spillWin at hsize ⊢
    dsimp only at hsize ⊢
    split
    · rfl
    · next hne => rw [if_neg hne] at hsize; exact absurd hsize hne
  · rfl

/-- The transfer that is due of a move: the unit as it is read, or as it is written at its new place. -/
def State.moveJob (s : State) (va : Nat) (u : PUnit) (die frame : Nat) (put : Bool) : FabJob :=
  if put then s.unitJob va { u with die := die, frame := frame } 0 u.size true else s.unitJob va u 0 u.size false

/-- The window of a move into Tier F is among those that Winnow holds. -/
def State.imported (s : State) (die : Nat) (put : Bool) : State := if put then s.setImport die (s.spillWin die) else s

theorem State.moveJob_imported (s : State) (va : Nat) (u : PUnit) (die frame : Nat) (put : Bool) :
    (s.imported die put).moveJob va u die frame put = s.moveJob va u die frame put := by
  cases put with
  | false => rfl
  | true => simp only [State.moveJob, State.imported, State.unitJob, if_true, State.spillWin_setImport_self]

theorem State.imported_rest (s : State) (die : Nat) (put : Bool) :
    s.imported die put = { s with fabric := { s.fabric with imports := (s.imported die put).fabric.imports } } := by cases put <;> rfl

theorem PUnit.size_eq (u : PUnit) : u.size = if u.sub = true then 65536 else 2097152 := rfl

section MoveJob
variable (s : State) (va : Nat) (u : PUnit) (die frame : Nat) (put : Bool)

theorem State.moveJob_place : (s.moveJob va u die frame put).put = put ∧ (s.moveJob va u die frame put).tierF = true ∧
    (s.moveJob va u die frame put).laddr = va ∧ (s.moveJob va u die frame put).len = u.size := by
  cases put <;> exact ⟨rfl, rfl, rfl, rfl⟩

theorem State.moveJob_target : (s.moveJob va u die frame put).module = (if put = true then frame else u.frame) / 2 ^ 29 ∧
    (s.moveJob va u die frame put).goff = (if put = true then frame else u.frame) % 2 ^ 29 * 65536 ∧
    (s.moveJob va u die frame put).key = (s.spillWin (if put = true then die else u.die)).key := by
  cases put <;> exact ⟨rfl, Nat.add_zero _, rfl⟩

end MoveJob

/-- The unit at its new place. -/
def PUnit.placed (u : PUnit) (tier : Tier) (die frame : Nat) : PUnit :=
  { u with tier := tier, die := die, frame := frame, cold := u.cold && tier == u.tier, moving := .idle }

/-- The moves of a partition's units between tiers, counted (R425). -/
def PartBlock.countMove (b : PartBlock) (u : PUnit) (tier : Tier) : PartBlock :=
  let b := if tier = .H ∧ u.tier ≠ .H then b.count 0x101C 1 else b
  let b := if u.tier = .H ∧ tier ≠ .H then b.count 0x1020 1 else b
  let b := if tier = .F ∧ u.tier ≠ .F then b.count 0x1024 1 else b
  if u.tier = .F ∧ tier ≠ .F then b.count 0x1028 1 else b

theorem PartBlock.countMove_rest (b : PartBlock) (u : PUnit) (tier : Tier) : b.countMove u tier = { b with cnt := (b.countMove u tier).cnt } := by
  unfold PartBlock.countMove
  dsimp only
  generalize h1 : (if tier = .H ∧ u.tier ≠ .H then b.count 0x101C 1 else b) = b1
  generalize h2 : (if u.tier = .H ∧ tier ≠ .H then b1.count 0x1020 1 else b1) = b2
  generalize h3 : (if tier = .F ∧ u.tier ≠ .F then b2.count 0x1024 1 else b2) = b3
  have hcount : ∀ (x y : PartBlock) (c : Prop) [Decidable c] (off : Nat), (if c then x.count off 1 else x) = y → y = { x with cnt := y.cnt } := by
    intro x y c _ off h
    subst h
    split <;> rfl
  rw [hcount b3 _ _ _ rfl, hcount b2 b3 _ _ h3, hcount b1 b2 _ _ h2, hcount b b1 _ _ h1]

theorem PartBlock.countMove_up {b : PartBlock} {u : PUnit} {tier : Tier} (hu : u.tier = .L) (ht : tier = .H) : b.countMove u tier = b.count 0x101C 1 := by
  subst ht
  simp [PartBlock.countMove, hu]

/-- The unit lies at its new place. -/
def State.moved (s : State) (p va : Nat) (u : PUnit) (tier : Tier) (die frame : Nat) : State :=
  (s.imported die (decide (tier = .F))).setPart p
    { (s.part p).countMove u tier with mem := ((s.part p).countMove u tier).mem.setUnit va (u.placed tier die frame) }

theorem State.part_moved (s : State) (p va : Nat) (u : PUnit) (tier : Tier) (die frame : Nat) : (s.moved p va u tier die frame).part p =
    { s.part p with mem := (s.part p).mem.setUnit va (u.placed tier die frame), cnt := ((s.part p).countMove u tier).cnt } := by
  rw [State.moved, State.part_setPart_self, (s.part p).countMove_rest u tier]

theorem State.part_moved_ne (s : State) {p q : Nat} (h : q ≠ p) (va : Nat) (u : PUnit) (tier : Tier) (die frame : Nat) :
    (s.moved p va u tier die frame).part q = s.part q := by
  rw [State.moved, State.part_setPart, if_neg h, State.imported_rest] <;> rfl

theorem State.moved_rest (s : State) (p va : Nat) (u : PUnit) (tier : Tier) (die frame : Nat) : s.moved p va u tier die frame = { s with
    parts := (s.moved p va u tier die frame).parts
    fabric := { s.fabric with imports := (s.moved p va u tier die frame).fabric.imports } } := by
  rw [State.moved, State.imported_rest] <;> rfl

theorem State.moved_fabric (s : State) (p va : Nat) (u : PUnit) {tier : Tier} (h : tier ≠ .F) (die frame : Nat) :
    (s.moved p va u tier die frame).fabric = s.fabric := by
  rw [State.moved, decide_eq_false h] <;> rfl

/-- The unit that stood at an address stands there replaced. -/
theorem Mem.find?_setUnit {m : Mem} {va : Nat} {u : PUnit} (h : m.units.find? (·.1 == va) = some (va, u)) (v : PUnit) :
    (m.setUnit va v).units.find? (·.1 == va) = some (va, v) := by
  have hmap : ∀ l : List (Nat × PUnit), l.find? (·.1 == va) = some (va, u) →
      (l.map fun e => if e.1 = va then (va, v) else e).find? (·.1 == va) = some (va, v) := by
    intro l hl
    induction l with
    | nil => cases hl
    | cons e l ih =>
      by_cases he : e.1 = va
      · simp [he]
      · rw [List.find?_cons, beq_false_of_ne he] at hl
        rw [List.map_cons, if_neg he, List.find?_cons, beq_false_of_ne he]
        exact ih hl
  exact hmap m.units h

/-- A transfer of the move has begun. -/
theorem State.beginMove_eq (s : State) (p va : Nat) (u : PUnit) (die frame : Nat) (put : Bool) : s.beginMove p va u die frame put =
    ((s.imported die put).setMem p (((s.imported die put).mem p).setUnit va { u with moving := .busy })).startOwn
      { job := s.moveJob va u die frame put, part := p, base := va, move := true } := by
  rw [← s.moveJob_imported va u die frame put] <;> rfl

section Move
variable {s : State} {p va die frame : Nat} {tier : Tier}

theorem exec_unitMoveDone_none (h : ∀ u ∈ (s.part p).mem.units, u.1 ≠ va) : exec (.unitMoveDone p va tier die frame) s = .next s := by
  have hfind : (s.part p).mem.units.find? (·.1 == va) = none := List.find?_eq_none.mpr fun u hu => by simpa using h u hu
  change execUnitMoveDone p va tier die frame s = _
  unfold execUnitMoveDone
  dsimp only
  rw [hfind]

variable {u : PUnit} (hu : (s.part p).mem.units.find? (·.1 == va) = some (va, u))
include hu

theorem exec_unitMoveDone_stays (h : u.lost = true ∨ s.moveBarred u tier = true ∨ s.placeTakes u tier die frame = false ∨ u.moving = .busy) :
    exec (.unitMoveDone p va tier die frame) s = .next s := by
  change execUnitMoveDone p va tier die frame s = _
  unfold execUnitMoveDone
  dsimp only
  rw [hu]
  refine if_pos ?_
  rw [Bool.or_eq_true, Bool.or_eq_true, Bool.or_eq_true, Bool.not_eq_true', beq_iff_eq, or_assoc, or_assoc]
  exact h

variable (hlost : u.lost = false) (hbar : s.moveBarred u tier = false) (htakes : s.placeTakes u tier die frame = true) (hbusy : u.moving ≠ .busy)
include hlost hbar htakes hbusy

omit hu in
theorem move_free : ¬(u.lost || s.moveBarred u tier || !s.placeTakes u tier die frame || u.moving == .busy) = true := by
  rw [hlost, hbar, htakes, beq_false_of_ne hbusy]
  nofun

theorem exec_unitMoveDone_transfers {put : Bool} (h : u.toTransfer tier frame = some put) :
    exec (.unitMoveDone p va tier die frame) s = .next (s.beginMove p va u die frame put) := by
  change execUnitMoveDone p va tier die frame s = _
  unfold execUnitMoveDone
  dsimp only
  rw [hu]
  refine (if_neg (move_free hlost hbar htakes hbusy)).trans ?_
  rw [h]

theorem exec_unitMoveDone_moves (h : u.toTransfer tier frame = none) :
    exec (.unitMoveDone p va tier die frame) s = .next (s.moved p va u tier die frame) := by
  have himport : (if tier = .F then s.setImport die (s.spillWin die) else s) = s.imported die (decide (tier = .F)) := by
    cases tier <;> rfl
  unfold State.moved
  rw [← himport]
  change (match (s.part p).mem.units.find? (·.1 == va) with | none => _ | some (_, _) => _) = _
  rw [hu]
  refine (if_neg (move_free hlost hbar htakes hbusy)).trans ?_
  rw [h] <;> rfl

end Move

/-- The state in which the transfer of a move begins: its unit is busy. -/
def State.moving (s : State) (p va : Nat) (u : PUnit) (die : Nat) (put : Bool) : State :=
  (s.imported die put).setMem p ((s.mem p).setUnit va { u with moving := .busy })

theorem State.part_moving (s : State) (p va : Nat) (u : PUnit) (die : Nat) (put : Bool) (q : Nat) : (s.moving p va u die put).part q =
    { s.part q with mem := if q = p then (s.mem p).setUnit va { u with moving := .busy } else (s.part q).mem } := by
  rw [State.moving, State.part_setMem, State.imported_rest] <;> rfl

theorem State.moving_rest (s : State) (p va : Nat) (u : PUnit) (die : Nat) (put : Bool) : ∃ parts imports,
    s.moving p va u die put = { s with parts := parts, fabric := { s.fabric with imports := imports } } ∧ (put = false → imports = s.fabric.imports) := by
  cases put with
  | false => exact ⟨_, _, rfl, fun _ => rfl⟩
  | true => exact ⟨_, _, rfl, nofun⟩

theorem State.beginMove_starts (s : State) (p va : Nat) (u : PUnit) (die frame : Nat) (put : Bool) : s.beginMove p va u die frame put =
    (s.moving p va u die put).startOwn { job := s.moveJob va u die frame put, part := p, base := va, move := true } := by
  rw [State.beginMove_eq, State.moving]
  congr 2
  rw [State.imported_rest] <;> rfl

/-- What the begin of a move's transfer changes. -/
theorem State.beginMove_frame {s t : State} {p va : Nat} {u : PUnit} {die frame : Nat} {put : Bool} (ht : s.beginMove p va u die frame put = t) :
    (∀ q, q ≠ p → t.part q = s.part q) ∧ t.part p = { s.part p with mem := (s.part p).mem.setUnit va { u with moving := .busy } } ∧
    t = { s with parts := t.parts, fabric := { s.fabric with imports := t.fabric.imports, trans := t.fabric.trans, waiting := t.fabric.waiting } } ∧
    (put = false → t.fabric.imports = s.fabric.imports) := by
  rw [State.beginMove_starts] at ht
  obtain ⟨parts, imports, hrest, himports⟩ := s.moving_rest p va u die put
  have hparts := (State.startOwn_keeps (s.moving p va u die put) { job := s.moveJob va u die frame put, part := p, base := va, move := true }).2
  have hoff := State.of_offOwn ((s.moving p va u die put).startOwn_offOwn { job := s.moveJob va u die frame put, part := p, base := va, move := true })
  rw [ht] at hparts hoff
  have hpart : ∀ q, t.part q = (s.moving p va u die put).part q := fun q => by rw [State.part, State.part, hparts]
  refine ⟨fun q hq => ?_, ?_, ?_, fun hput => ?_⟩
  · rw [hpart, State.part_moving, if_neg hq]
  · rw [hpart, State.part_moving, if_pos rfl] <;> rfl
  · rw [hrest] at hoff
    have himp : t.fabric.imports = imports := by rw [hoff]
    rw [himp]
    exact hoff
  · rw [hoff, hrest, himports hput]

/-- The transaction of the move's transfer begins, or the transfer waits behind those that wait. -/
theorem State.beginMove_trans {s t : State} {p va : Nat} {u : PUnit} {die frame : Nat} {put : Bool} (ht : s.beginMove p va u die frame put = t) {w : OwnJob}
    (hw : { job := s.moveJob va u die frame put, part := p, base := va, move := true } = w) :
    (s.fabric.waiting = [] → s.fabric.trans.length < 8192 → ∃ tag, (∀ y ∈ s.fabric.trans, y.1 ≠ tag) ∧ t.fabric.waiting = [] ∧
      t.fabric.trans = s.fabric.trans ++ [(tag, { core := 0, id := 0, next := 0, live := [], failed := false
                                                  own := some { w with job := { w.job with tag := some tag } } })]) ∧
    ((s.fabric.waiting ≠ [] ∨ 8192 ≤ s.fabric.trans.length) → t.fabric.trans = s.fabric.trans ∧ t.fabric.waiting = s.fabric.waiting ++ [w]) := by
  rw [State.beginMove_starts, hw] at ht
  obtain ⟨parts, imports, hrest, -⟩ := s.moving_rest p va u die put
  rw [hrest] at ht
  refine ⟨fun hwait hroom => ?_, fun h => ?_⟩
  · obtain ⟨tag, hfree, hstart⟩ := State.startOwn_begins (s := { s with parts := parts, fabric := { s.fabric with imports := imports } }) w hwait hroom
    rw [← ht, hstart]
    exact ⟨tag, hfree, hwait, rfl⟩
  · rw [← ht, State.startOwn_waits (s := { s with parts := parts, fabric := { s.fabric with imports := imports } }) w h]
    exact ⟨rfl, rfl⟩

/-! ### PAGE_RETIRE (R512, R528) -/

/-- A frame out of use, its units in another. -/
def State.retired (s : State) (tier : Tier) (frame fresh : Nat) : State :=
  { s with
    parts := s.parts.map fun (e : Nat × PartBlock) => (e.1, { e.2 with mem := e.2.mem.moveFrame tier frame fresh })
    frames := { s.frames with retired := s.frames.retired ++ [frameKey tier frame] }
    flash := { s.flash with repair := { s.flash.repair with frames := s.flash.repair.frames ++ [frameKey tier frame] } } }

section Retire
variable {s : State} {tier : Tier} {frame fresh : Nat}

theorem State.mem_retired (s : State) (tier : Tier) (frame fresh q : Nat) : (s.retired tier frame fresh).mem q = (s.mem q).moveFrame tier frame fresh :=
  congrArg PartBlock.mem (sget_mapKeyed (f := fun _ (b : PartBlock) => { b with mem := b.mem.moveFrame tier frame fresh }) s.parts q rfl)

theorem State.canVacate_iff : s.canVacate tier frame fresh = true ↔ s.unitsIn tier frame = [] ∨ (fresh ≠ frame ∧ s.frameTakes tier false fresh = true) := by
  rw [State.canVacate, Bool.or_eq_true, List.isEmpty_iff, Bool.and_eq_true, bne_iff_ne]

/-- Of a frame that holds no unit, no partition has one. -/
theorem State.not_in_frame {q : Nat} (h : s.unitsIn tier frame = []) {e : Nat × PUnit} (he : e ∈ (s.mem q).units) : ¬(e.2.tier = tier ∧ e.2.frame = frame) := by
  have hparts : ∀ (l : List (Nat × PartBlock)), (l.flatMap fun e => (e.2.mem.units.filter fun x => x.2.tier == tier && x.2.frame == frame).map (·.2)) = [] →
      e ∈ (sget {} l q).mem.units → ¬(e.2.tier = tier ∧ e.2.frame = frame) := by
    intro l hl he ⟨htier, hframe⟩
    induction l with
    | nil => cases he
    | cons b l ih =>
      rw [List.flatMap_cons, List.append_eq_nil_iff, List.map_eq_nil_iff, List.filter_eq_nil_iff] at hl
      obtain ⟨hb, hl⟩ := hl
      rw [sget] at he
      split at he
      · exact hb e he (by simp [htier, hframe])
      · exact ih hl he
  exact hparts s.parts h he

theorem State.retired_vacates (h : s.unitsIn tier frame = [] ∨ (fresh ≠ frame ∧ s.frameTakes tier false fresh = true)) (q : Nat) :
    ∀ e ∈ ((s.retired tier frame fresh).mem q).units, e.2.tier = tier → e.2.frame ≠ frame := by
  rw [State.mem_retired]
  intro e he htier
  obtain ⟨y, hy, rfl⟩ := List.mem_map.mp he
  by_cases hin : y.2.tier = tier ∧ y.2.frame = frame
  · rw [if_pos hin]
    exact h.elim (fun hnone => absurd hin (State.not_in_frame hnone hy)) fun h => h.1
  · rw [if_neg hin] at htier ⊢
    exact fun hframe => hin ⟨htier, hframe⟩

theorem pageRetire_due : (decide (s.health.retireAt ≤ sget 0 s.frames.ce (frameKey tier frame)) || s.framePoisoned tier frame) = false ↔
    ¬(s.health.retireAt ≤ sget 0 s.frames.ce (frameKey tier frame) ∨ s.framePoisoned tier frame = true) := by
  rw [← Bool.not_eq_true, Bool.or_eq_true, decide_eq_true_eq]

theorem exec_pageRetire_stays (h : tier = .F ∨ ¬(s.health.retireAt ≤ sget 0 s.frames.ce (frameKey tier frame) ∨ s.framePoisoned tier frame = true) ∨
    frameKey tier frame ∈ s.frames.retired ∨ ¬(s.unitsIn tier frame = [] ∨ (fresh ≠ frame ∧ s.frameTakes tier false fresh = true))) :
    exec (.pageRetire tier frame fresh) s = .next s := by
  refine if_pos ?_
  rw [pageRetire_due, List.contains_iff_mem, ← State.canVacate_iff, Bool.not_eq_true] at *
  exact h

theorem exec_pageRetire_retires (htier : tier ≠ .F)
    (hdue : s.health.retireAt ≤ sget 0 s.frames.ce (frameKey tier frame) ∨ s.framePoisoned tier frame = true)
    (hnew : frameKey tier frame ∉ s.frames.retired) (hvacates : s.unitsIn tier frame = [] ∨ (fresh ≠ frame ∧ s.frameTakes tier false fresh = true)) :
    exec (.pageRetire tier frame fresh) s = .next (((s.retired tier frame fresh).healthCount 0x210 1).event 0x000B
      ((if tier = .L then 2 ^ 31 else 0) + bits frame 0 31) (boolNat (s.framePoisoned tier frame)) []) := by
  refine if_neg ?_
  rw [pageRetire_due, List.contains_iff_mem]
  exact not_or.mpr ⟨htier, not_or.mpr ⟨not_not.mpr hdue, not_or.mpr ⟨hnew, by rw [State.canVacate_iff.mpr hvacates]; nofun⟩⟩⟩

end Retire

/-! ### SPLICE_APPLY (R105, R511, R512) -/

/-- A physical row out of use, and recorded so. -/
def State.spliced (s : State) (k array row : Nat) : State :=
  let t := s.setCore k ((s.core k).splice array row)
  { t with flash := { t.flash with repair := { t.flash.repair with
      rows := t.flash.repair.rows ++ [(k / 128 * 256 + s.position k, array, row)] } } }

section Splice
variable {s : State} {k array row : Nat}

theorem exec_spliceApply_stays (h : (s.core k).failed = true ∨ (∃ o ∈ (s.core k).ops, o.onArrays = true) ∨ (array, row) ∉ (s.core k).sheaf.failing ∨
    row ∈ sget [] (s.core k).sheaf.splices array ∨ 2 ≤ (sget [] (s.core k).sheaf.splices array).length ∨ 34 ≤ row) :
    exec (.spliceApply k array row) s = .next s := by
  refine if_pos ?_
  simp only [Bool.or_eq_true, Bool.not_eq_true', List.any_eq_true, decide_eq_true_eq, List.contains_iff_mem, ← Bool.not_eq_true, or_assoc]
  exact h

theorem exec_spliceApply_splices (hcore : (s.core k).failed = false) (hops : ∀ o ∈ (s.core k).ops, o.onArrays = false)
    (hfailing : (array, row) ∈ (s.core k).sheaf.failing) (hnew : row ∉ sget [] (s.core k).sheaf.splices array)
    (hroom : (sget [] (s.core k).sheaf.splices array).length < 2) (hrow : row < 34) : exec (.spliceApply k array row) s =
      .next (((s.spliced k array row).healthCount 0x200 1).event 0x0003 (coordOf k) (array * 2 ^ 8 + row) []) := by
  refine if_neg ?_
  simp only [Bool.or_eq_true, Bool.not_eq_true', List.any_eq_true, decide_eq_true_eq, List.contains_iff_mem, ← Bool.not_eq_true, or_assoc]
  rintro (h | ⟨o, ho, h⟩ | h | h | h | h)
  · rw [hcore] at h; cases h
  · rw [hops o ho] at h; cases h
  · exact h hfailing
  · exact hnew h
  · omega
  · omega

theorem State.core_spliced (s : State) (k array row : Nat) : (s.spliced k array row).core k = (s.core k).splice array row := State.core_setCore_self ..

theorem Core.mem_splice (x : Core) (array row r : Nat) :
    r ∈ sget [] (x.splice array row).sheaf.splices array ↔ r = row ∨ r ∈ sget [] x.sheaf.splices array := by
  have hrows : sget [] (x.splice array row).sheaf.splices array =
      (sget [] x.sheaf.splices array).filter (· < row) ++ row :: (sget [] x.sheaf.splices array).filter (row < ·) := sget_sput_self ..
  rw [hrows]
  simp only [List.mem_append, List.mem_filter, List.mem_cons, decide_eq_true_eq]
  constructor
  · rintro (⟨h, -⟩ | h | ⟨h, -⟩)
    · exact .inr h
    · exact .inl h
    · exact .inr h
  · rintro (h | h)
    · exact .inr (.inl h)
    · obtain hlt | heq | hgt := Nat.lt_trichotomy r row
      · exact .inl ⟨h, hlt⟩
      · exact .inr (.inl heq)
      · exact .inr (.inr ⟨h, hgt⟩)

end Splice

/-- Settles O54. -/
theorem placementAndRepairsAreRecorded : Obligations.PlacementAndRepairsAreRecorded := by
  unfold Obligations.PlacementAndRepairsAreRecorded
  intro p va die frame fresh k array row tier s b
  refine ⟨⟨s.epoch, rfl, rfl, fun q hq => ?_⟩, exec_unitMoveDone_none, fun u hu => ⟨exec_unitMoveDone_stays hu, State.moveBarred_pinned,
      fun ht h => State.placeTakes_retired ht h u die, State.placeTakes_spill,
      ⟨PUnit.toTransfer_idle, PUnit.toTransfer_got, fun f => PUnit.toTransfer_sent⟩,
      fun put hlost hbar htakes hbusy hdue => ?_, fun hlost hbar htakes hbusy hdone => ?_⟩,
    ⟨exec_pageRetire_stays, fun htier hdue hnew hvacates => ?_⟩, ⟨exec_spliceApply_stays, fun hcore hops hfailing hnew hroom hrow => ?_⟩⟩
  case refine_1 =>
    have hpart := State.part_epoch hq
    rw [State.mem, hpart]
    refine ⟨rfl, rfl, rfl, fun e he => ?_⟩
    exact (PartBlock.res_epoch _ he).trans (Mem.inTier_eq ..)
  case refine_2 =>
    obtain ⟨hothers, hpart, hrest, himports⟩ := State.beginMove_frame (s := s) (p := p) (va := va) (u := u) (die := die) (frame := frame) (put := put) rfl
    obtain ⟨hput, htierF, hladdr, hlen⟩ := s.moveJob_place va u die frame put
    exact ⟨_, _, exec_unitMoveDone_transfers hu hlost hbar htakes hbusy hdue, hothers, hpart, hrest, himports, rfl, rfl, rfl, hput, htierF, hladdr, hlen,
      s.moveJob_target va u die frame put, State.beginMove_trans rfl rfl⟩
  case refine_3 =>
    have hpart := s.part_moved p va u tier die frame
    refine ⟨_, exec_unitMoveDone_moves hu hlost hbar htakes hbusy hdone, fun q hq => s.part_moved_ne hq .., s.moved_rest .., fun ht => s.moved_fabric p va u ht ..,
      ?_, ?_, ?_, ?_, fun hl hh => ?_⟩
    · rw [hpart]
    · rw [State.mem, hpart] <;> rfl
    · rw [State.mem, hpart] <;> rfl
    · rw [State.mem, hpart]
      exact Mem.find?_setUnit hu _
    · rw [hpart, PartBlock.countMove_up hl hh]
      exact sget_sput_self ..
  case refine_4 =>
    refine ⟨s.retired tier frame fresh, ?_, rfl, rfl, rfl, fun q => ?_, State.retired_vacates hvacates⟩
    · rw [exec_pageRetire_retires htier hdue hnew hvacates, bits, Nat.pow_zero, Nat.div_one] <;> rfl
    · rw [State.mem_retired] <;> rfl
  case refine_5 =>
    refine ⟨s.spliced k array row, exec_spliceApply_splices hcore hops hfailing hnew hroom hrow, rfl, ?_, fun r => ?_, fun j hj => ?_, rfl⟩
    · rw [State.core_spliced] <;> rfl
    · rw [State.core_spliced]
      exact Core.mem_splice ..
    · exact (State.core_setCore ..).trans (if_neg hj)

end Sys2Proof.Machine
end

section
/-! PROOFS. Failed cores, spares and repairs (R513 to R524, R531). -/

-- One proof at a time: in parallel the many `unfold`s wait for each other, with a thread for each that waits.
set_option Elab.async false

namespace Sys2Proof.Machine
/-! ### What ends of items leave of the cores (R294, R358, R499) -/

/-- The numbers of a core's instructions in flight, and its scratchpad. -/
def State.flights (s : State) (j : Nat) : List Nat × Sparse Byte := ((s.core j).ops.map (·.id), (s.core j).scratch)

theorem State.flights_of_cores {s t : State} (h : t.cores = s.cores) (j : Nat) : t.flights j = s.flights j := by
  simp only [State.flights, State.core, h]

theorem State.flights_mapCores {f : Core → Core} (hempty : f {} = {}) (hf : ∀ x : Core, ((f x).ops.map (·.id), (f x).scratch) = (x.ops.map (·.id), x.scratch))
    {s t : State} (h : t.cores = s.cores.map fun e => (e.1, f e.2)) (j : Nat) : t.flights j = s.flights j := by
  have hcore : t.core j = f (s.core j) := by
    rw [State.core, h]
    exact sget_mapKeyed (f := fun _ x => f x) s.cores j hempty
  rw [State.flights, hcore]
  exact hf _

theorem State.flights_postPart (s : State) (p : Nat) (r : HeldRec) (j : Nat) : (s.postPart p r).flights j = s.flights j :=
  State.flights_of_cores (congrArg State.cores (State.postPart_offPart s p r) :) j

theorem Core.ids_unbind (x : Core) (r i : Nat) : (x.unbind r i).ops.map (·.id) = x.ops.map (·.id) := by
  rw [Core.unbind, List.map_map]
  refine List.map_congr_left fun o _ => ?_
  rw [Function.comp]
  split <;> rfl

theorem State.flights_unbind (s : State) (p r i j : Nat) : (s.unbind p r i).flights j = s.flights j :=
  State.flights_mapCores (f := fun x => x.unbind r i) rfl (fun x => congrArg (·, x.scratch) (x.ids_unbind r i)) rfl j

theorem State.flights_markFailed (s : State) (r i j : Nat) : (s.markFailed r i).flights j = s.flights j :=
  State.flights_mapCores (f := fun x => x.markFailed r i) rfl (fun _ => rfl) rfl j

theorem State.flights_endItem (s : State) (r i : Nat) (st : RecStatus) (f : FaultCode) (j : Nat) : (s.endItem r i st f).flights j = s.flights j := by
  have hpost : ∀ (t : State) p rec, (t.postPart p rec).flights j = t.flights j := fun t p rec => State.flights_postPart t p rec j
  have hover : ∀ (t : State) r q, (t.requestOver r q).flights j = t.flights j := fun t r q =>
    State.flights_of_cores (congrArg State.cores (State.requestOver_frame t r q) :) j
  have hunbind : ∀ (t : State) p, (t.unbind p r i).flights j = t.flights j := fun t p => State.flights_unbind t p r i j
  have hmark : ∀ t : State, (t.markFailed r i).flights j = t.flights j := fun t => State.flights_markFailed t r i j
  unfold State.endItem
  split
  · rfl
  · dsimp only
    refine ite_keeps (π := fun t => State.flights t j) rfl ((hpost ..).trans ?_)
    refine (ite_keeps (π := fun t => State.flights t j) (hover ..) rfl).trans ((hunbind ..).trans ?_)
    exact iteProp_keeps (π := fun t => State.flights t j) (hmark _) rfl

theorem State.flights_event (s : State) (code d d2 : Nat) (ps : List Nat) (j : Nat) : (s.event code d d2 ps).flights j = s.flights j :=
  State.flights_of_cores (congrArg State.cores (State.event_offEvent s code d d2 ps) :) j

/-! ### Steps 1 to 4 of a core failure (R514) -/

theorem State.core_abandon (s : State) (k j : Nat) : (s.abandon k).core j = if j = k then
    { s.core k with ops := [], scat := { (s.core k).scat with queues := [], stalled := [] }
                    ctxs := (s.core k).ctxs.map fun (e : Nat × Ctx) => (e.1, { e.2 with wait := none }) } else s.core j := by
  unfold State.abandon
  exact State.core_setCore ..

/-- The state of a failed core's items ended and of its event, before the core is retired. -/
def State.failedItems (s : State) (k cause : Nat) : State :=
  let t := (s.core k).boundItems.foldl (fun s i => s.endItem i.1 i.2 .failed fltCoreFail) (s.abandon k)
  t.event 0x0002 (coordOf k) cause (t.partOf k).toList

theorem State.coreFails_eq (s : State) (k cause : Nat) : s.coreFails k cause =
    ((s.failedItems k cause).retirePosition (k / 128) ((s.failedItems k cause).position k)).setCore k { (s.failedItems k cause).core k with failed := true } := rfl

theorem State.flights_failedItems (s : State) (k cause j : Nat) : (s.failedItems k cause).flights j = (s.abandon k).flights j := by
  unfold State.failedItems
  dsimp only
  exact (State.flights_event ..).trans (foldl_keeps _ (fun t => State.flights t j) (fun _ _ => State.flights_endItem ..) _ _)

/-- What a record, an event and an end of an item all keep: everything but what they may change. -/
def State.offEnds (s : State) : State := { s.offItem with events := [], health := {} }

theorem State.failedItems_offEnds (s : State) (k cause : Nat) : (s.failedItems k cause).offEnds = (s.abandon k).offEnds := by
  have hitem : ∀ (t : State) r i st f, (t.endItem r i st f).offEnds = t.offEnds := fun t r i st f =>
    congrArg (fun t : State => ({ t with events := [], health := {} } : State)) (State.endItem_offItem t r i st f)
  unfold State.failedItems
  dsimp only
  refine Eq.trans ?_ (foldl_keeps (fun (s : State) (i : Nat × Nat) => s.endItem i.1 i.2 .failed fltCoreFail) State.offEnds (fun _ _ => hitem ..)
    (s.core k).boundItems (s.abandon k))
  exact congrArg (fun t : State => ({ t with queues := [], sess := [], cores := [] } : State)) (State.event_offEvent ..)

section CoreFails
variable (s : State) (k cause : Nat)

theorem State.core_coreFails : (s.coreFails k cause).core k = { (s.failedItems k cause).core k with failed := true } := State.core_setCore_self ..

theorem State.core_coreFails_ne {j : Nat} (h : j ≠ k) : (s.coreFails k cause).core j = (s.failedItems k cause).core j := (State.core_setCore ..).trans (if_neg h)

theorem State.ops_coreFails : ((s.coreFails k cause).core k).ops = [] := by
  have hflights := congrArg Prod.fst (s.flights_failedItems k cause k)
  rw [State.flights, State.flights, State.core_abandon, if_pos rfl] at hflights
  rw [State.core_coreFails]
  exact List.map_eq_nil_iff.mp hflights

theorem State.scratch_coreFails : ((s.coreFails k cause).core k).scratch = (s.core k).scratch := by
  have hflights := congrArg Prod.snd (s.flights_failedItems k cause k)
  rw [State.flights, State.flights, State.core_abandon, if_pos rfl] at hflights
  rw [State.core_coreFails]
  exact hflights

theorem State.ids_coreFails {j : Nat} (h : j ≠ k) : ((s.coreFails k cause).core j).ops.map (·.id) = (s.core j).ops.map (·.id) := by
  have hflights := congrArg Prod.fst (s.flights_failedItems k cause j)
  rw [State.flights, State.flights, State.core_abandon, if_neg h] at hflights
  rw [State.core_coreFails_ne s k cause h]
  exact hflights

theorem State.retired_coreFails : (s.coreFails k cause).flash.repair.cores = s.flash.repair.cores ++ [k / 128 * 256 + s.position k] := by
  have hflash : (s.failedItems k cause).flash = s.flash := (congrArg State.flash (s.failedItems_offEnds k cause) :)
  have halias : (s.failedItems k cause).aliasMap = s.aliasMap := (congrArg State.aliasMap (s.failedItems_offEnds k cause) :)
  have hpos : (s.failedItems k cause).position k = s.position k := by rw [State.position, halias] <;> rfl
  rw [State.coreFails_eq]
  change (s.failedItems k cause).flash.repair.cores ++ [k / 128 * 256 + (s.failedItems k cause).position k] = _
  rw [hflash, hpos]

theorem State.waiters_coreFails {i : Nat} {w : Waiter} (h : w ∈ sget [] (s.coreFails k cause).waiters i) : w.core ≠ k := by
  have hwaiters : (s.coreFails k cause).waiters = ((s.waiters.map fun (e : Nat × List Waiter) => (e.1, e.2.filter (·.core != k))).filter fun e => !e.2.isEmpty) :=
    (congrArg State.waiters (s.failedItems_offEnds k cause) :)
  rw [hwaiters] at h
  obtain ⟨e, he, hw⟩ : ∃ e ∈ (s.waiters.map fun (e : Nat × List Waiter) => (e.1, e.2.filter (·.core != k))).filter fun e => !e.2.isEmpty, w ∈ e.2 := by
    generalize (s.waiters.map _).filter _ = l at h
    induction l with
    | nil => cases h
    | cons e l ih =>
      rw [sget] at h
      split at h
      · exact ⟨e, List.mem_cons_self, h⟩
      · obtain ⟨y, hy, hw⟩ := ih h
        exact ⟨y, List.mem_cons_of_mem _ hy, hw⟩
  obtain ⟨y, -, rfl⟩ := List.mem_map.mp (List.mem_of_mem_filter he)
  simpa using (List.mem_filter.mp hw).2

end CoreFails

section CoreFail
variable {s : State} {k : Nat} {cause : BitVec 3}

theorem exec_coreFail_ignored (h : s.causeHolds k cause.toNat = false ∨ (s.core k).failed = true) : exec (.coreFail k cause) s = .next s := by
  refine if_pos ?_
  rw [Bool.or_eq_true, Bool.not_eq_true']
  exact h.symm

variable (hcause : s.causeHolds k cause.toNat = true) (hlive : (s.core k).failed = false)
include hcause hlive

omit hcause hlive in
theorem coreFail_holds (hcause : s.causeHolds k cause.toNat = true) (hlive : (s.core k).failed = false) :
    ¬((s.core k).failed || !s.causeHolds k cause.toNat) = true := by
  rw [hlive, hcause]
  nofun

theorem exec_coreFail_unheld (h : s.partOf k = none) : exec (.coreFail k cause) s = .next (s.coreFails k cause.toNat) := by
  refine (if_neg (coreFail_holds hcause hlive)).trans ?_
  rw [h]

theorem exec_coreFail_held {p : Nat} (h : s.partOf k = some p) :
    exec (.coreFail k cause) s = .next ((s.coreFails k cause.toNat).failurePath p k (cause.toNat == 1 || cause.toNat == 5)) := by
  refine (if_neg (coreFail_holds hcause hlive)).trans ?_
  rw [h]

end CoreFail

/-! ### The path of a partition (R519 to R524) -/

section Path
variable {s : State} {p k : Nat} {readable : Bool}

/-- A running program that is not stopping already takes the path that its partition has. -/
theorem State.failurePath_run (hrun : (s.part p).state = .run) (hgoing : (s.part p).prog.stopping = false) : s.failurePath p k readable =
    if (!(s.part p).hasRecord) = true then s.stopWith p fltCoreFail
    else if (s.part p).spared = true then
      if s.pool (k / 128) = [] ∧ s.drained p = true then s.enterWaitRepair p else s.setPart p { s.part p with refill := (s.part p).refill ++ [k] }
    else s.setPart p { s.part p with failing := (s.part p).failing ++ [(k, readable)] } := by
  unfold State.failurePath
  dsimp only
  rw [hrun]
  exact if_neg (by rw [hgoing]; nofun)

theorem State.failurePath_unrecorded (hrun : (s.part p).state = .run) (hgoing : (s.part p).prog.stopping = false) (hrec : (s.part p).hasRecord = false) :
    s.failurePath p k readable = s.stopWith p fltCoreFail := by
  rw [State.failurePath_run hrun hgoing, hrec] <;> rfl

variable (hrun : (s.part p).state = .run) (hgoing : (s.part p).prog.stopping = false) (hrec : (s.part p).hasRecord = true)
include hrun hgoing hrec

theorem State.failurePath_unspared (hspared : (s.part p).spared = false) :
    s.failurePath p k readable = s.setPart p { s.part p with failing := (s.part p).failing ++ [(k, readable)] } := by
  rw [State.failurePath_run hrun hgoing, hrec, hspared] <;> rfl

variable (hspared : (s.part p).spared = true)
include hspared

theorem State.failurePath_dry (hpool : s.pool (k / 128) = []) (hdrained : s.drained p = true) : s.failurePath p k readable = s.enterWaitRepair p := by
  rw [State.failurePath_run hrun hgoing, hrec, hspared]
  exact (if_neg nofun).trans ((if_pos rfl).trans (if_pos ⟨hpool, hdrained⟩))

theorem State.failurePath_refill (h : s.pool (k / 128) ≠ [] ∨ s.drained p = false) :
    s.failurePath p k readable = s.setPart p { s.part p with refill := (s.part p).refill ++ [k] } := by
  rw [State.failurePath_run hrun hgoing, hrec, hspared]
  refine (if_neg nofun).trans ((if_pos rfl).trans (if_neg fun hc => ?_))
  exact h.elim (fun h => h hc.1) fun h => by rw [hc.2] at h; cases h

end Path

theorem State.failurePath_none {s : State} {p : Nat} (k : Nat) (readable : Bool)
    (h : (s.part p).state = .free ∨ (s.part p).state = .waitRepair ∨ ((s.part p).state = .run ∧ (s.part p).prog.stopping = true)) :
    s.failurePath p k readable = s := by
  unfold State.failurePath
  dsimp only
  obtain h | h | ⟨h, hstop⟩ := h
  · rw [h]
  · rw [h]
  · rw [h]
    exact if_pos hstop

/-- What WAIT_REPAIR leaves of a partition's state. -/
theorem State.part_enterWaitRepair (s : State) (p : Nat) : let b := (s.enterWaitRepair p).part p
    b.state = .waitRepair ∧ b.failing = [] ∧ b.refill = [] ∧ b.repairing = false ∧ b.halting = false := by
  unfold State.enterWaitRepair
  dsimp only
  generalize s.rollback p = t
  generalize hu : t.setPart p { t.part p with state := .waitRepair, refill := [], failing := [], repairing := false, halting := false } = u
  have hpart : u.part p = { t.part p with state := .waitRepair, refill := [], failing := [], repairing := false, halting := false } := by
    rw [← hu]
    exact State.part_setPart_self ..
  rw [(State.event_recorded u ..).part p, hpart]
  exact ⟨rfl, rfl, rfl, rfl, rfl⟩

/-! ### Spares (R515, R516, R520) -/

/-- A spare stands at a core's coordinate, cleared. -/
def State.replaced (s : State) (k q : Nat) (rest : List Nat) (chaff : W32) : State :=
  { s with spares := sput (List.range' 128 8) s.spares (k / 128) rest, aliasMap := sput 0 s.aliasMap k (q + 1) }.setCore k
    { chaff := chaff, island := { offset := s.leanReqOf k }, sheaf := { splices := s.splicesAt (k / 128) q } }

section Replaced
variable (s : State) (k q : Nat) (rest : List Nat) (chaff : W32)

theorem State.takeSpare_of_pool (h : s.pool (k / 128) = q :: rest) : s.takeSpare k chaff = some (s.replaced k q rest chaff) := by
  unfold State.takeSpare
  rw [h] <;> rfl

theorem State.takeSpare_of_dry (h : s.pool (k / 128) = []) : s.takeSpare k chaff = none := by
  unfold State.takeSpare
  rw [h]

theorem State.pool_replaced : (s.replaced k q rest chaff).pool (k / 128) = rest := sget_sput_self ..

theorem State.position_replaced (j : Nat) : (s.replaced k q rest chaff).position j = if j = k then q else s.position j := by
  have halias : sget 0 (s.replaced k q rest chaff).aliasMap j = if j = k then q + 1 else sget 0 s.aliasMap j := sget_sput 0 s.aliasMap k (q + 1) j
  rw [State.position, halias]
  by_cases hj : j = k
  · simp [hj]
  · simp only [if_neg hj]
    rfl

theorem State.core_replaced (j : Nat) : (s.replaced k q rest chaff).core j = if j = k then
    { chaff := chaff, island := { offset := s.leanReqOf k }, sheaf := { splices := s.splicesAt (k / 128) q } } else s.core j := State.core_setCore ..

end Replaced

theorem State.takeSpare_some {s : State} {k q : Nat} {rest : List Nat} (h : s.pool (k / 128) = q :: rest) (chaff : W32) :
    ∃ t, s.takeSpare k chaff = some t ∧ t.pool (k / 128) = rest ∧ t.position k = q ∧
      t.core k = { chaff := chaff, island := { offset := s.leanReqOf k }, sheaf := { splices := s.splicesAt (k / 128) q } } ∧
      ∀ j, j ≠ k → t.core j = s.core j ∧ t.position j = s.position j := by
  refine ⟨_, s.takeSpare_of_pool k q rest chaff h, s.pool_replaced .., ?_, ?_, fun j hj => ⟨?_, ?_⟩⟩
  · rw [State.position_replaced, if_pos rfl]
  · rw [State.core_replaced, if_pos rfl]
  · rw [State.core_replaced, if_neg hj]
  · rw [State.position_replaced, if_neg hj]

section Refill
variable {s : State} {p j : Nat} {filling : List Nat} {x : BitVec 3} (rest : List (Nat × BitVec 3))

theorem State.refillFails_skips (h : s.partOf j ≠ some p ∨ (s.core j).failed = true ∨ s.causeHolds j x.toNat = false) :
    s.refillFails p filling ((j, x) :: rest) = s.refillFails p filling rest := by
  refine if_pos ?_
  rw [Bool.or_eq_true, Bool.or_eq_true, bne_iff_ne, Bool.not_eq_true', or_assoc]
  exact h

variable (hheld : s.partOf j = some p) (hlive : (s.core j).failed = false) (hcause : s.causeHolds j x.toNat = true)
include hheld hlive hcause

omit hheld hlive hcause in
theorem refillFails_meets (hheld : s.partOf j = some p) (hlive : (s.core j).failed = false) (hcause : s.causeHolds j x.toNat = true) :
    ¬(s.partOf j != some p || (s.core j).failed || !s.causeHolds j x.toNat) = true := by
  rw [hheld, hlive, hcause, bne_self_eq_false]
  nofun

theorem State.refillFails_other (h : j ∉ filling) : s.refillFails p filling ((j, x) :: rest) = (s.coreFails j x.toNat, false) :=
  (if_neg (refillFails_meets hheld hlive hcause)).trans (if_neg (List.contains_iff_mem.not.mpr h))

theorem State.refillFails_spare (h : j ∈ filling) {t : State}
    (ht : (s.event 0x0002 (coordOf j) x.toNat [p]).retirePosition (j / 128) (s.position j) = t) :
    s.refillFails p filling ((j, x) :: rest) = match t.takeSpare j (s.part p).grant.chaff with
      | some u => u.refillFails p filling rest
      | none => (t.setCore j { t.core j with failed := true }, false) := by
  have hgrant : (t.part p).grant = (s.part p).grant := by
    have hpart : t.part p = (s.event 0x0002 (coordOf j) x.toNat [p]).part p := by rw [← ht] <;> rfl
    rw [hpart, (State.event_recorded s ..).part p]
  refine (if_neg (refillFails_meets hheld hlive hcause)).trans ((if_pos (List.contains_iff_mem.mpr h)).trans ?_)
  have hspare : s.spareFails p j x.toNat = match t.takeSpare j (s.part p).grant.chaff with
      | some u => (u, true)
      | none => (t.setCore j { t.core j with failed := true }, false) := by
    rw [← hgrant, ← ht]
    rfl
  rw [hspare]
  cases t.takeSpare j (s.part p).grant.chaff <;> rfl

end Refill

/-! ### SUBSTITUTION (R515, R517, R520, R521, R543 to R546) -/

theorem State.restoreOwn_eq (s : State) (p : Nat) (work : RefillWork) (cur : CursorArg) :
    s.restoreOwn p work cur = match (if (s.part p).sec.dest = true then work.fabric else none) with
      | some g => .error (fabCode g)
      | none =>
        let u := (s.part p).cores.foldl (fun v j => v.abandon j) s
        (u.restore p (s.part p).prog.nctx (u.ownSlots p) cur).map fun x => x.1 := rfl

section Substitution
variable {s : State} {p k : Nat} {work : RefillWork}

theorem exec_substitution_ignored (h : s.partOf k = none ∨ (s.partOf k = some p ∧ k ∉ (s.part p).refill)) :
    exec (.substitution { core := k, work := work }) s = .next s := by
  change execSubstitution { core := k, work := work } s = _
  unfold execSubstitution
  obtain h | ⟨h, hno⟩ := h
  · rw [h]
  · rw [h]
    refine if_pos ?_
    rw [Bool.or_eq_true, Bool.not_eq_true', ← Bool.not_eq_true, List.contains_iff_mem]
    exact .inl hno

theorem State.drained_iff : s.drained p = true ↔ ∀ j ∈ (s.part p).cores, ∀ o ∈ (s.core j).ops, o.blocked = true := by
  simp only [State.drained, List.all_eq_true]

theorem exec_substitution_waits (hheld : s.partOf k = some p) (hdrained : s.drained p = false) :
    exec (.substitution { core := k, work := work }) s = .next s := by
  change execSubstitution { core := k, work := work } s = _
  unfold execSubstitution
  rw [hheld]
  refine if_pos ?_
  rw [hdrained, Bool.not_false, Bool.or_true]

variable (hheld : s.partOf k = some p) (hrefill : k ∈ (s.part p).refill) (hdrained : s.drained p = true)
include hheld hrefill hdrained

/-- The substitution that is due: a spare, then the fills, then the return to the latest record. -/
theorem exec_substitution_due : exec (.substitution { core := k, work := work }) s =
    match (s.rollback p).takeSpare k (s.part p).grant.chaff with
    | none => .next ((s.rollback p).enterWaitRepair p)
    | some t =>
      match t.refillFails p [k] work.fails with
      | (t, false) => .next (t.enterWaitRepair p)
      | (t, true) =>
        match t.restoreOwn p work { en := false, force := false, value := 0 } with
        | .error f => .next (((s.part p).cores.foldl (fun t j => t.abandon j) t).stopEnd p fltCoreFail f)
        | .ok t => .next ((t.setPart p { t.part p with refill := (t.part p).refill.filter (· != k) }).event 0x0004 (coordOf k) (t.pool (k / 128)).length [p]) := by
  change execSubstitution { core := k, work := work } s = _
  unfold execSubstitution
  rw [hheld]
  refine (if_neg ?_).trans rfl
  rw [hdrained, List.contains_iff_mem.mpr hrefill]
  nofun

theorem exec_substitution_dry (h : (s.rollback p).takeSpare k (s.part p).grant.chaff = none) :
    exec (.substitution { core := k, work := work }) s = .next ((s.rollback p).enterWaitRepair p) := by
  rw [exec_substitution_due hheld hrefill hdrained, h]

variable {u v : State} (hu : (s.rollback p).takeSpare k (s.part p).grant.chaff = some u)
include hu

theorem exec_substitution_fails (hv : u.refillFails p [k] work.fails = (v, false)) :
    exec (.substitution { core := k, work := work }) s = .next (v.enterWaitRepair p) := by
  rw [exec_substitution_due hheld hrefill hdrained, hu]
  dsimp only
  rw [hv]

theorem exec_substitution_restores (hv : u.refillFails p [k] work.fails = (v, true)) :
    exec (.substitution { core := k, work := work }) s = match v.restoreOwn p work { en := false, force := false, value := 0 } with
      | .error g => .next (((s.part p).cores.foldl (fun v j => v.abandon j) v).stopEnd p fltCoreFail g)
      | .ok x => .next ((x.setPart p { x.part p with refill := (x.part p).refill.filter (· != k) }).event 0x0004 (coordOf k)
          (x.pool (k / 128)).length [p]) := by
  rw [exec_substitution_due hheld hrefill hdrained, hu]
  dsimp only
  rw [hv]

end Substitution

/-! ### REPAIR (R517, R521, R523) and the two timeouts (R522, R531) -/

/-- The failed cores of a partition. -/
def State.failedOf (t : State) (p : Nat) : List Nat := (t.part p).cores.filter fun j => (t.core j).failed

/-- A die's pool is too small for the failed cores. -/
def State.short (t : State) (p : Nat) : Prop := ∃ d, d < 4 ∧ (t.pool d).length < ((t.failedOf p).filter fun j => j / 128 == d).length

theorem State.short_iff (t : State) (p : Nat) :
    ((List.range 4).any fun d => decide ((t.pool d).length < ((t.failedOf p).filter (· / 128 == d)).length)) = true ↔ t.short p := by
  simp only [State.short, List.any_eq_true, List.mem_range, decide_eq_true_eq]

section Repair
variable {p : Nat} {e : Entry} {s : State} {work : RefillWork} (h : s.Passes (.cmd p) 0x1D e repairBody) {t : State} (ht : s.husked (.cmd p) e = t)
include h ht

theorem exec_repair_notWaiting (hstate : (t.part p).state ≠ .waitRepair) : exec (.repair p e work) s = s.critFails (.cmd p) e t fltPartState := by
  subst ht
  change execRepair p e work s = _
  exact critCmd_of_fail h (if_pos hstate)

variable (hstate : (t.part p).state = .waitRepair)
include hstate

theorem exec_repair_halted (hhalt : t.health.halted = true) : exec (.repair p e work) s = s.critFails (.cmd p) e t fltHealthHalt := by
  subst ht
  change execRepair p e work s = _
  exact critCmd_of_fail h ((if_neg (not_not.mpr hstate)).trans (if_pos hhalt))

variable (hhalt : t.health.halted = false)
include hhalt

theorem exec_repair_short (hshort : t.short p) : exec (.repair p e work) s = s.critFails (.cmd p) e t fltNoSpare := by
  subst ht
  change execRepair p e work s = _
  exact critCmd_of_fail h ((if_neg (not_not.mpr hstate)).trans ((if_neg (Bool.eq_false_iff.mp hhalt)).trans (if_pos ((State.short_iff _ _).mpr hshort))))

variable (hroom : ¬t.short p) {u : State} (hu : (t.failedOf p).foldl (fun v j => (v.takeSpare j (t.part p).grant.chaff).getD v) t = u) {v : State}
include hroom hu

theorem exec_repair_fails (hv : u.refillFails p (t.failedOf p) work.fails = (v, false)) :
    exec (.repair p e work) s = s.critFails (.cmd p) e v fltCoreFail := by
  change execRepair p e work s = _
  refine critCmd_of_fail h ?_
  rw [ht]
  refine (if_neg (not_not.mpr hstate)).trans ((if_neg (Bool.eq_false_iff.mp hhalt)).trans ((if_neg ((State.short_iff _ _).not.mpr hroom)).trans ?_))
  change (match ((t.failedOf p).foldl (fun v j => (v.takeSpare j (t.part p).grant.chaff).getD v) t).refillFails p (t.failedOf p) work.fails with
    | (_, false) => _ | (_, true) => _) = _
  rw [hu, hv]

theorem exec_repair_unrestored (hv : u.refillFails p (t.failedOf p) work.fails = (v, true)) {g : FaultCode} (hg : v.restoreOwn p work
    { en := decide (eBits e 0x08 0 1 = 1), force := decide (eBits e 0x08 1 1 = 1), value := eBits e 0x10 0 64 } = .error g) :
    exec (.repair p e work) s = s.critFails (.cmd p) e v g := by
  change execRepair p e work s = _
  refine critCmd_of_fail h ?_
  rw [ht]
  refine (if_neg (not_not.mpr hstate)).trans ((if_neg (Bool.eq_false_iff.mp hhalt)).trans ((if_neg ((State.short_iff _ _).not.mpr hroom)).trans ?_))
  change (match ((t.failedOf p).foldl (fun v j => (v.takeSpare j (t.part p).grant.chaff).getD v) t).refillFails p (t.failedOf p) work.fails with
    | (_, false) => _ | (_, true) => _) = _
  rw [hu, hv]
  dsimp only
  rw [hg]

theorem exec_repair_restored (hv : u.refillFails p (t.failedOf p) work.fails = (v, true)) {x : State} (hx : v.restoreOwn p work
    { en := decide (eBits e 0x08 0 1 = 1), force := decide (eBits e 0x08 1 1 = 1), value := eBits e 0x10 0 64 } = .ok x) :
    exec (.repair p e work) s = s.critIsDone (.cmd p) e (x.setPart p { x.part p with state := .run }) 0 := by
  change execRepair p e work s = _
  refine critCmd_of_done h ?_
  rw [ht]
  refine (if_neg (not_not.mpr hstate)).trans ((if_neg (Bool.eq_false_iff.mp hhalt)).trans ((if_neg ((State.short_iff _ _).not.mpr hroom)).trans ?_))
  change (match ((t.failedOf p).foldl (fun v j => (v.takeSpare j (t.part p).grant.chaff).getD v) t).refillFails p (t.failedOf p) work.fails with
    | (_, false) => _ | (_, true) => _) = _
  rw [hu, hv]
  dsimp only
  rw [hx]

end Repair

theorem exec_repairWaitTimeout_ignored {s : State} {p : Nat} (h : (s.part p).state ≠ .run ∨ (s.part p).failing = []) :
    exec (.repairWaitTimeout p) s = .next s := if_neg fun hc => h.elim (fun h => h hc.1) fun h => hc.2 h

theorem exec_repairWaitTimeout_waits {s : State} {p : Nat} (hrun : (s.part p).state = .run) (hfail : (s.part p).failing ≠ []) :
    exec (.repairWaitTimeout p) s = .next (if s.quiet p = true then s.enterWaitRepair p else s.setPart p { s.part p with repairing := true }) := by
  rw [apply_ite Host.Outcome.next]
  exact if_pos ⟨hrun, hfail⟩

theorem exec_haltWaitTimeout (s : State) (p : Nat) : exec (.haltWaitTimeout p) s = .next (if (s.part p).state = .run ∧ (s.part p).halting = true
    then s.setPart p { s.part p with halting := false, failing := [], refill := [], repairing := false,
                                     prog := { (s.part p).prog with stopping := true, endFault := fltHealthHalt } } else s) := by
  rw [apply_ite Host.Outcome.next] <;> rfl

/-- Settles O45. -/
theorem failedCoresAreReplaced : Obligations.FailedCoresAreReplaced := by
  unfold Obligations.FailedCoresAreReplaced
  intro p k e work cause s b c readable own op
  refine ⟨exec_coreFail_ignored, fun hcause hlive => ⟨exec_coreFail_unheld hcause hlive, exec_coreFail_held hcause hlive⟩,
    ⟨congrArg Core.failed (s.core_coreFails k c), s.ops_coreFails k c, s.scratch_coreFails k c, fun j => s.ids_coreFails k c, s.retired_coreFails k c,
      fun i w => s.waiters_coreFails k c⟩,
    fun hrun hgoing => ⟨State.failurePath_unrecorded hrun hgoing, fun hrec hspared => State.failurePath_dry hrun hgoing hrec hspared,
      fun hrec hspared => State.failurePath_refill hrun hgoing hrec hspared, fun hrec => State.failurePath_unspared hrun hgoing hrec⟩,
    State.failurePath_none k readable, s.part_enterWaitRepair p, fun q rest => State.takeSpare_some,
    fun filling j x rest => ⟨rfl, State.refillFails_skips rest, fun hheld hlive hcause => ⟨State.refillFails_other rest hheld hlive hcause,
      fun hin => State.refillFails_spare rest hheld hlive hcause hin rfl⟩⟩,
    fun cur => s.restoreOwn_eq p work cur, exec_substitution_ignored, fun hheld hrefill hbusy => exec_substitution_waits hheld ?_,
    fun hheld hrefill hidle => ?_, fun h => ?_, exec_repairWaitTimeout_ignored, exec_repairWaitTimeout_waits, exec_haltWaitTimeout s p⟩
  case refine_1 =>
    obtain ⟨j, hj, o, ho, hblocked⟩ := hbusy
    refine Bool.eq_false_iff.mpr fun hdrained => ?_
    rw [State.drained_iff.mp hdrained j hj o ho] at hblocked
    cases hblocked
  case refine_2 =>
    have hdrained := State.drained_iff.mpr hidle
    exact ⟨exec_substitution_dry hheld hrefill hdrained, fun u hu => ⟨fun v => exec_substitution_fails hheld hrefill hdrained hu,
      fun v => exec_substitution_restores hheld hrefill hdrained hu⟩⟩
  case refine_3 =>
    refine ⟨exec_repair_notWaiting h rfl, exec_repair_halted h rfl, exec_repair_short h rfl, fun hstate hhalt hroom =>
      ⟨fun v => exec_repair_fails h rfl hstate hhalt hroom rfl, fun v hv => ?_⟩⟩
    split
    · next g hg => exact exec_repair_unrestored h rfl hstate hhalt hroom rfl hv hg
    · next x hx => exact exec_repair_restored h rfl hstate hhalt hroom rfl hv hx

end Sys2Proof.Machine
end

section
/-! PROOFS. Start-up's stages, what a reset clears, and a port's reset (R473, R576 to R585). -/

-- One proof at a time: in parallel the many `unfold`s wait for each other, with a thread for each that waits.
set_option Elab.async false

namespace Sys2Proof.Machine
/-! ### What a reset clears and keeps (R585) -/

/-- What every reset, power failure and trip does to the state: the fuses, the on-die counter, LOCKED, the repair store and the keys stay; partitions,
cores, objects, sessions, windows and the debug level are gone. -/
def State.Restarted (s t : State) : Prop :=
  t.fuses = s.fuses ∧ t.husk.mono = s.husk.mono ∧ t.flash.repair = s.flash.repair ∧ t.parts = [] ∧ t.cores = [] ∧ t.objs = [] ∧
    t.husk.locked = s.husk.locked ∧ t.sess = [] ∧ t.fabric.wins = [] ∧ t.husk.debug = 0 ∧ t.husk.diag = false ∧
    ∀ i, (t.slot i).key = (s.slot i).key ∧ (t.slot i).last = (s.slot i).last

theorem State.slot_cleared (s : State) (i : Nat) : s.cleared.slot i = { s.slot i with cntFail := 0, streak := 0 } :=
  sget_mapKeyed (f := fun _ (k : KeySlot) => { k with cntFail := 0, streak := 0 }) s.flash.slots i rfl

theorem State.cleared_restarted {s v : State} (h : v.sealed = s.sealed) : s.Restarted v.cleared := by
  have hfuses : v.fuses = s.fuses := State.sealed_fuses h
  have hmono : v.husk.mono = s.husk.mono := congrArg (fun x => x.2.2.mono) h
  have hlocked : v.husk.locked = s.husk.locked := congrArg (fun x => x.2.2.locked) h
  have hrepair : v.flash.repair = s.flash.repair := congrArg Flash.repair (State.sealed_flash h)
  refine ⟨hfuses, hmono, hrepair, rfl, rfl, rfl, hlocked, rfl, rfl, rfl, rfl, fun i => ?_⟩
  rw [State.slot_cleared, State.sealed_slot h]
  exact ⟨rfl, rfl⟩

theorem State.powerDown_restarted (s : State) (st : RecStatus) (f : FaultCode) (cut : Bool) : s.Restarted (s.powerDown st f cut) :=
  State.cleared_restarted (s.endEverything_sealed st f)

theorem State.moduleReset_restarted {s t : State} (h : t.sealed = s.sealed) : s.Restarted t.moduleReset :=
  State.cleared_restarted ((t.endEverything_sealed .cancelled 0).trans h)

theorem State.stage15_here {s : State} {f : FaultCode} (h : s.boot.fromPending = false ∨ f = fltBootImage) :
    s.stage15 f = { s with boot := { s.boot with stage := 15, code := f } } := by
  refine if_neg fun hc => ?_
  exact h.elim (fun h => nomatch h.symm.trans hc.1) fun h => hc.2 h

theorem State.trip_restarted {s : State} {f : FaultCode} (h : s.boot.fromPending = false) :
    s.Restarted (s.trip f) ∧ (s.trip f).boot = { s.boot with stage := 15, code := f } := by
  have htrip : s.trip f = { (s.endEverything .failed f).cleared with
      time := (s.endEverything .failed f).time, boot := { s.boot with stage := 15, code := f } } := State.stage15_here (.inl h)
  rw [htrip]
  exact ⟨State.cleared_restarted (s.endEverything_sealed .failed f), rfl⟩

/-- A boot from a pending bank that fails starts again with the other (R582). -/
theorem State.stage15_fallback {s : State} {f : FaultCode} (hpending : s.boot.fromPending = true) (hf : f ≠ fltBootImage) :
    s.Restarted (s.stage15 f) ∧ (s.stage15 f).flash.bank s.boot.bank = none ∧ (s.stage15 f).boot =
      { stage := 1, fallback := true, fallbackCode := f, pgOut := s.boot.pgOut, straps := s.boot.straps, sampled := true, partsOut := s.boot.partsOut } := by
  have hstage : s.stage15 f = { s.cleared with
      time := s.time, flash := s.cleared.flash.emptyBank s.boot.bank
      boot := { fallback := true, fallbackCode := f, pgOut := s.boot.pgOut, straps := s.boot.straps, sampled := true, partsOut := s.boot.partsOut } } :=
    if_pos ⟨hpending, hf⟩
  rw [hstage]
  obtain ⟨hfuses, hmono, hrepair, hparts, hcores, hobjs, hlocked, hsess, hwins, hdebug, hdiag, hslots⟩ := State.cleared_restarted (s := s) rfl
  cases s.boot.bank
  · exact ⟨⟨hfuses, hmono, hrepair, hparts, hcores, hobjs, hlocked, hsess, hwins, hdebug, hdiag, hslots⟩, rfl, rfl⟩
  · exact ⟨⟨hfuses, hmono, hrepair, hparts, hcores, hobjs, hlocked, hsess, hwins, hdebug, hdiag, hslots⟩, rfl, rfl⟩

/-! ### A module without power (R575, R588) -/

section Unpowered
variable {s : State} (h : s.powered = false)
include h

theorem exec_stageComplete_unpowered (w : StageWork) : exec (.stageComplete w) s = .next s := if_pos (by rw [h]; rfl)
theorem exec_stageTimeout_unpowered : exec .stageTimeout s = .next s := if_pos (by rw [h]; rfl)
theorem exec_sysReset_unpowered : exec .sysReset s = .next s := if_neg (by rw [h]; nofun)
theorem exec_powerFailure_unpowered (a : PowerCut) : exec (.powerFailure a) s = .next s := if_neg (by rw [h]; nofun)
theorem exec_railFault_unpowered : exec .railFault s = .next s := if_neg (by rw [State.railsOn, h]; nofun)

end Unpowered

/-! ### A port's reset (R473) -/

theorem writeRecord_en (v : Vectors) (c : CplRing) (r : HeldRec) (s : State) : (writeRecord v c r s).1.ring.en = c.ring.en :=
  congrArg (·.ring.en) (writeRecord_ring v c r s)

theorem drainHeld_en (v : Vectors) (held : List HeldRec) (c : CplRing) (s : State) : (drainHeld v held c s).1.ring.en = c.ring.en := by
  induction held generalizing c s with
  | nil => rfl
  | cons r rest ih =>
    rw [drainHeld]
    split
    · exact (ih _ _).trans (writeRecord_en ..)
    · rfl

/-- A partition's block but for what records and the ends of items reach: of its completion ring whether it is enabled, no counters, no streams. -/
def PartBlock.standing (b : PartBlock) : PartBlock := { b with cpl := { ring := { en := b.cpl.ring.en } }, cnt := [], streams := [] }

def State.standing (p : Nat) (s : State) : PartBlock := (s.part p).standing

theorem State.standing_setPart {s : State} {p q : Nat} {b : PartBlock} (h : b.standing = (s.part q).standing) :
    (s.setPart q b).standing p = s.standing p := by
  rw [State.standing, State.part_setPart]
  split
  · subst_vars; exact h
  · rfl

theorem State.standing_settlePart (s : State) (p q : Nat) : (s.settlePart q).standing p = s.standing p := by
  rw [State.standing, State.settlePart_part]
  split
  · subst_vars
    exact congrArg (fun en => { (s.part q) with cpl := ({ ring := { en := en } } : CplRing), cnt := [], streams := [] })
      ((drainHeld_en (s.part q).vectors (s.part q).cpl.held (s.part q).cpl s))
  · rfl

theorem State.standing_postPart (s : State) (p q : Nat) (r : HeldRec) : (s.postPart q r).standing p = s.standing p :=
  (State.standing_settlePart ..).trans (State.standing_setPart rfl)

theorem State.standing_unbind (s : State) (p q r i : Nat) : (s.unbind q r i).standing p = s.standing p := State.standing_setPart rfl

theorem State.standing_requestOver (s : State) (p r : Nat) (q : Request) : (s.requestOver r q).standing p = s.standing p :=
  (congrArg (State.standing p) (State.requestOver_frame s r q) :)

theorem State.standing_endItem (s : State) (p r i : Nat) (st : RecStatus) (f : FaultCode) : (s.endItem r i st f).standing p = s.standing p := by
  unfold State.endItem
  split
  · rfl
  dsimp only
  refine ite_keeps (π := State.standing p) rfl ?_
  refine (State.standing_postPart ..).trans ?_
  refine ite_keeps (π := State.standing p) ((State.standing_requestOver ..).trans ?_) ?_
  all_goals exact (State.standing_unbind ..).trans (iteProp_keeps (π := State.standing p) rfl rfl)

theorem State.standing_endItems (s : State) (p r : Nat) (st : RecStatus) (f : FaultCode) (sel : ItemInfo → Bool) :
    (s.endItems r st f sel).standing p = s.standing p := by
  unfold State.endItems
  split
  · rfl
  · exact foldl_keeps _ (State.standing p) (fun _ _ => ite_keeps (π := State.standing p) (State.standing_endItem ..) rfl) _ _

theorem State.standing_endAll (s : State) (p q : Nat) (st : RecStatus) (f : FaultCode) : (s.endAll q st f).standing p = s.standing p :=
  foldl_keeps _ (State.standing p) (fun _ _ => State.standing_endItems ..) _ _

/-- The records that a reset port leaves undelivered are gone, and nothing else of the block but a counter (R473). -/
theorem State.part_loseRecords (s : State) (p : Nat) : (s.loseRecords p).part p =
    { s.part p with
      cpl := { (s.part p).cpl with held := [] }, prog := { (s.part p).prog with start := none, stops := [] }, cnt := ((s.loseRecords p).part p).cnt } := by
  unfold State.loseRecords
  rw [State.part_setPart_self]
  rfl

theorem State.destroyHeld_running {s : State} {p : Nat} (h : (s.part p).state = .run) : s.destroyHeld p = s := by
  unfold State.destroyHeld
  split
  · exact if_pos h
  · rfl

/-- A running partition under its port's reset: its program stops, its rings and what its completion ring held are gone (R473). -/
theorem State.resetPort_running {s : State} {p : Nat} (hrun : (s.part p).state = .run) :
    let b := (s.resetPort p).part p
    b.prog.stopping = true ∧ b.prog.start = none ∧ b.req.en = false ∧ b.cmd.en = false ∧ b.refill = [] ∧ b.failing = [] ∧ b.cpl.ring.en = false ∧
      b.cpl.held = [] := by
  let b := s.part p
  let b' : PartBlock := { b.stop with
    req := { b.req with en := false }, cmd := { b.cmd with en := false }, cpl := { b.cpl with ring := { b.cpl.ring with en := false } } }
  let u := (s.setPart p b').endAll p .cancelled 0
  have hu : (u.part p).standing = b'.standing := (State.standing_endAll ..).trans (congrArg _ (State.part_setPart_self ..))
  have hstate : (u.part p).state = .run := (congrArg PartBlock.state hu).trans hrun
  have hwait : b.state ≠ .waitRepair := by rw [hrun]; nofun
  have hlost : ((u.loseRecords p).part p).state = .run := by rw [State.part_loseRecords]; exact hstate
  have hreset : s.resetPort p = u.loseRecords p := by
    refine Eq.trans ?_ (State.destroyHeld_running hlost)
    unfold State.resetPort
    dsimp only
    rw [if_pos hrun, if_neg hwait]
  intro c
  have hc : c = _ := (congrArg (State.part · p) hreset).trans (State.part_loseRecords u p)
  rw [hc]
  exact ⟨congrArg (·.prog.stopping) hu, rfl, congrArg (·.req.en) hu, congrArg (·.cmd.en) hu, congrArg (·.refill) hu, congrArg (·.failing) hu,
    congrArg (·.cpl.ring.en) hu, rfl⟩

section PortDown
variable {s : State} {n : Nat}

theorem State.portDown_alone (h : ∀ q ∈ s.parts, q.2.state = .free ∨ q.2.port ≠ n) (perst : Bool) : s.portDown n perst =
    s.setPort n { s.port n with
      released := (s.port n).released && !perst, masked := [], pendingVectors := [], timeoutValue := 0, d3hot := false } := by
  have hmine : (s.parts.filter fun e => e.2.state != .free && e.2.port == n) = [] := by
    refine List.filter_eq_nil_iff.2 fun q hq => ?_
    rcases h q hq with hfree | hport
    · simp [hfree]
    · simp [hport]
  unfold State.portDown
  rw [hmine]
  rfl

theorem exec_portReset_running {p : Nat} (hparts : s.parts = [(p, s.part p)]) (hrun : (s.part p).state = .run) (hport : (s.part p).port = n)
    (perst : Bool) : ∃ t, exec (.portReset { port := n, perst := perst }) s = .next t ∧
      (t.part p).prog.stopping = true ∧ (t.part p).prog.start = none ∧ (t.part p).req.en = false ∧ (t.part p).cmd.en = false ∧
      (t.part p).refill = [] ∧ (t.part p).failing = [] ∧ (t.part p).cpl.ring.en = false ∧ (t.part p).cpl.held = [] := by
  refine ⟨_, rfl, ?_⟩
  have hmine : (s.parts.filter fun e => e.2.state != .free && e.2.port == n) = [(p, s.part p)] := by
    rw [hparts]
    exact List.filter_cons_of_pos (by simp [hrun, hport])
  have hpart : (s.portDown n perst).part p = (s.resetPort p).part p := by
    unfold State.portDown
    rw [hmine]
    rfl
  rw [hpart]
  exact State.resetPort_running hrun

end PortDown

/-! ### The stages of start-up (R576 to R584) -/

/-- The stage reached (R577). -/
def State.toStage (s : State) (n : Nat) : State := { s with boot := { s.boot with stage := n } }

section Stages
variable {s : State} (hp : s.powered = true) {w : StageWork}
include hp

theorem exec_stageComplete_eq : exec (.stageComplete w) s = match s.boot.stage with
    | 1 => .next (s.strapStage w)
    | 2 => .next s.romStage
    | 3 => .next (s.toStage 4)
    | 4 => .next (s.toStage 5)
    | 5 => .next { s with boot := { s.boot with pgOut := true, stage := 6 } }
    | 6 => .next (s.memStage w)
    | 7 => .next (s.testStage w)
    | 8 => .next (s.fabricStage w.portsUp).becomeReady
    | _ => .next s :=
  (if_neg (by rw [hp]; nofun)).trans rfl

theorem exec_stageTimeout_eq : exec .stageTimeout s = match s.boot.stage with
    | 1 => .next { s with boot := { s.boot with heldOff := true } }
    | 2 => .next (s.checkStore.stage15 fltBootImage)
    | 3 => .next (s.stage15 fltRailFail)
    | 4 => .next (s.stage15 fltPllLock)
    | 5 => .next (s.stage15 fltRailFail)
    | 6 => .next (s.stage15 fltMemtrain)
    | 7 => .next (s.stage15 fltSelftest)
    | 8 => .next (s.fabricStage []).becomeReady
    | _ => .next s :=
  (if_neg (by rw [hp]; nofun)).trans rfl

theorem exec_stage_over (h : s.boot.stage = 0 ∨ 8 < s.boot.stage) : exec (.stageComplete w) s = .next s ∧ exec .stageTimeout s = .next s := by
  rw [exec_stageComplete_eq hp, exec_stageTimeout_eq hp]
  constructor
  · split
    case h_9 => rfl
    all_goals omega
  · split
    case h_9 => rfl
    all_goals omega

end Stages

/-- Straps are sampled once; one that changed before is taken as 0, and counted (R576). -/
theorem State.strapStage_sampling {s : State} (h : s.boot.sampled = false) (w : StageWork) :
    (s.strapStage w).boot = { s.boot with straps := w.straps &&& ~~~w.strapGlitch, sampled := true, stage := 2 } ∧
      s.strapStage w = { s with boot := (s.strapStage w).boot, health := (s.strapStage w).health } := by
  unfold State.strapStage
  rw [if_neg (by rw [h]; nofun)]
  dsimp only
  split
  · exact ⟨rfl, rfl⟩
  · exact ⟨rfl, rfl⟩

theorem State.strapStage_sampled {s : State} (h : s.boot.sampled = true) (w : StageWork) : s.strapStage w = s.toStage 2 := if_pos h

/-- Stage 2 with no bank that verifies (R581). -/
theorem State.romStage_none {s : State} (h : s.checkStore.resumeZeroise.makeKeyPair.chooseBank.2 = false) :
    s.romStage = s.checkStore.resumeZeroise.makeKeyPair.chooseBank.1.stage15 fltBootImage := by
  unfold State.romStage
  dsimp only
  generalize s.checkStore.resumeZeroise.makeKeyPair.chooseBank = u at h ⊢
  obtain ⟨u, ok⟩ := u
  cases ok
  · rfl
  · cases h

/-- Stage 2 with a bank booted (R581, R597). -/
theorem State.romStage_booted {s : State} (h : s.checkStore.resumeZeroise.makeKeyPair.chooseBank.2 = true) :
    let u := s.checkStore.resumeZeroise.makeKeyPair.chooseBank.1
    s.romStage = ({ u with frames := { u.frames with retired := u.flash.repair.frames } }.loadFabrec).toStage 3 := by
  unfold State.romStage
  dsimp only
  generalize s.checkStore.resumeZeroise.makeKeyPair.chooseBank = u at h ⊢
  obtain ⟨u, ok⟩ := u
  cases ok
  · cases h
  · rfl

/-- Stage 6 with every memory part trained and none left out before (R583). -/
theorem State.memStage_whole {s : State} {w : StageWork} (hbad : w.badParts = []) (hout : s.flash.repair.parts = []) :
    s.memStage w = { s with boot := { s.boot with degraded := false, stage := 7 } } := by
  have hflash : ({ s.flash with repair := { s.flash.repair with parts := [] } } : Flash) = s.flash := by rw [← hout]
  have hnew : (w.badParts.eraseDups.filter fun p => !s.flash.repair.parts.contains p) = [] := by rw [hbad]; rfl
  unfold State.memStage
  dsimp only
  rw [hnew, hout, List.append_nil, List.append_nil]
  refine (if_neg (by decide)).trans ?_
  rw [hflash]
  rfl

/-! ### Stage 7 (R584) -/

/-- What the tests and tables of stage 7 leave: the stage, and each core that is out. -/
def State.Tested (s t : State) : Prop := t.boot = s.boot ∧ ∀ c ∈ s.badCores, c ∈ t.badCores

theorem State.Tested.refl (s : State) : s.Tested s := ⟨rfl, fun _ => id⟩
theorem State.Tested.trans {s t u : State} (h : s.Tested t) (g : t.Tested u) : s.Tested u := ⟨g.1.trans h.1, fun c hc => g.2 c (h.2 c hc)⟩

theorem State.Tested.of_same {s t : State} (hboot : t.boot = s.boot) (hfuses : t.fuses = s.fuses) (hflash : t.flash = s.flash) : s.Tested t :=
  ⟨hboot, fun c hc => by rw [State.badCores, hfuses, hflash]; exact hc⟩

theorem State.badCores_retirePosition (s : State) (die pos : Nat) : (s.retirePosition die pos).badCores = s.badCores ++ [die * 256 + pos] :=
  (List.append_assoc ..).symm

theorem State.retirePosition_tested (s : State) (die pos : Nat) : s.Tested (s.retirePosition die pos) :=
  ⟨rfl, fun c hc => by rw [State.badCores_retirePosition]; exact List.mem_append_left _ hc⟩

theorem State.testRow_tested (s : State) (r : Nat × Nat × Nat) : s.Tested (s.testRow r) := by
  unfold State.testRow
  extract_lets rows p
  split
  · exact .refl s
  split
  · exact s.retirePosition_tested ..
  · exact ⟨rfl, fun _ => id⟩

theorem State.testCore_tested (s : State) (c : Nat) : s.Tested (s.testCore c) := by
  unfold State.testCore
  split
  · exact .refl s
  · exact s.retirePosition_tested ..

/-- A core that fails its self-test is out (R584). -/
theorem State.testCore_out (s : State) (c : Nat) : c ∈ (s.testCore c).badCores := by
  unfold State.testCore
  split
  · next h => exact List.contains_iff_mem.mp h
  · rw [State.badCores_retirePosition, Nat.mul_comm, Nat.div_add_mod]
    exact List.mem_append_right _ (List.mem_singleton_self c)

theorem State.testCores_out (s : State) (cs : List Nat) {c : Nat} (hc : c ∈ cs) : c ∈ (cs.foldl (fun t c => t.testCore c) s).badCores := by
  induction cs generalizing s with
  | nil => nomatch hc
  | cons a cs ih =>
    rcases List.mem_cons.1 hc with rfl | hc
    · exact (foldl_rel State.Tested.refl .trans State.testCore_tested cs (s.testCore c)).2 c (s.testCore_out c)
    · exact ih _ hc

theorem State.fillAlias_tested (s : State) (k : Nat) : s.Tested (s.fillAlias k) := by
  unfold State.fillAlias
  split
  · unfold State.takeSpare
    split
    · exact .of_same rfl rfl rfl
    · exact .of_same rfl rfl rfl
  · exact .refl s

theorem State.loadSplices_tested (s : State) (k : Nat) : s.Tested (s.loadSplices k) := by
  unfold State.loadSplices
  extract_lets rows x
  split
  · exact .refl s
  · exact .of_same rfl rfl rfl

theorem State.loadCores_tested (s : State) : s.Tested s.loadCores := by
  unfold State.loadCores
  generalize List.range 512 = ks
  extract_lets bad t u
  have ht : s.Tested t := .of_same rfl rfl rfl
  have hu : t.Tested u := foldl_rel State.Tested.refl .trans State.fillAlias_tested _ t
  exact (ht.trans hu).trans (foldl_rel State.Tested.refl .trans State.loadSplices_tested _ u)

theorem State.Tested.toStage {s v : State} (h : s.Tested v) {cs : List Nat} (hout : ∀ c ∈ cs, c ∈ v.badCores) (n : Nat) :
    (v.toStage n).boot = { s.boot with stage := n } ∧ ∀ c ∈ cs, c ∈ (v.toStage n).badCores :=
  ⟨congrArg (fun b : Boot => { b with stage := n }) h.1, hout⟩

/-- The cores as stage 7 tests and loads them (R584). -/
theorem State.loadCores_out (s : State) (cs : List Nat) {c : Nat} (hc : c ∈ cs) : c ∈ (cs.foldl (fun t c => t.testCore c) s).loadCores.badCores :=
  (State.loadCores_tested _).2 c (s.testCores_out cs hc)

/-- Stage 7 goes on to stage 8, with each core that failed its self-test out (R584). -/
theorem State.testStage_passes {s : State} {w : StageWork} (h : w.linkFail = false) :
    (s.testStage w).boot = { s.boot with stage := 8 } ∧ ∀ c ∈ w.badCores, c ∈ (s.testStage w).badCores := by
  unfold State.testStage
  rw [if_neg (by rw [h]; nofun)]
  extract_lets t u
  have ht : s.Tested t := foldl_rel State.Tested.refl .trans State.testRow_tested _ s
  have hu : t.Tested u := (foldl_rel State.Tested.refl .trans State.testCore_tested _ t).trans (State.loadCores_tested _)
  exact (ht.trans hu).toStage (fun _ hc => t.loadCores_out _ hc) 8

/-! ### Stage 8 and READY (R450, R579, R582) -/

theorem State.route_fabricStage (s : State) (up : List Nat) {d : Nat} (hd : d < 4096) : sget 0 (s.fabricStage up).fabric.route d = s.fabric.routeOf d := by
  have hmem : d ∈ List.range 4096 := List.mem_range.2 hd
  unfold State.fabricStage
  generalize List.range 4096 = l at hmem ⊢
  exact sget_listed 0 s.fabric.routeOf l hmem

/-- What the reports of start-up leave: start-up's own block, the flash and the fabric (R579). -/
def State.started (s : State) : Boot × Flash × Fabric := (s.boot, s.flash, s.fabric)

theorem State.event_started (s : State) (code d d2 : Nat) (ps : List Nat) : (s.event code d d2 ps).started = s.started :=
  (congrArg State.started (State.event_offEvent s code d d2 ps) :)

theorem State.becomeReady_started (s : State) : s.becomeReady.started =
    ({ s.boot with stage := 9, bootMs := s.time / 1000000 % 2 ^ 32, fromPending := false, partsOut := [] },
      if s.boot.fromPending then { s.flash with active := s.boot.bank, pending := none } else s.flash, s.fabric) := by
  rw [← bits_low (s.time / 1000000) 32]
  unfold State.becomeReady
  dsimp only
  exact ite_keeps (π := State.started) ((State.event_started ..).trans (foldl_keeps _ State.started (fun _ _ => State.event_started ..) _ _))
    (foldl_keeps _ State.started (fun _ _ => State.event_started ..) _ _)

end Sys2Proof.Machine
end

section
/-! PROOFS. A zeroisation cut short, the bank choice, resets and trips (R555, R572, R577 to R593). -/

-- One proof at a time: in parallel the many `unfold`s wait for each other, with a thread for each that waits.
set_option Elab.async false

namespace Sys2Proof.Machine
/-! ### A zeroisation cut short (R572) -/

section Owing
variable {s : State} {R : State → Prop} (hR : ∀ {t}, Quiet s t → R t) {f : Owed → State → CmdRes}
include hR

theorem runCrit_owing {t : State} (ht : Quiet s t) {o : Owed} (hf : f o t = .hold ∨ ∃ u, f o t = .owes u ∧ R u) (r : RingName) (e : Entry)
    (body : List (Nat × Nat × Nat)) : Answers R (runCrit r e body o t f) := by
  unfold runCrit
  split
  · exact .next (hR (ht.ringDone ..))
  rcases hf with hhold | ⟨u, howes, hu⟩
  · rw [hhold]
    exact .next (hR ht)
  · rw [howes]
    exact .next hu

/-- A critical command whose effect owes its record, or waits, leads to what that effect does or is quiet. -/
theorem critCmd_owing (hf : ∀ o t, Quiet s t → f o t = .hold ∨ ∃ u, f o t = .owes u ∧ R u) (r : RingName) (code : Nat) (e : Entry)
    (body : List (Nat × Nat × Nat)) : Answers R (critCmd r code e body s f) := by
  have h := Quiet.refl s
  have hrun : ∀ {t : State}, Quiet s t → ∀ o, Answers R (runCrit r e body o t f) := fun ht o => runCrit_owing hR ht (hf o _ ht) r e body
  unfold critCmd
  split
  · exact (unlistedEntry_quiet ..).mono fun _ => hR
  split
  · exact .next (hR h)
  dsimp only
  split
  · split
    · exact hrun (Quiet.takeRing h.editHusk r) _
    · exact .next (hR h)
  split
  · exact .next (hR ((h.takeRing r).ringDone ..))
  split
  · exact .next (hR h.editHusk)
  split
  · exact .next (hR (((h.authRefused ..).takeRing r).ringDone ..))
  · exact hrun ((h.verify ‹_›).takeRing r) _

end Owing

/-- A LIFECYCLE to RETURN that a power failure cuts short has fused RETURN and ZEROISING, and kept what it owes (R571, R572). -/
def State.ZeroisingSet (s t : State) : Prop := t.fuses = { s.fuses with lc := .returned, zeroising := true } ∧ t.flash.zeroing ≠ none

theorem State.zeroisingCut_cases {s : State} (hz : s.fuses.zeroising = false) (n : Nat) (e : Entry) :
    s.zeroisingCut n e = s ∨ s.ZeroisingSet (s.zeroisingCut n e) := by
  unfold State.zeroisingCut
  extract_lets t
  obtain ⟨u, hu, hR⟩ : Answers (fun u => u.fuses = s.fuses ∨ s.ZeroisingSet u) t := by
    refine critCmd_owing (fun h => .inl h.fuses) (fun o v hv => ?_) ..
    dsimp only
    split
    · exact .inr ⟨_, rfl, .inr ⟨by rw [← hv.fuses], nofun⟩⟩
    · exact .inl rfl
  rw [hu]
  rcases hR with hsame | hset
  · exact .inl (if_neg (by rw [hsame, hz]; nofun))
  · refine .inr ?_
    have hburnt : u.fuses.zeroising = true := congrArg Fuses.zeroising hset.1
    dsimp only
    rw [if_pos hburnt]
    exact hset

/-! ### Stage 2: the store, a zeroisation done again, the banks (R555, R572, R581) -/

section Rom
variable {s : State}

theorem State.checkStore_old (h : s.flash.gen < s.husk.mono) : s.checkStore.husk.locked = true := by
  unfold State.checkStore
  rw [if_pos h]
  exact (congrArg (·.husk.locked) (State.event_offEvent ..) :)

theorem State.checkStore_current (h : s.husk.mono ≤ s.flash.gen) : s.checkStore = { s with husk := { s.husk with locked := false } } :=
  if_neg (by omega)

theorem State.resumeZeroise_none (h : s.fuses.zeroising = false) : s.resumeZeroise = s := if_neg (by rw [h]; nofun)

/-- A zeroisation done: ZEROISING falls, and what it owed is owed no longer. -/
def State.zeroisingOver (z : State) : State :=
  { z with fuses := { z.fuses with zeroising := false }, flash := { z.flash with zeroing := none } }

theorem State.life_zeroisingOver (z : State) : z.zeroisingOver.life = z.life := rfl

theorem State.resumeZeroise_owed (h : s.fuses.zeroising = true) {m : Nat} {o : Owed} {old : Nat}
    (hz : s.zeroise.flash.zeroing = some (m, o, old)) :
    s.resumeZeroise = (s.zeroise.zeroisingOver.admDone m o .done 0 0).event 0x0013 s.zeroise.life.code old [] := by
  rw [← State.life_zeroisingOver]
  unfold State.resumeZeroise
  rw [if_pos h]
  generalize s.zeroise = z at hz ⊢
  dsimp only
  rw [hz] <;> rfl

/-- A bank whose image, when there is one, fails its signature or the rollback check (R581). -/
def State.BadImage (s : State) (x : Option (List Byte)) : Prop := ∀ image, x = some image →
  (s.fuses.makerKey = false ∨ Config.imageSigned image = false ∨ Config.imageSvn image < s.fuses.svnMin)

theorem State.bankOk_bad {b : Bool} (h : s.BadImage (s.flash.bank b)) : s.bankOk b = false := by
  unfold State.bankOk
  split
  · next image himage =>
    rw [State.imageSigned]
    rcases h image himage with hkey | hsigned | hsvn
    · rw [hkey]; rfl
    · rw [hsigned, Bool.and_false]; rfl
    · rw [decide_eq_false (by omega), Bool.and_false]
  · rfl

theorem Flash.bank_emptyBank (f : Flash) (b c : Bool) : (f.emptyBank c).bank b = if b = c then none else f.bank b := by
  cases b <;> cases c <;> rfl

/-- A pending bank that fails is marked empty, and with both others failing none boots (R581). -/
theorem State.chooseBank_none {c : Bool} (hpending : s.flash.pending = some c) (hsafe : s.boot.straps.toNat.testBit 3 = false)
    (hA : s.BadImage s.flash.bankA) (hB : s.BadImage s.flash.bankB) :
    s.chooseBank = ({ s with flash := s.flash.emptyBank c, boot := { s.boot with fallback := true, fallbackCode := fltBootImage } }, false) := by
  have hbad : ∀ b, s.BadImage (s.flash.bank b) := fun b => by
    cases b
    · exact hA
    · exact hB
  let t : State := { s with flash := s.flash.emptyBank c, boot := { s.boot with fallback := true, fallbackCode := fltBootImage } }
  have hempty : ∀ b, t.bankOk b = false := fun b => State.bankOk_bad (s := t) fun image himage => by
    change (s.flash.emptyBank c).bank b = _ at himage
    rw [Flash.bank_emptyBank] at himage
    split at himage
    · nomatch himage
    · exact hbad b image himage
  have hnot : ∀ {b x y : _}, t.bankOk b = false → (if t.bankOk b then x else y : State × Bool) = y := fun h => if_neg (by rw [h]; nofun)
  unfold State.chooseBank
  rw [hpending]
  dsimp only
  refine (if_neg (by rw [hsafe]; nofun)).trans ?_
  refine (if_neg (by rw [State.bankOk_bad (hbad c)]; nofun)).trans ?_
  exact (hnot (hempty _)).trans (hnot (hempty _))

end Rom

/-! ### Resets, power and trips (R585, R588, R590, R593) -/

section Powered
variable {s : State}

theorem exec_sysReset_powered (hp : s.powered = true) : exec .sysReset s = .next s.moduleReset := if_pos hp

theorem exec_moduleReset_scrap (hp : s.powered = true) (h : s.fuses.lc = .scrap) (n : Nat) :
    exec (.moduleReset n) s = .next (s.emit (.mgmt n .error)) := (if_neg (by rw [hp]; nofun)).trans (if_pos h)

theorem exec_moduleReset_powered (hp : s.powered = true) (h : s.fuses.lc ≠ .scrap) (n : Nat) :
    exec (.moduleReset n) s = .next (s.emit (.mgmt n .done)).moduleReset := (if_neg (by rw [hp]; nofun)).trans (if_neg h)

theorem exec_powerFailure_idle (hp : s.powered = true) (a : Bool) :
    exec (.powerFailure { above := a }) s = .next (s.powerDown .failed fltPowerLoss a) := if_pos hp

theorem exec_powerFailure_amid (hp : s.powered = true) (a : Bool) (m : Nat) (e : Entry) :
    exec (.powerFailure { above := a, amid := some (m, e) }) s = .next ((s.zeroisingCut m e).powerDown .failed fltPowerLoss a) := if_pos hp

theorem exec_overcurrentTrip_high (hp : s.powered = true) {amps : Nat} (h : 95 < amps) :
    exec (.overcurrentTrip amps) s = .next (s.powerDown .failed fltPowerLoss false) := if_pos ⟨hp, h⟩

theorem exec_thermalTrip_cool {die sensor : Nat} {celsius : Int} (h : celsius < 115 ∨ 16 ≤ sensor) :
    exec (.thermalTrip die sensor celsius) s = .next s := by
  refine if_neg ?_
  rintro ⟨-, hsensor, -, hhot⟩
  omega

end Powered

theorem State.fabricStage_frame (s : State) (up : List Nat) : s.fabricStage up = { s with fabric := (s.fabricStage up).fabric } := by
  unfold State.fabricStage
  generalize List.range 4096 = l
  rfl

/-- What stage 8 leaves of start-up's block, the routes and the flash (R450, R582). -/
theorem State.ready_leaves (s : State) (up : List Nat) :
    let t := (s.fabricStage up).becomeReady
    t.boot = { s.boot with stage := 9, bootMs := s.time / 1000000 % 2 ^ 32, fromPending := false, partsOut := [] } ∧
      (∀ d, d < 4096 → sget 0 t.fabric.route d = s.fabric.routeOf d) ∧
      (s.boot.fromPending = true → t.flash.active = s.boot.bank ∧ t.flash.pending = none) ∧ (s.boot.fromPending = false → t.flash = s.flash) := by
  have hroute : ∀ d, d < 4096 → sget 0 (s.fabricStage up).fabric.route d = s.fabric.routeOf d := fun d => State.route_fabricStage s up
  have hframe : s.fabricStage up = { s with fabric := (s.fabricStage up).fabric } := State.fabricStage_frame s up
  generalize s.fabricStage up = u at hroute hframe ⊢
  intro t
  have hstarted := u.becomeReady_started
  rw [congrArg State.boot hframe, congrArg State.time hframe, congrArg State.flash hframe] at hstarted
  have hboot : t.boot = { s.boot with stage := 9, bootMs := s.time / 1000000 % 2 ^ 32, fromPending := false, partsOut := [] } :=
    congrArg Prod.fst hstarted
  have hflash : t.flash = if s.boot.fromPending then { s.flash with active := s.boot.bank, pending := none } else s.flash :=
    congrArg (·.2.1) hstarted
  have hfabric : t.fabric = u.fabric := congrArg (·.2.2) hstarted
  refine ⟨hboot, fun d hd => ?_, fun h => ?_, fun h => ?_⟩
  · rw [hfabric, hroute d hd]
  · rw [hflash, if_pos h]
    exact ⟨rfl, rfl⟩
  · rw [hflash, if_neg (by rw [h]; nofun)]

section PoweredStages
variable {s : State} (hp : s.powered = true)
include hp

/-- The stages' limits (R577, R580). -/
theorem exec_stageTimeout_fails : ∀ e ∈ [(3, fltRailFail), (4, fltPllLock), (5, fltRailFail), (6, fltMemtrain), (7, fltSelftest)],
    s.boot.stage = e.1 → exec .stageTimeout s = .next (s.stage15 e.2) := by
  rintro e he hstage
  simp only [List.mem_cons, List.not_mem_nil, or_false] at he
  rcases he with rfl | rfl | rfl | rfl | rfl
  all_goals rw [exec_stageTimeout_eq hp, hstage] <;> rfl

variable {w : StageWork}

theorem exec_stageComplete_straps (h : s.boot.stage = 1) : exec (.stageComplete w) s = .next (s.strapStage w) := by
  rw [exec_stageComplete_eq hp, h] <;> rfl

theorem exec_stageComplete_rom (h : s.boot.stage = 2) : exec (.stageComplete w) s = .next s.romStage := by
  rw [exec_stageComplete_eq hp, h] <;> rfl

theorem exec_stageComplete_rails (h : s.boot.stage = 3) : exec (.stageComplete w) s = .next (s.toStage 4) := by
  rw [exec_stageComplete_eq hp, h] <;> rfl

theorem exec_stageComplete_plls (h : s.boot.stage = 4) : exec (.stageComplete w) s = .next (s.toStage 5) := by
  rw [exec_stageComplete_eq hp, h] <;> rfl

theorem exec_stageComplete_power (h : s.boot.stage = 5) :
    exec (.stageComplete w) s = .next { s with boot := { s.boot with pgOut := true, stage := 6 } } := by
  rw [exec_stageComplete_eq hp, h] <;> rfl

theorem exec_stageComplete_memory (h : s.boot.stage = 6) : exec (.stageComplete w) s = .next (s.memStage w) := by
  rw [exec_stageComplete_eq hp, h] <;> rfl

theorem exec_stageComplete_selftest (h : s.boot.stage = 7) : exec (.stageComplete w) s = .next (s.testStage w) := by
  rw [exec_stageComplete_eq hp, h] <;> rfl

theorem exec_stageComplete_links (h : s.boot.stage = 8) : exec (.stageComplete w) s = .next (s.fabricStage w.portsUp).becomeReady := by
  rw [exec_stageComplete_eq hp, h] <;> rfl

theorem exec_stageTimeout_straps (h : s.boot.stage = 1) : exec .stageTimeout s = .next { s with boot := { s.boot with heldOff := true } } := by
  rw [exec_stageTimeout_eq hp, h] <;> rfl

theorem exec_stageTimeout_rom (h : s.boot.stage = 2) : exec .stageTimeout s = .next (s.checkStore.stage15 fltBootImage) := by
  rw [exec_stageTimeout_eq hp, h] <;> rfl

theorem exec_stageTimeout_links (h : s.boot.stage = 8) : exec .stageTimeout s = .next (s.fabricStage []).becomeReady := by
  rw [exec_stageTimeout_eq hp, h] <;> rfl

end PoweredStages

/-- Settles O55, stage by stage, then through what every reset keeps (`State.Restarted`). -/
theorem startUpAndResets : Obligations.StartUpAndResets := by
  unfold Obligations.StartUpAndResets
  intro w n amps die sensor celsius level s b kept
  refine ⟨fun hp => ?_, fun hp => ?_, fun hz m e => State.zeroisingCut_cases hz m e, State.checkStore_old, State.checkStore_current,
    State.resumeZeroise_none, fun hz m o old => State.resumeZeroise_owed hz, ?_, fun f => State.stage15_here, fun f => State.stage15_fallback,
    fun hrails hpending => ?_, exec_thermalTrip_cool, ?_, fun hen => ?_, fun hen => ?_, rfl, rfl, rfl, fun hfree => ?_, ?_⟩
  · exact ⟨exec_stageComplete_unpowered hp w, exec_stageTimeout_unpowered hp, exec_sysReset_unpowered hp, exec_powerFailure_unpowered hp,
      exec_railFault_unpowered hp⟩
  · have hreset : s.Restarted (s.emit (.mgmt n .done)).moduleReset := State.moduleReset_restarted rfl
    exact ⟨fun h hs => ⟨_, exec_stageComplete_straps hp h, State.strapStage_sampling hs w⟩,
      fun h hs => (exec_stageComplete_straps hp h).trans (congrArg Host.Outcome.next (State.strapStage_sampled hs w)),
      fun h => ⟨fun hnot => (exec_stageComplete_rom hp h).trans (congrArg Host.Outcome.next (State.romStage_none hnot)),
        fun hboots => (exec_stageComplete_rom hp h).trans (congrArg Host.Outcome.next (State.romStage_booted hboots))⟩,
      exec_stageComplete_rails hp, exec_stageComplete_plls hp, exec_stageComplete_power hp,
      fun h hbad hout => (exec_stageComplete_memory hp h).trans (congrArg Host.Outcome.next (State.memStage_whole hbad hout)),
      fun h hfail => (exec_stageComplete_selftest hp h).trans (congrArg Host.Outcome.next (if_pos hfail)),
      fun h hpass => ⟨_, exec_stageComplete_selftest hp h, State.testStage_passes hpass⟩,
      fun h => ⟨_, exec_stageComplete_links hp h, s.ready_leaves w.portsUp⟩,
      exec_stage_over hp, exec_stageTimeout_straps hp, exec_stageTimeout_fails hp, exec_stageTimeout_rom hp, exec_stageTimeout_links hp,
      ⟨_, exec_sysReset_powered hp, State.moduleReset_restarted rfl, rfl⟩, fun hlc => exec_moduleReset_scrap hp hlc n,
      fun hlc => ⟨_, exec_moduleReset_powered hp hlc n, hreset, rfl⟩,
      fun a => ⟨_, exec_powerFailure_idle hp a, s.powerDown_restarted .failed fltPowerLoss a, rfl⟩, exec_powerFailure_amid hp,
      fun hamps => ⟨_, exec_overcurrentTrip_high hp hamps, s.powerDown_restarted .failed fltPowerLoss false, rfl⟩⟩
  · exact fun c hpending hsafe hA hB => State.chooseBank_none hpending hsafe hA hB
  · refine ⟨⟨_, if_pos hrails, State.trip_restarted hpending⟩, fun href => ⟨_, if_pos ⟨hrails, href⟩, State.trip_restarted hpending⟩,
      fun hsensor hgood hhot => ⟨_, if_pos ⟨hrails, hsensor, hgood, hhot⟩, State.trip_restarted hpending⟩⟩
  · exact fun h => if_pos h
  · exact ⟨_, (if_neg (by rw [hen]; nofun)).trans (if_pos rfl), State.cleared_restarted rfl, rfl⟩
  · have hkept : s.Restarted { s.cleared with boot := { heldOff := true } } := (State.cleared_restarted (s := s) (v := s) rfl :)
    exact ⟨⟨_, (if_neg (by rw [hen]; nofun)).trans (if_neg nofun), s.powerDown_restarted .cancelled 0 false, rfl⟩, _, if_pos hen, hkept, rfl⟩
  · exact ⟨fun perst => congrArg Host.Outcome.next (State.portDown_alone hfree perst), congrArg Host.Outcome.next (State.portDown_alone hfree false)⟩
  · exact fun p perst hparts hrun hport => exec_portReset_running hparts hrun hport perst

end Sys2Proof.Machine
end

section
/-! PROOFS. Management, attestation and the test port (R564 to R568, R572, R594 to R596, R622). -/

-- One proof at a time: in parallel the many `unfold`s wait for each other, with a thread for each that waits.
set_option Elab.async false

namespace Sys2Proof.Machine
/-! ### Answers of the management interfaces (R572, R594 to R596) -/

section Answers
variable {s : State}

theorem State.answer_powered (h : s.powered = true) (i : Nat) (r : Reply) : s.answer i r = s.emit (.mgmt i r) := if_pos h
theorem State.answer_unpowered (h : s.powered = false) (i : Nat) (r : Reply) : s.answer i r = s := if_neg (by rw [h]; nofun)
theorem State.spdm_scrap (h : s.fuses.lc = .scrap) (i : Nat) (r : Reply) : s.spdm i r = s := if_pos h

theorem State.spdm_powered (h : s.powered = true) (hlc : s.fuses.lc ≠ .scrap) (i : Nat) (r : Reply) : s.spdm i r = s.emit (.mgmt i r) :=
  (if_neg hlc).trans (State.answer_powered h i r)

theorem State.spdm_unpowered (h : s.powered = false) (i : Nat) (r : Reply) : s.spdm i r = s := by
  unfold State.spdm
  split
  · rfl
  · exact State.answer_unpowered h i r

/-- A module without power answers nothing (log 58). -/
theorem exec_management_unpowered (h : s.powered = false) (i n : Nat) (req chunk : List Byte) (pec : Bool) (eid : Byte) (record : BitVec 128)
    (a b : Bool) :
    ∀ c ∈ [Instr.mctpControl i { bytes := req, pecOk := pec }, .setEventReceiver i eid, .pldmSensorRead i n, .pldmBaseRequest i req,
      .fabrecWrite i record, .fwRecover i chunk a b, .getVersion i, .getCapabilities i, .negotiateAlgorithms i a b, .getDigests i],
      exec c s = .next s := by
  have hoff : (!s.powered) = true := by rw [h]; rfl
  have hanswer : ∀ r, (.next (s.answer i r) : Host.Outcome State Fault Refusal) = .next s := fun r => congrArg _ (State.answer_unpowered h i r)
  have hspdm : ∀ r, (.next (s.spdm i r) : Host.Outcome State Fault Refusal) = .next s := fun r => congrArg _ (State.spdm_unpowered h i r)
  simp only [List.forall_mem_cons, List.not_mem_nil, false_implies, implies_true, and_true]
  exact ⟨if_pos hoff, if_neg (by rw [h]; nofun), hanswer _, hanswer _, if_pos hoff, if_pos hoff, hanswer _, hspdm _, hspdm _, hspdm _⟩

/-- The SPDM responder of a module in SCRAP answers only GET_VERSION (R572). -/
theorem exec_spdm_scrap (h : s.fuses.lc = .scrap) (i : Nat) (a b : Bool) (code : Byte) :
    ∀ c ∈ [Instr.getCapabilities i, .negotiateAlgorithms i a b, .getDigests i, .unsupportedRequest i code], exec c s = .next s := by
  have hspdm : ∀ r, (.next (s.spdm i r) : Host.Outcome State Fault Refusal) = .next s := fun r => congrArg _ (State.spdm_scrap h i r)
  simp only [List.forall_mem_cons, List.not_mem_nil, false_implies, implies_true, and_true]
  exact ⟨hspdm _, hspdm _, hspdm _, hspdm _⟩

end Answers

/-! ### Events toward the management (R595, R622) -/

section Events
variable {s : State}

theorem exec_platformEvent_sent {e : BitVec 128} {rest : List (BitVec 128)} (he : s.events = e :: rest) {i : Nat} {eid : Byte}
    (hr : s.mgmt.receiver = some (i, eid)) :
    exec .platformEventMessage s = .next ({ s with events := rest }.emit (.event i eid 0xF0#8 e)) := by
  change execPlatformEventMessage s = _
  unfold execPlatformEventMessage
  rw [he, hr] <;> rfl

theorem exec_platformEvent_none (h : s.events = [] ∨ s.mgmt.receiver = none) : exec .platformEventMessage s = .next s := by
  change execPlatformEventMessage s = _
  unfold execPlatformEventMessage
  split
  · next e rest i eid he hr => exact h.elim (fun h => nomatch h.symm.trans he) fun h => nomatch h.symm.trans hr
  · rfl

end Events

/-! ### Requests of a powered module (R564, R594 to R596) -/

section Powered
variable {s : State} (hp : s.powered = true) (i : Nat)
include hp

theorem not_unpowered : ¬ (!s.powered) = true := by rw [hp]; nofun

theorem next_answer (r : Reply) : (.next (s.answer i r) : Host.Outcome State Fault Refusal) = .next (s.emit (.mgmt i r)) :=
  congrArg _ (State.answer_powered hp i r)

theorem exec_mctpControl_spoilt (req : List Byte) : exec (.mctpControl i { bytes := req, pecOk := false }) s = .next (s.healthCount 0x224 1) :=
  (if_neg (not_unpowered hp)).trans (if_pos rfl)

theorem exec_mctpControl_plain {req : List Byte} (h : requestedEid req = none) :
    exec (.mctpControl i { bytes := req }) s = .next (s.emit (.mgmt i (.standard req))) := by
  change execMctpControl i _ s = _
  unfold execMctpControl
  dsimp only
  refine (if_neg (not_unpowered hp)).trans ((if_neg nofun).trans ?_)
  rw [h]
  exact next_answer hp i _

theorem exec_mctpControl_eid {req : List Byte} {e : Byte} (h : requestedEid req = some e) : exec (.mctpControl i { bytes := req }) s =
    .next ({ s with mgmt := { s.mgmt with eid := sput 0 s.mgmt.eid i e } }.emit (.mgmt i (.standard req))) := by
  change execMctpControl i _ s = _
  unfold execMctpControl
  dsimp only
  refine (if_neg (not_unpowered hp)).trans ((if_neg nofun).trans ?_)
  rw [h]
  exact next_answer (s := { s with mgmt := { s.mgmt with eid := sput 0 s.mgmt.eid i e } }) hp i _

theorem exec_setEventReceiver_powered (eid : Byte) : exec (.setEventReceiver i eid) s =
    .next ({ s with mgmt := { s.mgmt with receiver := some (i, eid) } }.emit (.mgmt i .done)) :=
  (if_pos hp).trans (next_answer (s := { s with mgmt := { s.mgmt with receiver := some (i, eid) } }) hp i _)

theorem exec_pldmSensorRead_powered (n : Nat) : exec (.pldmSensorRead i n) s = .next (s.emit (.mgmt i (s.pldmReading n))) := next_answer hp i _

theorem exec_fabrecWrite_open (h : s.life = .provision ∨ s.life = .fieldDiag) (record : BitVec 128) : exec (.fabrecWrite i record) s =
    .next ({ s with flash := { s.flash with fabrec := some record } }.emit (.mgmt i .done)) :=
  (if_neg (not_unpowered hp)).trans ((if_pos h).trans
    (next_answer (s := { s with flash := { s.flash with fabrec := some record } }) hp i _))

theorem exec_fabrecWrite_closed (hprov : s.life ≠ .provision) (hdiag : s.life ≠ .fieldDiag) (record : BitVec 128) :
    exec (.fabrecWrite i record) s = .next (s.emit (.mgmt i .error)) :=
  (if_neg (not_unpowered hp)).trans ((if_neg fun h => h.elim hprov hdiag).trans (next_answer hp i _))

/-! ### A recovery image (R564, R596) -/

variable (chunk : List Byte)

theorem exec_fwRecover_elsewhere (h : s.boot.stage ≠ 15 ∨ s.boot.code ≠ fltBootImage) (a b : Bool) :
    exec (.fwRecover i chunk a b) s = .next (s.emit (.mgmt i .error)) :=
  (if_neg (not_unpowered hp)).trans ((if_pos h).trans (next_answer hp i _))

variable (hstage : s.boot.stage = 15) (hcode : s.boot.code = fltBootImage)
include hstage hcode

theorem exec_fwRecover_part (b : Bool) : exec (.fwRecover i chunk false b) s =
    .next ({ s with mgmt := { s.mgmt with recover := s.mgmt.recover ++ chunk } }.emit (.mgmt i .done)) :=
  (if_neg (not_unpowered hp)).trans ((if_neg fun h => h.elim (· hstage) (· hcode)).trans ((if_neg nofun).trans
    (next_answer (s := { s with mgmt := { s.mgmt with recover := s.mgmt.recover ++ chunk } }) hp i _)))

theorem exec_fwRecover_last (b : Bool) : exec (.fwRecover i chunk true b) s = .next (s.recoverImage i (s.mgmt.recover ++ chunk) b) :=
  (if_neg (not_unpowered hp)).trans ((if_neg fun h => h.elim (· hstage) (· hcode)).trans (if_pos rfl))

omit hstage hcode in
/-- The image, in bank A and active, once it passes signature and rollback (R564). -/
theorem State.recoverImage_powered (image : List Byte) :
    let t := { s with mgmt := { s.mgmt with recover := [] } }
    let bad := s.fuses.makerKey = false ∨ Config.imageSigned image = false ∨ Config.imageSvn image < s.fuses.svnMin
    ∃ u : State, s.recoverImage i image true = (if bad then t.emit (.mgmt i .error) else u.emit (.mgmt i .done)) ∧
      u = { t with flash := u.flash } ∧ u.flash.bankA = some image ∧ u.flash.active = false ∧ u.flash.bankB = s.flash.bankB := by
  intro t bad
  let u : State := { t with flash := { t.flash.emptyBank false with bankA := some image, active := false } }
  have hbad : (t.imageSigned image = false ∨ Config.imageSvn image < t.fuses.svnMin) ↔ bad := by
    change ((s.fuses.makerKey && Config.imageSigned image) = false ∨ _) ↔ _
    rw [Bool.and_eq_false_iff, or_assoc]
  refine ⟨u, ?_, rfl, rfl, rfl, rfl⟩
  unfold State.recoverImage
  dsimp only
  by_cases h : bad
  · rw [if_pos h]
    exact (if_pos (hbad.2 h)).trans (State.answer_powered (s := t) hp i _)
  · rw [if_neg h]
    exact (if_neg fun hc => h (hbad.1 hc)).trans ((if_neg nofun).trans (State.answer_powered (s := u) hp i _))

end Powered

/-! ### SPDM (R565, R566) -/

section Spdm
variable {s : State} (hp : s.powered = true) (hlc : s.fuses.lc ≠ .scrap) (i : Nat)
include hp hlc

theorem next_spdm (r : Reply) : (.next (s.spdm i r) : Host.Outcome State Fault Refusal) = .next (s.emit (.mgmt i r)) :=
  congrArg _ (State.spdm_powered hp hlc i r)

theorem next_spdm_signed (r : Reply) : (.next (({ s with freeCtr := s.freeCtr + 1 } : State).spdm i r) : Host.Outcome State Fault Refusal) =
    .next ({ s with freeCtr := s.freeCtr + 1 }.emit (.mgmt i r)) := next_spdm (s := { s with freeCtr := s.freeCtr + 1 }) hp hlc i r

theorem exec_getCertificate_beyond {slot off : Nat} (h : slot ≠ 0 ∨ Config.certificateChain.length < off) (len : Nat) :
    exec (.getCertificate i slot off len) s = .next (s.emit (.mgmt i .invalidRequest)) := (if_pos h).trans (next_spdm hp hlc i _)

theorem exec_getCertificate_within {off : Nat} (h : off ≤ Config.certificateChain.length) (len : Nat) :
    exec (.getCertificate i 0 off len) s = .next (s.emit (.mgmt i (.certificate ((Config.certificateChain.drop off).take len)
      (Config.certificateChain.length - off - min len (Config.certificateChain.length - off))))) := by
  have hlen : ((Config.certificateChain.drop off).take len).length = min len (Config.certificateChain.length - off) := by
    rw [List.length_take, List.length_drop]
  rw [← hlen]
  exact (if_neg fun hc => hc.elim (· rfl) (by omega)).trans (next_spdm hp hlc i _)

theorem exec_challenge_other {slot : Nat} (h : slot ≠ 0) (nonce : BitVec 256) :
    exec (.challenge i slot nonce) s = .next (s.emit (.mgmt i .invalidRequest)) := (if_pos h).trans (next_spdm hp hlc i _)

theorem exec_challenge_signed (nonce : BitVec 256) : exec (.challenge i 0 nonce) s = .next ({ s with freeCtr := s.freeCtr + 1 }.emit
    (.mgmt i (.challengeAuth (Config.deviceSign (leBytes 8 s.freeCtr ++ leBytes 32 nonce.toNat))))) := by
  change execChallenge i 0 nonce s = _
  unfold execChallenge
  exact (if_neg (not_not_intro rfl)).trans (next_spdm_signed hp hlc i (.challengeAuth (Config.deviceSign (leBytes 8 s.freeCtr ++ leBytes 32 nonce.toNat))))

theorem exec_getMeasurements_beyond {n : Nat} (h : 6 < n) (hall : n ≠ 0xFF) (a : Bool) (nonce : BitVec 256) :
    exec (.getMeasurements i n a nonce) s = .next (s.emit (.mgmt i .invalidRequest)) := (if_pos ⟨h, hall⟩).trans (next_spdm hp hlc i _)

/-- One measurement (R566). -/
theorem exec_getMeasurements_one {n : Nat} (hlo : 1 ≤ n) (hhi : n ≤ 6) (nonce : BitVec 256) :
    exec (.getMeasurements i n false nonce) s = .next (s.emit (.mgmt i (.measurements [(n, s.measure n)] 6 none))) ∧
      exec (.getMeasurements i n true nonce) s = .next ({ s with freeCtr := s.freeCtr + 1 }.emit (.mgmt i (.measurements [(n, s.measure n)] 6
        (some (Config.deviceSign (leBytes 8 s.freeCtr ++ (leBytes 32 nonce.toNat ++ s.measure n))))))) := by
  have hone : (if n = 0 then [] else if n = 0xFF then List.range' 1 6 else [n]) = [n] := by
    rw [if_neg (by omega), if_neg (by omega)]
  have hbytes : [(n, s.measure n)].flatMap (·.2) = s.measure n := List.append_nil _
  constructor
  · change execGetMeasurements i n false nonce s = _
    unfold execGetMeasurements
    dsimp only
    rw [hone]
    exact (if_neg (by omega)).trans ((if_neg nofun).trans (next_spdm hp hlc i _))
  · change execGetMeasurements i n true nonce s = _
    unfold execGetMeasurements
    dsimp only
    rw [hone, List.map_singleton, hbytes]
    exact (if_neg (by omega)).trans ((if_pos rfl).trans (next_spdm_signed hp hlc i (.measurements [(n, s.measure n)] 6
      (some (Config.deviceSign (leBytes 8 s.freeCtr ++ (leBytes 32 nonce.toNat ++ s.measure n)))))))

/-- All six measurements (R566). -/
theorem exec_getMeasurements_all (nonce : BitVec 256) : exec (.getMeasurements i 0xFF false nonce) s =
    .next (s.emit (.mgmt i (.measurements ((List.range' 1 6).map fun m => (m, s.measure m)) 6 none))) := by
  change execGetMeasurements i 0xFF false nonce s = _
  unfold execGetMeasurements
  dsimp only
  exact (if_neg (by omega)).trans ((if_neg nofun).trans (next_spdm hp hlc i _))

end Spdm

/-! ### The test port (R568) -/

section TestPort
variable {s : State}

/-- What level 1 asks of the lifecycle state and the debug level (R568). -/
def State.Level1 (s : State) : Prop := (s.life = .fieldDiag ∧ s.husk.debug = 1) ∨ ((s.life = .makerTest ∨ s.life = .returned) ∧ s.husk.debug = 2)

theorem State.level1_iff : ((s.life == .fieldDiag && s.husk.debug == 1) || ((s.life == .makerTest || s.life == .returned) && s.husk.debug == 2)) = true ↔
    s.Level1 := by
  simp only [State.Level1, Bool.or_eq_true, Bool.and_eq_true, beq_iff_eq]

theorem State.testAllowed_mandatory : s.testAllowed .mandatory = true ↔ s.life ≠ .scrap := bne_iff_ne

theorem State.testAllowed_fuseRead : s.testAllowed .fuseRead = true ↔ (s.life = .makerTest ∨ s.life = .returned) ∧ s.husk.debug = 2 := by
  change (((s.life == .makerTest || s.life == .returned) && s.husk.debug == 2) = true) ↔ _
  simp only [Bool.or_eq_true, Bool.and_eq_true, beq_iff_eq]

end TestPort

/-- Settles O56, interface by interface. -/
theorem managementAndAttestation : Obligations.ManagementAndAttestation := by
  unfold Obligations.ManagementAndAttestation
  intro i n slot off len pec req chunk eid code record nonce a b op s out chain
  refine ⟨fun hp => exec_management_unpowered hp i n req chunk pec eid record a b,
    ⟨rfl, rfl, fun hp => exec_mctpControl_spoilt hp i req⟩, fun e rest he hr => exec_platformEvent_sent he hr, exec_platformEvent_none, fun hp => ?_,
    fun hlc => exec_spdm_scrap hlc i a b code, fun h => if_neg (by rw [h]; nofun), fun h => if_pos h,
    ⟨rfl, rfl, State.testAllowed_mandatory, State.level1_iff, State.level1_iff, State.testAllowed_fuseRead⟩, rfl⟩
  have hread : ∀ m r, s.pldmReading m = r → exec (.pldmSensorRead i m) s = out r := fun m r hr => by
    rw [exec_pldmSensorRead_powered hp, hr]
  refine ⟨exec_mctpControl_plain hp i, fun e => exec_mctpControl_eid hp i, exec_setEventReceiver_powered hp i eid, fun hn => hread _ _ (if_pos hn),
    hread _ _ rfl, fun hn => hread _ _ ?_, next_answer hp i _, fun hlife => exec_fabrecWrite_open hp i hlife record,
    fun hprov hdiag => exec_fabrecWrite_closed hp i hprov hdiag record, fun h => exec_fwRecover_elsewhere hp i chunk h a b,
    fun hstage hcode => ⟨exec_fwRecover_part hp i chunk hstage hcode b, ?_⟩, next_answer hp i _, fun hlc => ?_⟩
  · rw [State.pldmReading, if_neg (by omega), if_neg (by omega), if_pos (by omega), Nat.add_sub_cancel_left]
  · obtain ⟨u, hu, hframe⟩ := State.recoverImage_powered hp i (s.mgmt.recover ++ chunk)
    exact ⟨u, (exec_fwRecover_last hp i chunk hstage hcode true).trans (congrArg Host.Outcome.next hu), hframe⟩
  · exact ⟨next_spdm hp hlc i _, next_spdm hp hlc i _, next_spdm hp hlc i _, next_spdm hp hlc i _, fun h => exec_getCertificate_beyond hp hlc i h len,
      fun h => exec_getCertificate_within hp hlc i h len, fun h => exec_challenge_other hp hlc i h nonce, exec_challenge_signed hp hlc i nonce,
      fun h hall => exec_getMeasurements_beyond hp hlc i h hall a nonce, fun hlo hhi => exec_getMeasurements_one hp hlc i hlo hhi nonce,
      exec_getMeasurements_all hp hlc i nonce⟩

end Sys2Proof.Machine
end
